-- ==== Sys2Proof/Word.lean ====
section
/-! DEFINITION. The word types of the block and their plainest arithmetic. -/

namespace Sys2Proof

/-- A register is 32 bits wide (R9). -/
abbrev Word := BitVec 32

/-- One byte of memory, of a descriptor or of a record. -/
abbrev Byte := BitVec 8

end Sys2Proof
end

