-- ==== Sys2Proof/Syntax.lean ====
section
/-! DEFINITION. The commands and events of the block, one constructor per row of spec/opcode_table.json, with their operands. -/

namespace Sys2Proof

/-- Who may send a request: the safety port, Acholt, a physical function or a virtual function (R80, R82). -/
inductive Fn where
  | sp0
  | acholt
  | pf (p : Fin 2)
  | vf (v : Fin 64)
deriving DecidableEq, Repr, Inhabited

/-- The owner code, which is also the MID (R80, R84). -/
def Fn.code : Fn → Nat
  | .sp0 => 0x01
  | .acholt => 0x02
  | .pf p => 0x04 + p.val
  | .vf v => 0x10 + v.val

/-- The function of an owner code. -/
def Fn.ofCode (c : Nat) : Option Fn :=
  if c = 1 then some .sp0 else if c = 2 then some .acholt
  else if h : 4 ≤ c ∧ c < 6 then some (.pf ⟨c - 4, by omega⟩)
  else if h : 0x10 ≤ c ∧ c < 0x50 then some (.vf ⟨c - 0x10, by omega⟩)
  else none

/-- The work on whose behalf an engine reaches device or host memory (R81, R89). -/
inductive Work where
  | layer (out : Fin 12) (slot : Fin 384)
  | canopy (out : Fin 12)
  | writeback (out : Fin 12)
  | ingest (c : Fin 16)
  | warp (e : Fin 2)
  | graphics (ctx : Fin 128)
  | copy (e : Fin 4) (ch : Fin 16)
  | touch (e : Fin 4)
  | haptic (c : Fin 8)
  | audio (stream : Fin 12)
  | queue (f : Fn) (q : Fin 8)
  | fetch (f : Fn) (q : Fin 8)
  | agent
  | helper
deriving DecidableEq, Repr, Inhabited

/-- The number of the requester that issues accesses for a piece of work (R55, log entry 122): the compositor of an output, its Canopy fetch and
its writeback, a stream or graphics context, an engine, a stream or a queue. -/
def Work.unit : Work → Nat
  | .layer n _ => n.val
  | .canopy n => 0x10 + n.val
  | .writeback n => 0x20 + n.val
  | .ingest c => 0x30 + c.val
  | .warp e => 0x40 + e.val
  | .copy e _ => 0x44 + e.val
  | .touch e => 0x48 + e.val
  | .haptic c => 0x50 + c.val
  | .audio n => 0x60 + n.val
  | .agent => 0x70
  | .helper => 0x72
  | .graphics g => 0x80 + g.val
  | .queue f q => 0x400 + 8 * f.code + q.val
  | .fetch f q => 0x800 + 8 * f.code + q.val

/-- The walker, the migration helper, the Convoy ports and the host ports as requesters (R55, R65). -/
def unitWalker : Nat := 0x71

def unitHelper : Nat := 0x72

def unitHost (p : Nat) : Nat := 0x7C + p

def unitPeer (k : Nat) : Nat := 0x78 + k

/-- What the error-correcting code finds in one 64-bit word of a read (R62, R642). -/
inductive Ecc where
  | clean | corrected | uncorrectable
deriving DecidableEq, Repr, Inhabited

/-- One access of up to 64 bytes inside one 64-byte line (R54, R88): `data` holds the bytes of a write; `len` the bytes of a read; `ns` is the time
from its request to its grant, or to its data from LPDDR5X (R494); `ecc` is what the code finds in the words that a read touches, in order of
their addresses, a word beyond the list being clean. -/
structure Access where
  work : Work
  write : Bool
  addr : Nat
  len : Nat
  data : List Byte
  ecc : List Ecc
  ns : Nat
deriving DecidableEq, Repr, Inhabited

/-- A requester that asks for the same bank in the same round: its master class, its MID, its number and its world (R55, R110). -/
structure Rival where
  cls : Nat
  mid : Nat
  unit : Nat
  sec : Bool
deriving DecidableEq, Repr, Inhabited

/-- The outcome of a request to host memory (R121). -/
inductive HostResult where
  | ok (data : List Byte)
  | unsupportedRequest
  | completerAbort
  | poisoned
deriving DecidableEq, Repr, Inhabited

/-- What a Convoy peer's stream context supplies to a slot that a remote binding of KIND 1 ties to it (R541). -/
structure PeerView where
  slot : Fin 384
  lineLocked : Bool
  fmt : Nat
  stride : Nat
  chroma : Nat
  width : Nat
  height : Nat
  base : Option Nat
deriving DecidableEq, Repr, Inhabited

/-- Bytes that host memory or a Convoy peer returned for a layer's line: the slot, the first address and the bytes (R176, R542). -/
structure RemoteBytes where
  slot : Fin 384
  addr : Nat
  data : List Byte
deriving DecidableEq, Repr, Inhabited

/-- JTAG instructions (R108, R109): `haltAcholt` and `haltNormal` halt with true and let go on with false. -/
inductive JtagInstr where
  | idcode | bypass | extest | intest | memoryAccess | inspectSecure | traceSecure | traceNormal | stepNormal | other
  | haltAcholt (on : Bool)
  | haltNormal (on : Bool)
deriving DecidableEq, Repr, Inhabited

/-- How a side-channel transaction is answered (R293). -/
inductive SideReply where
  | ack (data : List Byte)
  | nack
  | defer
  | timeout
deriving DecidableEq, Repr, Inhabited

/-- A camera line as it arrives (R305, R312): one value per pixel (a luma or RAW sample, or the RGB word of the data type), the Cb, Cr
pairs it carries, the virtual channel and data type of its packet, and what the receiver finds: a header corrected or uncorrectable, and the CRC. -/
structure VideoLine where
  vc : Nat
  dt : Nat
  pixels : List Nat
  chroma : List (Nat × Nat)
  corrected : Bool
  headerOk : Bool
  crcOk : Bool
deriving DecidableEq, Repr, Inhabited

/-- A fragment that the rasteriser and the fragment shader give (R362 to R369): the draw's number in the pass, the primitive's in the draw, the pixel, the
samples covered (bit k for sample k), the winding of its primitive, the depth of each sample as binary32, and for each target the four components that the
shader gives, as 16-bit working values, or as binary16 for an FP16 target. -/
structure Frag where
  draw : Nat
  prim : Nat
  x : Nat
  y : Nat
  mask : Nat
  cw : Bool
  depth : List Nat
  colours : List (List Nat)
deriving DecidableEq, Repr, Inhabited

/-- A primitive that binning finds: for every tile that it touches, the tile's number and the entry for its list (R370). -/
structure BinPrim where
  entries : List (Nat × List Byte)
deriving DecidableEq, Repr, Inhabited

/-- The fragments of one tile, whose number counts tiles from the left in rows from the top. -/
structure TileWork where
  tile : Nat
  frags : List Frag
deriving DecidableEq, Repr, Inhabited

/-- What a shader does with entry `entry` of its resource table (R367): bytes of a buffer, a texel, a sample at (u, v) in 1/256 of a texel of a level under
the sampler of another entry, magnified or not, and a pixel with the components of `Frag`. -/
inductive ResOp where
  | load (entry off n : Nat)
  | store (entry off : Nat) (data : List Byte)
  | texel (entry level x y : Nat)
  | sample (entry sampler level : Nat) (u v : Int) (magnify : Bool)
  | write (entry level x y : Nat) (colour : List Nat)
deriving DecidableEq, Repr, Inhabited

/-- An access through the resource table of a draw of the pass, or of the dispatch. -/
structure ResAccess where
  draw : Nat
  op : ResOp
deriving DecidableEq, Repr, Inhabited

/-- What the work on a logical cluster has done up to a boundary (R347): a fault of the engine; for a draw its primitives in order, and for each incremental
render the fragments of its tiles (R370, R371); for a pass that ends the tiles rendered; for a dispatch the workgroups that ended; and the accesses of the
shaders through resource tables. -/
structure GpuStep where
  fault : Bool
  prims : List BinPrim
  renders : List (List TileWork)
  tiles : List TileWork
  groups : Nat
  accs : List ResAccess
deriving DecidableEq, Repr, Inhabited

/-- The measurements of one touch scan (R388, R389): raw counts of the nodes by 40 × transmit + receive index, of the self lines and, in hover
mode, of every line measured as a self line, by line number. -/
structure ScanCounts where
  nodes : List (BitVec 16)
  selfs : List (BitVec 16)
  hover : List (BitVec 16)
deriving DecidableEq, Repr, Inhabited

/-- What the serial ports deliver for one sample (R439, R440): the raw word of each TDM port and slot by 16 × port + slot, and the decimated
graph sample of each PDM port's two edges, the rising one before the falling one. A rate converter has already acted on the words of an asynchronous port. -/
structure AudioIn where
  tdm : List Int
  pdm : List Int
deriving DecidableEq, Repr, Inhabited

/-- A sample of a haptic channel's sense inputs (R417): coil voltage and coil current, signed, with full scale at VS_FS_MV and IS_FS_MA (log entry 147). -/
structure HapSample where
  volts : BitVec 16
  amps : BitVec 16
deriving DecidableEq, Repr, Inhabited

/-- The registers that hold an audio owner (R443). -/
inductive AudKind where
  | source (i : Fin 96)
  | bus (b : Fin 24)
  | sink (j : Fin 64)
deriving DecidableEq, Repr

/-- What a Convoy peer answered to the requests of a copy command (R539, R540): the bytes read, and whether it refused one or the link failed. -/
structure PeerReply where
  data : List Byte
  refused : Bool
  failed : Bool
deriving DecidableEq, Repr, Inhabited

/-- What arrives from a Convoy peer: an access to device memory with the world it carries (R539); a latch that takes, or no longer shows, a stream
context's newest frame through a binding of the peer (R541); and the traffic of spanning mailbox channels (R474). -/
inductive PeerReq where
  | access (sec write : Bool) (addr len : Nat) (data : List Byte) (ecc : List Ecc) (ns : Nat)
  | view (binding : Fin 32) (cs : Option (Fin 16))
  | mail (c : Fin 64) (k : Fin 4) (data : List (BitVec 32)) (go : Nat)
  | mailEnd (c : Fin 64) (k : Fin 4) (status : Nat)
  | mailGone (c : Fin 64) (k : Fin 4)
  | mailNames (c : Fin 64) (names : Bool)
  | mailReset (c : Fin 64)
  | mailOpen (c : Fin 64) (canPop : Bool)
deriving DecidableEq, Repr, Inhabited

/-- What the far end of a Convoy link reports as the link trains (R531, R545): its position, whether it is a member, REVISION, populated LPDDR5X in
GiB, lanes that carry data, its LTIME, and the spanning channels whose entries name this device. -/
structure PeerInfo where
  pos : Fin 4
  member : Bool
  revision : BitVec 8
  memGib : BitVec 6
  lanes : Fin 9
  ltime : Nat
  chans : List (Fin 64)
deriving DecidableEq, Repr, Inhabited

/-- What the board presents as PORST_n rises (R79, R580, R581): the straps, the LPDDR5X fitted in GiB, whether inline error protection is enabled, and
whether some thermal site stands at 120 degrees or above. -/
structure Straps where
  bootSel : Fin 4
  convoyId : Fin 4
  aphDir : BitVec 8
  gib : Nat
  ecc : Bool
  hot : Bool
deriving DecidableEq, Repr, Inhabited

/-- Sources that wake the device from DORMANT (R592). -/
inductive WakeSrc where
  | touch | alarm
  | perst (p : Fin 2)
  | sp0
  | gpio (pin : Fin 48)
deriving DecidableEq, Repr, Inhabited

/-- A configuration request (R117, R118, R121, R587, R593, R645). -/
inductive CfgReq where
  | numVfs (n : Fin 33)
  | vfEnable (on : Bool)
  | powerState (f : Fn) (d0 : Bool)
  | busMaster (f : Fn) (on : Bool)
  | pmeEnable (f : Fn) (on : Bool)
  | maxReadRequest (f : Fn) (code : Fin 8)
  | completionTimeout (f : Fn) (range : Fin 16)
  | tenBitTags (on : Bool)
  | maxPayload (f : Fn) (code : Fin 3)
  | attributes (f : Fn) (relaxed noSnoop idOrder : Bool)
  | ecrc (f : Fn) (generate check : Bool)
  | aspm (f : Fn) (l1 : Bool)
  | retrain (gen : Fin 5) (lanes : Fin 4)
  | aerStatus (f : Fn) (clear : BitVec 32)
  | readSriov
  | other
deriving DecidableEq, Repr, Inhabited

/-- The rows of the table of operations and events. -/
inductive Instr where
  /-- REGISTER_WRITE (R644): A write to a register that has no row of its own is applied field by field, under each field's access code and class. -/
  | registerWrite (who : Fn) (off : Nat) (be : BitVec 4) (val : Word)
  /-- LOW_WORD_WRITE (R10): A low-word write to a 64-bit register sets the word held for the writing function and has no other effect. -/
  | lowWordWrite (who : Fn) (off : Nat) (val : Word)
  /-- HIGH_WORD_WRITE (R10): A high-word write to a 64-bit register makes the device take the value formed with the held low word of the same function. -/
  | highWordWrite (who : Fn) (off : Nat) (val : Word)
  /-- SNAPSHOT_READ (R48): A read of a low word such as GLB_LTIME_LO captures the high word into a snapshot held for the reading function. -/
  | snapshotRead (who : Fn) (off : Nat)
  /-- RC_READ (R12): A read of an RC field returns its value and then clears it. -/
  | rcRead (who : Fn) (off : Nat)
  /-- PROBE_WINDOW (R25): At each 10 us LTIME window, Acholt launches the pace probes, and each probe reports its achievable pace for the completed window. -/
  | probeWindow (paces : List Nat)
  /-- GOVERNOR_WINDOW (R26): At each 10 us window, the pace governor compares need with probe pace and raises, holds or lowers the VDD_CORE setpoint. -/
  | governorWindow (demand margin : List Nat)
  /-- AVS_STATUS_DONE (R27): The regulator's Status reports a new voltage reached, and an enable waiting on that rise completes. -/
  | avsStatusDone
  /-- AVS_NO_ANSWER (R30): An AVSBus transaction goes unanswered; after three in a row the governor sets AVS_FAULT, raises an event and stops changing the setpoint. -/
  | avsNoAnswer
  /-- BELOW_FLOOR (R31): The voltage monitors find VDD_CORE below 0.72 V while FLOOR_HELD is 1, so the device sets BELOW_FLOOR and raises a management event. -/
  | belowFloor (mv : Nat)
  /-- COMPOSE_LINE (R35): A line compositor begins composing a line as soon as a runway line is free, fetching and blending its layers. -/
  | composeLine (n : Fin 12) (rb : List RemoteBytes)
  /-- LINE_SCAN_START (R37): The pixel domain begins scan-out of a line and compares the lines waiting ahead with LOW_MARK. -/
  | lineScanStart (n : Fin 12) (rb : List RemoteBytes) (inTime : List Bool)
  /-- LTIME_STEP (R41): LTIME advances by 26 ns or 27 ns plus the rate correction at each 38.4 MHz reference period. -/
  | ltimeStep
  /-- PTM_EXCHANGE (R44): A port runs a PTM exchange, stores the measured offset, and adjusts the rate correction and LOCKED when it is the source. -/
  | ptmExchange (p : Fin 2) (host : BitVec 64)
  /-- PTM_HOLDOVER (R45): The source port completes no valid exchange for three intervals, so the device sets HOLDOVER and LOCK_LOST and keeps the last rate. -/
  | ptmHoldover
  /-- LTIME_CARRY_STEP (R47): In DORMANT, the Thermos domain advances LTIME by one calendar period and sets CARRIED. -/
  | ltimeCarryStep
  /-- LTIME_CTRL_WRITE (R51): A write of GLB_LTIME_CTRL that changes SRC keeps the rate correction and captures a new reference offset at the next valid exchange. -/
  | ltimeCtrlWrite (who : Fn) (val : Word)
  /-- MEMORY_ACCESS (R88): An engine issues a 64-byte access, which is checked against the ownership table and then granted in its bank or memory controller. -/
  | memoryAccess (a : Access) (rivals : List Rival)
  /-- WALK_REGION (R64): Each WALK_INTERVAL_US, the walker copies a 4 KiB region into the shadow buffer, redirects accesses to it and starts a March C- test. -/
  | walkRegion (corrected : Nat) (poisoned : List Nat)
  /-- WALK_REGION_TIMEOUT (R66): The test phase has not ended REGION_TIMEOUT_US after the copy, so the walker abandons it, restores the region and counts SKIPPED. -/
  | walkRegionTimeout
  /-- WALK_TEST_END (R67): The march test of a region ends, and failing rows are mapped to spare rows before the region is restored. -/
  | walkTestEnd (failing corrected clean : List Nat)
  /-- WALK_RESTORE_LINE (R65): In one class 7 round, the walker restores one 64-byte line from the shadow buffer with fresh check bits and ends its redirect. -/
  | walkRestoreLine (rivals : List Rival)
  /-- MIGRATION_COPY_REGION (R72): The migration helper copies one 4 KiB region of the bank to BKSP at class 5. -/
  | migrationCopyRegion (corrected : Nat) (poisoned : List Nat) (rivals : List Rival)
  /-- BANK_SWAP_CUTOVER (R72): Between two rounds, the bank's range moves to BKSP, MIGRATING clears, RETIRED is set and REPLACES is written. -/
  | bankSwapCutover
  /-- OWN_ASSIGN (R92): GO of OWN_ASSIGN_CTRL starts an assignment, whose range and codes are checked before the owners change. -/
  | ownAssign (who : Fn) (val : Word)
  /-- OWN_CLR_DIRTY (R96): GO with CLR_DIRTY checks the range and clears DIRTY without changing any owner. -/
  | ownClrDirty (who : Fn) (val : Word)
  /-- OWN_ZERO_FILL_PAGE (R95): Once earlier writes to the page have completed, the device zero-fills a page of an assignment at class 5. -/
  | ownZeroFillPage
  /-- OWN_ASSIGN_UPDATE (R95): The device writes the new owner codes atomically, invalidates cached copies, waits for old accesses and sets DONE. -/
  | ownAssignUpdate
  /-- LOCK_TABLE_BOOT_LOAD (R101): At start-up, Acholt reads and verifies the lock table, initialises the ownership table, sets LOCKED and enables the host ports and SP0. -/
  | lockTableBootLoad
  /-- CE_WORLD_CHANGE (R106): A held change of a channel's world bit takes effect once the channel's transfers in flight retire. -/
  | ceWorldChange (e : Fin 4) (ch : Fin 16)
  /-- JTAG_INSTRUCTION (R109): A JTAG instruction is accepted or behaves as BYPASS according to the debug enables. -/
  | jtagInstruction (ins : JtagInstr)
  /-- JTAG_MEMORY_ACCESS (R87): A JTAG memory access with MID 0x07 is permitted or refused according to INV_S and INV_N. -/
  | jtagMemoryAccess (write : Bool) (addr len : Nat) (data : List Byte) (ecc : List Ecc)
  /-- BAR_MEMORY_ACCESS (R120): A host BAR access to device memory is checked under R87; a refused read returns 0xFF bytes and a refused write is discarded. -/
  | barMemoryAccess (who : Fn) (off : Nat) (write : Bool) (len : Nat) (data : List Byte) (ecc : List Ecc) (rivals : List Rival) (ns : Nat)
  /-- HOST_COMPLETION (R121): A completion for an engine's host-memory request arrives; an error or poison stops the operation with HOST_DMA. -/
  | hostCompletion (w : Work) (r : HostResult) (ns : Nat)
  /-- HOST_COMPLETION_TIMEOUT (R121): A host-memory request runs past the completion timeout, so the operation stops with HOST_DMA. -/
  | hostCompletionTimeout (w : Work)
  /-- SP0_READ (R122): The xSPI READ command returns data from the SP0 address space. -/
  | sp0Read (addr len : Nat) (malformed : Bool)
  /-- SP0_WRITE (R123): The xSPI WRITE command writes data to the SP0 window, the doorbell page or the PF BAR0 image, and updates WR_CRC. -/
  | sp0Write (addr : Nat) (data : List Byte) (malformed : Bool)
  /-- SP0_READ_STATUS (R124): READ_STATUS returns WR_CRC, IRQ and PROTO_ERR, and clears PROTO_ERR. -/
  | sp0ReadStatus (malformed : Bool)
  /-- SP0_ENTER_8D (R122): ENTER_8D switches SP0 to 8D-8D-8D at the end of the command. -/
  | sp0Enter8d
  /-- SP0_EXIT_8D (R122): EXIT_8D returns SP0 to 1S-1S-1S. -/
  | sp0Exit8d
  /-- DOORBELL_SQ_TAIL (R127): A doorbell write sets a submission tail, or is ignored with DB_ERR and EV034 when out of range. -/
  | doorbellSqTail (f : Fn) (q : Fin 8) (idx : Nat)
  /-- DOORBELL_CQ_HEAD (R127): A doorbell write releases completion slots up to the new completion head. -/
  | doorbellCqHead (f : Fn) (q : Fin 8) (idx : Nat)
  /-- DESCRIPTOR_FETCH (R128): The device issues a read of up to eight descriptors between head and tail. -/
  | descriptorFetch (f : Fn) (q : Fin 8)
  /-- DESCRIPTOR_DATA (R130): Descriptor data arrives, and the head advances; the first descriptor is checked and dispatched to its engine. -/
  | descriptorData (f : Fn) (q : Fin 8) (data : Option (List (List Byte))) (poisoned : Bool) (ns : Nat)
  /-- BAD_OPCODE_DESCRIPTOR (R134): A leading descriptor whose opcode lies outside its queue type's range completes with BAD_OPCODE. -/
  | badOpcodeDescriptor (f : Fn) (q : Fin 8)
  /-- COMPLETION_WRITE (R131): A completion record is written once its ring has room, and the queue may then start further descriptors. -/
  | completionWrite (f : Fn) (q : Fin 8) (poisoned : Bool)
  /-- COAL_TIMER_EXPIRE (R139): COAL_US passes since the first record not yet signalled, and the queue interrupt is sent. -/
  | coalTimerExpire (f : Fn) (q : Fin 8)
  /-- QUEUE_ENABLE (R137): A write taking ENABLE from 0 to 1 resets the ring pointers, sets the phase to 1 and clears HALTED, or is refused while ACTIVE is 1. -/
  | queueEnable (who f : Fn) (q : Fin 8) (val : Word)
  /-- QUEUE_DISABLE (R160): A write of ENABLE 0 stops fetching, while commands already fetched start and complete. -/
  | queueDisable (who f : Fn) (q : Fin 8) (val : Word)
  /-- QUEUE_ABORT (R160): A write of ABORT 1 completes every fetched command not yet started with ABORTED. -/
  | queueAbort (who f : Fn) (q : Fin 8) (val : Word)
  /-- FENCE_SIG_WRITE (R144): A high-word write to HRQ_FENCE_SIG signals the fence with the 64-bit value, if the writer has the right. -/
  | fenceSigWrite (who : Fn) (n : Fin 4096) (val : Word)
  /-- FENCE_WAIT_SATISFIED (R145): A waiting descriptor's fence reaches WAIT_VALUE, and the descriptor starts. -/
  | fenceWaitSatisfied (f : Fn) (q : Fin 8)
  /-- FENCE_TIMEOUT (R145): WAIT_MS passes before the fence is reached, so the descriptor completes with FENCE_TIMEOUT and EV037 is raised. -/
  | fenceTimeout (f : Fn) (q : Fin 8)
  /-- FENCE_OWNER_WRITE (R147): A write of HRQ_FENCE_OWNER changes a fence block's owner and zeroes its values, or is ignored with WERR. -/
  | fenceOwnerWrite (who : Fn) (b : Fin 64) (val : Word)
  /-- EVENT_PEND_CLEAR (R151): A W1C write to HRQ_EV_PEND clears pending events, except that Normal-world writes cannot clear FAULT or SP_IRQ events. -/
  | eventPendClear (who : Fn) (w : Fin 16) (val : Word)
  /-- EVENT_ROUTE_WRITE (R152): A write to HRQ_EV_ROUTE sets an event's routing under the SECURE_SRC and family rules. -/
  | eventRouteWrite (who : Fn) (k : Fin 512) (val : Word)
  /-- ENVELOPE (R155): An envelope descriptor is checked for fields, key slot, MAC and counter, and its inner command is then run. -/
  | envelope (f : Fn) (q : Fin 8)
  /-- ENVELOPE_COUNTER_PERSISTED (R156): The new slot counter reaches flash, and the accepted envelope's completion is written. -/
  | envelopeCounterPersisted (f : Fn) (q : Fin 8)
  /-- ENVELOPE_THROTTLE_EXPIRE (R157): 100 ms pass after the eighth consecutive rejection, and the throttled slot's next envelope may be taken. -/
  | envelopeThrottleExpire (slot : Fin 8)
  /-- SLOT_ASSIGN_WRITE (R167): A write of DSP_SLOT_ASSIGN records a pending owner or output change, or is ignored with WERR. -/
  | slotAssignWrite (who : Fn) (slot : Fin 384) (val : Word)
  /-- SLOT_ASSIGN_APPLY (R168): A slot assignment change takes effect: the slot is hidden and cleared, unlanded groups fail with NOT_OWNER, and its buffer is released. -/
  | slotAssignApply (slot : Fin 384)
  /-- COMMIT (R178): A COMMIT command carries a group header and layer records for one or more outputs. -/
  | commit (f : Fn) (q : Fin 8)
  /-- GROUP_VALIDATED (R183): Validation of a commit group ends with its checks passed or with the first failing status. -/
  | groupValidated (f : Fn) (q : Fin 8) (also : List (Fn × Fin 8)) (peers : List PeerView)
  /-- WAIT_FRAME (R182): WAIT_FRAME completes at the first latch at which FRAME_SEQ reaches SEQ. -/
  | waitFrame (f : Fn) (q : Fin 8)
  /-- QUERY_FRAME (R182): QUERY_FRAME completes at once with the current FRAME_SEQ and the last latch instant. -/
  | queryFrame (f : Fn) (q : Fin 8)
  /-- LATCH (R189): At an output's latch instant, FRAME_SEQ increments, assignment changes apply and ready groups are decided and landed. -/
  | latch (n : Fin 12) (also : List (Fin 12)) (peers : List PeerView)
  /-- GROUP_DECIDE_STOPPED (R191): While the anchor's TG is stopped, a group is decided and lands once its conditions hold. -/
  | groupDecideStopped (n : Fin 12)
  /-- RELEASE_FENCE_SIGNAL (R196): After a replaced record's last line leaves the runway and the landing has occurred, its release fence is signalled. -/
  | releaseFenceSignal (k : Nat)
  /-- COLOUR_SET (R224): COLOUR_SET validates and loads a colour-stage image into the output's pending table set. -/
  | colourSet (f : Fn) (q : Fin 8)
  /-- SCALER_SET (R223): SCALER_SET validates and loads a scaler coefficient table into the pending set. -/
  | scalerSet (f : Fn) (q : Fin 8)
  /-- TABLE_LOAD_DONE (R225): The load of a COLOUR_SET or SCALER_SET table ends, and the command becomes eligible to land. -/
  | tableLoadDone (f : Fn) (q : Fin 8)
  /-- WRITEBACK (R231): WRITEBACK arms the capture of one frame of an output. -/
  | writeback (f : Fn) (q : Fin 8)
  /-- WRITEBACK_DONE (R233): The last active line of a captured frame is written, and the WRITEBACK completes. -/
  | writebackDone (n : Fin 12)
  /-- LAYER_DEADLINE (R237): A line's layer deadline passes, and every layer whose data has not arrived is switched off for the frame. -/
  | layerDeadline (n : Fin 12) (late : List (Fin 384)) (canopyLate : Bool)
  /-- COMPOSITOR_SWAP (R242): At a latch, the spare compositor takes over an output's composition from line 0 of the new frame. -/
  | compositorSwap (n : Fin 12)
  /-- CANOPY_SET (R250): CANOPY_SET validates and reads the Canopy set-up and check-window table for landing. -/
  | canopySet (f : Fn) (q : Fin 8)
  /-- OUTSTAGE_SET (R252): OUTSTAGE_SET validates and reads an output-stage image for landing. -/
  | outstageSet (f : Fn) (q : Fin 8)
  /-- CANOPY_OWN (R247): CANOPY_OWN, inside an envelope, changes a Canopy's owner at its latch. -/
  | canopyOwn (f : Fn) (q : Fin 8)
  /-- CANOPY_VALIDATED (R254): Validation and read of a Canopy command end, and the command becomes eligible to land. -/
  | canopyValidated (f : Fn) (q : Fin 8)
  /-- CHECK_WINDOW_RESULT (R264): A window's last pixel is sent or its frame ends, and its result is decided as REF_FAULT, INCOMPLETE, MATCH or MISMATCH. -/
  | checkWindowResult (n : Fin 12) (w : Fin 16)
  /-- CW_INJECT_REF (R268): A Secure write of INJ_REF inverts one check bit of EXPECT, so the next comparison gives REF_FAULT. -/
  | cwInjectRef (who : Fn) (n : Fin 12) (w : Fin 16) (val : Word)
  /-- TG_ENABLE (R274): A write of ENABLE 1 takes the TG from OFF to STARTING, or from STOPPING back to RUNNING, after the timing and aggregate checks. -/
  | tgEnable (who : Fn) (n : Fin 12) (val : Word)
  /-- TG_DISABLE (R274): A write of ENABLE 0 takes the TG to STOPPING, or from STARTING to OFF. -/
  | tgDisable (who : Fn) (n : Fin 12) (val : Word)
  /-- TG_STOP_NOW (R274): A write of STOP_NOW 1 takes the TG to OFF at the end of the pixel period in progress. -/
  | tgStopNow (who : Fn) (n : Fin 12) (val : Word)
  /-- TG_START (R283): After PLL lock and, for a genlocked TG, its start instant, the TG enters RUNNING at a latch instant. -/
  | tgStart (n : Fin 12) (peers : List PeerView)
  /-- TG_START_TIMEOUT (R283): No genlock reference comes within twice the source period, so the TG starts free-running in HOLDOVER. -/
  | tgStartTimeout (n : Fin 12) (peers : List PeerView)
  /-- TG_ROUTE_WRITE (R278): A write of DSP_TG_ROUTE names the TG's port and stream, or is ignored with WERR. -/
  | tgRouteWrite (who : Fn) (n : Fin 12) (val : Word)
  /-- TG_GL_WRITE (R280): A write of DSP_TG_GL sets the genlock source, or is ignored when it closes a loop or breaks the hard-lock conditions. -/
  | tgGlWrite (who : Fn) (n : Fin 12) (val : Word)
  /-- GENLOCK_REFERENCE (R282): A source reference instant arrives; the follower measures the phase error, steers its clock and updates GL_STATE. -/
  | genlockReference (n : Fin 12)
  /-- GENLOCK_HOLDOVER (R284): No reference comes for twice the source period, so GL_STATE enters HOLDOVER. -/
  | genlockHoldover (n : Fin 12)
  /-- PORT_ENABLE (R288): A write of port ENABLE 1 checks bandwidth and starts link bring-up, or sets BW_LIMIT. -/
  | portEnable (who : Fn) (p : Fin 16) (val : Word)
  /-- HPD_RISE (R290): HPD rises on a DisplayPort port, and the port begins training at RATE and LANES. -/
  | hpdRise (p : Fin 4)
  /-- PORT_TRAINING_DONE (R290): DisplayPort training ends, raising LINK_UP or setting TRAIN_FAIL. -/
  | portTrainingDone (p : Fin 4) (ok : Bool)
  /-- HPD_UNPLUG (R291): HPD stays low for 2 ms, so the port clears LINK_UP and sets LINK_LOST. -/
  | hpdUnplug (p : Fin 4)
  /-- HPD_IRQ (R291): An HPD IRQ makes the port read link status and retrain up to three times. -/
  | hpdIrq (p : Fin 4) (lost : Bool)
  /-- APHY_LINK_UP (R290): A-PHY start-up with the partner completes, and LINK_UP rises. -/
  | aphyLinkUp (k : Fin 8)
  /-- APHY_LOSS_OF_LOCK (R291): An A-PHY link loses lock, so LINK_UP clears and start-up repeats. -/
  | aphyLossOfLock (k : Fin 8)
  /-- SIDE_CHANNEL_GO (R293): A write of GO starts one AUX, I2C-over-AUX or DSI low-power transaction, or ends it at once with RESULT 3. -/
  | sideChannelGo (who : Fn) (p : Fin 16) (val : Word)
  /-- SIDE_CHANNEL_DONE (R293): A side-channel transaction ends, and the device sets DONE and RESULT. -/
  | sideChannelDone (p : Fin 16) (reply : SideReply)
  /-- BACKLIGHT_SET (R296): BACKLIGHT_SET lands a PWM DUTY for an output at a latch. -/
  | backlightSet (f : Fn) (q : Fin 8)
  /-- CS_ASSIGN_WRITE (R304): A write changing a stream context's owner stops it, removes its standing job and view binding and unconfigures it. -/
  | csAssignWrite (who : Fn) (c : Fin 16) (val : Word)
  /-- VIN_STREAM_SET (R309): STREAM_SET validates and replaces a stream context's whole configuration. -/
  | vinStreamSet (f : Fn) (q : Fin 8)
  /-- STREAM_START (R310): STREAM_START moves a configured context from OFF to STALLED. -/
  | streamStart (f : Fn) (q : Fin 8)
  /-- STREAM_STOP (R310): STREAM_STOP moves the context to OFF, discards the frame in progress and aborts a waiting FRAME_HOLD. -/
  | streamStop (f : Fn) (q : Fin 8)
  /-- FRAME_HOLD (R310): FRAME_HOLD requests that the newest complete frame of a frame-buffered context be pinned once FRAMES reaches SEQ. -/
  | frameHold (f : Fn) (q : Fin 8)
  /-- FRAME_HOLD_SATISFIED (R310): FRAMES reaches SEQ, and the waiting hold pins the newest frame and completes. -/
  | frameHoldSatisfied (c : Fin 16)
  /-- FRAME_RELEASE (R310): FRAME_RELEASE unpins the pinned frame. -/
  | frameRelease (f : Fn) (q : Fin 8)
  /-- FRAME_START (R311): A frame-start packet arrives; a buffer is chosen, STALLED moves to FILL, and the genlock reference is stamped. The packet
  arrives at receive port `port`, and `c` is the context that its channel is meant for. -/
  | frameStart (port : Fin 20) (c : Fin 16) (corrected headerOk : Bool)
  /-- LINE_RECEIVED (R312): A camera line arrives and is written to memory, or the frame is discarded for length, CRC or header errors. -/
  | lineReceived (port : Fin 20) (c : Fin 16) (l : VideoLine)
  /-- FRAME_END (R312): A frame-end packet completes a frame, which becomes the newest frame, increments FRAMES and triggers standing warps. -/
  | frameEnd (port : Fin 20) (c : Fin 16) (corrected headerOk : Bool)
  /-- LINE_TIMEOUT (R312): LINE_TO_US passes without a line or frame end, so the frame is discarded and the context enters STALLED. -/
  | lineTimeout (c : Fin 16)
  /-- FRAME_TIMEOUT (R311): FRAME_TO_MS passes after the last frame start with no new one, so a LIVE context enters STALLED. -/
  | frameTimeout (c : Fin 16)
  /-- WARP (R325): WARP validates and queues a one-shot warp job on an engine. -/
  | warp (f : Fn) (q : Fin 8)
  /-- WARP_STANDING (R331): WARP_STANDING installs or replaces a standing job for an output context. -/
  | warpStanding (f : Fn) (q : Fin 8)
  /-- WARP_CANCEL (R331): WARP_CANCEL removes a standing job after any run in progress ends. -/
  | warpCancel (f : Fn) (q : Fin 8)
  /-- WARP_JOB_START (R324): A warp engine starts a job or standing run, fixing its inputs, and pre-empts a one-shot job for a standing run. -/
  | warpJobStart (e : Fin 2)
  /-- WARP_JOB_END (R330): A warp job writes its last output line and completes, or a standing run delivers its frame. -/
  | warpJobEnd (e : Fin 2)
  /-- CLUSTER_SWAP (R340): At a pre-emption boundary, a logical cluster moves to a spare physical cluster. -/
  | clusterSwap (k : Fin 8)
  /-- CTX_ASSIGN_WRITE (R342): A write changing a graphics context's owner frees its pipelines, clears its flags and sets PRIORITY to 0. -/
  | ctxAssignWrite (who : Fn) (g : Fin 128) (val : Word)
  /-- PREEMPTION_BOUNDARY (R347): Work on a logical cluster reaches a boundary, and the scheduler picks the next work for that cluster. -/
  | preemptionBoundary (k : Fin 8) (st : GpuStep)
  /-- TIMESLICE_EXPIRE (R344): The running context has held its cluster for TIMESLICE_US, and round-robin moves on at the next boundary. -/
  | timesliceExpire (k : Fin 8)
  /-- DEADLINE_GUARD (R349): At START_DEADLINE minus GUARD_US, the guard raises EV256 and requests pre-emption to reach NEED clusters. -/
  | deadlineGuard (g : Fin 128)
  /-- START_DEADLINE_EXPIRE (R349): At START_DEADLINE with no cluster held, the device evicts the requested lower-level work and starts the command. -/
  | startDeadlineExpire (g : Fin 128)
  /-- CTX_SET (R360): CTX_SET applies a context's priority, guard, arena and Basket settings and clears its fault flags. -/
  | ctxSet (f : Fn) (q : Fin 8)
  /-- PIPE_LOAD (R355): PIPE_LOAD reads and validates a pipeline object and starts its translation. -/
  | pipeLoad (f : Fn) (q : Fin 8)
  /-- PIPE_TRANSLATED (R356): Translation of a pipeline's modules ends, and PIPE_LOAD completes with its handle. -/
  | pipeTranslated (g : Fin 128)
  /-- PIPE_FREE (R361): PIPE_FREE frees a pipeline handle once every started command using it has completed. -/
  | pipeFree (f : Fn) (q : Fin 8)
  /-- PASS_BEGIN (R362): PASS_BEGIN opens a render pass with its targets. -/
  | passBegin (f : Fn) (q : Fin 8)
  /-- DRAW (R364): DRAW bins a draw's primitives into tile lists within the open pass. -/
  | draw (f : Fn) (q : Fin 8)
  /-- PASS_END (R359): PASS_END renders every tile and completes when every tile is stored. -/
  | passEnd (f : Fn) (q : Fin 8)
  /-- DISPATCH (R365): DISPATCH launches compute workgroups and completes when their writes are in memory. -/
  | dispatch (f : Fn) (q : Fin 8)
  /-- CHANNEL_OWNER_WRITE (R376): A write of CPE_CH_ASSIGN changes a copy channel's owner after its transfers retire, failing the old owner's commands. -/
  | channelOwnerWrite (who : Fn) (e : Fin 4) (ch : Fin 16) (val : Word)
  /-- COPY (R377): COPY moves LEN bytes from SRC to DST. -/
  | copy (f : Fn) (q : Fin 8)
  /-- COPY_2D (R377): COPY_2D moves ROWS rows of ROW_BYTES with separate strides. -/
  | copy2d (f : Fn) (q : Fin 8)
  /-- FILL (R377): FILL writes a 64-bit PATTERN repeatedly over LEN bytes. -/
  | fill (f : Fn) (q : Fin 8)
  /-- CONVERT (R379): CONVERT copies an image while converting its pixel format. -/
  | convert (f : Fn) (q : Fin 8)
  /-- CRC_FEED (R380): CRC_FEED passes LEN bytes to a check-value unit in address order. -/
  | crcFeed (f : Fn) (q : Fin 8)
  /-- COPY_DONE (R375): A copy command's last transfer retires, and the command completes. -/
  | copyDone (e : Fin 4) (ch : Fin 16) (peer : PeerReply)
  /-- SCAN_START (R390): Every SCAN_US, a touch engine starts a scan of mutual and self steps, or sets OVERRUN if the last scan ran long. -/
  | scanStart (e : Fin 4)
  /-- SCAN_BOUNDARY (R390): A scan ends; points change state, and reports, decisions and map triggers are made. -/
  | scanBoundary (e : Fin 4) (counts : ScanCounts)
  /-- TOUCH_SET (R405): TOUCH_SET validates a configuration image and applies it at the next scan boundary. -/
  | touchSet (f : Fn) (q : Fin 8)
  /-- TOUCH_START (R405): TOUCH_START starts scanning with every point in INIT. -/
  | touchStart (f : Fn) (q : Fin 8)
  /-- TOUCH_STOP (R405): TOUCH_STOP ends scanning at the next scan boundary. -/
  | touchStop (f : Fn) (q : Fin 8)
  /-- TOUCH_REBASE (R405): TOUCH_REBASE puts the named untouched objects into INIT at the next scan boundary. -/
  | touchRebase (f : Fn) (q : Fin 8)
  /-- REPORT_HEAD_WRITE (R401): A write of TCH_RPT_HEAD releases report ring entries to the engine. -/
  | reportHeadWrite (who : Fn) (e : Fin 4) (val : Word)
  /-- TE_ASSIGN_WRITE (R409): A touch engine's owner change takes effect at the next scan boundary, leaving the engine OFF and unconfigured. -/
  | teAssignWrite (who : Fn) (e : Fin 4) (val : Word)
  /-- FRONT_END_CHECK (R411): Every 10 s, Acholt checks the front ends and moves a failed line to a spare or marks it failed. -/
  | frontEndCheck (e : Fin 4) (failed : List (Fin 64))
  /-- WAKE_SCAN (R412): In DORMANT, the wake engine scans its wake keys every WAKE_MS, and a press wakes the device. -/
  | wakeScan (counts : ScanCounts)
  /-- HAPTIC_PWM_PERIOD (R418): Once per 16 us PWM period, the controller compares acceleration with the target and sets the next width. -/
  | hapticPwmPeriod (c : Fin 8) (samples : List HapSample)
  /-- TRACKING_GAP (R419): Every GAP_EVERY cycles, the bridge is held OFF for a 48 us gap that measures velocity and updates F0_MEAS and R. -/
  | trackingGap (c : Fin 8) (samples : List HapSample)
  /-- ACC_READ (R421): Every 125 us, a channel reads its accelerometer over I3C, falling back to back-EMF after three failures. -/
  | accRead (c : Fin 8) (value : Option (BitVec 8 × BitVec 8))
  /-- HTRIG_EDGE (R431): An edge on an HTRIG pin triggers its bound channel's effect. -/
  | htrigEdge (n : Fin 8) (rising held : Bool)
  /-- HAP_SET (R427): HAP_SET applies a channel's configuration, taking it to IDLE. -/
  | hapSet (f : Fn) (q : Fin 8)
  /-- HAP_PLAY (R427): HAP_PLAY triggers an effect on a channel, starting, queuing or replacing it. -/
  | hapPlay (f : Fn) (q : Fin 8)
  /-- HAP_STOP (R427): HAP_STOP brakes the channel and empties its queue, completing when it leaves BRAKE. -/
  | hapStop (f : Fn) (q : Fin 8)
  /-- HAP_EFF_LOAD (R427): HAP_EFF_LOAD reads and loads a RAM effect. -/
  | hapEffLoad (f : Fn) (q : Fin 8)
  /-- EFFECT_END (R425): An effect's last segment ends, and the channel brakes or moves on as from BRAKE's end. -/
  | effectEnd (c : Fin 8)
  /-- BRAKE_END (R425): Braking ends when velocity falls below STOP_VEL for 1 ms or BRAKE_MAX_MS elapses, and the bridge is shorted. -/
  | brakeEnd (c : Fin 8)
  /-- SHORT_END (R425): The 2 ms bridge SHORT ends, and the channel enters HOLD, DRIVE or IDLE. -/
  | shortEnd (c : Fin 8)
  /-- HOLD_CLEAR (R429): Every HOLD limit clears, and the channel goes to DRIVE or IDLE. -/
  | holdClear (c : Fin 8) (milliohm : Nat)
  /-- OVERCURRENT (R428): The comparator sees current above 1.5 times I_PEAK_MA, so every gate goes low and the channel enters FAULT. -/
  | overcurrent (c : Fin 8) (ma : Int)
  /-- OPEN_COIL (R428): Current stays under 5 percent of its expected value for 1 ms in DRIVE, so the channel enters FAULT. -/
  | openCoil (c : Fin 8)
  /-- PEAK_CURRENT_CUT (R429): Current reaches I_PEAK_MA, the pulse in progress ends and ILIM_COUNT counts it. -/
  | peakCurrentCut (c : Fin 8) (ma : Int)
  /-- HAP_CH_ASSIGN_WRITE (R432): A write of HAP_CH_ASSIGN empties the queue, brakes the channel and applies the new owner once it is idle. -/
  | hapChAssignWrite (who : Fn) (c : Fin 8) (val : Word)
  /-- HAP_EFF_ASSIGN_WRITE (R432): A write of HAP_EFF_ASSIGN changes a RAM effect's owner once no channel plays or queues it. -/
  | hapEffAssignWrite (who : Fn) (k : Fin 32) (val : Word)
  /-- HAP_TRIG_CFG_WRITE (R430): A write of HAP_TRIG_CFG binds an HTRIG pin to a channel, or is ignored when the worlds differ. -/
  | hapTrigCfgWrite (who : Fn) (n : Fin 8) (val : Word)
  /-- SAMPLE_BOUNDARY (R436): At each sample boundary, every source yields, every bus computes and every sink takes one sample. -/
  | sampleBoundary (ins : AudioIn)
  /-- TDM_CLOCK_LOSS (R437): A slave TDM bit clock shows no edge for 4 frames, so the graph moves to the audio PLL and sets CLK_FALLBACK. -/
  | tdmClockLoss (p : Fin 8)
  /-- HAMPER (R459): HAMPER reads and validates an audio parameter set for a swap. -/
  | hamper (f : Fn) (q : Fin 8)
  /-- AUD_STREAM_SET (R463): The audio STREAM_SET starts or stops a playback or capture stream. -/
  | audStreamSet (f : Fn) (q : Fin 8)
  /-- CHIME_PLAY (R465): CHIME_PLAY starts or replaces a chime clip on a player. -/
  | chimePlay (f : Fn) (q : Fin 8)
  /-- CHIME_STOP (R465): CHIME_STOP stops a player at the next sample boundary. -/
  | chimeStop (f : Fn) (q : Fin 8)
  /-- AUDIO_OWNER_WRITE (R445): A change of a source's, bus's or sink's owner or PUBLIC fades the affected inputs to zero over 2 ms. -/
  | audioOwnerWrite (who : Fn) (k : AudKind) (val : Word)
  /-- AMP_OFF_TIMER (R469): OFF_MS passes after every masked sink is silent, and the amplifier-enable pin goes inactive. -/
  | ampOffTimer (k : Fin 8)
  /-- MBX_GO (R476): A write of GO posts transmit slots in order and issues receiver notices. -/
  | mbxGo (who : Fn) (c : Fin 64) (val : Word)
  /-- MBX_POP (R478): A write of POP frees the HEAD slot and advances HEAD. -/
  | mbxPop (who : Fn) (c : Fin 64) (val : Word)
  /-- MBX_TIMEOUT (R477): TIMEOUT_US passes after GO without a pop, so the message is discarded and TIMEOUT is set. -/
  | mbxTimeout (c : Fin 64) (e : Fin 2) (k : Fin 4)
  /-- MBX_SEND (R484): MBX_SEND posts buffered messages as slots free and completes when all are popped. -/
  | mbxSend (f : Fn) (q : Fin 8)
  /-- MBX_RECV (R485): MBX_RECV pops messages into a buffer until COUNT are taken. -/
  | mbxRecv (f : Fn) (q : Fin 8)
  /-- MBX_RECV_TIMEOUT (R485): WAIT_US passes, and MBX_RECV completes with the messages taken. -/
  | mbxRecvTimeout (c : Fin 64) (e : Fin 2)
  /-- CVU_FEED8 (R488): A write to CVU_FEED8 feeds one byte into the running CRC. -/
  | cvuFeed8 (who : Fn) (u : Fin 8) (val : Word)
  /-- CVU_FEED32 (R488): A write to CVU_FEED32 feeds four bytes into the running CRC, least significant first. -/
  | cvuFeed32 (who : Fn) (u : Fin 8) (val : Word)
  /-- CVU_INIT (R489): A write of INIT 1 resets the running value to the POLY's init value. -/
  | cvuInit (who : Fn) (u : Fin 8) (val : Word)
  /-- CVU_POLY_CHANGE (R489): A write that changes POLY selects the new CRC and resets the running value. -/
  | cvuPolyChange (who : Fn) (u : Fin 8) (val : Word)
  /-- CVU_ASSIGN_WRITE (R487): A change of a unit's owner takes effect after the feed in progress and resets the running value. -/
  | cvuAssignWrite (who : Fn) (u : Fin 8) (val : Word)
  /-- PMC_WINDOW_END (R500): A bandwidth window ends, and the group's counters are copied, restarted and WSEQ increments. -/
  | pmcWindowEnd (g : Fin 8)
  /-- PMC_COUNTER_WRITE (R498): A software write to a counter takes effect over a coincident increment or carry, setting LOST_CARRY as needed. -/
  | pmcCounterWrite (who : Fn) (n : Fin 64) (val : Word) (inc carry : Bool)
  /-- FLR_START (R510): Function-level reset of a VF begins, stopping its queues, notices, streams, slots and engines in stages. -/
  | flrStart (f : Fn)
  /-- FLR_DONE (R511): Every write of the VF has completed, registers reset, and reset-done sets RESET_DONE and writes a notice. -/
  | flrDone (f : Fn)
  /-- VF_FREEZE (R517): VF_FREEZE brings every part of a VF to rest. -/
  | vfFreeze (f : Fn) (q : Fin 8)
  /-- FREEZE_AT_REST (R517): Every part of a freezing VF has reached rest, and the VF becomes FROZEN. -/
  | freezeAtRest (v : Fin 64)
  /-- FREEZE_LIMIT (R518): LIMIT_US passes before rest, so VF_FREEZE completes with BUSY and the VF continues. -/
  | freezeLimit (v : Fin 64)
  /-- VF_THAW (R519): VF_THAW resumes every part of a FROZEN VF. -/
  | vfThaw (f : Fn) (q : Fin 8)
  /-- RUCKSACK_SAVE (R520): RUCKSACK_SAVE writes a frozen VF's state image. -/
  | rucksackSave (f : Fn) (q : Fin 8)
  /-- RUCKSACK_RESTORE (R523): RUCKSACK_RESTORE validates an image and applies it to a target VF, leaving it FROZEN. -/
  | rucksackRestore (f : Fn) (q : Fin 8)
  /-- DIRTY_HARVEST (R525): DIRTY_HARVEST writes each page's DIRTY bit to a bitmap and clears it in one round. -/
  | dirtyHarvest (f : Fn) (q : Fin 8)
  /-- MEM_MOVE (R508): GO of MEM_MOVE_CTRL checks a range and starts copying pages to free destination pages. -/
  | memMove (who : Fn) (val : Word)
  /-- MEM_MOVE_DONE (R508): The last page is copied, owners move atomically, the source is zero-filled and DONE is set. -/
  | memMoveDone (rivals : List Rival)
  /-- CONVOY_LINK_UP (R533): A Convoy link finishes training and reaches UP. -/
  | convoyLinkUp (k : Fin 3) (peer : PeerInfo)
  /-- CONVOY_LINK_LOSS (R533): A link receives no valid frame for 10 us, or a frame fails eight replays, so the link goes down and retrains. -/
  | convoyLinkLoss (k : Fin 3)
  /-- LANE_SWAP (R534): Acholt benches the spare lane in place of a failing Convoy lane during a short retrain. -/
  | laneSwap (k : Fin 3) (lane : Fin 8)
  /-- CONVOY_OFFSET_EXCHANGE (R537): Every 100 us, a follower measures its offset from the leader and steers its rate. -/
  | convoyOffsetExchange (offset : Int)
  /-- PEER_LATCH_STAMP (R538): A peer TG's latch instant arrives as an LTIME stamp and serves as a genlock reference. -/
  | peerLatchStamp (peer : Fin 4) (src : Fin 12) (stamp : Nat)
  /-- PEER_REQUEST (R539): A request from a Convoy peer arrives and is checked and served in class 6. -/
  | peerRequest (peer : Fin 4) (r : PeerReq) (rivals : List Rival)
  /-- SENSOR_READ (R559): SENSOR_READ writes a 552-byte image of one sensor window. -/
  | sensorRead (f : Fn) (q : Fin 8)
  /-- LOG_READ (R563): LOG_READ copies consecutive log entries into a buffer. -/
  | logRead (f : Fn) (q : Fin 8)
  /-- LOCK_LOAD (R102): LOCK_LOAD with SUB 0 applies a new lock-table image and writes it to flash. -/
  | lockLoad (f : Fn) (q : Fin 8)
  /-- EPOCH_FLOOR_RAISE (R574): LOCK_LOAD with SUB 1 raises the epoch floor by one OTP step. -/
  | epochFloorRaise (f : Fn) (q : Fin 8)
  /-- DEBUG_SET (R574): DEBUG_SET sets the four debug enables at once. -/
  | debugSet (f : Fn) (q : Fin 8)
  /-- FW_WRITE (R554): FW_UPDATE WRITE erases, programs and reads back a range of the inactive slot. -/
  | fwWrite (f : Fn) (q : Fin 8)
  /-- FW_VERIFY (R554): FW_UPDATE VERIFY checks the inactive slot under R551. -/
  | fwVerify (f : Fn) (q : Fin 8)
  /-- FW_ACTIVATE (R554): FW_UPDATE ACTIVATE makes the inactive slot ACTIVE on trial. -/
  | fwActivate (f : Fn) (q : Fin 8)
  /-- FW_CONFIRM (R554): FW_UPDATE CONFIRM clears TRIAL. -/
  | fwConfirm (f : Fn) (q : Fin 8)
  /-- FW_ROLLBACK_STEP (R554): FW_UPDATE ROLLBACK_STEP programs OTP step fuses up to the running image's ROLLBACK. -/
  | fwRollbackStep (f : Fn) (q : Fin 8) (bad : List (Fin 64))
  /-- BENCH_SWAP (R566): BENCH_SWAP forces a spare into service or moves a retired resource back. -/
  | benchSwap (f : Fn) (q : Fin 8)
  /-- KEY_REVOKE (R158): KEY_REVOKE revokes a key slot. -/
  | keyRevoke (f : Fn) (q : Fin 8)
  /-- CONVOY_MEMBERS (R574): CONVOY_MEMBERS writes and applies a new MEMBERS mask. -/
  | convoyMembers (f : Fn) (q : Fin 8)
  /-- EARLY_VIEW_STORE (R570): EARLY_VIEW SUB 0 checks an early-view image and writes it to flash. -/
  | earlyViewStore (f : Fn) (q : Fin 8)
  /-- EARLY_VIEW_END (R570): EARLY_VIEW SUB 1 hides the early-view slots and returns their resources at each named output's latch. -/
  | earlyViewEnd (f : Fn) (q : Fin 8)
  /-- EARLY_VIEW_CLEAR (R570): EARLY_VIEW SUB 2 erases the early-view area. -/
  | earlyViewClear (f : Fn) (q : Fin 8)
  /-- CAL_SET_TIME (R572): CAL_SET SUB 0 sets the calendar time and VALID. -/
  | calSetTime (f : Fn) (q : Fin 8)
  /-- CAL_SET_ALARM (R572): CAL_SET SUB 1 sets ALARM, ALARM_EN and WAKE_EN. -/
  | calSetAlarm (f : Fn) (q : Fin 8)
  /-- CAL_SET_TRIM (R572): CAL_SET SUB 2 sets the calendar rate trim from the next second. -/
  | calSetTrim (f : Fn) (q : Fin 8)
  /-- I3C_XFER (R574): I3C_XFER performs one private write, read or write-then-read on an I3C bus. -/
  | i3cXfer (f : Fn) (q : Fin 8) (reply : Option (List Byte))
  /-- ACHOLT_START (R552): At each Acholt start, Trailhead ROM selects and verifies a firmware slot or enters recovery. -/
  | acholtStart (octal : Bool)
  /-- WATCHDOG_EXPIRE (R556): Acholt firmware misses its watchdog, and Acholt restarts. -/
  | watchdogExpire
  /-- SENSOR_UPDATE (R558): Every 1 ms, Acholt reads the thermal and voltage sensors and applies the WARN, CRIT and window checks. -/
  | sensorUpdate (temps : List (BitVec 12)) (mvs : List Nat)
  /-- AGING_UPDATE (R558): Every 1 s, Acholt reads the aging monitors and triggers the Bench policy at AGE_LIMIT. -/
  | agingUpdate (drifts : List (BitVec 16))
  /-- LOG_MIRROR (R562): Acholt mirrors unmirrored log entries to flash each second or at 64 waiting entries. -/
  | logMirror (ok : Bool)
  /-- D2D_LANE_SWAP (R565): Acholt benches a spare die-to-die lane in place of a failing lane. -/
  | d2dLaneSwap (lane : Nat) (training : Bool)
  /-- EARLY_VIEW_APPLY (R568): Once LOCKED is set, Acholt applies each early-view entry to bring up its camera view and Canopy. -/
  | earlyViewApply
  /-- CALENDAR_SECOND (R573): CAL_SEC advances, and the alarm fires when it reaches ALARM with ALARM_EN. -/
  | calendarSecond
  /-- CAL_OSC_STOP (R571): The 32.768 kHz oscillator stops, VALID falls and EV493 is raised. -/
  | calOscStop
  /-- PORST_ASSERT (R580): PORST_n held low for 10 us or more cold-resets the device. -/
  | porstAssert
  /-- PORST_DEASSERT (R586): PORST_n rises, the straps are sampled and start-up begins. -/
  | porstDeassert (st : Straps)
  /-- THERMAL_TRIP (R581): A thermal comparator trips at 140 C, stopping every engine and holding the device in reset. -/
  | thermalTrip (site : Fin 24) (temp : BitVec 12)
  /-- PERST_ASSERT (R583): PERSTp_n or a hot reset resets one host port and its functions. -/
  | perstAssert (p : Fin 2)
  /-- PERST_DEASSERT (R587): PERSTp_n rises, and the port's LTSSM leaves Detect. -/
  | perstDeassert (p : Fin 2)
  /-- DDR_TRAINING_DONE (R587): LPDDR5X training ends, and configuration requests complete normally. -/
  | ddrTrainingDone
  /-- DORM_REQ (R590): A write of DORM_REQ requests DORMANT, which is refused as HELD or BUSY or accepted. -/
  | dormReq (who : Fn) (val : Word)
  /-- DORMANT_ENTER (R590): After the walker and swaps finish, the device places memory in self-refresh, retains state, requests rails off and stops the reference. -/
  | dormantEnter
  /-- WAKE_EVENT (R592): An enabled wake source fires, aborting entry or starting DORMANT exit. -/
  | wakeEvent (srcs : List WakeSrc)
  /-- RAIL_WAIT_EXPIRE (R593): RAIL_WAIT_MS passes, the device confirms group B rails, restarts the reference and resumes Acholt. -/
  | railWaitExpire (ok : Bool)
  /-- DORMANT_EXIT_DONE (R593): The device is ON with memory ready and sets DORM_DONE. -/
  | dormantExitDone
  /-- PWR_DOM_OFF (R596): A write of PWR_DOM_OFF powers down each idle, unheld domain named. -/
  | pwrDomOff (who : Fn) (val : Word)
  /-- PWR_DOM_ON (R597): A write of PWR_DOM_ON powers up the named domains at once. -/
  | pwrDomOn (who : Fn) (val : Word)
  /-- PWR_CLK_OFF (R596): A write of PWR_CLK_OFF gates each idle, unheld interface clock named. -/
  | pwrClkOff (who : Fn) (val : Word)
  /-- PWR_CLK_ON (R597): A write of PWR_CLK_ON restarts the named interface clocks. -/
  | pwrClkOn (who : Fn) (val : Word)
  /-- PWM_PERIOD_START (R295): A backlight PWM period of PERIOD ticks ends and the next begins, applying any pending DUTY and PERIOD taken at the latch. -/
  | pwmPeriodStart (n : Fin 12)
  /-- CALENDAR_ENTRY (R594): Every rail except VBAT is removed, the device enters CALENDAR with only the calendar clock running, and unmirrored log entries are lost if VDD_AON goes. -/
  | calendarEntry
  /-- CONFIGURATION_REQUEST (R587): A PCIe configuration request reaches a port; it completes with Request Retry Status before LPDDR5X training ends, and otherwise sets NumVFs, VF Enable, power state or Bus Master Enable. -/
  | configurationRequest (p : Fin 2) (r : CfgReq)
  /-- PCIE_LINK_DOWN (R645): A host port's PCIe link goes down without PERST, so later completion-record and shadow writes cannot be sent and are detected as failed. -/
  | pcieLinkDown (p : Fin 2) (l2 : Bool)
deriving DecidableEq, Repr

end Sys2Proof
end

