-- ==== Sys2Proof/Decode.lean ====
section
/-! DEFINITION. The commands that words of the table spell. Every row of the table names an operation or event of the block and gives no bits, so
there is no word to decode. -/

namespace Sys2Proof

/-- The command that the `nbits` bits of `w` spell: none, since no row of the table has an encoding. -/
def decodeTableWord (_nbits _w : Nat) : Option Instr := none

end Sys2Proof
end

