-- ==== Sys2Proof/Machine/Regs.lean ====
section
/-! DEFINITION. The registers of PF BAR0 as the chapters of the specification tabulate them: their names, places
(R634 and each chapter), fields, access codes (R12), classes (R15 to R17), Secure-only marks (R14) and reset values. -/

namespace Sys2Proof.Machine

/-- Every register of the manual under its own name; the rule that lays each one out stands beside it. -/
inductive Reg where
  | GLB_ID -- R2
  | GLB_STAT -- R3
  | GLB_LTIME_LO -- R49
  | GLB_LTIME_HI -- R49
  | GLB_LTIME_CTRL -- R50
  | GLB_LTIME_STAT -- R51
  | GLB_LTIME_RATE -- R49
  | GLB_PTM_OFFSET_LO -- R49
  | GLB_PTM_OFFSET_HI -- R49
  | GLB_VF_STAT -- R527
  | OWN_LOCK_STAT -- R112
  | OWN_TABLE_BASE_LO -- R111
  | OWN_TABLE_BASE_HI -- R111
  | OWN_TABLE_SIZE -- R111
  | OWN_ASSIGN_ADDR_LO -- R111
  | OWN_ASSIGN_ADDR_HI -- R111
  | OWN_ASSIGN_CTRL -- R113
  | OWN_ASSIGN_STAT -- R114
  | OWN_QUERY_ADDR_LO -- R111
  | OWN_QUERY_ADDR_HI -- R111
  | OWN_QUERY_RESULT -- R111
  | OWN_REFUSE_ADDR_LO -- R111
  | OWN_REFUSE_ADDR_HI -- R111
  | OWN_REFUSE_INFO -- R115
  | OWN_PIN_WORLD -- R103
  | OWN_CE_WORLD -- R111
  | OWN_HOLD_PWR -- R111
  | OWN_HOLD_CLK -- R111
  | OWN_DEBUG_STAT -- R116
  | OWN_SECURE_VF_LO -- R111
  | OWN_SECURE_VF_HI -- R111
  | HRQ_APERTURE_LO -- R159
  | HRQ_APERTURE_HI -- R159
  | HRQ_SQ_BASE_LO -- R159
  | HRQ_SQ_BASE_HI -- R159
  | HRQ_CQ_BASE_LO -- R159
  | HRQ_CQ_BASE_HI -- R159
  | HRQ_Q_CFG -- R160
  | HRQ_Q_IRQ -- R161
  | HRQ_Q_STAT -- R162
  | HRQ_Q_PTR -- R159
  | HRQ_SHADOW_LO -- R159
  | HRQ_SHADOW_HI -- R159
  | HRQ_Q_TIMEOUT -- R159
  | HRQ_MSIX_TABLE -- R159
  | HRQ_MSIX_PBA -- R159
  | HRQ_FENCE_VAL_LO -- R159
  | HRQ_FENCE_VAL_HI -- R159
  | HRQ_FENCE_SIG_LO -- R159
  | HRQ_FENCE_SIG_HI -- R159
  | HRQ_FENCE_OWNER -- R163
  | HRQ_EV_ROUTE -- R164
  | HRQ_EV_PEND -- R159
  | HRQ_KEY_STAT -- R165
  | HRQ_KEY_CTR_LO -- R159
  | HRQ_KEY_CTR_HI -- R159
  | MEM_BANK_CFG -- R58
  | MEM_BANK_STAT -- R59
  | MEM_BANK_ECC -- R60
  | MEM_BANK_CONFLICT -- R61
  | MEM_DDR_ECC -- R642
  | MEM_DDR_STAT -- R642
  | MEM_WALK_CTRL -- R68
  | MEM_WALK_STAT -- R69
  | MEM_STAT -- R70
  | MEM_MOVE_SRC_LO -- R528
  | MEM_MOVE_SRC_HI -- R528
  | MEM_MOVE_DST_LO -- R528
  | MEM_MOVE_DST_HI -- R528
  | MEM_MOVE_CTRL -- R528
  | MEM_MOVE_STAT -- R528
  | DSP_SLOT_ASSIGN -- R169
  | DSP_SLOT_STAT -- R170
  | DSP_SLOT_SEQ -- R170
  | DSP_CMP_CTRL -- R244
  | DSP_CMP_UCOL -- R244
  | DSP_CMP_STAT -- R244
  | DSP_CMP_UR -- R244
  | DSP_CMP_UR_LAST -- R244
  | DSP_CMP_COV -- R244
  | DSP_CNP_STAT -- R269
  | DSP_CNP_FAILCOL -- R269
  | DSP_OST_CFG -- R269
  | DSP_CNP_SEQ -- R269
  | DSP_CW_EXP -- R269
  | DSP_CW_CTRL -- R269
  | DSP_CW_XY -- R269
  | DSP_CW_WH -- R269
  | DSP_CW_CRC -- R269
  | DSP_CW_RES -- R269
  | DSP_CW_CNT -- R269
  | DSP_TG_CTRL -- R299
  | DSP_TG_H0 -- R299
  | DSP_TG_H1 -- R299
  | DSP_TG_V0 -- R299
  | DSP_TG_V1 -- R299
  | DSP_TG_PCLK -- R299
  | DSP_TG_ROUTE -- R299
  | DSP_TG_GL -- R299
  | DSP_TG_GL_OFS -- R299
  | DSP_TG_STAT -- R299
  | DSP_TG_SEQ -- R299
  | DSP_TG_PHASE -- R299
  | DSP_TG_EVSTAT -- R299
  | DSP_BL_CTRL -- R299
  | DSP_BL_PWM -- R299
  | DSP_PORT_CFG -- R300
  | DSP_PORT_STAT -- R300
  | DSP_PORT_SC_CMD -- R300
  | DSP_PORT_SC_STAT -- R300
  | DSP_PORT_SC_DATA -- R300
  | DSP_LAND_STAT -- R203
  | DSP_LAND_SEQ -- R203
  | DSP_LAND_LTIME_LO -- R203
  | DSP_LAND_LTIME_HI -- R203
  | DSP_PEND -- R203
  | DSP_RUNWAY_CTRL -- R38
  | DSP_RUNWAY_STAT -- R39
  | VIN_CS_ASSIGN -- R335
  | VIN_CS_STAT -- R335
  | VIN_CS_FRAMES -- R335
  | VIN_CS_AGE -- R335
  | VIN_CS_CNT -- R335
  | VIN_CS_LL_SLACK -- R335
  | VIN_CS_LL_TRIM -- R335
  | VIN_CS_LINE -- R335
  | VIN_CS_FE_LO -- R335
  | VIN_CS_FE_HI -- R335
  | VIN_RX_CFG -- R336
  | VIN_RX_STAT -- R336
  | VIN_WE_STAT -- R337
  | VIN_WE_PIX -- R337
  | GPU_SCHED_CTRL -- R383
  | GPU_XLT_STAT -- R383
  | GPU_XLT_CNT -- R383
  | GPU_SC_STAT -- R383
  | GPU_CTX_ASSIGN -- R384
  | GPU_CTX_STAT -- R384
  | GPU_CTX_USE -- R384
  | GPU_CTX_PIPES -- R384
  | CPE_CH_ASSIGN -- R385
  | CPE_CH_STAT -- R385
  | CPE_ENG_STAT -- R385
  | CPE_ENG_BYTES -- R385
  | TCH_TE_ASSIGN -- R414
  | TCH_TE_STAT -- R414
  | TCH_TE_SCAN -- R414
  | TCH_TE_TIME -- R414
  | TCH_RPT_HEAD -- R414
  | TCH_RPT_STAT -- R414
  | TCH_KEY_STATE -- R414
  | TCH_WAKE_CFG -- R414
  | TCH_WAKE_MASK -- R414
  | TCH_FAIL_LO -- R414
  | TCH_FAIL_HI -- R414
  | TCH_TE_MODE -- R414
  | HAP_CH_ASSIGN -- R434
  | HAP_CH_STAT -- R434
  | HAP_CH_MEAS -- R434
  | HAP_CH_CNT -- R434
  | HAP_TRIG_CFG -- R434
  | HAP_EFF_ASSIGN -- R434
  | AUD_GLB_CTRL -- R471
  | AUD_GLB_STAT -- R471
  | AUD_SAMPLE_LO -- R471
  | AUD_SAMPLE_HI -- R471
  | AUD_SAMPLE_LTIME_LO -- R471
  | AUD_SAMPLE_LTIME_HI -- R471
  | AUD_SRC_CFG -- R471
  | AUD_SNK_CFG -- R471
  | AUD_BUS_ASSIGN -- R471
  | AUD_TDM_CFG -- R471
  | AUD_TDM_STAT -- R471
  | AUD_PDM_CFG -- R471
  | AUD_DPA_CFG -- R471
  | AUD_BUS_STAT -- R471
  | AUD_SNK_STAT -- R471
  | AUD_AMP_CFG -- R471
  | AUD_AMP_MASK_LO -- R471
  | AUD_AMP_MASK_HI -- R471
  | AUD_STRM_POS -- R471
  | AUD_STRM_LIMIT -- R471
  | AUD_STRM_STAT -- R471
  | MBX_TX_DATA -- R492
  | MBX_RX_DATA -- R492
  | MBX_END_CTRL -- R492
  | MBX_TX_CTRL -- R492
  | MBX_TX_STAT -- R492
  | MBX_RX_STAT -- R492
  | MBX_RX_POP -- R492
  | MBX_BIND -- R492
  | CVU_ASSIGN -- R493
  | CVU_CTRL -- R493
  | CVU_FEED8 -- R493
  | CVU_FEED32 -- R493
  | CVU_RESULT_LO -- R493
  | CVU_RESULT_HI -- R493
  | PMC_CNT -- R504
  | PMC_SEL -- R504
  | PMC_GRP_CTRL -- R504
  | PMC_GRP_CFG2 -- R504
  | PMC_GRP_STAT -- R504
  | PMC_OVF_LO -- R504
  | PMC_OVF_HI -- R504
  | PMC_LC_LO -- R504
  | PMC_LC_HI -- R504
  | CNV_STAT -- R545
  | CNV_OFFSET -- R545
  | CNV_PORT_STAT -- R545
  | CNV_PEER_INFO -- R545
  | CNV_RLB -- R545
  | CNV_CE_PEER -- R545
  | MGT_STAT -- R576
  | MGT_FW_VER -- R576
  | MGT_FW_RB -- R576
  | MGT_THERM_CFG -- R576
  | MGT_AGE_CFG -- R576
  | MGT_THERM -- R576
  | MGT_VMON -- R576
  | MGT_AGE -- R576
  | MGT_BENCH -- R576
  | MGT_LOG_NEWEST -- R576
  | MGT_LOG_MIRROR -- R576
  | MGT_LOG_LOST -- R576
  | MGT_CAL_SUB -- R576
  | MGT_CAL_SEC -- R576
  | MGT_CAL_ALARM -- R576
  | PWR_STATE_CTRL -- R598
  | PWR_STATE_STAT -- R598
  | PWR_WAKE_EN -- R598
  | PWR_WAKE_GPIO_LO -- R598
  | PWR_WAKE_GPIO_HI -- R598
  | PWR_DOM_OFF -- R598
  | PWR_DOM_ON -- R598
  | PWR_DOM_STAT -- R598
  | PWR_CLK_OFF -- R598
  | PWR_CLK_ON -- R598
  | PWR_CLK_STAT -- R598
  | PWR_REQ_STAT -- R598
  | PWR_PACE_CTRL -- R32
  | PWR_PACE_STAT -- R33
  | PWR_PROBE_SEL -- R34
  | PWR_PROBE_DATA -- R34
deriving DecidableEq, Repr, Inhabited

/-- The access codes of R12. -/
inductive Acc where
  | ro | rw | wo | w1c | rc | rws
deriving DecidableEq, Repr

/-- The classes of R15 (set-up only), R16 (latched) and R17 (direct); `none` for a field that software cannot write. -/
inductive Cls where
  | none | s | l | d
deriving DecidableEq, Repr

/-- One field of a register: lowest bit, width, access code, class, and the World column's S mark. -/
structure FieldDesc where
  lo : Nat
  w : Nat
  acc : Acc
  cls : Cls
  sec : Bool
deriving DecidableEq, Repr

/-- A named field: its register, lowest bit and width. -/
structure Fld where
  reg : Reg
  lo : Nat
  w : Nat
deriving DecidableEq, Repr

/-- Where a register lies in PF BAR0: the offset of its first member and, for each index, the stride and the count. -/
structure Place where
  base : Nat
  dims : List (Nat × Nat)
deriving DecidableEq, Repr

/-- The offset table (R634 with each chapter's own offsets). -/
def Reg.place : Reg → Place
  | .GLB_ID => ⟨0x0, []⟩
  | .GLB_STAT => ⟨0x4, []⟩
  | .GLB_LTIME_LO => ⟨0x100, []⟩
  | .GLB_LTIME_HI => ⟨0x104, []⟩
  | .GLB_LTIME_CTRL => ⟨0x108, []⟩
  | .GLB_LTIME_STAT => ⟨0x10c, []⟩
  | .GLB_LTIME_RATE => ⟨0x110, []⟩
  | .GLB_PTM_OFFSET_LO => ⟨0x118, [(8, 2)]⟩
  | .GLB_PTM_OFFSET_HI => ⟨0x11c, [(8, 2)]⟩
  | .GLB_VF_STAT => ⟨0x1000, [(4, 64)]⟩
  | .OWN_LOCK_STAT => ⟨0x100000, []⟩
  | .OWN_TABLE_BASE_LO => ⟨0x100008, []⟩
  | .OWN_TABLE_BASE_HI => ⟨0x10000c, []⟩
  | .OWN_TABLE_SIZE => ⟨0x100010, []⟩
  | .OWN_ASSIGN_ADDR_LO => ⟨0x100020, []⟩
  | .OWN_ASSIGN_ADDR_HI => ⟨0x100024, []⟩
  | .OWN_ASSIGN_CTRL => ⟨0x100028, []⟩
  | .OWN_ASSIGN_STAT => ⟨0x10002c, []⟩
  | .OWN_QUERY_ADDR_LO => ⟨0x100030, []⟩
  | .OWN_QUERY_ADDR_HI => ⟨0x100034, []⟩
  | .OWN_QUERY_RESULT => ⟨0x100038, []⟩
  | .OWN_REFUSE_ADDR_LO => ⟨0x100040, []⟩
  | .OWN_REFUSE_ADDR_HI => ⟨0x100044, []⟩
  | .OWN_REFUSE_INFO => ⟨0x100048, []⟩
  | .OWN_PIN_WORLD => ⟨0x100060, [(4, 4)]⟩
  | .OWN_CE_WORLD => ⟨0x100080, [(4, 4)]⟩
  | .OWN_HOLD_PWR => ⟨0x100090, []⟩
  | .OWN_HOLD_CLK => ⟨0x100094, []⟩
  | .OWN_DEBUG_STAT => ⟨0x1000a0, []⟩
  | .OWN_SECURE_VF_LO => ⟨0x1000a4, []⟩
  | .OWN_SECURE_VF_HI => ⟨0x1000a8, []⟩
  | .HRQ_APERTURE_LO => ⟨0x200000, [(4096, 80)]⟩
  | .HRQ_APERTURE_HI => ⟨0x200004, [(4096, 80)]⟩
  | .HRQ_SQ_BASE_LO => ⟨0x200040, [(4096, 80), (64, 8)]⟩
  | .HRQ_SQ_BASE_HI => ⟨0x200044, [(4096, 80), (64, 8)]⟩
  | .HRQ_CQ_BASE_LO => ⟨0x200048, [(4096, 80), (64, 8)]⟩
  | .HRQ_CQ_BASE_HI => ⟨0x20004c, [(4096, 80), (64, 8)]⟩
  | .HRQ_Q_CFG => ⟨0x200050, [(4096, 80), (64, 8)]⟩
  | .HRQ_Q_IRQ => ⟨0x200054, [(4096, 80), (64, 8)]⟩
  | .HRQ_Q_STAT => ⟨0x200058, [(4096, 80), (64, 8)]⟩
  | .HRQ_Q_PTR => ⟨0x20005c, [(4096, 80), (64, 8)]⟩
  | .HRQ_SHADOW_LO => ⟨0x200060, [(4096, 80), (64, 8)]⟩
  | .HRQ_SHADOW_HI => ⟨0x200064, [(4096, 80), (64, 8)]⟩
  | .HRQ_Q_TIMEOUT => ⟨0x200068, [(4096, 80), (64, 8)]⟩
  | .HRQ_MSIX_TABLE => ⟨0x200800, [(4096, 80), (4, 256)]⟩
  | .HRQ_MSIX_PBA => ⟨0x200c00, [(4096, 80), (4, 2)]⟩
  | .HRQ_FENCE_VAL_LO => ⟨0x280000, [(16, 4096)]⟩
  | .HRQ_FENCE_VAL_HI => ⟨0x280004, [(16, 4096)]⟩
  | .HRQ_FENCE_SIG_LO => ⟨0x280008, [(16, 4096)]⟩
  | .HRQ_FENCE_SIG_HI => ⟨0x28000c, [(16, 4096)]⟩
  | .HRQ_FENCE_OWNER => ⟨0x290000, [(4, 64)]⟩
  | .HRQ_EV_ROUTE => ⟨0x2a0000, [(4, 512)]⟩
  | .HRQ_EV_PEND => ⟨0x2a0800, [(4, 16)]⟩
  | .HRQ_KEY_STAT => ⟨0x2b0000, [(16, 8)]⟩
  | .HRQ_KEY_CTR_LO => ⟨0x2b0004, [(16, 8)]⟩
  | .HRQ_KEY_CTR_HI => ⟨0x2b0008, [(16, 8)]⟩
  | .MEM_BANK_CFG => ⟨0x400000, [(32, 16)]⟩
  | .MEM_BANK_STAT => ⟨0x400004, [(32, 17)]⟩
  | .MEM_BANK_ECC => ⟨0x400008, [(32, 17)]⟩
  | .MEM_BANK_CONFLICT => ⟨0x40000c, [(32, 17)]⟩
  | .MEM_DDR_ECC => ⟨0x400300, [(32, 2)]⟩
  | .MEM_DDR_STAT => ⟨0x400304, [(32, 2)]⟩
  | .MEM_WALK_CTRL => ⟨0x401000, []⟩
  | .MEM_WALK_STAT => ⟨0x401004, []⟩
  | .MEM_STAT => ⟨0x401008, []⟩
  | .MEM_MOVE_SRC_LO => ⟨0x402000, []⟩
  | .MEM_MOVE_SRC_HI => ⟨0x402004, []⟩
  | .MEM_MOVE_DST_LO => ⟨0x402008, []⟩
  | .MEM_MOVE_DST_HI => ⟨0x40200c, []⟩
  | .MEM_MOVE_CTRL => ⟨0x402010, []⟩
  | .MEM_MOVE_STAT => ⟨0x402014, []⟩
  | .DSP_SLOT_ASSIGN => ⟨0x800000, [(16, 384)]⟩
  | .DSP_SLOT_STAT => ⟨0x800004, [(16, 384)]⟩
  | .DSP_SLOT_SEQ => ⟨0x800008, [(16, 384)]⟩
  | .DSP_CMP_CTRL => ⟨0x810000, [(64, 12)]⟩
  | .DSP_CMP_UCOL => ⟨0x810004, [(64, 12)]⟩
  | .DSP_CMP_STAT => ⟨0x810008, [(64, 12)]⟩
  | .DSP_CMP_UR => ⟨0x81000c, [(64, 12)]⟩
  | .DSP_CMP_UR_LAST => ⟨0x810010, [(64, 12)]⟩
  | .DSP_CMP_COV => ⟨0x810014, [(64, 12)]⟩
  | .DSP_CNP_STAT => ⟨0x830000, [(1024, 12)]⟩
  | .DSP_CNP_FAILCOL => ⟨0x830004, [(1024, 12)]⟩
  | .DSP_OST_CFG => ⟨0x830008, [(1024, 12)]⟩
  | .DSP_CNP_SEQ => ⟨0x83000c, [(1024, 12)]⟩
  | .DSP_CW_EXP => ⟨0x830100, [(1024, 12), (32, 16)]⟩
  | .DSP_CW_CTRL => ⟨0x830104, [(1024, 12), (32, 16)]⟩
  | .DSP_CW_XY => ⟨0x830108, [(1024, 12), (32, 16)]⟩
  | .DSP_CW_WH => ⟨0x83010c, [(1024, 12), (32, 16)]⟩
  | .DSP_CW_CRC => ⟨0x830110, [(1024, 12), (32, 16)]⟩
  | .DSP_CW_RES => ⟨0x830114, [(1024, 12), (32, 16)]⟩
  | .DSP_CW_CNT => ⟨0x830118, [(1024, 12), (32, 16)]⟩
  | .DSP_TG_CTRL => ⟨0x840000, [(64, 12)]⟩
  | .DSP_TG_H0 => ⟨0x840004, [(64, 12)]⟩
  | .DSP_TG_H1 => ⟨0x840008, [(64, 12)]⟩
  | .DSP_TG_V0 => ⟨0x84000c, [(64, 12)]⟩
  | .DSP_TG_V1 => ⟨0x840010, [(64, 12)]⟩
  | .DSP_TG_PCLK => ⟨0x840014, [(64, 12)]⟩
  | .DSP_TG_ROUTE => ⟨0x840018, [(64, 12)]⟩
  | .DSP_TG_GL => ⟨0x84001c, [(64, 12)]⟩
  | .DSP_TG_GL_OFS => ⟨0x840020, [(64, 12)]⟩
  | .DSP_TG_STAT => ⟨0x840024, [(64, 12)]⟩
  | .DSP_TG_SEQ => ⟨0x840028, [(64, 12)]⟩
  | .DSP_TG_PHASE => ⟨0x84002c, [(64, 12)]⟩
  | .DSP_TG_EVSTAT => ⟨0x840030, [(64, 12)]⟩
  | .DSP_BL_CTRL => ⟨0x840034, [(64, 12)]⟩
  | .DSP_BL_PWM => ⟨0x840038, [(64, 12)]⟩
  | .DSP_PORT_CFG => ⟨0x850000, [(256, 16)]⟩
  | .DSP_PORT_STAT => ⟨0x850004, [(256, 16)]⟩
  | .DSP_PORT_SC_CMD => ⟨0x850010, [(256, 16)]⟩
  | .DSP_PORT_SC_STAT => ⟨0x850014, [(256, 16)]⟩
  | .DSP_PORT_SC_DATA => ⟨0x850020, [(256, 16), (4, 4)]⟩
  | .DSP_LAND_STAT => ⟨0x860000, [(32, 12)]⟩
  | .DSP_LAND_SEQ => ⟨0x860004, [(32, 12)]⟩
  | .DSP_LAND_LTIME_LO => ⟨0x860008, [(32, 12)]⟩
  | .DSP_LAND_LTIME_HI => ⟨0x86000c, [(32, 12)]⟩
  | .DSP_PEND => ⟨0x860010, [(32, 12)]⟩
  | .DSP_RUNWAY_CTRL => ⟨0x870000, [(16, 12)]⟩
  | .DSP_RUNWAY_STAT => ⟨0x870004, [(16, 12)]⟩
  | .VIN_CS_ASSIGN => ⟨0x1000000, [(64, 16)]⟩
  | .VIN_CS_STAT => ⟨0x1000004, [(64, 16)]⟩
  | .VIN_CS_FRAMES => ⟨0x1000008, [(64, 16)]⟩
  | .VIN_CS_AGE => ⟨0x100000c, [(64, 16)]⟩
  | .VIN_CS_CNT => ⟨0x1000010, [(64, 16)]⟩
  | .VIN_CS_LL_SLACK => ⟨0x1000014, [(64, 16)]⟩
  | .VIN_CS_LL_TRIM => ⟨0x1000018, [(64, 16)]⟩
  | .VIN_CS_LINE => ⟨0x100001c, [(64, 16)]⟩
  | .VIN_CS_FE_LO => ⟨0x1000020, [(64, 16)]⟩
  | .VIN_CS_FE_HI => ⟨0x1000024, [(64, 16)]⟩
  | .VIN_RX_CFG => ⟨0x1001000, [(64, 20)]⟩
  | .VIN_RX_STAT => ⟨0x1001004, [(64, 20)]⟩
  | .VIN_WE_STAT => ⟨0x1002000, [(16, 2)]⟩
  | .VIN_WE_PIX => ⟨0x1002004, [(16, 2)]⟩
  | .GPU_SCHED_CTRL => ⟨0x1400000, []⟩
  | .GPU_XLT_STAT => ⟨0x1400004, []⟩
  | .GPU_XLT_CNT => ⟨0x1400008, []⟩
  | .GPU_SC_STAT => ⟨0x1400100, [(4, 10)]⟩
  | .GPU_CTX_ASSIGN => ⟨0x1401000, [(32, 128)]⟩
  | .GPU_CTX_STAT => ⟨0x1401004, [(32, 128)]⟩
  | .GPU_CTX_USE => ⟨0x1401008, [(32, 128)]⟩
  | .GPU_CTX_PIPES => ⟨0x140100c, [(32, 128)]⟩
  | .CPE_CH_ASSIGN => ⟨0x1700000, [(1024, 4), (16, 16)]⟩
  | .CPE_CH_STAT => ⟨0x1700004, [(1024, 4), (16, 16)]⟩
  | .CPE_ENG_STAT => ⟨0x1701000, [(16, 4)]⟩
  | .CPE_ENG_BYTES => ⟨0x1701004, [(16, 4)]⟩
  | .TCH_TE_ASSIGN => ⟨0x1800000, [(256, 4)]⟩
  | .TCH_TE_STAT => ⟨0x1800004, [(256, 4)]⟩
  | .TCH_TE_SCAN => ⟨0x1800008, [(256, 4)]⟩
  | .TCH_TE_TIME => ⟨0x180000c, [(256, 4)]⟩
  | .TCH_RPT_HEAD => ⟨0x1800010, [(256, 4)]⟩
  | .TCH_RPT_STAT => ⟨0x1800014, [(256, 4)]⟩
  | .TCH_KEY_STATE => ⟨0x1800018, [(256, 4)]⟩
  | .TCH_WAKE_CFG => ⟨0x180001c, [(256, 4)]⟩
  | .TCH_WAKE_MASK => ⟨0x1800020, [(256, 4)]⟩
  | .TCH_FAIL_LO => ⟨0x1800024, [(256, 4)]⟩
  | .TCH_FAIL_HI => ⟨0x1800028, [(256, 4)]⟩
  | .TCH_TE_MODE => ⟨0x180002c, [(256, 4)]⟩
  | .HAP_CH_ASSIGN => ⟨0x1900000, [(64, 8)]⟩
  | .HAP_CH_STAT => ⟨0x1900004, [(64, 8)]⟩
  | .HAP_CH_MEAS => ⟨0x1900008, [(64, 8)]⟩
  | .HAP_CH_CNT => ⟨0x190000c, [(64, 8)]⟩
  | .HAP_TRIG_CFG => ⟨0x1901000, [(4, 8)]⟩
  | .HAP_EFF_ASSIGN => ⟨0x1902000, [(4, 32)]⟩
  | .AUD_GLB_CTRL => ⟨0x1a00000, []⟩
  | .AUD_GLB_STAT => ⟨0x1a00004, []⟩
  | .AUD_SAMPLE_LO => ⟨0x1a00008, []⟩
  | .AUD_SAMPLE_HI => ⟨0x1a0000c, []⟩
  | .AUD_SAMPLE_LTIME_LO => ⟨0x1a00010, []⟩
  | .AUD_SAMPLE_LTIME_HI => ⟨0x1a00014, []⟩
  | .AUD_SRC_CFG => ⟨0x1a00100, [(4, 96)]⟩
  | .AUD_SNK_CFG => ⟨0x1a00300, [(4, 64)]⟩
  | .AUD_BUS_ASSIGN => ⟨0x1a00400, [(4, 24)]⟩
  | .AUD_TDM_CFG => ⟨0x1a00500, [(16, 8)]⟩
  | .AUD_TDM_STAT => ⟨0x1a00504, [(16, 8)]⟩
  | .AUD_PDM_CFG => ⟨0x1a00600, [(4, 4)]⟩
  | .AUD_DPA_CFG => ⟨0x1a00700, [(4, 16)]⟩
  | .AUD_BUS_STAT => ⟨0x1a00800, [(4, 24)]⟩
  | .AUD_SNK_STAT => ⟨0x1a00900, [(4, 64)]⟩
  | .AUD_AMP_CFG => ⟨0x1a00a00, [(16, 8)]⟩
  | .AUD_AMP_MASK_LO => ⟨0x1a00a04, [(16, 8)]⟩
  | .AUD_AMP_MASK_HI => ⟨0x1a00a08, [(16, 8)]⟩
  | .AUD_STRM_POS => ⟨0x1a00b00, [(16, 12)]⟩
  | .AUD_STRM_LIMIT => ⟨0x1a00b04, [(16, 12)]⟩
  | .AUD_STRM_STAT => ⟨0x1a00b08, [(16, 12)]⟩
  | .MBX_TX_DATA => ⟨0x1b00000, [(1024, 64), (4, 64)]⟩
  | .MBX_RX_DATA => ⟨0x1b00100, [(1024, 64), (4, 64)]⟩
  | .MBX_END_CTRL => ⟨0x1b00200, [(1024, 64)]⟩
  | .MBX_TX_CTRL => ⟨0x1b00204, [(1024, 64)]⟩
  | .MBX_TX_STAT => ⟨0x1b00208, [(1024, 64)]⟩
  | .MBX_RX_STAT => ⟨0x1b0020c, [(1024, 64)]⟩
  | .MBX_RX_POP => ⟨0x1b00210, [(1024, 64)]⟩
  | .MBX_BIND => ⟨0x1b10000, [(4, 64)]⟩
  | .CVU_ASSIGN => ⟨0x1c00000, [(32, 8)]⟩
  | .CVU_CTRL => ⟨0x1c00004, [(32, 8)]⟩
  | .CVU_FEED8 => ⟨0x1c00008, [(32, 8)]⟩
  | .CVU_FEED32 => ⟨0x1c0000c, [(32, 8)]⟩
  | .CVU_RESULT_LO => ⟨0x1c00010, [(32, 8)]⟩
  | .CVU_RESULT_HI => ⟨0x1c00014, [(32, 8)]⟩
  | .PMC_CNT => ⟨0x1c80000, [(4, 64)]⟩
  | .PMC_SEL => ⟨0x1c80100, [(4, 64)]⟩
  | .PMC_GRP_CTRL => ⟨0x1c80200, [(16, 8)]⟩
  | .PMC_GRP_CFG2 => ⟨0x1c80204, [(16, 8)]⟩
  | .PMC_GRP_STAT => ⟨0x1c80208, [(16, 8)]⟩
  | .PMC_OVF_LO => ⟨0x1c80300, []⟩
  | .PMC_OVF_HI => ⟨0x1c80304, []⟩
  | .PMC_LC_LO => ⟨0x1c80308, []⟩
  | .PMC_LC_HI => ⟨0x1c8030c, []⟩
  | .CNV_STAT => ⟨0x1d00000, []⟩
  | .CNV_OFFSET => ⟨0x1d00004, []⟩
  | .CNV_PORT_STAT => ⟨0x1d00100, [(16, 3)]⟩
  | .CNV_PEER_INFO => ⟨0x1d00104, [(16, 3)]⟩
  | .CNV_RLB => ⟨0x1d00200, [(4, 32)]⟩
  | .CNV_CE_PEER => ⟨0x1d00400, [(64, 4), (4, 16)]⟩
  | .MGT_STAT => ⟨0x1e00000, []⟩
  | .MGT_FW_VER => ⟨0x1e00004, []⟩
  | .MGT_FW_RB => ⟨0x1e00008, []⟩
  | .MGT_THERM_CFG => ⟨0x1e00010, []⟩
  | .MGT_AGE_CFG => ⟨0x1e00014, []⟩
  | .MGT_THERM => ⟨0x1e00100, [(4, 24)]⟩
  | .MGT_VMON => ⟨0x1e00200, [(4, 16)]⟩
  | .MGT_AGE => ⟨0x1e00300, [(4, 32)]⟩
  | .MGT_BENCH => ⟨0x1e00400, [(4, 8)]⟩
  | .MGT_LOG_NEWEST => ⟨0x1e00500, []⟩
  | .MGT_LOG_MIRROR => ⟨0x1e00504, []⟩
  | .MGT_LOG_LOST => ⟨0x1e00508, []⟩
  | .MGT_CAL_SUB => ⟨0x1e00600, []⟩
  | .MGT_CAL_SEC => ⟨0x1e00604, []⟩
  | .MGT_CAL_ALARM => ⟨0x1e00608, []⟩
  | .PWR_STATE_CTRL => ⟨0x1f00000, []⟩
  | .PWR_STATE_STAT => ⟨0x1f00004, []⟩
  | .PWR_WAKE_EN => ⟨0x1f00008, []⟩
  | .PWR_WAKE_GPIO_LO => ⟨0x1f0000c, []⟩
  | .PWR_WAKE_GPIO_HI => ⟨0x1f00010, []⟩
  | .PWR_DOM_OFF => ⟨0x1f00020, []⟩
  | .PWR_DOM_ON => ⟨0x1f00024, []⟩
  | .PWR_DOM_STAT => ⟨0x1f00028, []⟩
  | .PWR_CLK_OFF => ⟨0x1f0002c, []⟩
  | .PWR_CLK_ON => ⟨0x1f00030, []⟩
  | .PWR_CLK_STAT => ⟨0x1f00034, []⟩
  | .PWR_REQ_STAT => ⟨0x1f00038, []⟩
  | .PWR_PACE_CTRL => ⟨0x1f00100, []⟩
  | .PWR_PACE_STAT => ⟨0x1f00104, []⟩
  | .PWR_PROBE_SEL => ⟨0x1f00108, []⟩
  | .PWR_PROBE_DATA => ⟨0x1f0010c, []⟩

/-- The fields of each register (reserved bits, which R11 makes read 0 and ignore writes, are not listed). -/
def Reg.fields : Reg → List FieldDesc
  | .GLB_ID => [⟨16, 16, .ro, .none, false⟩, ⟨8, 8, .ro, .none, false⟩, ⟨4, 4, .ro, .none, false⟩]
  | .GLB_STAT => [⟨0, 1, .w1c, .d, false⟩]
  | .GLB_LTIME_LO => [⟨0, 32, .ro, .none, false⟩]
  | .GLB_LTIME_HI => [⟨0, 32, .ro, .none, false⟩]
  | .GLB_LTIME_CTRL => [⟨0, 2, .rw, .d, false⟩, ⟨2, 10, .rw, .d, false⟩, ⟨12, 8, .rw, .s, false⟩]
  | .GLB_LTIME_STAT => [⟨0, 2, .ro, .none, false⟩, ⟨2, 1, .ro, .none, false⟩, ⟨3, 1, .ro, .none, false⟩, ⟨4, 1, .w1c, .d, false⟩, ⟨5, 1, .w1c, .d, false⟩]
  | .GLB_LTIME_RATE => [⟨0, 32, .ro, .none, false⟩]
  | .GLB_PTM_OFFSET_LO => [⟨0, 32, .ro, .none, false⟩]
  | .GLB_PTM_OFFSET_HI => [⟨0, 32, .ro, .none, false⟩]
  | .GLB_VF_STAT => [⟨0, 3, .ro, .none, false⟩, ⟨3, 1, .ro, .none, false⟩, ⟨4, 1, .w1c, .d, false⟩, ⟨8, 8, .ro, .none, false⟩]
  | .OWN_LOCK_STAT => [⟨0, 1, .ro, .none, false⟩, ⟨1, 1, .ro, .none, false⟩, ⟨2, 1, .w1c, .d, false⟩, ⟨3, 6, .ro, .none, false⟩, ⟨9, 16, .ro, .none, false⟩]
  | .OWN_TABLE_BASE_LO => [⟨0, 32, .ro, .none, false⟩]
  | .OWN_TABLE_BASE_HI => [⟨0, 32, .ro, .none, false⟩]
  | .OWN_TABLE_SIZE => [⟨0, 32, .ro, .none, false⟩]
  | .OWN_ASSIGN_ADDR_LO => [⟨12, 20, .rw, .s, false⟩]
  | .OWN_ASSIGN_ADDR_HI => [⟨0, 32, .rw, .s, false⟩]
  | .OWN_ASSIGN_CTRL => [⟨0, 16, .rw, .s, false⟩, ⟨16, 7, .rw, .s, false⟩, ⟨23, 1, .rw, .s, false⟩, ⟨24, 1, .rw, .s, false⟩, ⟨25, 1, .wo, .s, false⟩]
  | .OWN_ASSIGN_STAT => [⟨0, 1, .ro, .none, false⟩, ⟨1, 1, .w1c, .d, false⟩, ⟨2, 3, .ro, .none, false⟩, ⟨5, 1, .w1c, .d, false⟩]
  | .OWN_QUERY_ADDR_LO => [⟨0, 32, .rw, .d, false⟩]
  | .OWN_QUERY_ADDR_HI => [⟨0, 32, .rw, .d, false⟩]
  | .OWN_QUERY_RESULT => [⟨0, 8, .ro, .none, false⟩, ⟨8, 1, .ro, .none, false⟩]
  | .OWN_REFUSE_ADDR_LO => [⟨0, 32, .ro, .none, false⟩]
  | .OWN_REFUSE_ADDR_HI => [⟨0, 32, .ro, .none, false⟩]
  | .OWN_REFUSE_INFO => [⟨0, 8, .ro, .none, false⟩, ⟨8, 1, .ro, .none, false⟩, ⟨9, 1, .ro, .none, false⟩, ⟨10, 4, .ro, .none, false⟩, ⟨14, 1, .w1c, .d, false⟩, ⟨16, 16, .rc, .none, false⟩]
  | .OWN_PIN_WORLD => [⟨0, 32, .rws, .d, true⟩]
  | .OWN_CE_WORLD => [⟨0, 16, .rws, .d, true⟩]
  | .OWN_HOLD_PWR => [⟨0, 24, .rws, .d, true⟩]
  | .OWN_HOLD_CLK => [⟨0, 31, .rws, .d, true⟩]
  | .OWN_DEBUG_STAT => [⟨0, 1, .ro, .none, false⟩, ⟨1, 1, .ro, .none, false⟩, ⟨2, 1, .ro, .none, false⟩, ⟨3, 1, .ro, .none, false⟩, ⟨4, 1, .ro, .none, false⟩]
  | .OWN_SECURE_VF_LO => [⟨0, 32, .ro, .none, false⟩]
  | .OWN_SECURE_VF_HI => [⟨0, 32, .ro, .none, false⟩]
  | .HRQ_APERTURE_LO => [⟨28, 4, .rw, .d, false⟩]
  | .HRQ_APERTURE_HI => [⟨0, 32, .rw, .d, false⟩]
  | .HRQ_SQ_BASE_LO => [⟨12, 20, .rw, .s, false⟩]
  | .HRQ_SQ_BASE_HI => [⟨0, 32, .rw, .s, false⟩]
  | .HRQ_CQ_BASE_LO => [⟨12, 20, .rw, .s, false⟩]
  | .HRQ_CQ_BASE_HI => [⟨0, 32, .rw, .s, false⟩]
  | .HRQ_Q_CFG => [⟨0, 1, .rw, .d, false⟩, ⟨1, 5, .rw, .s, false⟩, ⟨6, 5, .rw, .s, false⟩, ⟨11, 3, .rw, .s, false⟩, ⟨14, 1, .rw, .s, false⟩, ⟨15, 1, .rw, .s, false⟩, ⟨16, 1, .wo, .d, false⟩]
  | .HRQ_Q_IRQ => [⟨0, 6, .rw, .d, false⟩, ⟨6, 1, .rw, .d, false⟩, ⟨8, 8, .rw, .d, false⟩, ⟨16, 16, .rw, .d, false⟩]
  | .HRQ_Q_STAT => [⟨0, 1, .ro, .none, false⟩, ⟨1, 1, .ro, .none, false⟩, ⟨2, 1, .w1c, .d, false⟩, ⟨3, 1, .w1c, .d, false⟩, ⟨4, 1, .ro, .none, false⟩, ⟨5, 1, .w1c, .d, false⟩, ⟨8, 8, .rc, .none, false⟩, ⟨16, 16, .ro, .none, false⟩]
  | .HRQ_Q_PTR => [⟨0, 16, .ro, .none, false⟩, ⟨16, 16, .ro, .none, false⟩]
  | .HRQ_SHADOW_LO => [⟨2, 30, .rw, .s, false⟩]
  | .HRQ_SHADOW_HI => [⟨0, 32, .rw, .s, false⟩]
  | .HRQ_Q_TIMEOUT => [⟨0, 16, .rw, .d, false⟩]
  | .HRQ_MSIX_TABLE => [⟨0, 32, .rw, .d, false⟩]
  | .HRQ_MSIX_PBA => [⟨0, 32, .ro, .none, false⟩]
  | .HRQ_FENCE_VAL_LO => [⟨0, 32, .ro, .none, false⟩]
  | .HRQ_FENCE_VAL_HI => [⟨0, 32, .ro, .none, false⟩]
  | .HRQ_FENCE_SIG_LO => [⟨0, 32, .wo, .d, false⟩]
  | .HRQ_FENCE_SIG_HI => [⟨0, 32, .wo, .d, false⟩]
  | .HRQ_FENCE_OWNER => [⟨0, 7, .rw, .s, false⟩]
  | .HRQ_EV_ROUTE => [⟨0, 1, .rw, .d, false⟩, ⟨1, 7, .rw, .d, false⟩, ⟨8, 6, .rw, .d, false⟩, ⟨14, 1, .rws, .d, true⟩, ⟨15, 1, .rws, .d, true⟩, ⟨16, 1, .rws, .d, true⟩, ⟨17, 1, .ro, .none, false⟩]
  | .HRQ_EV_PEND => [⟨0, 32, .w1c, .d, false⟩]
  | .HRQ_KEY_STAT => [⟨0, 1, .ro, .none, false⟩, ⟨1, 1, .ro, .none, false⟩, ⟨2, 8, .ro, .none, false⟩, ⟨10, 1, .ro, .none, false⟩, ⟨11, 4, .ro, .none, false⟩]
  | .HRQ_KEY_CTR_LO => [⟨0, 32, .ro, .none, false⟩]
  | .HRQ_KEY_CTR_HI => [⟨0, 32, .ro, .none, false⟩]
  | .MEM_BANK_CFG => [⟨0, 3, .rw, .d, false⟩, ⟨3, 1, .rws, .d, true⟩, ⟨4, 2, .rws, .l, true⟩]
  | .MEM_BANK_STAT => [⟨0, 6, .ro, .none, false⟩, ⟨6, 1, .ro, .none, false⟩, ⟨7, 1, .ro, .none, false⟩, ⟨8, 5, .ro, .none, false⟩, ⟨13, 1, .w1c, .d, false⟩, ⟨14, 1, .w1c, .d, false⟩]
  | .MEM_BANK_ECC => [⟨0, 16, .rc, .none, false⟩, ⟨16, 16, .rc, .none, false⟩]
  | .MEM_BANK_CONFLICT => [⟨0, 16, .rc, .none, false⟩, ⟨16, 16, .rc, .none, false⟩]
  | .MEM_DDR_ECC => [⟨0, 16, .rc, .none, false⟩, ⟨16, 16, .rc, .none, false⟩]
  | .MEM_DDR_STAT => [⟨0, 1, .w1c, .d, false⟩, ⟨1, 1, .ro, .none, false⟩]
  | .MEM_WALK_CTRL => [⟨0, 1, .rws, .d, true⟩, ⟨1, 20, .rws, .s, true⟩, ⟨21, 8, .rws, .s, true⟩]
  | .MEM_WALK_STAT => [⟨0, 5, .ro, .none, false⟩, ⟨5, 11, .ro, .none, false⟩, ⟨16, 8, .rc, .none, false⟩, ⟨24, 8, .ro, .none, false⟩]
  | .MEM_STAT => [⟨0, 1, .w1c, .d, false⟩]
  | .MEM_MOVE_SRC_LO => [⟨0, 32, .rw, .s, false⟩]
  | .MEM_MOVE_SRC_HI => [⟨0, 32, .rw, .s, false⟩]
  | .MEM_MOVE_DST_LO => [⟨0, 32, .rw, .s, false⟩]
  | .MEM_MOVE_DST_HI => [⟨0, 32, .rw, .s, false⟩]
  | .MEM_MOVE_CTRL => [⟨0, 16, .rw, .s, false⟩, ⟨16, 1, .wo, .s, false⟩]
  | .MEM_MOVE_STAT => [⟨0, 1, .ro, .none, false⟩, ⟨1, 1, .w1c, .d, false⟩, ⟨2, 3, .ro, .none, false⟩, ⟨5, 1, .w1c, .d, false⟩]
  | .DSP_SLOT_ASSIGN => [⟨0, 7, .rw, .l, false⟩, ⟨8, 4, .rw, .l, false⟩, ⟨12, 1, .ro, .none, false⟩]
  | .DSP_SLOT_STAT => [⟨0, 1, .ro, .none, false⟩, ⟨1, 2, .ro, .none, false⟩, ⟨3, 1, .ro, .none, false⟩, ⟨4, 1, .w1c, .d, false⟩]
  | .DSP_SLOT_SEQ => [⟨0, 32, .ro, .none, false⟩]
  | .DSP_CMP_CTRL => [⟨0, 7, .rw, .l, false⟩]
  | .DSP_CMP_UCOL => [⟨0, 30, .rws, .l, true⟩]
  | .DSP_CMP_STAT => [⟨0, 1, .ro, .none, false⟩, ⟨1, 1, .w1c, .d, false⟩, ⟨2, 1, .w1c, .d, false⟩, ⟨3, 1, .w1c, .d, false⟩, ⟨4, 1, .ro, .none, false⟩, ⟨5, 1, .ro, .none, false⟩]
  | .DSP_CMP_UR => [⟨0, 16, .rc, .none, false⟩, ⟨16, 16, .rc, .none, false⟩]
  | .DSP_CMP_UR_LAST => [⟨0, 9, .ro, .none, false⟩, ⟨16, 14, .ro, .none, false⟩, ⟨31, 1, .w1c, .d, false⟩]
  | .DSP_CMP_COV => [⟨0, 17, .ro, .none, false⟩]
  | .DSP_CNP_STAT => [⟨0, 7, .ro, .none, false⟩, ⟨7, 1, .ro, .none, false⟩, ⟨8, 1, .w1c, .d, true⟩, ⟨9, 1, .w1c, .d, true⟩, ⟨10, 1, .ro, .none, false⟩, ⟨11, 1, .ro, .none, false⟩, ⟨12, 1, .w1c, .d, false⟩]
  | .DSP_CNP_FAILCOL => [⟨0, 30, .rws, .l, true⟩]
  | .DSP_OST_CFG => [⟨0, 2, .ro, .none, false⟩, ⟨2, 1, .ro, .none, false⟩, ⟨3, 1, .ro, .none, false⟩]
  | .DSP_CNP_SEQ => [⟨0, 32, .ro, .none, false⟩]
  | .DSP_CW_EXP => [⟨0, 32, .rws, .l, true⟩]
  | .DSP_CW_CTRL => [⟨0, 1, .rws, .l, true⟩, ⟨1, 3, .rws, .l, true⟩, ⟨4, 3, .rws, .l, true⟩, ⟨7, 3, .rws, .l, true⟩, ⟨10, 3, .rws, .l, true⟩, ⟨13, 1, .wo, .d, true⟩]
  | .DSP_CW_XY => [⟨0, 14, .rws, .l, true⟩, ⟨16, 14, .rws, .l, true⟩]
  | .DSP_CW_WH => [⟨0, 14, .rws, .l, true⟩, ⟨16, 14, .rws, .l, true⟩]
  | .DSP_CW_CRC => [⟨0, 32, .ro, .none, false⟩]
  | .DSP_CW_RES => [⟨0, 2, .ro, .none, false⟩, ⟨2, 1, .ro, .none, false⟩, ⟨3, 1, .w1c, .d, true⟩, ⟨16, 16, .ro, .none, false⟩]
  | .DSP_CW_CNT => [⟨0, 8, .ro, .none, false⟩, ⟨8, 8, .ro, .none, false⟩, ⟨16, 8, .ro, .none, false⟩, ⟨24, 8, .ro, .none, false⟩]
  | .DSP_TG_CTRL => [⟨0, 1, .rw, .d, false⟩, ⟨1, 1, .wo, .d, false⟩, ⟨2, 1, .rw, .s, false⟩, ⟨3, 1, .rw, .s, false⟩, ⟨4, 10, .rw, .s, false⟩, ⟨14, 1, .rws, .d, true⟩]
  | .DSP_TG_H0 => [⟨0, 14, .rw, .s, false⟩, ⟨16, 14, .rw, .s, false⟩]
  | .DSP_TG_H1 => [⟨0, 14, .rw, .s, false⟩, ⟨16, 14, .rw, .s, false⟩]
  | .DSP_TG_V0 => [⟨0, 14, .rw, .s, false⟩, ⟨16, 14, .rw, .s, false⟩]
  | .DSP_TG_V1 => [⟨0, 14, .rw, .s, false⟩, ⟨16, 14, .rw, .s, false⟩]
  | .DSP_TG_PCLK => [⟨0, 32, .rw, .s, false⟩]
  | .DSP_TG_ROUTE => [⟨0, 5, .rw, .s, false⟩, ⟨5, 2, .rw, .s, false⟩]
  | .DSP_TG_GL => [⟨0, 2, .rw, .s, false⟩, ⟨2, 4, .rw, .s, false⟩, ⟨6, 2, .rw, .s, false⟩, ⟨8, 2, .rw, .s, false⟩, ⟨10, 1, .rw, .s, false⟩]
  | .DSP_TG_GL_OFS => [⟨0, 32, .rw, .d, false⟩]
  | .DSP_TG_STAT => [⟨0, 2, .ro, .none, false⟩, ⟨2, 2, .ro, .none, false⟩, ⟨4, 14, .ro, .none, false⟩, ⟨18, 1, .w1c, .d, false⟩, ⟨19, 1, .w1c, .d, false⟩, ⟨20, 1, .w1c, .d, false⟩, ⟨21, 1, .w1c, .d, false⟩]
  | .DSP_TG_SEQ => [⟨0, 32, .ro, .none, false⟩]
  | .DSP_TG_PHASE => [⟨0, 32, .ro, .none, false⟩]
  | .DSP_TG_EVSTAT => [⟨0, 6, .w1c, .d, false⟩]
  | .DSP_BL_CTRL => [⟨0, 2, .rw, .d, false⟩, ⟨2, 1, .rw, .d, false⟩, ⟨3, 3, .rw, .d, false⟩, ⟨6, 1, .rw, .d, false⟩]
  | .DSP_BL_PWM => [⟨0, 16, .rw, .l, false⟩, ⟨16, 16, .rw, .l, false⟩]
  | .DSP_PORT_CFG => [⟨0, 1, .rw, .d, false⟩, ⟨1, 2, .rw, .s, false⟩, ⟨3, 3, .rw, .s, false⟩, ⟨6, 3, .rw, .s, false⟩, ⟨9, 2, .rw, .s, false⟩, ⟨11, 1, .rws, .d, true⟩, ⟨12, 1, .rws, .d, true⟩, ⟨13, 13, .rw, .s, false⟩]
  | .DSP_PORT_STAT => [⟨0, 1, .ro, .none, false⟩, ⟨1, 1, .ro, .none, false⟩, ⟨2, 1, .ro, .none, false⟩, ⟨3, 1, .w1c, .d, false⟩, ⟨4, 1, .w1c, .d, false⟩, ⟨5, 1, .w1c, .d, false⟩, ⟨6, 1, .w1c, .d, false⟩, ⟨7, 1, .ro, .none, false⟩, ⟨8, 8, .rc, .none, false⟩]
  | .DSP_PORT_SC_CMD => [⟨0, 4, .rw, .d, false⟩, ⟨4, 20, .rw, .d, false⟩, ⟨24, 4, .rw, .d, false⟩, ⟨28, 1, .wo, .d, false⟩]
  | .DSP_PORT_SC_STAT => [⟨0, 1, .ro, .none, false⟩, ⟨1, 1, .w1c, .d, false⟩, ⟨2, 2, .ro, .none, false⟩]
  | .DSP_PORT_SC_DATA => [⟨0, 32, .rw, .d, false⟩]
  | .DSP_LAND_STAT => [⟨0, 16, .ro, .none, false⟩, ⟨16, 7, .ro, .none, false⟩, ⟨23, 1, .ro, .none, false⟩, ⟨24, 1, .ro, .none, false⟩, ⟨25, 1, .ro, .none, false⟩]
  | .DSP_LAND_SEQ => [⟨0, 32, .ro, .none, false⟩]
  | .DSP_LAND_LTIME_LO => [⟨0, 32, .ro, .none, false⟩]
  | .DSP_LAND_LTIME_HI => [⟨0, 32, .ro, .none, false⟩]
  | .DSP_PEND => [⟨0, 4, .ro, .none, false⟩]
  | .DSP_RUNWAY_CTRL => [⟨0, 2, .rw, .l, false⟩]
  | .DSP_RUNWAY_STAT => [⟨0, 3, .ro, .none, false⟩, ⟨3, 1, .w1c, .d, false⟩, ⟨4, 1, .w1c, .d, false⟩, ⟨5, 2, .ro, .none, false⟩]
  | .VIN_CS_ASSIGN => [⟨0, 7, .rw, .d, false⟩]
  | .VIN_CS_STAT => [⟨0, 2, .ro, .none, false⟩, ⟨2, 1, .ro, .none, false⟩, ⟨3, 1, .ro, .none, false⟩, ⟨4, 2, .ro, .none, false⟩, ⟨6, 1, .ro, .none, false⟩, ⟨7, 1, .ro, .none, false⟩, ⟨8, 2, .ro, .none, false⟩, ⟨10, 1, .w1c, .d, false⟩]
  | .VIN_CS_FRAMES => [⟨0, 32, .ro, .none, false⟩]
  | .VIN_CS_AGE => [⟨0, 16, .ro, .none, false⟩]
  | .VIN_CS_CNT => [⟨0, 8, .rc, .none, false⟩, ⟨8, 8, .rc, .none, false⟩, ⟨16, 8, .rc, .none, false⟩]
  | .VIN_CS_LL_SLACK => [⟨0, 16, .ro, .none, false⟩, ⟨16, 16, .ro, .none, false⟩]
  | .VIN_CS_LL_TRIM => [⟨0, 32, .ro, .none, false⟩]
  | .VIN_CS_LINE => [⟨0, 24, .ro, .none, false⟩]
  | .VIN_CS_FE_LO => [⟨0, 32, .ro, .none, false⟩]
  | .VIN_CS_FE_HI => [⟨0, 32, .ro, .none, false⟩]
  | .VIN_RX_CFG => [⟨0, 1, .rw, .d, false⟩, ⟨1, 3, .rw, .s, false⟩, ⟨4, 13, .rw, .s, false⟩, ⟨17, 3, .rw, .s, false⟩]
  | .VIN_RX_STAT => [⟨0, 1, .ro, .none, false⟩, ⟨1, 1, .ro, .none, false⟩, ⟨2, 1, .w1c, .d, false⟩, ⟨8, 8, .rc, .none, false⟩, ⟨16, 8, .rc, .none, false⟩]
  | .VIN_WE_STAT => [⟨0, 1, .ro, .none, false⟩, ⟨1, 1, .ro, .none, false⟩, ⟨2, 6, .ro, .none, false⟩]
  | .VIN_WE_PIX => [⟨0, 32, .ro, .none, false⟩]
  | .GPU_SCHED_CTRL => [⟨0, 2, .rws, .l, true⟩, ⟨2, 14, .rws, .d, true⟩]
  | .GPU_XLT_STAT => [⟨0, 14, .ro, .none, false⟩, ⟨14, 14, .ro, .none, false⟩]
  | .GPU_XLT_CNT => [⟨0, 16, .rc, .none, false⟩, ⟨16, 16, .rc, .none, false⟩]
  | .GPU_SC_STAT => [⟨0, 2, .ro, .none, false⟩, ⟨2, 3, .ro, .none, false⟩, ⟨5, 1, .ro, .none, false⟩, ⟨6, 7, .ro, .none, false⟩]
  | .GPU_CTX_ASSIGN => [⟨0, 7, .rw, .s, false⟩, ⟨7, 3, .rw, .s, false⟩, ⟨10, 3, .rw, .l, false⟩, ⟨13, 8, .rw, .l, false⟩, ⟨21, 1, .rws, .d, true⟩]
  | .GPU_CTX_STAT => [⟨0, 3, .ro, .none, false⟩, ⟨3, 2, .ro, .none, false⟩, ⟨5, 1, .ro, .none, false⟩, ⟨6, 1, .ro, .none, false⟩, ⟨7, 1, .ro, .none, false⟩, ⟨8, 1, .ro, .none, false⟩, ⟨9, 1, .w1c, .d, false⟩, ⟨10, 1, .w1c, .d, false⟩]
  | .GPU_CTX_USE => [⟨0, 14, .ro, .none, false⟩, ⟨16, 16, .rc, .none, false⟩]
  | .GPU_CTX_PIPES => [⟨0, 9, .ro, .none, false⟩]
  | .CPE_CH_ASSIGN => [⟨0, 7, .rw, .l, false⟩]
  | .CPE_CH_STAT => [⟨0, 1, .ro, .none, false⟩, ⟨1, 7, .ro, .none, false⟩, ⟨8, 1, .ro, .none, false⟩, ⟨9, 1, .w1c, .d, false⟩, ⟨10, 1, .w1c, .d, false⟩]
  | .CPE_ENG_STAT => [⟨0, 7, .ro, .none, false⟩]
  | .CPE_ENG_BYTES => [⟨0, 32, .ro, .none, false⟩]
  | .TCH_TE_ASSIGN => [⟨0, 7, .rw, .l, false⟩]
  | .TCH_TE_STAT => [⟨0, 2, .ro, .none, false⟩, ⟨2, 1, .ro, .none, false⟩, ⟨3, 1, .w1c, .d, false⟩, ⟨4, 1, .w1c, .d, false⟩, ⟨5, 1, .w1c, .d, false⟩, ⟨6, 3, .ro, .none, false⟩, ⟨9, 4, .ro, .none, false⟩]
  | .TCH_TE_SCAN => [⟨0, 32, .ro, .none, false⟩]
  | .TCH_TE_TIME => [⟨0, 20, .ro, .none, false⟩]
  | .TCH_RPT_HEAD => [⟨0, 12, .rw, .d, false⟩]
  | .TCH_RPT_STAT => [⟨0, 12, .ro, .none, false⟩, ⟨12, 1, .ro, .none, false⟩, ⟨16, 16, .rc, .none, false⟩]
  | .TCH_KEY_STATE => [⟨0, 32, .ro, .none, false⟩]
  | .TCH_WAKE_CFG => [⟨0, 1, .rw, .l, false⟩, ⟨1, 10, .rw, .l, false⟩, ⟨11, 1, .rw, .l, false⟩, ⟨12, 1, .w1c, .d, false⟩]
  | .TCH_WAKE_MASK => [⟨0, 32, .rw, .l, false⟩]
  | .TCH_FAIL_LO => [⟨0, 32, .ro, .none, false⟩]
  | .TCH_FAIL_HI => [⟨0, 32, .ro, .none, false⟩]
  | .TCH_TE_MODE => [⟨0, 1, .ro, .none, false⟩, ⟨1, 1, .ro, .none, false⟩]
  | .HAP_CH_ASSIGN => [⟨0, 7, .rw, .l, false⟩]
  | .HAP_CH_STAT => [⟨0, 3, .ro, .none, false⟩, ⟨3, 8, .ro, .none, false⟩, ⟨11, 1, .ro, .none, false⟩, ⟨12, 8, .ro, .none, false⟩, ⟨20, 3, .ro, .none, false⟩, ⟨23, 1, .w1c, .d, false⟩, ⟨24, 1, .w1c, .d, false⟩, ⟨25, 1, .w1c, .d, false⟩]
  | .HAP_CH_MEAS => [⟨0, 10, .ro, .none, false⟩, ⟨10, 8, .ro, .none, false⟩, ⟨18, 14, .ro, .none, false⟩]
  | .HAP_CH_CNT => [⟨0, 8, .rc, .none, false⟩, ⟨8, 8, .rc, .none, false⟩, ⟨16, 8, .rc, .none, false⟩]
  | .HAP_TRIG_CFG => [⟨0, 1, .rw, .d, false⟩, ⟨1, 3, .rw, .d, false⟩, ⟨4, 8, .rw, .d, false⟩, ⟨12, 2, .rw, .d, false⟩, ⟨14, 8, .rw, .d, false⟩, ⟨22, 1, .rw, .d, false⟩, ⟨23, 1, .rw, .d, false⟩]
  | .HAP_EFF_ASSIGN => [⟨0, 7, .rw, .l, false⟩]
  | .AUD_GLB_CTRL => [⟨0, 1, .rw, .d, false⟩, ⟨1, 1, .rw, .s, false⟩, ⟨2, 4, .rw, .s, false⟩]
  | .AUD_GLB_STAT => [⟨0, 1, .w1c, .d, false⟩, ⟨1, 1, .w1c, .d, false⟩]
  | .AUD_SAMPLE_LO => [⟨0, 32, .ro, .none, false⟩]
  | .AUD_SAMPLE_HI => [⟨0, 32, .ro, .none, false⟩]
  | .AUD_SAMPLE_LTIME_LO => [⟨0, 32, .ro, .none, false⟩]
  | .AUD_SAMPLE_LTIME_HI => [⟨0, 32, .ro, .none, false⟩]
  | .AUD_SRC_CFG => [⟨0, 7, .rw, .d, false⟩, ⟨7, 1, .rw, .d, false⟩, ⟨8, 3, .rw, .s, false⟩, ⟨11, 4, .rw, .s, false⟩]
  | .AUD_SNK_CFG => [⟨0, 7, .rw, .d, false⟩, ⟨8, 4, .rw, .s, false⟩, ⟨12, 4, .rw, .s, false⟩]
  | .AUD_BUS_ASSIGN => [⟨0, 7, .rw, .d, false⟩]
  | .AUD_TDM_CFG => [⟨0, 1, .rw, .d, false⟩, ⟨1, 1, .rw, .s, false⟩, ⟨2, 2, .rw, .s, false⟩, ⟨4, 5, .rw, .s, false⟩, ⟨9, 1, .rw, .s, false⟩, ⟨10, 2, .rw, .s, false⟩, ⟨12, 4, .rw, .s, false⟩, ⟨16, 1, .rw, .d, false⟩]
  | .AUD_TDM_STAT => [⟨0, 1, .ro, .none, false⟩, ⟨1, 1, .ro, .none, false⟩, ⟨2, 1, .ro, .none, false⟩, ⟨3, 1, .w1c, .d, false⟩, ⟨4, 1, .w1c, .d, false⟩]
  | .AUD_PDM_CFG => [⟨0, 1, .rw, .d, false⟩, ⟨1, 1, .rw, .s, false⟩]
  | .AUD_DPA_CFG => [⟨0, 1, .rw, .d, false⟩, ⟨1, 1, .rw, .s, false⟩, ⟨2, 4, .rw, .s, false⟩]
  | .AUD_BUS_STAT => [⟨0, 1, .ro, .none, false⟩, ⟨1, 1, .ro, .none, false⟩, ⟨2, 1, .ro, .none, false⟩, ⟨3, 1, .w1c, .d, false⟩]
  | .AUD_SNK_STAT => [⟨0, 1, .ro, .none, false⟩, ⟨1, 1, .ro, .none, false⟩, ⟨2, 1, .ro, .none, false⟩, ⟨3, 1, .w1c, .d, false⟩, ⟨4, 1, .w1c, .d, false⟩]
  | .AUD_AMP_CFG => [⟨0, 1, .rw, .d, false⟩, ⟨1, 6, .rw, .s, false⟩, ⟨7, 1, .rw, .s, false⟩, ⟨8, 16, .rw, .d, false⟩]
  | .AUD_AMP_MASK_LO => [⟨0, 32, .rw, .d, false⟩]
  | .AUD_AMP_MASK_HI => [⟨0, 32, .rw, .d, false⟩]
  | .AUD_STRM_POS => [⟨0, 22, .ro, .none, false⟩]
  | .AUD_STRM_LIMIT => [⟨0, 22, .rw, .d, false⟩]
  | .AUD_STRM_STAT => [⟨0, 1, .ro, .none, false⟩, ⟨1, 1, .w1c, .d, false⟩, ⟨16, 16, .rc, .none, false⟩]
  | .MBX_TX_DATA => [⟨0, 32, .rw, .d, false⟩]
  | .MBX_RX_DATA => [⟨0, 32, .ro, .none, false⟩]
  | .MBX_END_CTRL => [⟨0, 1, .rw, .d, false⟩, ⟨1, 1, .rw, .d, false⟩, ⟨2, 1, .rw, .d, false⟩, ⟨16, 16, .rw, .d, false⟩]
  | .MBX_TX_CTRL => [⟨0, 4, .wo, .d, false⟩]
  | .MBX_TX_STAT => [⟨0, 4, .ro, .none, false⟩, ⟨4, 4, .w1c, .d, false⟩, ⟨8, 4, .w1c, .d, false⟩, ⟨12, 1, .ro, .none, false⟩, ⟨13, 1, .ro, .none, false⟩, ⟨14, 1, .w1c, .d, false⟩]
  | .MBX_RX_STAT => [⟨0, 4, .ro, .none, false⟩, ⟨4, 2, .ro, .none, false⟩, ⟨6, 3, .ro, .none, false⟩, ⟨9, 4, .ro, .none, false⟩]
  | .MBX_RX_POP => [⟨0, 1, .wo, .d, false⟩]
  | .MBX_BIND => [⟨0, 8, .ro, .none, false⟩, ⟨8, 8, .ro, .none, false⟩, ⟨16, 1, .ro, .none, false⟩, ⟨17, 2, .ro, .none, false⟩, ⟨19, 1, .ro, .none, false⟩]
  | .CVU_ASSIGN => [⟨0, 7, .rw, .l, false⟩]
  | .CVU_CTRL => [⟨0, 2, .rw, .s, false⟩, ⟨2, 1, .wo, .s, false⟩, ⟨3, 1, .ro, .none, false⟩, ⟨4, 1, .w1c, .d, false⟩]
  | .CVU_FEED8 => [⟨0, 8, .wo, .s, false⟩]
  | .CVU_FEED32 => [⟨0, 32, .wo, .s, false⟩]
  | .CVU_RESULT_LO => [⟨0, 32, .ro, .none, false⟩]
  | .CVU_RESULT_HI => [⟨0, 32, .ro, .none, false⟩]
  | .PMC_CNT => [⟨0, 32, .rw, .d, false⟩]
  | .PMC_SEL => [⟨0, 8, .rw, .s, false⟩, ⟨8, 8, .rw, .s, false⟩, ⟨16, 7, .rw, .s, false⟩, ⟨23, 1, .rw, .s, false⟩, ⟨24, 1, .rw, .d, false⟩]
  | .PMC_GRP_CTRL => [⟨0, 2, .rw, .s, false⟩, ⟨2, 20, .rw, .s, false⟩, ⟨22, 1, .rw, .d, false⟩, ⟨23, 1, .rw, .d, false⟩, ⟨24, 7, .rw, .d, false⟩]
  | .PMC_GRP_CFG2 => [⟨0, 7, .rw, .d, false⟩, ⟨7, 16, .rw, .s, false⟩]
  | .PMC_GRP_STAT => [⟨0, 24, .ro, .none, false⟩, ⟨24, 1, .ro, .none, false⟩, ⟨25, 1, .w1c, .d, false⟩]
  | .PMC_OVF_LO => [⟨0, 32, .w1c, .d, false⟩]
  | .PMC_OVF_HI => [⟨0, 32, .w1c, .d, false⟩]
  | .PMC_LC_LO => [⟨0, 32, .w1c, .d, false⟩]
  | .PMC_LC_HI => [⟨0, 32, .w1c, .d, false⟩]
  | .CNV_STAT => [⟨0, 2, .ro, .none, false⟩, ⟨2, 4, .ro, .none, false⟩, ⟨6, 1, .ro, .none, false⟩, ⟨7, 1, .w1c, .d, false⟩, ⟨8, 1, .w1c, .d, false⟩]
  | .CNV_OFFSET => [⟨0, 32, .ro, .none, false⟩]
  | .CNV_PORT_STAT => [⟨0, 1, .ro, .none, false⟩, ⟨1, 1, .ro, .none, false⟩, ⟨2, 1, .w1c, .d, false⟩, ⟨3, 1, .w1c, .d, false⟩, ⟨4, 1, .ro, .none, false⟩, ⟨5, 4, .ro, .none, false⟩, ⟨16, 8, .rc, .none, false⟩, ⟨24, 8, .rc, .none, false⟩]
  | .CNV_PEER_INFO => [⟨0, 8, .ro, .none, false⟩, ⟨8, 6, .ro, .none, false⟩]
  | .CNV_RLB => [⟨0, 9, .rw, .l, false⟩, ⟨9, 2, .rw, .l, false⟩, ⟨11, 1, .rw, .l, false⟩, ⟨12, 4, .rw, .l, false⟩, ⟨16, 1, .rw, .l, false⟩]
  | .CNV_CE_PEER => [⟨0, 1, .rw, .l, false⟩, ⟨1, 2, .rw, .l, false⟩, ⟨3, 1, .rw, .l, false⟩, ⟨4, 2, .rw, .l, false⟩]
  | .MGT_STAT => [⟨0, 1, .ro, .none, false⟩, ⟨1, 1, .ro, .none, false⟩, ⟨2, 2, .ro, .none, false⟩, ⟨4, 2, .ro, .none, false⟩, ⟨6, 1, .ro, .none, false⟩, ⟨7, 1, .ro, .none, false⟩, ⟨8, 8, .rc, .none, false⟩, ⟨16, 1, .w1c, .d, false⟩]
  | .MGT_FW_VER => [⟨0, 32, .ro, .none, false⟩]
  | .MGT_FW_RB => [⟨0, 7, .ro, .none, false⟩, ⟨8, 7, .ro, .none, false⟩, ⟨15, 4, .ro, .none, false⟩]
  | .MGT_THERM_CFG => [⟨0, 8, .rws, .d, true⟩, ⟨8, 8, .rws, .d, true⟩]
  | .MGT_AGE_CFG => [⟨0, 16, .rws, .d, true⟩, ⟨16, 8, .rws, .d, true⟩]
  | .MGT_THERM => [⟨0, 12, .ro, .none, false⟩, ⟨12, 12, .rc, .none, false⟩, ⟨24, 1, .ro, .none, false⟩, ⟨25, 1, .ro, .none, false⟩]
  | .MGT_VMON => [⟨0, 13, .ro, .none, false⟩, ⟨13, 1, .w1c, .d, false⟩, ⟨14, 1, .w1c, .d, false⟩]
  | .MGT_AGE => [⟨0, 16, .ro, .none, false⟩, ⟨16, 1, .ro, .none, false⟩]
  | .MGT_BENCH => [⟨0, 10, .ro, .none, false⟩, ⟨10, 10, .ro, .none, false⟩, ⟨20, 10, .ro, .none, false⟩]
  | .MGT_LOG_NEWEST => [⟨0, 32, .ro, .none, false⟩]
  | .MGT_LOG_MIRROR => [⟨0, 32, .ro, .none, false⟩]
  | .MGT_LOG_LOST => [⟨0, 16, .rc, .none, false⟩]
  | .MGT_CAL_SUB => [⟨0, 15, .ro, .none, false⟩, ⟨15, 1, .ro, .none, false⟩, ⟨16, 1, .w1c, .d, false⟩, ⟨17, 1, .ro, .none, false⟩, ⟨18, 1, .ro, .none, false⟩, ⟨19, 8, .ro, .none, false⟩]
  | .MGT_CAL_SEC => [⟨0, 32, .ro, .none, false⟩]
  | .MGT_CAL_ALARM => [⟨0, 32, .ro, .none, false⟩]
  | .PWR_STATE_CTRL => [⟨0, 1, .wo, .d, false⟩, ⟨1, 6, .rws, .l, true⟩, ⟨7, 1, .rws, .l, true⟩, ⟨8, 6, .rws, .l, true⟩, ⟨14, 1, .rws, .l, true⟩]
  | .PWR_STATE_STAT => [⟨0, 2, .ro, .none, false⟩, ⟨2, 3, .ro, .none, false⟩, ⟨5, 2, .ro, .none, false⟩, ⟨7, 1, .w1c, .d, true⟩, ⟨8, 1, .w1c, .d, false⟩, ⟨9, 1, .w1c, .d, false⟩]
  | .PWR_WAKE_EN => [⟨0, 6, .rw, .l, false⟩]
  | .PWR_WAKE_GPIO_LO => [⟨0, 32, .rw, .l, false⟩]
  | .PWR_WAKE_GPIO_HI => [⟨0, 16, .rw, .l, false⟩]
  | .PWR_DOM_OFF => [⟨0, 23, .wo, .d, false⟩]
  | .PWR_DOM_ON => [⟨0, 23, .wo, .d, false⟩]
  | .PWR_DOM_STAT => [⟨0, 23, .ro, .none, false⟩]
  | .PWR_CLK_OFF => [⟨0, 31, .wo, .d, false⟩]
  | .PWR_CLK_ON => [⟨0, 31, .wo, .d, false⟩]
  | .PWR_CLK_STAT => [⟨0, 31, .ro, .none, false⟩]
  | .PWR_REQ_STAT => [⟨0, 1, .w1c, .d, false⟩, ⟨1, 1, .w1c, .d, false⟩, ⟨2, 1, .w1c, .d, false⟩, ⟨3, 1, .ro, .none, false⟩, ⟨4, 1, .w1c, .d, false⟩]
  | .PWR_PACE_CTRL => [⟨0, 2, .rws, .d, true⟩, ⟨2, 10, .rws, .d, true⟩, ⟨12, 10, .rws, .d, true⟩]
  | .PWR_PACE_STAT => [⟨0, 10, .ro, .none, false⟩, ⟨10, 10, .ro, .none, false⟩, ⟨20, 1, .ro, .none, false⟩, ⟨21, 1, .w1c, .d, false⟩, ⟨22, 1, .w1c, .d, false⟩, ⟨23, 1, .ro, .none, false⟩]
  | .PWR_PROBE_SEL => [⟨0, 6, .rw, .d, false⟩]
  | .PWR_PROBE_DATA => [⟨0, 16, .ro, .none, false⟩, ⟨16, 1, .ro, .none, false⟩]

/-- The value every member of a register has after a cold reset, where the register tables give a number (log entry 2 says what
the model takes where they name a source such as OTP or flash). -/
def Reg.resetWord : Reg → Nat
  | .GLB_ID => 0x880b0e0
  | .GLB_STAT => 0x0
  | .GLB_LTIME_LO => 0x0
  | .GLB_LTIME_HI => 0x0
  | .GLB_LTIME_CTRL => 0xc8028
  | .GLB_LTIME_STAT => 0x0
  | .GLB_LTIME_RATE => 0x0
  | .GLB_PTM_OFFSET_LO => 0x0
  | .GLB_PTM_OFFSET_HI => 0x0
  | .GLB_VF_STAT => 0x0
  | .OWN_LOCK_STAT => 0x0
  | .OWN_TABLE_BASE_LO => 0x0
  | .OWN_TABLE_BASE_HI => 0x0
  | .OWN_TABLE_SIZE => 0x0
  | .OWN_ASSIGN_ADDR_LO => 0x0
  | .OWN_ASSIGN_ADDR_HI => 0x0
  | .OWN_ASSIGN_CTRL => 0x0
  | .OWN_ASSIGN_STAT => 0x0
  | .OWN_QUERY_ADDR_LO => 0x0
  | .OWN_QUERY_ADDR_HI => 0x0
  | .OWN_QUERY_RESULT => 0x0
  | .OWN_REFUSE_ADDR_LO => 0x0
  | .OWN_REFUSE_ADDR_HI => 0x0
  | .OWN_REFUSE_INFO => 0x0
  | .OWN_PIN_WORLD => 0x0
  | .OWN_CE_WORLD => 0x0
  | .OWN_HOLD_PWR => 0x0
  | .OWN_HOLD_CLK => 0x0
  | .OWN_DEBUG_STAT => 0x0
  | .OWN_SECURE_VF_LO => 0x0
  | .OWN_SECURE_VF_HI => 0x0
  | .HRQ_APERTURE_LO => 0x0
  | .HRQ_APERTURE_HI => 0x0
  | .HRQ_SQ_BASE_LO => 0x0
  | .HRQ_SQ_BASE_HI => 0x0
  | .HRQ_CQ_BASE_LO => 0x0
  | .HRQ_CQ_BASE_HI => 0x0
  | .HRQ_Q_CFG => 0x108
  | .HRQ_Q_IRQ => 0x0
  | .HRQ_Q_STAT => 0x0
  | .HRQ_Q_PTR => 0x0
  | .HRQ_SHADOW_LO => 0x0
  | .HRQ_SHADOW_HI => 0x0
  | .HRQ_Q_TIMEOUT => 0x0
  | .HRQ_MSIX_TABLE => 0x0
  | .HRQ_MSIX_PBA => 0x0
  | .HRQ_FENCE_VAL_LO => 0x0
  | .HRQ_FENCE_VAL_HI => 0x0
  | .HRQ_FENCE_SIG_LO => 0x0
  | .HRQ_FENCE_SIG_HI => 0x0
  | .HRQ_FENCE_OWNER => 0x0
  | .HRQ_EV_ROUTE => 0x10000
  | .HRQ_EV_PEND => 0x0
  | .HRQ_KEY_STAT => 0x0
  | .HRQ_KEY_CTR_LO => 0x0
  | .HRQ_KEY_CTR_HI => 0x0
  | .MEM_BANK_CFG => 0x8
  | .MEM_BANK_STAT => 0x0
  | .MEM_BANK_ECC => 0x0
  | .MEM_BANK_CONFLICT => 0x0
  | .MEM_DDR_ECC => 0x0
  | .MEM_DDR_STAT => 0x0
  | .MEM_WALK_CTRL => 0xc8007d1
  | .MEM_WALK_STAT => 0x0
  | .MEM_STAT => 0x0
  | .MEM_MOVE_SRC_LO => 0x0
  | .MEM_MOVE_SRC_HI => 0x0
  | .MEM_MOVE_DST_LO => 0x0
  | .MEM_MOVE_DST_HI => 0x0
  | .MEM_MOVE_CTRL => 0x0
  | .MEM_MOVE_STAT => 0x0
  | .DSP_SLOT_ASSIGN => 0xf00
  | .DSP_SLOT_STAT => 0x0
  | .DSP_SLOT_SEQ => 0x0
  | .DSP_CMP_CTRL => 0x0
  | .DSP_CMP_UCOL => 0x0
  | .DSP_CMP_STAT => 0x0
  | .DSP_CMP_UR => 0x0
  | .DSP_CMP_UR_LAST => 0x0
  | .DSP_CMP_COV => 0x0
  | .DSP_CNP_STAT => 0x1
  | .DSP_CNP_FAILCOL => 0x3fffffff
  | .DSP_OST_CFG => 0x2
  | .DSP_CNP_SEQ => 0x0
  | .DSP_CW_EXP => 0x0
  | .DSP_CW_CTRL => 0xcb0
  | .DSP_CW_XY => 0x0
  | .DSP_CW_WH => 0x10001
  | .DSP_CW_CRC => 0x0
  | .DSP_CW_RES => 0x0
  | .DSP_CW_CNT => 0x0
  | .DSP_TG_CTRL => 0x0
  | .DSP_TG_H0 => 0x8980780
  | .DSP_TG_H1 => 0x2c0058
  | .DSP_TG_V0 => 0x4650438
  | .DSP_TG_V1 => 0x50004
  | .DSP_TG_PCLK => 0x3de0000
  | .DSP_TG_ROUTE => 0x1f
  | .DSP_TG_GL => 0x0
  | .DSP_TG_GL_OFS => 0x0
  | .DSP_TG_STAT => 0x0
  | .DSP_TG_SEQ => 0x0
  | .DSP_TG_PHASE => 0x0
  | .DSP_TG_EVSTAT => 0x0
  | .DSP_BL_CTRL => 0x0
  | .DSP_BL_PWM => 0x780
  | .DSP_PORT_CFG => 0x1770308
  | .DSP_PORT_STAT => 0x0
  | .DSP_PORT_SC_CMD => 0x0
  | .DSP_PORT_SC_STAT => 0x0
  | .DSP_PORT_SC_DATA => 0x0
  | .DSP_LAND_STAT => 0x0
  | .DSP_LAND_SEQ => 0x0
  | .DSP_LAND_LTIME_LO => 0x0
  | .DSP_LAND_LTIME_HI => 0x0
  | .DSP_PEND => 0x0
  | .DSP_RUNWAY_CTRL => 0x1
  | .DSP_RUNWAY_STAT => 0x0
  | .VIN_CS_ASSIGN => 0x0
  | .VIN_CS_STAT => 0x0
  | .VIN_CS_FRAMES => 0x0
  | .VIN_CS_AGE => 0xffff
  | .VIN_CS_CNT => 0x0
  | .VIN_CS_LL_SLACK => 0x0
  | .VIN_CS_LL_TRIM => 0x0
  | .VIN_CS_LINE => 0x0
  | .VIN_CS_FE_LO => 0x0
  | .VIN_CS_FE_HI => 0x0
  | .VIN_RX_CFG => 0x45dc8
  | .VIN_RX_STAT => 0x0
  | .VIN_WE_STAT => 0x0
  | .VIN_WE_PIX => 0x0
  | .GPU_SCHED_CTRL => 0xfa0
  | .GPU_XLT_STAT => 0x0
  | .GPU_XLT_CNT => 0x0
  | .GPU_SC_STAT => 0x0
  | .GPU_CTX_ASSIGN => 0x1fec00
  | .GPU_CTX_STAT => 0x0
  | .GPU_CTX_USE => 0x0
  | .GPU_CTX_PIPES => 0x0
  | .CPE_CH_ASSIGN => 0x0
  | .CPE_CH_STAT => 0x0
  | .CPE_ENG_STAT => 0x0
  | .CPE_ENG_BYTES => 0x0
  | .TCH_TE_ASSIGN => 0x0
  | .TCH_TE_STAT => 0x0
  | .TCH_TE_SCAN => 0x0
  | .TCH_TE_TIME => 0x0
  | .TCH_RPT_HEAD => 0x0
  | .TCH_RPT_STAT => 0x1000
  | .TCH_KEY_STATE => 0x0
  | .TCH_WAKE_CFG => 0xc8
  | .TCH_WAKE_MASK => 0x0
  | .TCH_FAIL_LO => 0x0
  | .TCH_FAIL_HI => 0x0
  | .TCH_TE_MODE => 0x0
  | .HAP_CH_ASSIGN => 0x0
  | .HAP_CH_STAT => 0x0
  | .HAP_CH_MEAS => 0x0
  | .HAP_CH_CNT => 0x0
  | .HAP_TRIG_CFG => 0x0
  | .HAP_EFF_ASSIGN => 0x0
  | .AUD_GLB_CTRL => 0x0
  | .AUD_GLB_STAT => 0x0
  | .AUD_SAMPLE_LO => 0x0
  | .AUD_SAMPLE_HI => 0x0
  | .AUD_SAMPLE_LTIME_LO => 0x0
  | .AUD_SAMPLE_LTIME_HI => 0x0
  | .AUD_SRC_CFG => 0x0
  | .AUD_SNK_CFG => 0x0
  | .AUD_BUS_ASSIGN => 0x0
  | .AUD_TDM_CFG => 0x4620
  | .AUD_TDM_STAT => 0x0
  | .AUD_PDM_CFG => 0x0
  | .AUD_DPA_CFG => 0x10
  | .AUD_BUS_STAT => 0x0
  | .AUD_SNK_STAT => 0x0
  | .AUD_AMP_CFG => 0x1f400
  | .AUD_AMP_MASK_LO => 0x0
  | .AUD_AMP_MASK_HI => 0x0
  | .AUD_STRM_POS => 0x0
  | .AUD_STRM_LIMIT => 0x0
  | .AUD_STRM_STAT => 0x0
  | .MBX_TX_DATA => 0x0
  | .MBX_RX_DATA => 0x0
  | .MBX_END_CTRL => 0x0
  | .MBX_TX_CTRL => 0x0
  | .MBX_TX_STAT => 0x0
  | .MBX_RX_STAT => 0x0
  | .MBX_RX_POP => 0x0
  | .MBX_BIND => 0x0
  | .CVU_ASSIGN => 0x0
  | .CVU_CTRL => 0x1
  | .CVU_FEED8 => 0x0
  | .CVU_FEED32 => 0x0
  | .CVU_RESULT_LO => 0x0
  | .CVU_RESULT_HI => 0x0
  | .PMC_CNT => 0x0
  | .PMC_SEL => 0x7f0000
  | .PMC_GRP_CTRL => 0xfa0
  | .PMC_GRP_CFG2 => 0x400
  | .PMC_GRP_STAT => 0x0
  | .PMC_OVF_LO => 0x0
  | .PMC_OVF_HI => 0x0
  | .PMC_LC_LO => 0x0
  | .PMC_LC_HI => 0x0
  | .CNV_STAT => 0x0
  | .CNV_OFFSET => 0x0
  | .CNV_PORT_STAT => 0x0
  | .CNV_PEER_INFO => 0x0
  | .CNV_RLB => 0x0
  | .CNV_CE_PEER => 0x0
  | .MGT_STAT => 0x0
  | .MGT_FW_VER => 0x0
  | .MGT_FW_RB => 0x0
  | .MGT_THERM_CFG => 0x8273
  | .MGT_AGE_CFG => 0x1770
  | .MGT_THERM => 0x0
  | .MGT_VMON => 0x0
  | .MGT_AGE => 0x0
  | .MGT_BENCH => 0x0
  | .MGT_LOG_NEWEST => 0x0
  | .MGT_LOG_MIRROR => 0x0
  | .MGT_LOG_LOST => 0x0
  | .MGT_CAL_SUB => 0x0
  | .MGT_CAL_SEC => 0x0
  | .MGT_CAL_ALARM => 0x0
  | .PWR_STATE_CTRL => 0x57e
  | .PWR_STATE_STAT => 0x0
  | .PWR_WAKE_EN => 0x3f
  | .PWR_WAKE_GPIO_LO => 0x0
  | .PWR_WAKE_GPIO_HI => 0x0
  | .PWR_DOM_OFF => 0x0
  | .PWR_DOM_ON => 0x0
  | .PWR_DOM_STAT => 0x7fffff
  | .PWR_CLK_OFF => 0x0
  | .PWR_CLK_ON => 0x0
  | .PWR_CLK_STAT => 0x7fffffff
  | .PWR_REQ_STAT => 0x0
  | .PWR_PACE_CTRL => 0x370bb8
  | .PWR_PACE_STAT => 0x2ee
  | .PWR_PROBE_SEL => 0x0
  | .PWR_PROBE_DATA => 0x0

/-! The fields by name. -/

def GLB_ID.DEVICE : Fld := ⟨.GLB_ID, 16, 16⟩
def GLB_ID.REVISION : Fld := ⟨.GLB_ID, 8, 8⟩
def GLB_ID.GRADE : Fld := ⟨.GLB_ID, 4, 4⟩
def GLB_STAT.WERR : Fld := ⟨.GLB_STAT, 0, 1⟩
def GLB_LTIME_LO.LTIME : Fld := ⟨.GLB_LTIME_LO, 0, 32⟩
def GLB_LTIME_HI.LTIME : Fld := ⟨.GLB_LTIME_HI, 0, 32⟩
def GLB_LTIME_CTRL.SRC : Fld := ⟨.GLB_LTIME_CTRL, 0, 2⟩
def GLB_LTIME_CTRL.PTM_INTERVAL_MS : Fld := ⟨.GLB_LTIME_CTRL, 2, 10⟩
def GLB_LTIME_CTRL.SLEW_PPM : Fld := ⟨.GLB_LTIME_CTRL, 12, 8⟩
def GLB_LTIME_STAT.SRC_ACTIVE : Fld := ⟨.GLB_LTIME_STAT, 0, 2⟩
def GLB_LTIME_STAT.LOCKED : Fld := ⟨.GLB_LTIME_STAT, 2, 1⟩
def GLB_LTIME_STAT.HOLDOVER : Fld := ⟨.GLB_LTIME_STAT, 3, 1⟩
def GLB_LTIME_STAT.CARRIED : Fld := ⟨.GLB_LTIME_STAT, 4, 1⟩
def GLB_LTIME_STAT.LOCK_LOST : Fld := ⟨.GLB_LTIME_STAT, 5, 1⟩
def GLB_LTIME_RATE.RATE : Fld := ⟨.GLB_LTIME_RATE, 0, 32⟩
def GLB_PTM_OFFSET_LO.OFFSET : Fld := ⟨.GLB_PTM_OFFSET_LO, 0, 32⟩
def GLB_PTM_OFFSET_HI.OFFSET : Fld := ⟨.GLB_PTM_OFFSET_HI, 0, 32⟩
def GLB_VF_STAT.STATE : Fld := ⟨.GLB_VF_STAT, 0, 3⟩
def GLB_VF_STAT.SECURE : Fld := ⟨.GLB_VF_STAT, 3, 1⟩
def GLB_VF_STAT.RESET_DONE : Fld := ⟨.GLB_VF_STAT, 4, 1⟩
def GLB_VF_STAT.LAST_RESET_US : Fld := ⟨.GLB_VF_STAT, 8, 8⟩
def OWN_LOCK_STAT.LOCKED : Fld := ⟨.OWN_LOCK_STAT, 0, 1⟩
def OWN_LOCK_STAT.LOCK_DEFAULT : Fld := ⟨.OWN_LOCK_STAT, 1, 1⟩
def OWN_LOCK_STAT.TABLE_REINIT : Fld := ⟨.OWN_LOCK_STAT, 2, 1⟩
def OWN_LOCK_STAT.EPOCH_FLOOR : Fld := ⟨.OWN_LOCK_STAT, 3, 6⟩
def OWN_LOCK_STAT.EPOCH : Fld := ⟨.OWN_LOCK_STAT, 9, 16⟩
def OWN_TABLE_BASE_LO.VALUE : Fld := ⟨.OWN_TABLE_BASE_LO, 0, 32⟩
def OWN_TABLE_BASE_HI.VALUE : Fld := ⟨.OWN_TABLE_BASE_HI, 0, 32⟩
def OWN_TABLE_SIZE.VALUE : Fld := ⟨.OWN_TABLE_SIZE, 0, 32⟩
def OWN_ASSIGN_ADDR_LO.ADDR : Fld := ⟨.OWN_ASSIGN_ADDR_LO, 12, 20⟩
def OWN_ASSIGN_ADDR_HI.ADDR : Fld := ⟨.OWN_ASSIGN_ADDR_HI, 0, 32⟩
def OWN_ASSIGN_CTRL.COUNT_M1 : Fld := ⟨.OWN_ASSIGN_CTRL, 0, 16⟩
def OWN_ASSIGN_CTRL.OWNER : Fld := ⟨.OWN_ASSIGN_CTRL, 16, 7⟩
def OWN_ASSIGN_CTRL.KEEP : Fld := ⟨.OWN_ASSIGN_CTRL, 23, 1⟩
def OWN_ASSIGN_CTRL.CLR_DIRTY : Fld := ⟨.OWN_ASSIGN_CTRL, 24, 1⟩
def OWN_ASSIGN_CTRL.GO : Fld := ⟨.OWN_ASSIGN_CTRL, 25, 1⟩
def OWN_ASSIGN_STAT.BUSY : Fld := ⟨.OWN_ASSIGN_STAT, 0, 1⟩
def OWN_ASSIGN_STAT.DONE : Fld := ⟨.OWN_ASSIGN_STAT, 1, 1⟩
def OWN_ASSIGN_STAT.RESULT : Fld := ⟨.OWN_ASSIGN_STAT, 2, 3⟩
def OWN_ASSIGN_STAT.WERR : Fld := ⟨.OWN_ASSIGN_STAT, 5, 1⟩
def OWN_QUERY_ADDR_LO.ADDR : Fld := ⟨.OWN_QUERY_ADDR_LO, 0, 32⟩
def OWN_QUERY_ADDR_HI.ADDR : Fld := ⟨.OWN_QUERY_ADDR_HI, 0, 32⟩
def OWN_QUERY_RESULT.BYTE : Fld := ⟨.OWN_QUERY_RESULT, 0, 8⟩
def OWN_QUERY_RESULT.NOT_POPULATED : Fld := ⟨.OWN_QUERY_RESULT, 8, 1⟩
def OWN_REFUSE_ADDR_LO.ADDR : Fld := ⟨.OWN_REFUSE_ADDR_LO, 0, 32⟩
def OWN_REFUSE_ADDR_HI.ADDR : Fld := ⟨.OWN_REFUSE_ADDR_HI, 0, 32⟩
def OWN_REFUSE_INFO.MID : Fld := ⟨.OWN_REFUSE_INFO, 0, 8⟩
def OWN_REFUSE_INFO.SECURE : Fld := ⟨.OWN_REFUSE_INFO, 8, 1⟩
def OWN_REFUSE_INFO.WRITE : Fld := ⟨.OWN_REFUSE_INFO, 9, 1⟩
def OWN_REFUSE_INFO.PATH : Fld := ⟨.OWN_REFUSE_INFO, 10, 4⟩
def OWN_REFUSE_INFO.VALID : Fld := ⟨.OWN_REFUSE_INFO, 14, 1⟩
def OWN_REFUSE_INFO.OWN_REFUSE_COUNT : Fld := ⟨.OWN_REFUSE_INFO, 16, 16⟩
def OWN_PIN_WORLD.WORLD : Fld := ⟨.OWN_PIN_WORLD, 0, 32⟩
def OWN_CE_WORLD.WORLD : Fld := ⟨.OWN_CE_WORLD, 0, 16⟩
def OWN_HOLD_PWR.HOLD : Fld := ⟨.OWN_HOLD_PWR, 0, 24⟩
def OWN_HOLD_CLK.HOLD : Fld := ⟨.OWN_HOLD_CLK, 0, 31⟩
def OWN_DEBUG_STAT.INV_S : Fld := ⟨.OWN_DEBUG_STAT, 0, 1⟩
def OWN_DEBUG_STAT.NINV_S : Fld := ⟨.OWN_DEBUG_STAT, 1, 1⟩
def OWN_DEBUG_STAT.INV_N : Fld := ⟨.OWN_DEBUG_STAT, 2, 1⟩
def OWN_DEBUG_STAT.NINV_N : Fld := ⟨.OWN_DEBUG_STAT, 3, 1⟩
def OWN_DEBUG_STAT.JTAG_OPEN : Fld := ⟨.OWN_DEBUG_STAT, 4, 1⟩
def OWN_SECURE_VF_LO.SECURE : Fld := ⟨.OWN_SECURE_VF_LO, 0, 32⟩
def OWN_SECURE_VF_HI.SECURE : Fld := ⟨.OWN_SECURE_VF_HI, 0, 32⟩
def HRQ_APERTURE_LO.BASE : Fld := ⟨.HRQ_APERTURE_LO, 28, 4⟩
def HRQ_APERTURE_HI.BASE : Fld := ⟨.HRQ_APERTURE_HI, 0, 32⟩
def HRQ_SQ_BASE_LO.BASE : Fld := ⟨.HRQ_SQ_BASE_LO, 12, 20⟩
def HRQ_SQ_BASE_HI.BASE : Fld := ⟨.HRQ_SQ_BASE_HI, 0, 32⟩
def HRQ_CQ_BASE_LO.BASE : Fld := ⟨.HRQ_CQ_BASE_LO, 12, 20⟩
def HRQ_CQ_BASE_HI.BASE : Fld := ⟨.HRQ_CQ_BASE_HI, 0, 32⟩
def HRQ_Q_CFG.ENABLE : Fld := ⟨.HRQ_Q_CFG, 0, 1⟩
def HRQ_Q_CFG.SQ_LOG2 : Fld := ⟨.HRQ_Q_CFG, 1, 5⟩
def HRQ_Q_CFG.CQ_LOG2 : Fld := ⟨.HRQ_Q_CFG, 6, 5⟩
def HRQ_Q_CFG.TYPE : Fld := ⟨.HRQ_Q_CFG, 11, 3⟩
def HRQ_Q_CFG.SHADOW_EN : Fld := ⟨.HRQ_Q_CFG, 14, 1⟩
def HRQ_Q_CFG.NO_SNOOP : Fld := ⟨.HRQ_Q_CFG, 15, 1⟩
def HRQ_Q_CFG.ABORT : Fld := ⟨.HRQ_Q_CFG, 16, 1⟩
def HRQ_Q_IRQ.VECTOR : Fld := ⟨.HRQ_Q_IRQ, 0, 6⟩
def HRQ_Q_IRQ.IRQ_EN : Fld := ⟨.HRQ_Q_IRQ, 6, 1⟩
def HRQ_Q_IRQ.COAL_COUNT : Fld := ⟨.HRQ_Q_IRQ, 8, 8⟩
def HRQ_Q_IRQ.COAL_US : Fld := ⟨.HRQ_Q_IRQ, 16, 16⟩
def HRQ_Q_STAT.ACTIVE : Fld := ⟨.HRQ_Q_STAT, 0, 1⟩
def HRQ_Q_STAT.HALTED : Fld := ⟨.HRQ_Q_STAT, 1, 1⟩
def HRQ_Q_STAT.DB_ERR : Fld := ⟨.HRQ_Q_STAT, 2, 1⟩
def HRQ_Q_STAT.HOST_ERR : Fld := ⟨.HRQ_Q_STAT, 3, 1⟩
def HRQ_Q_STAT.CQ_FULL : Fld := ⟨.HRQ_Q_STAT, 4, 1⟩
def HRQ_Q_STAT.WERR : Fld := ⟨.HRQ_Q_STAT, 5, 1⟩
def HRQ_Q_STAT.NOTICE_LOST : Fld := ⟨.HRQ_Q_STAT, 8, 8⟩
def HRQ_Q_STAT.IN_FLIGHT : Fld := ⟨.HRQ_Q_STAT, 16, 16⟩
def HRQ_Q_PTR.SQ_HEAD : Fld := ⟨.HRQ_Q_PTR, 0, 16⟩
def HRQ_Q_PTR.CQ_TAIL : Fld := ⟨.HRQ_Q_PTR, 16, 16⟩
def HRQ_SHADOW_LO.ADDR : Fld := ⟨.HRQ_SHADOW_LO, 2, 30⟩
def HRQ_SHADOW_HI.ADDR : Fld := ⟨.HRQ_SHADOW_HI, 0, 32⟩
def HRQ_Q_TIMEOUT.WAIT_MS : Fld := ⟨.HRQ_Q_TIMEOUT, 0, 16⟩
def HRQ_MSIX_TABLE.ENTRY : Fld := ⟨.HRQ_MSIX_TABLE, 0, 32⟩
def HRQ_MSIX_PBA.PENDING : Fld := ⟨.HRQ_MSIX_PBA, 0, 32⟩
def HRQ_FENCE_VAL_LO.VALUE : Fld := ⟨.HRQ_FENCE_VAL_LO, 0, 32⟩
def HRQ_FENCE_VAL_HI.VALUE : Fld := ⟨.HRQ_FENCE_VAL_HI, 0, 32⟩
def HRQ_FENCE_SIG_LO.VALUE : Fld := ⟨.HRQ_FENCE_SIG_LO, 0, 32⟩
def HRQ_FENCE_SIG_HI.VALUE : Fld := ⟨.HRQ_FENCE_SIG_HI, 0, 32⟩
def HRQ_FENCE_OWNER.OWNER : Fld := ⟨.HRQ_FENCE_OWNER, 0, 7⟩
def HRQ_EV_ROUTE.MSIX_EN : Fld := ⟨.HRQ_EV_ROUTE, 0, 1⟩
def HRQ_EV_ROUTE.FUNC : Fld := ⟨.HRQ_EV_ROUTE, 1, 7⟩
def HRQ_EV_ROUTE.VECTOR : Fld := ⟨.HRQ_EV_ROUTE, 8, 6⟩
def HRQ_EV_ROUTE.SP_IRQ : Fld := ⟨.HRQ_EV_ROUTE, 14, 1⟩
def HRQ_EV_ROUTE.FAULT : Fld := ⟨.HRQ_EV_ROUTE, 15, 1⟩
def HRQ_EV_ROUTE.ACHOLT : Fld := ⟨.HRQ_EV_ROUTE, 16, 1⟩
def HRQ_EV_ROUTE.SECURE_SRC : Fld := ⟨.HRQ_EV_ROUTE, 17, 1⟩
def HRQ_EV_PEND.PEND : Fld := ⟨.HRQ_EV_PEND, 0, 32⟩
def HRQ_KEY_STAT.PRESENT : Fld := ⟨.HRQ_KEY_STAT, 0, 1⟩
def HRQ_KEY_STAT.REVOKED : Fld := ⟨.HRQ_KEY_STAT, 1, 1⟩
def HRQ_KEY_STAT.RIGHTS : Fld := ⟨.HRQ_KEY_STAT, 2, 8⟩
def HRQ_KEY_STAT.THROTTLED : Fld := ⟨.HRQ_KEY_STAT, 10, 1⟩
def HRQ_KEY_STAT.FAILS : Fld := ⟨.HRQ_KEY_STAT, 11, 4⟩
def HRQ_KEY_CTR_LO.COUNTER : Fld := ⟨.HRQ_KEY_CTR_LO, 0, 32⟩
def HRQ_KEY_CTR_HI.COUNTER : Fld := ⟨.HRQ_KEY_CTR_HI, 0, 32⟩
def MEM_BANK_CFG.PRIMARY : Fld := ⟨.MEM_BANK_CFG, 0, 3⟩
def MEM_BANK_CFG.WALK_EN : Fld := ⟨.MEM_BANK_CFG, 3, 1⟩
def MEM_BANK_CFG.RET : Fld := ⟨.MEM_BANK_CFG, 4, 2⟩
def MEM_BANK_STAT.ROWS_USED : Fld := ⟨.MEM_BANK_STAT, 0, 6⟩
def MEM_BANK_STAT.MIGRATING : Fld := ⟨.MEM_BANK_STAT, 6, 1⟩
def MEM_BANK_STAT.RETIRED : Fld := ⟨.MEM_BANK_STAT, 7, 1⟩
def MEM_BANK_STAT.REPLACES : Fld := ⟨.MEM_BANK_STAT, 8, 5⟩
def MEM_BANK_STAT.UE : Fld := ⟨.MEM_BANK_STAT, 13, 1⟩
def MEM_BANK_STAT.ROW_LIMIT : Fld := ⟨.MEM_BANK_STAT, 14, 1⟩
def MEM_BANK_ECC.CE_COUNT : Fld := ⟨.MEM_BANK_ECC, 0, 16⟩
def MEM_BANK_ECC.UE_COUNT : Fld := ⟨.MEM_BANK_ECC, 16, 16⟩
def MEM_BANK_CONFLICT.LOST_M : Fld := ⟨.MEM_BANK_CONFLICT, 0, 16⟩
def MEM_BANK_CONFLICT.OTHER_M : Fld := ⟨.MEM_BANK_CONFLICT, 16, 16⟩
def MEM_DDR_ECC.CE_COUNT : Fld := ⟨.MEM_DDR_ECC, 0, 16⟩
def MEM_DDR_ECC.UE_COUNT : Fld := ⟨.MEM_DDR_ECC, 16, 16⟩
def MEM_DDR_STAT.UE : Fld := ⟨.MEM_DDR_STAT, 0, 1⟩
def MEM_DDR_STAT.ECC_EN : Fld := ⟨.MEM_DDR_STAT, 1, 1⟩
def MEM_WALK_CTRL.ENABLE : Fld := ⟨.MEM_WALK_CTRL, 0, 1⟩
def MEM_WALK_CTRL.WALK_INTERVAL_US : Fld := ⟨.MEM_WALK_CTRL, 1, 20⟩
def MEM_WALK_CTRL.REGION_TIMEOUT_US : Fld := ⟨.MEM_WALK_CTRL, 21, 8⟩
def MEM_WALK_STAT.BANK : Fld := ⟨.MEM_WALK_STAT, 0, 5⟩
def MEM_WALK_STAT.REGION : Fld := ⟨.MEM_WALK_STAT, 5, 11⟩
def MEM_WALK_STAT.SKIPPED : Fld := ⟨.MEM_WALK_STAT, 16, 8⟩
def MEM_WALK_STAT.SWEEPS : Fld := ⟨.MEM_WALK_STAT, 24, 8⟩
def MEM_STAT.WERR : Fld := ⟨.MEM_STAT, 0, 1⟩
def MEM_MOVE_SRC_LO.SRC : Fld := ⟨.MEM_MOVE_SRC_LO, 0, 32⟩
def MEM_MOVE_SRC_HI.SRC : Fld := ⟨.MEM_MOVE_SRC_HI, 0, 32⟩
def MEM_MOVE_DST_LO.DST : Fld := ⟨.MEM_MOVE_DST_LO, 0, 32⟩
def MEM_MOVE_DST_HI.DST : Fld := ⟨.MEM_MOVE_DST_HI, 0, 32⟩
def MEM_MOVE_CTRL.COUNT_M1 : Fld := ⟨.MEM_MOVE_CTRL, 0, 16⟩
def MEM_MOVE_CTRL.GO : Fld := ⟨.MEM_MOVE_CTRL, 16, 1⟩
def MEM_MOVE_STAT.BUSY : Fld := ⟨.MEM_MOVE_STAT, 0, 1⟩
def MEM_MOVE_STAT.DONE : Fld := ⟨.MEM_MOVE_STAT, 1, 1⟩
def MEM_MOVE_STAT.RESULT : Fld := ⟨.MEM_MOVE_STAT, 2, 3⟩
def MEM_MOVE_STAT.WERR : Fld := ⟨.MEM_MOVE_STAT, 5, 1⟩
def DSP_SLOT_ASSIGN.OWNER : Fld := ⟨.DSP_SLOT_ASSIGN, 0, 7⟩
def DSP_SLOT_ASSIGN.OUTPUT : Fld := ⟨.DSP_SLOT_ASSIGN, 8, 4⟩
def DSP_SLOT_ASSIGN.PENDING : Fld := ⟨.DSP_SLOT_ASSIGN, 12, 1⟩
def DSP_SLOT_STAT.VISIBLE : Fld := ⟨.DSP_SLOT_STAT, 0, 1⟩
def DSP_SLOT_STAT.HIDE_CAUSE : Fld := ⟨.DSP_SLOT_STAT, 1, 2⟩
def DSP_SLOT_STAT.OFF_FRAME : Fld := ⟨.DSP_SLOT_STAT, 3, 1⟩
def DSP_SLOT_STAT.WERR : Fld := ⟨.DSP_SLOT_STAT, 4, 1⟩
def DSP_SLOT_SEQ.LAND_SEQ : Fld := ⟨.DSP_SLOT_SEQ, 0, 32⟩
def DSP_CMP_CTRL.CSTAGE_OWNER : Fld := ⟨.DSP_CMP_CTRL, 0, 7⟩
def DSP_CMP_UCOL.UNDERRUN_COLOUR : Fld := ⟨.DSP_CMP_UCOL, 0, 30⟩
def DSP_CMP_STAT.SPARE : Fld := ⟨.DSP_CMP_STAT, 0, 1⟩
def DSP_CMP_STAT.WERR : Fld := ⟨.DSP_CMP_STAT, 1, 1⟩
def DSP_CMP_STAT.LATE : Fld := ⟨.DSP_CMP_STAT, 2, 1⟩
def DSP_CMP_STAT.LAYER_UR : Fld := ⟨.DSP_CMP_STAT, 3, 1⟩
def DSP_CMP_STAT.CSTAGE_PEND : Fld := ⟨.DSP_CMP_STAT, 4, 1⟩
def DSP_CMP_STAT.WB_ARMED : Fld := ⟨.DSP_CMP_STAT, 5, 1⟩
def DSP_CMP_UR.LAYER_UR_COUNT : Fld := ⟨.DSP_CMP_UR, 0, 16⟩
def DSP_CMP_UR.LATE_LINES : Fld := ⟨.DSP_CMP_UR, 16, 16⟩
def DSP_CMP_UR_LAST.SLOT : Fld := ⟨.DSP_CMP_UR_LAST, 0, 9⟩
def DSP_CMP_UR_LAST.LINE : Fld := ⟨.DSP_CMP_UR_LAST, 16, 14⟩
def DSP_CMP_UR_LAST.VALID : Fld := ⟨.DSP_CMP_UR_LAST, 31, 1⟩
def DSP_CMP_COV.PEAK_COV : Fld := ⟨.DSP_CMP_COV, 0, 17⟩
def DSP_CNP_STAT.OWNER : Fld := ⟨.DSP_CNP_STAT, 0, 7⟩
def DSP_CNP_STAT.ENABLED : Fld := ⟨.DSP_CNP_STAT, 7, 1⟩
def DSP_CNP_STAT.CBLANK : Fld := ⟨.DSP_CNP_STAT, 8, 1⟩
def DSP_CNP_STAT.CANOPY_FAULT : Fld := ⟨.DSP_CNP_STAT, 9, 1⟩
def DSP_CNP_STAT.FAULT_OUT : Fld := ⟨.DSP_CNP_STAT, 10, 1⟩
def DSP_CNP_STAT.PEND : Fld := ⟨.DSP_CNP_STAT, 11, 1⟩
def DSP_CNP_STAT.WERR : Fld := ⟨.DSP_CNP_STAT, 12, 1⟩
def DSP_CNP_FAILCOL.FAIL_COLOUR : Fld := ⟨.DSP_CNP_FAILCOL, 0, 30⟩
def DSP_OST_CFG.DEPTH : Fld := ⟨.DSP_OST_CFG, 0, 2⟩
def DSP_OST_CFG.DITHER : Fld := ⟨.DSP_OST_CFG, 2, 1⟩
def DSP_OST_CFG.FINAL_EN : Fld := ⟨.DSP_OST_CFG, 3, 1⟩
def DSP_CNP_SEQ.LAND_SEQ : Fld := ⟨.DSP_CNP_SEQ, 0, 32⟩
def DSP_CW_EXP.EXPECT : Fld := ⟨.DSP_CW_EXP, 0, 32⟩
def DSP_CW_CTRL.EN : Fld := ⟨.DSP_CW_CTRL, 0, 1⟩
def DSP_CW_CTRL.R_MATCH : Fld := ⟨.DSP_CW_CTRL, 1, 3⟩
def DSP_CW_CTRL.R_MISM : Fld := ⟨.DSP_CW_CTRL, 4, 3⟩
def DSP_CW_CTRL.R_INC : Fld := ⟨.DSP_CW_CTRL, 7, 3⟩
def DSP_CW_CTRL.R_REF : Fld := ⟨.DSP_CW_CTRL, 10, 3⟩
def DSP_CW_CTRL.INJ_REF : Fld := ⟨.DSP_CW_CTRL, 13, 1⟩
def DSP_CW_XY.X : Fld := ⟨.DSP_CW_XY, 0, 14⟩
def DSP_CW_XY.Y : Fld := ⟨.DSP_CW_XY, 16, 14⟩
def DSP_CW_WH.W : Fld := ⟨.DSP_CW_WH, 0, 14⟩
def DSP_CW_WH.H : Fld := ⟨.DSP_CW_WH, 16, 14⟩
def DSP_CW_CRC.CRC : Fld := ⟨.DSP_CW_CRC, 0, 32⟩
def DSP_CW_RES.RESULT : Fld := ⟨.DSP_CW_RES, 0, 2⟩
def DSP_CW_RES.VALID : Fld := ⟨.DSP_CW_RES, 2, 1⟩
def DSP_CW_RES.FAULT_LATCH : Fld := ⟨.DSP_CW_RES, 3, 1⟩
def DSP_CW_RES.SEQ_LO : Fld := ⟨.DSP_CW_RES, 16, 16⟩
def DSP_CW_CNT.MISM_COUNT : Fld := ⟨.DSP_CW_CNT, 0, 8⟩
def DSP_CW_CNT.INC_COUNT : Fld := ⟨.DSP_CW_CNT, 8, 8⟩
def DSP_CW_CNT.REF_COUNT : Fld := ⟨.DSP_CW_CNT, 16, 8⟩
def DSP_CW_CNT.MATCH_COUNT : Fld := ⟨.DSP_CW_CNT, 24, 8⟩
def DSP_TG_CTRL.ENABLE : Fld := ⟨.DSP_TG_CTRL, 0, 1⟩
def DSP_TG_CTRL.STOP_NOW : Fld := ⟨.DSP_TG_CTRL, 1, 1⟩
def DSP_TG_CTRL.HPOL : Fld := ⟨.DSP_TG_CTRL, 2, 1⟩
def DSP_TG_CTRL.VPOL : Fld := ⟨.DSP_TG_CTRL, 3, 1⟩
def DSP_TG_CTRL.LATCH_OFS : Fld := ⟨.DSP_TG_CTRL, 4, 10⟩
def DSP_TG_CTRL.SEC_LOCK : Fld := ⟨.DSP_TG_CTRL, 14, 1⟩
def DSP_TG_H0.HACT : Fld := ⟨.DSP_TG_H0, 0, 14⟩
def DSP_TG_H0.HTOTAL : Fld := ⟨.DSP_TG_H0, 16, 14⟩
def DSP_TG_H1.HFP : Fld := ⟨.DSP_TG_H1, 0, 14⟩
def DSP_TG_H1.HSW : Fld := ⟨.DSP_TG_H1, 16, 14⟩
def DSP_TG_V0.VACT : Fld := ⟨.DSP_TG_V0, 0, 14⟩
def DSP_TG_V0.VTOTAL : Fld := ⟨.DSP_TG_V0, 16, 14⟩
def DSP_TG_V1.VFP : Fld := ⟨.DSP_TG_V1, 0, 14⟩
def DSP_TG_V1.VSW : Fld := ⟨.DSP_TG_V1, 16, 14⟩
def DSP_TG_PCLK.M : Fld := ⟨.DSP_TG_PCLK, 0, 32⟩
def DSP_TG_ROUTE.PORT : Fld := ⟨.DSP_TG_ROUTE, 0, 5⟩
def DSP_TG_ROUTE.STREAM : Fld := ⟨.DSP_TG_ROUTE, 5, 2⟩
def DSP_TG_GL.SRC_TYPE : Fld := ⟨.DSP_TG_GL, 0, 2⟩
def DSP_TG_GL.SRC_IDX : Fld := ⟨.DSP_TG_GL, 2, 4⟩
def DSP_TG_GL.PEER : Fld := ⟨.DSP_TG_GL, 6, 2⟩
def DSP_TG_GL.DIV_M1 : Fld := ⟨.DSP_TG_GL, 8, 2⟩
def DSP_TG_GL.HARD : Fld := ⟨.DSP_TG_GL, 10, 1⟩
def DSP_TG_GL_OFS.OFFSET_NS : Fld := ⟨.DSP_TG_GL_OFS, 0, 32⟩
def DSP_TG_STAT.STATE : Fld := ⟨.DSP_TG_STAT, 0, 2⟩
def DSP_TG_STAT.GL_STATE : Fld := ⟨.DSP_TG_STAT, 2, 2⟩
def DSP_TG_STAT.LINE : Fld := ⟨.DSP_TG_STAT, 4, 14⟩
def DSP_TG_STAT.WERR : Fld := ⟨.DSP_TG_STAT, 18, 1⟩
def DSP_TG_STAT.AGG_LIMIT : Fld := ⟨.DSP_TG_STAT, 19, 1⟩
def DSP_TG_STAT.TIMING_ERR : Fld := ⟨.DSP_TG_STAT, 20, 1⟩
def DSP_TG_STAT.LOCK_RANGE : Fld := ⟨.DSP_TG_STAT, 21, 1⟩
def DSP_TG_SEQ.FRAME_SEQ : Fld := ⟨.DSP_TG_SEQ, 0, 32⟩
def DSP_TG_PHASE.PHASE_ERR_NS : Fld := ⟨.DSP_TG_PHASE, 0, 32⟩
def DSP_TG_EVSTAT.CAUSE : Fld := ⟨.DSP_TG_EVSTAT, 0, 6⟩
def DSP_BL_CTRL.EN_MODE : Fld := ⟨.DSP_BL_CTRL, 0, 2⟩
def DSP_BL_CTRL.POL : Fld := ⟨.DSP_BL_CTRL, 2, 1⟩
def DSP_BL_CTRL.PRESCALE : Fld := ⟨.DSP_BL_CTRL, 3, 3⟩
def DSP_BL_CTRL.SYNC : Fld := ⟨.DSP_BL_CTRL, 6, 1⟩
def DSP_BL_PWM.PERIOD : Fld := ⟨.DSP_BL_PWM, 0, 16⟩
def DSP_BL_PWM.DUTY : Fld := ⟨.DSP_BL_PWM, 16, 16⟩
def DSP_PORT_CFG.ENABLE : Fld := ⟨.DSP_PORT_CFG, 0, 1⟩
def DSP_PORT_CFG.MODE : Fld := ⟨.DSP_PORT_CFG, 1, 2⟩
def DSP_PORT_CFG.RATE : Fld := ⟨.DSP_PORT_CFG, 3, 3⟩
def DSP_PORT_CFG.LANES : Fld := ⟨.DSP_PORT_CFG, 6, 3⟩
def DSP_PORT_CFG.BPC : Fld := ⟨.DSP_PORT_CFG, 9, 2⟩
def DSP_PORT_CFG.SEC_PORT : Fld := ⟨.DSP_PORT_CFG, 11, 1⟩
def DSP_PORT_CFG.LINKDN_FAULT : Fld := ⟨.DSP_PORT_CFG, 12, 1⟩
def DSP_PORT_CFG.DSI_MBPS : Fld := ⟨.DSP_PORT_CFG, 13, 13⟩
def DSP_PORT_STAT.LINK_UP : Fld := ⟨.DSP_PORT_STAT, 0, 1⟩
def DSP_PORT_STAT.HPD : Fld := ⟨.DSP_PORT_STAT, 1, 1⟩
def DSP_PORT_STAT.TRAINING : Fld := ⟨.DSP_PORT_STAT, 2, 1⟩
def DSP_PORT_STAT.TRAIN_FAIL : Fld := ⟨.DSP_PORT_STAT, 3, 1⟩
def DSP_PORT_STAT.LINK_LOST : Fld := ⟨.DSP_PORT_STAT, 4, 1⟩
def DSP_PORT_STAT.BW_LIMIT : Fld := ⟨.DSP_PORT_STAT, 5, 1⟩
def DSP_PORT_STAT.WERR : Fld := ⟨.DSP_PORT_STAT, 6, 1⟩
def DSP_PORT_STAT.DIR : Fld := ⟨.DSP_PORT_STAT, 7, 1⟩
def DSP_PORT_STAT.RETRAINS : Fld := ⟨.DSP_PORT_STAT, 8, 8⟩
def DSP_PORT_SC_CMD.KIND : Fld := ⟨.DSP_PORT_SC_CMD, 0, 4⟩
def DSP_PORT_SC_CMD.ADDR : Fld := ⟨.DSP_PORT_SC_CMD, 4, 20⟩
def DSP_PORT_SC_CMD.LEN_M1 : Fld := ⟨.DSP_PORT_SC_CMD, 24, 4⟩
def DSP_PORT_SC_CMD.GO : Fld := ⟨.DSP_PORT_SC_CMD, 28, 1⟩
def DSP_PORT_SC_STAT.BUSY : Fld := ⟨.DSP_PORT_SC_STAT, 0, 1⟩
def DSP_PORT_SC_STAT.DONE : Fld := ⟨.DSP_PORT_SC_STAT, 1, 1⟩
def DSP_PORT_SC_STAT.RESULT : Fld := ⟨.DSP_PORT_SC_STAT, 2, 2⟩
def DSP_PORT_SC_DATA.DATA : Fld := ⟨.DSP_PORT_SC_DATA, 0, 32⟩
def DSP_LAND_STAT.TAG : Fld := ⟨.DSP_LAND_STAT, 0, 16⟩
def DSP_LAND_STAT.FUNC : Fld := ⟨.DSP_LAND_STAT, 16, 7⟩
def DSP_LAND_STAT.PARTIAL : Fld := ⟨.DSP_LAND_STAT, 23, 1⟩
def DSP_LAND_STAT.LATE : Fld := ⟨.DSP_LAND_STAT, 24, 1⟩
def DSP_LAND_STAT.TAPS : Fld := ⟨.DSP_LAND_STAT, 25, 1⟩
def DSP_LAND_SEQ.SEQ : Fld := ⟨.DSP_LAND_SEQ, 0, 32⟩
def DSP_LAND_LTIME_LO.LTIME_LO : Fld := ⟨.DSP_LAND_LTIME_LO, 0, 32⟩
def DSP_LAND_LTIME_HI.LTIME_HI : Fld := ⟨.DSP_LAND_LTIME_HI, 0, 32⟩
def DSP_PEND.GROUPS : Fld := ⟨.DSP_PEND, 0, 4⟩
def DSP_RUNWAY_CTRL.LOW_MARK : Fld := ⟨.DSP_RUNWAY_CTRL, 0, 2⟩
def DSP_RUNWAY_STAT.LEVEL : Fld := ⟨.DSP_RUNWAY_STAT, 0, 3⟩
def DSP_RUNWAY_STAT.LOW : Fld := ⟨.DSP_RUNWAY_STAT, 3, 1⟩
def DSP_RUNWAY_STAT.EMPTY : Fld := ⟨.DSP_RUNWAY_STAT, 4, 1⟩
def DSP_RUNWAY_STAT.MIN_LEVEL : Fld := ⟨.DSP_RUNWAY_STAT, 5, 2⟩
def VIN_CS_ASSIGN.OWNER : Fld := ⟨.VIN_CS_ASSIGN, 0, 7⟩
def VIN_CS_STAT.STATE : Fld := ⟨.VIN_CS_STAT, 0, 2⟩
def VIN_CS_STAT.MODE : Fld := ⟨.VIN_CS_STAT, 2, 1⟩
def VIN_CS_STAT.CONFIGURED : Fld := ⟨.VIN_CS_STAT, 3, 1⟩
def VIN_CS_STAT.VIEW : Fld := ⟨.VIN_CS_STAT, 4, 2⟩
def VIN_CS_STAT.STANDING : Fld := ⟨.VIN_CS_STAT, 6, 1⟩
def VIN_CS_STAT.PINNED : Fld := ⟨.VIN_CS_STAT, 7, 1⟩
def VIN_CS_STAT.NEWEST : Fld := ⟨.VIN_CS_STAT, 8, 2⟩
def VIN_CS_STAT.WERR : Fld := ⟨.VIN_CS_STAT, 10, 1⟩
def VIN_CS_FRAMES.FRAMES : Fld := ⟨.VIN_CS_FRAMES, 0, 32⟩
def VIN_CS_AGE.FRAME_AGE_MS : Fld := ⟨.VIN_CS_AGE, 0, 16⟩
def VIN_CS_CNT.INC_COUNT : Fld := ⟨.VIN_CS_CNT, 0, 8⟩
def VIN_CS_CNT.DROP_COUNT : Fld := ⟨.VIN_CS_CNT, 8, 8⟩
def VIN_CS_CNT.SKIP_COUNT : Fld := ⟨.VIN_CS_CNT, 16, 8⟩
def VIN_CS_LL_SLACK.SLACK_MIN : Fld := ⟨.VIN_CS_LL_SLACK, 0, 16⟩
def VIN_CS_LL_SLACK.SLACK_MAX : Fld := ⟨.VIN_CS_LL_SLACK, 16, 16⟩
def VIN_CS_LL_TRIM.LL_TRIM_NS : Fld := ⟨.VIN_CS_LL_TRIM, 0, 32⟩
def VIN_CS_LINE.LINE_PERIOD : Fld := ⟨.VIN_CS_LINE, 0, 24⟩
def VIN_CS_FE_LO.FE_LTIME_LO : Fld := ⟨.VIN_CS_FE_LO, 0, 32⟩
def VIN_CS_FE_HI.FE_LTIME_HI : Fld := ⟨.VIN_CS_FE_HI, 0, 32⟩
def VIN_RX_CFG.ENABLE : Fld := ⟨.VIN_RX_CFG, 0, 1⟩
def VIN_RX_CFG.LANES : Fld := ⟨.VIN_RX_CFG, 1, 3⟩
def VIN_RX_CFG.MBPS : Fld := ⟨.VIN_RX_CFG, 4, 13⟩
def VIN_RX_CFG.GEAR : Fld := ⟨.VIN_RX_CFG, 17, 3⟩
def VIN_RX_STAT.LINK_UP : Fld := ⟨.VIN_RX_STAT, 0, 1⟩
def VIN_RX_STAT.DIR : Fld := ⟨.VIN_RX_STAT, 1, 1⟩
def VIN_RX_STAT.WERR : Fld := ⟨.VIN_RX_STAT, 2, 1⟩
def VIN_RX_STAT.ECC_CORR : Fld := ⟨.VIN_RX_STAT, 8, 8⟩
def VIN_RX_STAT.CRC_ERR : Fld := ⟨.VIN_RX_STAT, 16, 8⟩
def VIN_WE_STAT.BUSY : Fld := ⟨.VIN_WE_STAT, 0, 1⟩
def VIN_WE_STAT.PREEMPTED : Fld := ⟨.VIN_WE_STAT, 1, 1⟩
def VIN_WE_STAT.QUEUED : Fld := ⟨.VIN_WE_STAT, 2, 6⟩
def VIN_WE_PIX.PIXELS_M : Fld := ⟨.VIN_WE_PIX, 0, 32⟩
def GPU_SCHED_CTRL.RESERVE : Fld := ⟨.GPU_SCHED_CTRL, 0, 2⟩
def GPU_SCHED_CTRL.TIMESLICE_US : Fld := ⟨.GPU_SCHED_CTRL, 2, 14⟩
def GPU_XLT_STAT.USED_KIB : Fld := ⟨.GPU_XLT_STAT, 0, 14⟩
def GPU_XLT_STAT.PINNED_KIB : Fld := ⟨.GPU_XLT_STAT, 14, 14⟩
def GPU_XLT_CNT.MISSES : Fld := ⟨.GPU_XLT_CNT, 0, 16⟩
def GPU_XLT_CNT.EVICTIONS : Fld := ⟨.GPU_XLT_CNT, 16, 16⟩
def GPU_SC_STAT.ROLE : Fld := ⟨.GPU_SC_STAT, 0, 2⟩
def GPU_SC_STAT.LOGICAL : Fld := ⟨.GPU_SC_STAT, 2, 3⟩
def GPU_SC_STAT.BUSY : Fld := ⟨.GPU_SC_STAT, 5, 1⟩
def GPU_SC_STAT.CTX : Fld := ⟨.GPU_SC_STAT, 6, 7⟩
def GPU_CTX_ASSIGN.OWNER : Fld := ⟨.GPU_CTX_ASSIGN, 0, 7⟩
def GPU_CTX_ASSIGN.QUEUE : Fld := ⟨.GPU_CTX_ASSIGN, 7, 3⟩
def GPU_CTX_ASSIGN.MAX_PRIO : Fld := ⟨.GPU_CTX_ASSIGN, 10, 3⟩
def GPU_CTX_ASSIGN.CLUSTER_MASK : Fld := ⟨.GPU_CTX_ASSIGN, 13, 8⟩
def GPU_CTX_ASSIGN.NO_EVICT : Fld := ⟨.GPU_CTX_ASSIGN, 21, 1⟩
def GPU_CTX_STAT.PRIORITY : Fld := ⟨.GPU_CTX_STAT, 0, 3⟩
def GPU_CTX_STAT.STATE : Fld := ⟨.GPU_CTX_STAT, 3, 2⟩
def GPU_CTX_STAT.EVICTED : Fld := ⟨.GPU_CTX_STAT, 5, 1⟩
def GPU_CTX_STAT.GUILTY : Fld := ⟨.GPU_CTX_STAT, 6, 1⟩
def GPU_CTX_STAT.TILE_OOM : Fld := ⟨.GPU_CTX_STAT, 7, 1⟩
def GPU_CTX_STAT.PASS_OPEN : Fld := ⟨.GPU_CTX_STAT, 8, 1⟩
def GPU_CTX_STAT.LATE : Fld := ⟨.GPU_CTX_STAT, 9, 1⟩
def GPU_CTX_STAT.WERR : Fld := ⟨.GPU_CTX_STAT, 10, 1⟩
def GPU_CTX_USE.ARENA_PEAK_KIB : Fld := ⟨.GPU_CTX_USE, 0, 14⟩
def GPU_CTX_USE.INCR_RENDERS : Fld := ⟨.GPU_CTX_USE, 16, 16⟩
def GPU_CTX_PIPES.PIPES : Fld := ⟨.GPU_CTX_PIPES, 0, 9⟩
def CPE_CH_ASSIGN.OWNER : Fld := ⟨.CPE_CH_ASSIGN, 0, 7⟩
def CPE_CH_STAT.BUSY : Fld := ⟨.CPE_CH_STAT, 0, 1⟩
def CPE_CH_STAT.IN_FLIGHT : Fld := ⟨.CPE_CH_STAT, 1, 7⟩
def CPE_CH_STAT.PENDING : Fld := ⟨.CPE_CH_STAT, 8, 1⟩
def CPE_CH_STAT.WERR : Fld := ⟨.CPE_CH_STAT, 9, 1⟩
def CPE_CH_STAT.FAULT : Fld := ⟨.CPE_CH_STAT, 10, 1⟩
def CPE_ENG_STAT.IN_FLIGHT : Fld := ⟨.CPE_ENG_STAT, 0, 7⟩
def CPE_ENG_BYTES.GIB_MOVED : Fld := ⟨.CPE_ENG_BYTES, 0, 32⟩
def TCH_TE_ASSIGN.OWNER : Fld := ⟨.TCH_TE_ASSIGN, 0, 7⟩
def TCH_TE_STAT.STATE : Fld := ⟨.TCH_TE_STAT, 0, 2⟩
def TCH_TE_STAT.CONFIGURED : Fld := ⟨.TCH_TE_STAT, 2, 1⟩
def TCH_TE_STAT.OVERRUN : Fld := ⟨.TCH_TE_STAT, 3, 1⟩
def TCH_TE_STAT.WERR : Fld := ⟨.TCH_TE_STAT, 4, 1⟩
def TCH_TE_STAT.MAP_DENIED : Fld := ⟨.TCH_TE_STAT, 5, 1⟩
def TCH_TE_STAT.SPARES_USED : Fld := ⟨.TCH_TE_STAT, 6, 3⟩
def TCH_TE_STAT.CONTACTS : Fld := ⟨.TCH_TE_STAT, 9, 4⟩
def TCH_TE_SCAN.SCAN : Fld := ⟨.TCH_TE_SCAN, 0, 32⟩
def TCH_TE_TIME.ACTUAL_US : Fld := ⟨.TCH_TE_TIME, 0, 20⟩
def TCH_RPT_HEAD.HEAD : Fld := ⟨.TCH_RPT_HEAD, 0, 12⟩
def TCH_RPT_STAT.TAIL : Fld := ⟨.TCH_RPT_STAT, 0, 12⟩
def TCH_RPT_STAT.PHASE : Fld := ⟨.TCH_RPT_STAT, 12, 1⟩
def TCH_RPT_STAT.LOST : Fld := ⟨.TCH_RPT_STAT, 16, 16⟩
def TCH_KEY_STATE.TOUCHED : Fld := ⟨.TCH_KEY_STATE, 0, 32⟩
def TCH_WAKE_CFG.WAKE_EN : Fld := ⟨.TCH_WAKE_CFG, 0, 1⟩
def TCH_WAKE_CFG.WAKE_MS : Fld := ⟨.TCH_WAKE_CFG, 1, 10⟩
def TCH_WAKE_CFG.PIN_EN : Fld := ⟨.TCH_WAKE_CFG, 11, 1⟩
def TCH_WAKE_CFG.PIN_ASSERTED : Fld := ⟨.TCH_WAKE_CFG, 12, 1⟩
def TCH_WAKE_MASK.OBJECTS : Fld := ⟨.TCH_WAKE_MASK, 0, 32⟩
def TCH_FAIL_LO.LINES : Fld := ⟨.TCH_FAIL_LO, 0, 32⟩
def TCH_FAIL_HI.LINES : Fld := ⟨.TCH_FAIL_HI, 0, 32⟩
def TCH_TE_MODE.GLOVE : Fld := ⟨.TCH_TE_MODE, 0, 1⟩
def TCH_TE_MODE.HOVER : Fld := ⟨.TCH_TE_MODE, 1, 1⟩
def HAP_CH_ASSIGN.OWNER : Fld := ⟨.HAP_CH_ASSIGN, 0, 7⟩
def HAP_CH_STAT.STATE : Fld := ⟨.HAP_CH_STAT, 0, 3⟩
def HAP_CH_STAT.EFFECT : Fld := ⟨.HAP_CH_STAT, 3, 8⟩
def HAP_CH_STAT.QUEUED : Fld := ⟨.HAP_CH_STAT, 11, 1⟩
def HAP_CH_STAT.QEFFECT : Fld := ⟨.HAP_CH_STAT, 12, 8⟩
def HAP_CH_STAT.CAUSE : Fld := ⟨.HAP_CH_STAT, 20, 3⟩
def HAP_CH_STAT.ACC_FALLBACK : Fld := ⟨.HAP_CH_STAT, 23, 1⟩
def HAP_CH_STAT.EFF_DENIED : Fld := ⟨.HAP_CH_STAT, 24, 1⟩
def HAP_CH_STAT.WERR : Fld := ⟨.HAP_CH_STAT, 25, 1⟩
def HAP_CH_MEAS.F0_MEAS : Fld := ⟨.HAP_CH_MEAS, 0, 10⟩
def HAP_CH_MEAS.TCOIL : Fld := ⟨.HAP_CH_MEAS, 10, 8⟩
def HAP_CH_MEAS.RDC_MEAS : Fld := ⟨.HAP_CH_MEAS, 18, 14⟩
def HAP_CH_CNT.REPL_COUNT : Fld := ⟨.HAP_CH_CNT, 0, 8⟩
def HAP_CH_CNT.ILIM_COUNT : Fld := ⟨.HAP_CH_CNT, 8, 8⟩
def HAP_CH_CNT.DROP_COUNT : Fld := ⟨.HAP_CH_CNT, 16, 8⟩
def HAP_TRIG_CFG.EN : Fld := ⟨.HAP_TRIG_CFG, 0, 1⟩
def HAP_TRIG_CFG.CH : Fld := ⟨.HAP_TRIG_CFG, 1, 3⟩
def HAP_TRIG_CFG.EFFECT : Fld := ⟨.HAP_TRIG_CFG, 4, 8⟩
def HAP_TRIG_CFG.EDGE : Fld := ⟨.HAP_TRIG_CFG, 12, 2⟩
def HAP_TRIG_CFG.REL_EFFECT : Fld := ⟨.HAP_TRIG_CFG, 14, 8⟩
def HAP_TRIG_CFG.INT : Fld := ⟨.HAP_TRIG_CFG, 22, 1⟩
def HAP_TRIG_CFG.FILT : Fld := ⟨.HAP_TRIG_CFG, 23, 1⟩
def HAP_EFF_ASSIGN.OWNER : Fld := ⟨.HAP_EFF_ASSIGN, 0, 7⟩
def AUD_GLB_CTRL.RUN : Fld := ⟨.AUD_GLB_CTRL, 0, 1⟩
def AUD_GLB_CTRL.GRAPH_FS : Fld := ⟨.AUD_GLB_CTRL, 1, 1⟩
def AUD_GLB_CTRL.GRAPH_CLK : Fld := ⟨.AUD_GLB_CTRL, 2, 4⟩
def AUD_GLB_STAT.CLK_FALLBACK : Fld := ⟨.AUD_GLB_STAT, 0, 1⟩
def AUD_GLB_STAT.WERR : Fld := ⟨.AUD_GLB_STAT, 1, 1⟩
def AUD_SAMPLE_LO.SAMPLE_SEQ : Fld := ⟨.AUD_SAMPLE_LO, 0, 32⟩
def AUD_SAMPLE_HI.SAMPLE_SEQ : Fld := ⟨.AUD_SAMPLE_HI, 0, 32⟩
def AUD_SAMPLE_LTIME_LO.LTIME : Fld := ⟨.AUD_SAMPLE_LTIME_LO, 0, 32⟩
def AUD_SAMPLE_LTIME_HI.LTIME : Fld := ⟨.AUD_SAMPLE_LTIME_HI, 0, 32⟩
def AUD_SRC_CFG.OWNER : Fld := ⟨.AUD_SRC_CFG, 0, 7⟩
def AUD_SRC_CFG.PUBLIC : Fld := ⟨.AUD_SRC_CFG, 7, 1⟩
def AUD_SRC_CFG.PORT : Fld := ⟨.AUD_SRC_CFG, 8, 3⟩
def AUD_SRC_CFG.SLOT : Fld := ⟨.AUD_SRC_CFG, 11, 4⟩
def AUD_SNK_CFG.OWNER : Fld := ⟨.AUD_SNK_CFG, 0, 7⟩
def AUD_SNK_CFG.PORT : Fld := ⟨.AUD_SNK_CFG, 8, 4⟩
def AUD_SNK_CFG.SLOT : Fld := ⟨.AUD_SNK_CFG, 12, 4⟩
def AUD_BUS_ASSIGN.OWNER : Fld := ⟨.AUD_BUS_ASSIGN, 0, 7⟩
def AUD_TDM_CFG.ENABLE : Fld := ⟨.AUD_TDM_CFG, 0, 1⟩
def AUD_TDM_CFG.MASTER : Fld := ⟨.AUD_TDM_CFG, 1, 1⟩
def AUD_TDM_CFG.FMT : Fld := ⟨.AUD_TDM_CFG, 2, 2⟩
def AUD_TDM_CFG.SLOTS : Fld := ⟨.AUD_TDM_CFG, 4, 5⟩
def AUD_TDM_CFG.SLOT_W : Fld := ⟨.AUD_TDM_CFG, 9, 1⟩
def AUD_TDM_CFG.WORD : Fld := ⟨.AUD_TDM_CFG, 10, 2⟩
def AUD_TDM_CFG.FS : Fld := ⟨.AUD_TDM_CFG, 12, 4⟩
def AUD_TDM_CFG.AUTO_PD : Fld := ⟨.AUD_TDM_CFG, 16, 1⟩
def AUD_TDM_STAT.RUNNING : Fld := ⟨.AUD_TDM_STAT, 0, 1⟩
def AUD_TDM_STAT.SYNC : Fld := ⟨.AUD_TDM_STAT, 1, 1⟩
def AUD_TDM_STAT.PD : Fld := ⟨.AUD_TDM_STAT, 2, 1⟩
def AUD_TDM_STAT.CLK_LOST : Fld := ⟨.AUD_TDM_STAT, 3, 1⟩
def AUD_TDM_STAT.WERR : Fld := ⟨.AUD_TDM_STAT, 4, 1⟩
def AUD_PDM_CFG.ENABLE : Fld := ⟨.AUD_PDM_CFG, 0, 1⟩
def AUD_PDM_CFG.SWAP : Fld := ⟨.AUD_PDM_CFG, 1, 1⟩
def AUD_DPA_CFG.EN : Fld := ⟨.AUD_DPA_CFG, 0, 1⟩
def AUD_DPA_CFG.CH8 : Fld := ⟨.AUD_DPA_CFG, 1, 1⟩
def AUD_DPA_CFG.FS : Fld := ⟨.AUD_DPA_CFG, 2, 4⟩
def AUD_BUS_STAT.ENABLED : Fld := ⟨.AUD_BUS_STAT, 0, 1⟩
def AUD_BUS_STAT.SILENT : Fld := ⟨.AUD_BUS_STAT, 1, 1⟩
def AUD_BUS_STAT.RAMP : Fld := ⟨.AUD_BUS_STAT, 2, 1⟩
def AUD_BUS_STAT.FADED : Fld := ⟨.AUD_BUS_STAT, 3, 1⟩
def AUD_SNK_STAT.ENABLED : Fld := ⟨.AUD_SNK_STAT, 0, 1⟩
def AUD_SNK_STAT.SILENT : Fld := ⟨.AUD_SNK_STAT, 1, 1⟩
def AUD_SNK_STAT.DUCKED : Fld := ⟨.AUD_SNK_STAT, 2, 1⟩
def AUD_SNK_STAT.CLIP : Fld := ⟨.AUD_SNK_STAT, 3, 1⟩
def AUD_SNK_STAT.FADED : Fld := ⟨.AUD_SNK_STAT, 4, 1⟩
def AUD_AMP_CFG.EN : Fld := ⟨.AUD_AMP_CFG, 0, 1⟩
def AUD_AMP_CFG.PIN : Fld := ⟨.AUD_AMP_CFG, 1, 6⟩
def AUD_AMP_CFG.POL : Fld := ⟨.AUD_AMP_CFG, 7, 1⟩
def AUD_AMP_CFG.OFF_MS : Fld := ⟨.AUD_AMP_CFG, 8, 16⟩
def AUD_AMP_MASK_LO.SINKS : Fld := ⟨.AUD_AMP_MASK_LO, 0, 32⟩
def AUD_AMP_MASK_HI.SINKS : Fld := ⟨.AUD_AMP_MASK_HI, 0, 32⟩
def AUD_STRM_POS.POS : Fld := ⟨.AUD_STRM_POS, 0, 22⟩
def AUD_STRM_LIMIT.LIMIT : Fld := ⟨.AUD_STRM_LIMIT, 0, 22⟩
def AUD_STRM_STAT.RUN : Fld := ⟨.AUD_STRM_STAT, 0, 1⟩
def AUD_STRM_STAT.XRUN : Fld := ⟨.AUD_STRM_STAT, 1, 1⟩
def AUD_STRM_STAT.XRUN_COUNT : Fld := ⟨.AUD_STRM_STAT, 16, 16⟩
def MBX_TX_DATA.DATA : Fld := ⟨.MBX_TX_DATA, 0, 32⟩
def MBX_RX_DATA.DATA : Fld := ⟨.MBX_RX_DATA, 0, 32⟩
def MBX_END_CTRL.OPEN : Fld := ⟨.MBX_END_CTRL, 0, 1⟩
def MBX_END_CTRL.RX_NOTICE : Fld := ⟨.MBX_END_CTRL, 1, 1⟩
def MBX_END_CTRL.TX_NOTICE : Fld := ⟨.MBX_END_CTRL, 2, 1⟩
def MBX_END_CTRL.TIMEOUT_US : Fld := ⟨.MBX_END_CTRL, 16, 16⟩
def MBX_TX_CTRL.GO : Fld := ⟨.MBX_TX_CTRL, 0, 4⟩
def MBX_TX_STAT.POSTED : Fld := ⟨.MBX_TX_STAT, 0, 4⟩
def MBX_TX_STAT.RX_RESET : Fld := ⟨.MBX_TX_STAT, 4, 4⟩
def MBX_TX_STAT.TIMEOUT : Fld := ⟨.MBX_TX_STAT, 8, 4⟩
def MBX_TX_STAT.PEER_UP : Fld := ⟨.MBX_TX_STAT, 12, 1⟩
def MBX_TX_STAT.BOUND : Fld := ⟨.MBX_TX_STAT, 13, 1⟩
def MBX_TX_STAT.WERR : Fld := ⟨.MBX_TX_STAT, 14, 1⟩
def MBX_RX_STAT.FULL : Fld := ⟨.MBX_RX_STAT, 0, 4⟩
def MBX_RX_STAT.HEAD : Fld := ⟨.MBX_RX_STAT, 4, 2⟩
def MBX_RX_STAT.COUNT : Fld := ⟨.MBX_RX_STAT, 6, 3⟩
def MBX_RX_STAT.SENDER_RESET : Fld := ⟨.MBX_RX_STAT, 9, 4⟩
def MBX_RX_POP.POP : Fld := ⟨.MBX_RX_POP, 0, 1⟩
def MBX_BIND.END_A : Fld := ⟨.MBX_BIND, 0, 8⟩
def MBX_BIND.END_B : Fld := ⟨.MBX_BIND, 8, 8⟩
def MBX_BIND.REMOTE : Fld := ⟨.MBX_BIND, 16, 1⟩
def MBX_BIND.PEER : Fld := ⟨.MBX_BIND, 17, 2⟩
def MBX_BIND.UP : Fld := ⟨.MBX_BIND, 19, 1⟩
def CVU_ASSIGN.OWNER : Fld := ⟨.CVU_ASSIGN, 0, 7⟩
def CVU_CTRL.POLY : Fld := ⟨.CVU_CTRL, 0, 2⟩
def CVU_CTRL.INIT : Fld := ⟨.CVU_CTRL, 2, 1⟩
def CVU_CTRL.BUSY : Fld := ⟨.CVU_CTRL, 3, 1⟩
def CVU_CTRL.WERR : Fld := ⟨.CVU_CTRL, 4, 1⟩
def CVU_FEED8.BYTE : Fld := ⟨.CVU_FEED8, 0, 8⟩
def CVU_FEED32.WORD : Fld := ⟨.CVU_FEED32, 0, 32⟩
def CVU_RESULT_LO.RESULT : Fld := ⟨.CVU_RESULT_LO, 0, 32⟩
def CVU_RESULT_HI.RESULT : Fld := ⟨.CVU_RESULT_HI, 0, 32⟩
def PMC_CNT.COUNT : Fld := ⟨.PMC_CNT, 0, 32⟩
def PMC_SEL.EVENT : Fld := ⟨.PMC_SEL, 0, 8⟩
def PMC_SEL.INST : Fld := ⟨.PMC_SEL, 8, 8⟩
def PMC_SEL.FUNC : Fld := ⟨.PMC_SEL, 16, 7⟩
def PMC_SEL.CHAIN : Fld := ⟨.PMC_SEL, 23, 1⟩
def PMC_SEL.EN : Fld := ⟨.PMC_SEL, 24, 1⟩
def PMC_GRP_CTRL.MODE : Fld := ⟨.PMC_GRP_CTRL, 0, 2⟩
def PMC_GRP_CTRL.WIN_US : Fld := ⟨.PMC_GRP_CTRL, 2, 20⟩
def PMC_GRP_CTRL.OVF_EV : Fld := ⟨.PMC_GRP_CTRL, 22, 1⟩
def PMC_GRP_CTRL.WIN_EV : Fld := ⟨.PMC_GRP_CTRL, 23, 1⟩
def PMC_GRP_CTRL.OWNER : Fld := ⟨.PMC_GRP_CTRL, 24, 7⟩
def PMC_GRP_CFG2.VF_READ : Fld := ⟨.PMC_GRP_CFG2, 0, 7⟩
def PMC_GRP_CFG2.BASE_NS : Fld := ⟨.PMC_GRP_CFG2, 7, 16⟩
def PMC_GRP_STAT.WSEQ : Fld := ⟨.PMC_GRP_STAT, 0, 24⟩
def PMC_GRP_STAT.FROZEN : Fld := ⟨.PMC_GRP_STAT, 24, 1⟩
def PMC_GRP_STAT.WERR : Fld := ⟨.PMC_GRP_STAT, 25, 1⟩
def PMC_OVF_LO.OVF : Fld := ⟨.PMC_OVF_LO, 0, 32⟩
def PMC_OVF_HI.OVF : Fld := ⟨.PMC_OVF_HI, 0, 32⟩
def PMC_LC_LO.LOST_CARRY : Fld := ⟨.PMC_LC_LO, 0, 32⟩
def PMC_LC_HI.LOST_CARRY : Fld := ⟨.PMC_LC_HI, 0, 32⟩
def CNV_STAT.POSITION : Fld := ⟨.CNV_STAT, 0, 2⟩
def CNV_STAT.MEMBERS : Fld := ⟨.CNV_STAT, 2, 4⟩
def CNV_STAT.LOCKED : Fld := ⟨.CNV_STAT, 6, 1⟩
def CNV_STAT.LEADER_LOST : Fld := ⟨.CNV_STAT, 7, 1⟩
def CNV_STAT.WERR : Fld := ⟨.CNV_STAT, 8, 1⟩
def CNV_OFFSET.OFFSET_NS : Fld := ⟨.CNV_OFFSET, 0, 32⟩
def CNV_PORT_STAT.UP : Fld := ⟨.CNV_PORT_STAT, 0, 1⟩
def CNV_PORT_STAT.TRAINING : Fld := ⟨.CNV_PORT_STAT, 1, 1⟩
def CNV_PORT_STAT.POS_CONFLICT : Fld := ⟨.CNV_PORT_STAT, 2, 1⟩
def CNV_PORT_STAT.DEGRADED : Fld := ⟨.CNV_PORT_STAT, 3, 1⟩
def CNV_PORT_STAT.SPARE_USED : Fld := ⟨.CNV_PORT_STAT, 4, 1⟩
def CNV_PORT_STAT.LANES : Fld := ⟨.CNV_PORT_STAT, 5, 4⟩
def CNV_PORT_STAT.RETRAINS : Fld := ⟨.CNV_PORT_STAT, 16, 8⟩
def CNV_PORT_STAT.REPLAYS_K : Fld := ⟨.CNV_PORT_STAT, 24, 8⟩
def CNV_PEER_INFO.REVISION : Fld := ⟨.CNV_PEER_INFO, 0, 8⟩
def CNV_PEER_INFO.MEM_GIB : Fld := ⟨.CNV_PEER_INFO, 8, 6⟩
def CNV_RLB.SLOT : Fld := ⟨.CNV_RLB, 0, 9⟩
def CNV_RLB.PEER : Fld := ⟨.CNV_RLB, 9, 2⟩
def CNV_RLB.KIND : Fld := ⟨.CNV_RLB, 11, 1⟩
def CNV_RLB.CS : Fld := ⟨.CNV_RLB, 12, 4⟩
def CNV_RLB.EN : Fld := ⟨.CNV_RLB, 16, 1⟩
def CNV_CE_PEER.SRC_EN : Fld := ⟨.CNV_CE_PEER, 0, 1⟩
def CNV_CE_PEER.SRC_PEER : Fld := ⟨.CNV_CE_PEER, 1, 2⟩
def CNV_CE_PEER.DST_EN : Fld := ⟨.CNV_CE_PEER, 3, 1⟩
def CNV_CE_PEER.DST_PEER : Fld := ⟨.CNV_CE_PEER, 4, 2⟩
def MGT_STAT.SLOT : Fld := ⟨.MGT_STAT, 0, 1⟩
def MGT_STAT.TRIAL : Fld := ⟨.MGT_STAT, 1, 1⟩
def MGT_STAT.TRIES : Fld := ⟨.MGT_STAT, 2, 2⟩
def MGT_STAT.BOOT_SEL : Fld := ⟨.MGT_STAT, 4, 2⟩
def MGT_STAT.RECOVERY : Fld := ⟨.MGT_STAT, 6, 1⟩
def MGT_STAT.EARLY : Fld := ⟨.MGT_STAT, 7, 1⟩
def MGT_STAT.RESTARTS : Fld := ⟨.MGT_STAT, 8, 8⟩
def MGT_STAT.WERR : Fld := ⟨.MGT_STAT, 16, 1⟩
def MGT_FW_VER.VERSION : Fld := ⟨.MGT_FW_VER, 0, 32⟩
def MGT_FW_RB.OTP_STEPS : Fld := ⟨.MGT_FW_RB, 0, 7⟩
def MGT_FW_RB.IMG_RB : Fld := ⟨.MGT_FW_RB, 8, 7⟩
def MGT_FW_RB.FUSE_SPARES : Fld := ⟨.MGT_FW_RB, 15, 4⟩
def MGT_THERM_CFG.WARN_C : Fld := ⟨.MGT_THERM_CFG, 0, 8⟩
def MGT_THERM_CFG.CRIT_C : Fld := ⟨.MGT_THERM_CFG, 8, 8⟩
def MGT_AGE_CFG.AGE_LIMIT : Fld := ⟨.MGT_AGE_CFG, 0, 16⟩
def MGT_AGE_CFG.AUTO_DIS : Fld := ⟨.MGT_AGE_CFG, 16, 8⟩
def MGT_THERM.TEMP : Fld := ⟨.MGT_THERM, 0, 12⟩
def MGT_THERM.PEAK : Fld := ⟨.MGT_THERM, 12, 12⟩
def MGT_THERM.WARN : Fld := ⟨.MGT_THERM, 24, 1⟩
def MGT_THERM.CRIT : Fld := ⟨.MGT_THERM, 25, 1⟩
def MGT_VMON.MV : Fld := ⟨.MGT_VMON, 0, 13⟩
def MGT_VMON.LOW : Fld := ⟨.MGT_VMON, 13, 1⟩
def MGT_VMON.HIGH : Fld := ⟨.MGT_VMON, 14, 1⟩
def MGT_AGE.DRIFT : Fld := ⟨.MGT_AGE, 0, 16⟩
def MGT_AGE.OVER : Fld := ⟨.MGT_AGE, 16, 1⟩
def MGT_BENCH.TOTAL : Fld := ⟨.MGT_BENCH, 0, 10⟩
def MGT_BENCH.IN_USE : Fld := ⟨.MGT_BENCH, 10, 10⟩
def MGT_BENCH.RETIRED : Fld := ⟨.MGT_BENCH, 20, 10⟩
def MGT_LOG_NEWEST.SEQ : Fld := ⟨.MGT_LOG_NEWEST, 0, 32⟩
def MGT_LOG_MIRROR.SEQ : Fld := ⟨.MGT_LOG_MIRROR, 0, 32⟩
def MGT_LOG_LOST.LOG_LOST : Fld := ⟨.MGT_LOG_LOST, 0, 16⟩
def MGT_CAL_SUB.CAL_SUB : Fld := ⟨.MGT_CAL_SUB, 0, 15⟩
def MGT_CAL_SUB.VALID : Fld := ⟨.MGT_CAL_SUB, 15, 1⟩
def MGT_CAL_SUB.ALARM : Fld := ⟨.MGT_CAL_SUB, 16, 1⟩
def MGT_CAL_SUB.ALARM_EN : Fld := ⟨.MGT_CAL_SUB, 17, 1⟩
def MGT_CAL_SUB.WAKE_EN : Fld := ⟨.MGT_CAL_SUB, 18, 1⟩
def MGT_CAL_SUB.TRIM : Fld := ⟨.MGT_CAL_SUB, 19, 8⟩
def MGT_CAL_SEC.CAL_SEC : Fld := ⟨.MGT_CAL_SEC, 0, 32⟩
def MGT_CAL_ALARM.ALARM : Fld := ⟨.MGT_CAL_ALARM, 0, 32⟩
def PWR_STATE_CTRL.DORM_REQ : Fld := ⟨.PWR_STATE_CTRL, 0, 1⟩
def PWR_STATE_CTRL.RAIL_PIN : Fld := ⟨.PWR_STATE_CTRL, 1, 6⟩
def PWR_STATE_CTRL.RAIL_POL : Fld := ⟨.PWR_STATE_CTRL, 7, 1⟩
def PWR_STATE_CTRL.RAIL_WAIT_MS : Fld := ⟨.PWR_STATE_CTRL, 8, 6⟩
def PWR_STATE_CTRL.EV_WAKE : Fld := ⟨.PWR_STATE_CTRL, 14, 1⟩
def PWR_STATE_STAT.STATE : Fld := ⟨.PWR_STATE_STAT, 0, 2⟩
def PWR_STATE_STAT.WAKE_SRC : Fld := ⟨.PWR_STATE_STAT, 2, 3⟩
def PWR_STATE_STAT.RESULT : Fld := ⟨.PWR_STATE_STAT, 5, 2⟩
def PWR_STATE_STAT.TRIP : Fld := ⟨.PWR_STATE_STAT, 7, 1⟩
def PWR_STATE_STAT.DORM_DONE : Fld := ⟨.PWR_STATE_STAT, 8, 1⟩
def PWR_STATE_STAT.WERR : Fld := ⟨.PWR_STATE_STAT, 9, 1⟩
def PWR_WAKE_EN.SRC : Fld := ⟨.PWR_WAKE_EN, 0, 6⟩
def PWR_WAKE_GPIO_LO.PINS : Fld := ⟨.PWR_WAKE_GPIO_LO, 0, 32⟩
def PWR_WAKE_GPIO_HI.PINS : Fld := ⟨.PWR_WAKE_GPIO_HI, 0, 16⟩
def PWR_DOM_OFF.DOM : Fld := ⟨.PWR_DOM_OFF, 0, 23⟩
def PWR_DOM_ON.DOM : Fld := ⟨.PWR_DOM_ON, 0, 23⟩
def PWR_DOM_STAT.DOM : Fld := ⟨.PWR_DOM_STAT, 0, 23⟩
def PWR_CLK_OFF.CLK : Fld := ⟨.PWR_CLK_OFF, 0, 31⟩
def PWR_CLK_ON.CLK : Fld := ⟨.PWR_CLK_ON, 0, 31⟩
def PWR_CLK_STAT.CLK : Fld := ⟨.PWR_CLK_STAT, 0, 31⟩
def PWR_REQ_STAT.DONE : Fld := ⟨.PWR_REQ_STAT, 0, 1⟩
def PWR_REQ_STAT.HELD : Fld := ⟨.PWR_REQ_STAT, 1, 1⟩
def PWR_REQ_STAT.BUSY_REF : Fld := ⟨.PWR_REQ_STAT, 2, 1⟩
def PWR_REQ_STAT.PENDING : Fld := ⟨.PWR_REQ_STAT, 3, 1⟩
def PWR_REQ_STAT.WERR : Fld := ⟨.PWR_REQ_STAT, 4, 1⟩
def PWR_PACE_CTRL.MODE : Fld := ⟨.PWR_PACE_CTRL, 0, 2⟩
def PWR_PACE_CTRL.FIXED_MV : Fld := ⟨.PWR_PACE_CTRL, 2, 10⟩
def PWR_PACE_CTRL.VMAX_MV : Fld := ⟨.PWR_PACE_CTRL, 12, 10⟩
def PWR_PACE_STAT.VCORE_MV : Fld := ⟨.PWR_PACE_STAT, 0, 10⟩
def PWR_PACE_STAT.VCORE_MEAS_MV : Fld := ⟨.PWR_PACE_STAT, 10, 10⟩
def PWR_PACE_STAT.FLOOR_HELD : Fld := ⟨.PWR_PACE_STAT, 20, 1⟩
def PWR_PACE_STAT.AVS_FAULT : Fld := ⟨.PWR_PACE_STAT, 21, 1⟩
def PWR_PACE_STAT.BELOW_FLOOR : Fld := ⟨.PWR_PACE_STAT, 22, 1⟩
def PWR_PACE_STAT.AT_VMAX : Fld := ⟨.PWR_PACE_STAT, 23, 1⟩
def PWR_PROBE_SEL.INDEX : Fld := ⟨.PWR_PROBE_SEL, 0, 6⟩
def PWR_PROBE_DATA.PACE : Fld := ⟨.PWR_PROBE_DATA, 0, 16⟩
def PWR_PROBE_DATA.VALID : Fld := ⟨.PWR_PROBE_DATA, 16, 1⟩

/-- All registers, in address order. -/
def Reg.all : List Reg :=
  (List.range 243).map Reg.ofNat

end Sys2Proof.Machine
end

