-- ==== Sys2Proof/Machine/Tbl.lean ====
section
/-! DEFINITION. Finite tables as sorted lists of (key, value) pairs in one canonical form: keys strictly rise, and no entry
holds what an unlisted key reads as. Register values, memory bytes and the per-index parts of the state are held so. -/

namespace Sys2Proof.Machine

/-- Read key `k`; an unlisted key reads as `d k`. -/
def Tbl.getD {α : Type} (d : Nat → α) : List (Nat × α) → Nat → α
  | [], k => d k
  | (k', v) :: t, k => if k = k' then v else Tbl.getD d t k

/-- Write key `k`, keeping the canonical form. -/
def Tbl.putD {α : Type} [DecidableEq α] (d : Nat → α) : List (Nat × α) → Nat → α → List (Nat × α)
  | [], k, v => if v = d k then [] else [(k, v)]
  | (k', v') :: t, k, v =>
    if k < k' then (if v = d k then (k', v') :: t else (k, v) :: (k', v') :: t)
    else if k = k' then (if v = d k then t else (k, v) :: t)
    else (k', v') :: Tbl.putD d t k v

/-- Every key of the table is above `k`. -/
def Tbl.above {α : Type} (k : Nat) : List (Nat × α) → Bool
  | [] => true
  | (k', _) :: _ => decide (k < k')

/-- The canonical form. -/
def Tbl.wfD {α : Type} [DecidableEq α] (d : Nat → α) : List (Nat × α) → Bool
  | [] => true
  | (k, v) :: t => decide (v ≠ d k) && Tbl.above k t && Tbl.wfD d t

/-- A table whose unlisted keys read as the type's default value. -/
abbrev Tbl (α : Type) := List (Nat × α)

def Tbl.get {α : Type} [Inhabited α] (t : Tbl α) (k : Nat) : α := Tbl.getD (fun _ => default) t k

def Tbl.put {α : Type} [Inhabited α] [DecidableEq α] (t : Tbl α) (k : Nat) (v : α) : Tbl α :=
  Tbl.putD (fun _ => default) t k v

/-- Replace the value at `k` by its image under `f`. -/
def Tbl.upd {α : Type} [Inhabited α] [DecidableEq α] (t : Tbl α) (k : Nat) (f : α → α) : Tbl α := t.put k (f (t.get k))

/-- Replace every listed value by its image under `f`. -/
def Tbl.mapVals {α : Type} [Inhabited α] [DecidableEq α] (t : Tbl α) (f : α → α) : Tbl α := t.foldl (fun u p => u.put p.1 (f p.2)) []

/-! Lists of bytes. -/

/-- The little-endian number held by `n` bytes from offset `off`; bytes past the end read 0 (R8). -/
def le (bs : List Byte) (off : Nat) : Nat → Nat
  | 0 => 0
  | n + 1 => (bs.getD off 0).toNat + 256 * le bs (off + 1) n

/-- The low `n` bytes of a number, little-endian (R8). -/
def toLe (v : Nat) : Nat → List Byte
  | 0 => []
  | n + 1 => BitVec.ofNat 8 v :: toLe (v / 256) n

/-- Bits `hi:lo` of a number. -/
def bits (v hi lo : Nat) : Nat := v / 2 ^ lo % 2 ^ (hi + 1 - lo)

/-- Bit `b` of a number. -/
def bit (v b : Nat) : Bool := v / 2 ^ b % 2 == 1

/-- A number read as a signed value of `w` bits. -/
def toSigned (w v : Nat) : Int := if v % 2 ^ w < 2 ^ (w - 1) then (v % 2 ^ w : Nat) else (v % 2 ^ w : Nat) - (2 ^ w : Nat)

/-- The low `w` bits of a signed value. -/
def ofSigned (w : Nat) (x : Int) : Nat := (x % (2 ^ w : Nat)).toNat

/-- A counter step that stops at `top`. -/
def satAdd (top a b : Nat) : Nat := min top (a + b)

/-- A Boolean as a number. -/
def b2n (b : Bool) : Nat := if b then 1 else 0

/-- Clamp to a range. -/
def clampN (lo hi v : Nat) : Nat := max lo (min hi v)

def clampI (lo hi v : Int) : Int := max lo (min hi v)

end Sys2Proof.Machine
end

