-- ==== Sys2Proof/Machine/State.lean ====
section
/-! DEFINITION. The state of the CJ880 as plain data, and its value right after a cold reset begins. Registers stand in one
table under the manual's own names; what the chapters describe beside registers stands in one structure per chapter. -/

namespace Sys2Proof.Machine

/-- Why the machine stops. -/
inductive Fault where
  /-- Raised by no meaning: the specification gives every command and event an effect, so no step faults. Safe. -/
  | none
deriving DecidableEq, Repr

/-- Why a command is refused. -/
inductive Refusal where
  /-- Raised by a row of the table that has no meaning yet, with its mnemonic. Safe. -/
  | notModelled (mnemonic : String)
deriving DecidableEq, Repr

/-- What a stream of a display port sends (R277, R290): nothing without a link, the idle pattern, DSI lanes at LP-11, or video. -/
inductive PortSends where
  | nothing | idle | lp11 | video
deriving DecidableEq, Repr, Inhabited

/-- What leaves the device: the newest stands first in the state's list. -/
inductive Out where
  /-- A posted write to host memory with the requester ID of `f` (R121, R131, R128), and its No Snoop attribute (R160). -/
  | hostWrite (f : Fn) (addr : Nat) (bytes : List Byte) (noSnoop : Bool := false)
  /-- A read request to host memory (R128, R121). -/
  | hostRead (f : Fn) (addr len : Nat) (noSnoop : Bool := false)
  /-- An MSI-X message of `f` (R139, R150). -/
  | msix (f : Fn) (vector addr data : Nat)
  /-- The value that a register read returns. -/
  | readValue (who : Fn) (v : Word)
  /-- The bytes that a BAR, SP0, Convoy or JTAG read returns. -/
  | readData (mid : Nat) (bytes : List Byte)
  /-- A JTAG instruction took effect, or behaved as BYPASS (R109). -/
  | jtag (accepted : Bool)
  /-- A read that meets poisoned memory answers with poisoned data (R63). -/
  | poisonedData (mid : Nat)
  /-- An AVSBus Voltage write (R28). -/
  | avs (mv : Nat)
  /-- The VOUT Transition Rate command of AVSBus, in mV/us (R28). -/
  | avsRate (rate : Nat)
  /-- The AVSBus Voltage read, Current read and Status commands to rail 0 (R28). -/
  | avsVoltageRead
  | avsCurrentRead
  | avsStatus
  /-- An event of which Acholt is told (R150). -/
  | acholt (ev : Nat)
  /-- What AER of a function reports (R117). -/
  | aer (f : Fn) (status : Nat)
  /-- What a read of a port's SR-IOV capability reports: TotalVFs, First VF Offset and VF Stride (R118). -/
  | sriov (port totalVfs offset stride : Nat)
  /-- The raster of a line on a port: port, stream, line, the lengths of its active part, front porch, sync and back porch, whether the line lies in the
  vertical sync, and the two polarities (R270). -/
  | raster (port stream line : Nat) (parts : List Nat) (vsync hpol vpol : Bool)
  /-- A line of video on a port: port, stream, line and pixels, each of its three components at the port's width (R289). -/
  | video (port stream line : Nat) (pixels : List Nat)
  /-- What a stream of a port sends from now on (R277, R290). -/
  | stream (port stream : Nat) (sends : PortSends)
  /-- The generators to which an MST port allocates time slots, in stream order (R290). -/
  | mstSlots (port : Nat) (outs : List Nat)
  /-- A configuration request completed with Request Retry Status (R587), or normally. -/
  | configDone (port : Nat) (retry : Bool)
  /-- A side-channel transaction of a display or receive port: port, KIND, ADDR, the bytes written and the bytes asked for (R293). -/
  | sideChannel (port kind addr : Nat) (bytes : List Byte) (count : Nat)
  /-- A transfer on a serial bus that the device drives: bus, target address, the bytes written and the bytes asked for. -/
  | serial (bus addr : Nat) (bytes : List Byte) (count : Nat)
  /-- Acholt is signalled of a message on a mailbox channel (R479): channel, slot and SENDER_RESET. -/
  | mailSignal (channel slot : Nat) (senderReset : Bool)
  /-- A message to the Convoy position `peer` (R474, R538). -/
  | convoy (peer : Nat) (bytes : List Byte)
  /-- A write, or a read of `len` bytes, that goes to the memory of the peer with the world of the function (R539, R540). -/
  | peerWrite (peer : Nat) (sec : Bool) (addr : Nat) (bytes : List Byte)
  | peerRead (peer : Nat) (sec : Bool) (addr len : Nat)
  /-- A request of the peer is refused (R539). -/
  | peerRefused (peer : Nat)
deriving DecidableEq, Repr

/-- A command: the index of its queue and its number. -/
structure CmdRef where
  queue : Nat
  id : Nat
deriving DecidableEq, Repr, Inhabited

/-! The self-timed core and device time. -/

/-- LTIME and its discipline (R40 to R51). -/
structure TimeSt where
  /-- LTIME in ns (R40). -/
  ltime : Nat := 0
  /-- The carried fraction of R41, in units of 2^-32 ns. -/
  frac : Nat := 0
  /-- The carried fraction of the calendar steps of R47, in 64ths of a ns. -/
  calFrac : Nat := 0
  /-- The rate correction in parts per 10^9 (R44, R537). -/
  rate : Int := 0
  /-- The reference offset of R44, once captured. -/
  ptmRef : Option Int := none
  /-- Consecutive exchanges within 50 ns (R44). -/
  inBand : Nat := 0
  /-- The leader's LTIME has been adopted since the last cold reset (R536). -/
  adopted : Bool := false
  /-- LTIME of the last valid exchange on the source (R45). -/
  lastPtm : Nat := 0
  /-- 1 while the 38.4 MHz reference runs (R47, R590). -/
  refRunning : Bool := true
  /-- The read snapshots of R48, by reading function and low-word register. -/
  snaps : Tbl Word := []
  /-- The held low words of R10, by writing function and low-word register. -/
  held : Tbl Word := []
deriving DecidableEq, Repr, Inhabited

/-- The pace probes and the governor (R25 to R31). -/
structure PaceSt where
  /-- The last reading of each probe whose first window has completed (R25, R34). -/
  probes : Tbl (Option Nat) := []
  /-- The setpoint last sent to the regulator, mV (R29: 750 before any transaction). -/
  setpoint : Nat := 750
  /-- The window of 10 us of LTIME behind the last one that ended, for the probes and for the governor (R25, R26). -/
  probeWin : Nat := 0
  govWin : Nat := 0
  /-- Consecutive windows in which every engine had spare pace (R26). -/
  calm : Nat := 0
  /-- Consecutive transactions without an answer (R30). -/
  noAnswer : Nat := 0
  /-- An enable waits until the regulator reports the new voltage reached (R27). -/
  enableWaits : Bool := false
  /-- STREAM_START commands whose enable waits for that report (R27, R310). -/
  starts : List CmdRef := []
deriving DecidableEq, Repr, Inhabited

/-! On-chip SRAM and external memory. -/

/-- Bytes, poison marks and the redirect of the walker stand together: they decide what a read returns. -/
structure Mem where
  /-- Bytes by physical address (log entry 10); an unlisted byte reads 0. -/
  cells : List Host.Cell := []
  /-- Physical addresses of 64-bit words marked poisoned (R62, R63), as a table. -/
  poison : Tbl Bool := []
deriving DecidableEq, Repr, Inhabited

/-- The stages of the walker within one region (R64). -/
inductive WalkPhase where
  | idle | testing | restoring
deriving DecidableEq, Repr, Inhabited

/-- The background test walker (R64 to R67). -/
structure WalkSt where
  phase : WalkPhase := .idle
  /-- The bank (16 for BKSP) and region being tested. -/
  bank : Nat := 0
  region : Nat := 0
  /-- The next region to visit. -/
  next : Nat := 0
  /-- Lines of the region already restored (R65). -/
  restored : Nat := 0
  /-- LTIME when the copy began (R66), and the LTIME from which the next region may be visited (R64). -/
  began : Nat := 0
  due : Nat := 0
  /-- Spare-row mappings (R67): bank and row. -/
  spareRows : List (Nat × Nat) := []
  /-- Visits with corrected errors since a clean visit, by bank and row (R67). -/
  rowHits : Tbl Nat := []
  /-- Sweeps in which a bank showed an uncorrectable error (for BKSP, in which the walker found one while it was on the Bench), and the last
  such sweep plus one (R71, R73). -/
  ueSweeps : Tbl Nat := []
  /-- Completed sweeps, of which SWEEPS shows the last 8 bits (R69). -/
  sweeps : Nat := 0
  ueLast : Tbl Nat := []
deriving DecidableEq, Repr, Inhabited

/-- A bank swap in progress (R72, R74): the physical banks copied from and to, the next region, whether it moves a range back, its
trigger (R561) and the BENCH_SWAP command that waits for it (R566). -/
structure SwapSt where
  src : Nat := 0
  dst : Nat := 0
  next : Nat := 0
  back : Bool := false
  trigger : Nat := 0
  cmd : Option CmdRef := none
deriving DecidableEq, Repr, Inhabited

/-- Arbitration state and the rest of the memory system. -/
structure MemSysSt where
  walk : WalkSt := {}
  swap : Option SwapSt := none
  /-- Consecutive rounds lost, by bank, class and requester (R56). -/
  lost : Tbl Nat := []
  /-- The requester granted last, by bank and class (R55: round-robin). -/
  lastUnit : Tbl Nat := []
  /-- Rounds below one million behind LOST_M and OTHER_M (R61). -/
  lostRounds : Tbl Nat := []
  otherRounds : Tbl Nat := []
  /-- Populated LPDDR5X bytes that the map exposes (R52, R79), and whether training has ended (R587). -/
  ddrBytes : Nat := 0
  trained : Bool := false
deriving DecidableEq, Repr, Inhabited

/-! Identities, worlds and ownership. -/

/-- An assignment or a CLR_DIRTY in progress (R92 to R96). -/
structure AssignOp where
  who : Fn
  /-- First page address divided by 4,096, page count, new owner, KEEP. -/
  first : Nat
  count : Nat
  owner : Nat
  keep : Bool
  /-- Pages of the range dealt with by the zero-fill (R95). -/
  filled : Nat
deriving DecidableEq, Repr

/-- A grant of the lock table: base, pages and mask (R99). -/
structure Grant where
  base : Nat
  pages : Nat
  peers : Nat
  funcs : Nat
deriving DecidableEq, Repr, Inhabited

/-- The lock table in force (R98, R99), ownership operations and debug enables. -/
structure OwnSt where
  tableBase : Nat := 0
  /-- Bit v is the secure mark of VFv. -/
  secureVf : Nat := 0
  shared : List Grant := []
  wbGrants : List Grant := []
  assign : Option AssignOp := none
  /-- The lock table waits for LPDDR5X training (R101). -/
  bootWaiting : Bool := false
  /-- Held writes of the channel world words, by engine (R106). -/
  ceWorldHeld : Tbl (Option Word) := []
  /-- Acholt is in secure mode (R80). No command changes it: the specification gives no rule for the change (DESIGN CHOICE, log entry 127). -/
  acholtSecure : Bool := true
  /-- Acholt and the Normal contexts stand halted by JTAG, and the boundaries that steps still allow (R108; log entry 126). -/
  acholtHalted : Bool := false
  normalHalted : Bool := false
  normalSteps : Nat := 0
  invS : Bool := false
  ninvS : Bool := false
  invN : Bool := false
  ninvN : Bool := false
deriving DecidableEq, Repr, Inhabited

/-! Host ports, rings, doorbells and events. -/

/-- The stages of a fetched command. -/
inductive CmdPhase where
  | fetched
  /-- Waits on its fence; the LTIME at which FENCE_TIMEOUT falls, if any (R145). -/
  | waiting (deadline : Option Nat)
  | running
  | ended
deriving DecidableEq, Repr, Inhabited

/-- The envelope around a command (R154 to R156). -/
structure Env where
  header : List Byte
  /-- Inner descriptors of the extent, with every byte. -/
  inner : List (List Byte)
  /-- The extent passed 64 descriptors, or a descriptor after the inner leading one lacked 0x01 (R155). -/
  badExtent : Bool
  accepted : Bool := false
  /-- The new counter has reached flash (R156). -/
  persisted : Bool := false
deriving DecidableEq, Repr, Inhabited

/-- One fetched command: its leading descriptor (the inner one inside an envelope) and its continuations. -/
structure Cmd where
  id : Nat := 0
  lead : List Byte := []
  conts : List (List Byte) := []
  env : Option Env := none
  /-- The command runs in the Secure world (R155); otherwise in the world of its queue. -/
  secure : Bool := false
  phase : CmdPhase := .fetched
  status : Nat := 0
  result : Nat := 0
  /-- LTIME at which the command completed (R135). -/
  ltime : Nat := 0
  /-- The place of its completion among all completions (R343). -/
  order : Nat := 0
  /-- The command has completed, and with it the signal of SIGNAL_FENCE has been made where there was one (R140, R146); the signal was stale, which
  turns OK into FENCE_STALE (R144). -/
  signalled : Bool := false
  stale : Bool := false
  /-- The chain breaks at this continuation (R134). -/
  brokenAt : Option Nat := none
deriving DecidableEq, Repr, Inhabited

/-- What a queue holds beside its registers. -/
structure QueueSt where
  /-- LTIME of the last submission-tail doorbell (R130, R494). -/
  bell : Nat := 0
  /-- The submission tail recorded from doorbells and the completion head (R127). -/
  tail : Nat := 0
  cqHead : Nat := 0
  /-- Records written and not released (R131). -/
  unreleased : Nat := 0
  /-- The device's phase (R136). -/
  phase : Bool := true
  /-- Descriptors of the read in flight (R128): 0 for none. -/
  reading : Nat := 0
  /-- Descriptors of a chain whose last descriptor has not arrived (R133). -/
  chain : List (List Byte) := []
  /-- The device skips to the end of an overlong chain (R134). -/
  skipping : Bool := false
  cmds : List Cmd := []
  /-- Records not yet signalled and the LTIME of the first (R139). -/
  unsignalled : Nat := 0
  firstUnsig : Nat := 0
  /-- For SP0: records whose release ends the interrupt that is due (R139); 0 when none is due. -/
  spDue : Nat := 0
deriving DecidableEq, Repr, Inhabited

/-- A key slot: what OTP and the Thermos domain hold (R157, R158, R165). -/
structure KeySlot where
  present : Bool := false
  revoked : Bool := false
  rights : Nat := 0
  key : List Byte := []
  counter : Nat := 0
  fails : Nat := 0
  lastReject : Nat := 0
  throttled : Bool := false
deriving DecidableEq, Repr, Inhabited

/-- A signal of a fence with a value, and the command that makes it, if one does (R144). -/
structure Signal where
  fence : Nat
  value : Nat
  ref : Option CmdRef
deriving DecidableEq, Repr, Inhabited

/-- A read of host memory (R117, R121): for what it is and for which command, if one asked, whose, its address and length, No Snoop, the LTIME at which
it was sent (none while it waits for a tag), and the data that has arrived. -/
structure HostReq where
  work : Work
  ref : Option CmdRef := none
  f : Fn
  addr : Nat
  len : Nat
  noSnoop : Bool := false
  sent : Option Nat := none
  got : List Byte := []
deriving DecidableEq, Repr, Inhabited

/-- What the PCIe configuration of a function selects: the codes of Max Payload Size, Max Read Request Size and of the completion timeout range of Device
Control 2, the attributes it may set, ECRC and ASPM, and the uncorrectable errors that AER reports (R117, R121; log entry 129). -/
structure PciFn where
  maxPayload : Nat := 0
  maxRead : Nat := 2
  timeout : Nat := 0
  relaxed : Bool := true
  noSnoop : Bool := true
  idOrder : Bool := false
  ecrcGen : Bool := false
  ecrcCheck : Bool := false
  aspmL1 : Bool := false
  aer : Nat := 0
deriving DecidableEq, Repr, Inhabited

structure HrqSt where
  /-- Fence values by fence (R142), which HRQ_FENCE_VAL shows. -/
  fences : Tbl Nat := []
  /-- Signals of the arbitration round in which several operations end, to be judged together (R144); none between commands. -/
  joint : Option (List Signal) := none
  /-- Reads of host memory in flight or waiting for a tag, oldest first (R117, R121). -/
  reads : List HostReq := []
  /-- Counters of accepted envelopes on their way to flash (R156): queue index, slot and counter, oldest first. -/
  toFlash : List (Nat × Nat × Nat) := []
  /-- By function code times 8 plus queue number. -/
  queues : Tbl QueueSt := []
  nextId : Nat := 0
  nextEnd : Nat := 0
  /-- Key slots 0 to 7. -/
  keys : Tbl KeySlot := []
  /-- Queues whose envelope waits for a throttled slot, in arrival order (R157): slot and queue index. -/
  throttleWait : List (Nat × Nat) := []
  /-- The 256 KiB SP0 window (R123). -/
  window : List Host.Cell := []
  /-- SP0 runs 8D-8D-8D (R122). -/
  sp0Octal : Bool := false
  wrCrc : Nat := 0
  protoErr : Bool := false
deriving DecidableEq, Repr, Inhabited

/-- One PCIe port (R117, R118, R587, R645). -/
structure PortSt where
  linkUp : Bool := false
  inReset : Bool := true
  /-- The host port answers (R101: enabled once LOCKED is set). -/
  enabled : Bool := false
  numVfs : Nat := 0
  vfEnable : Bool := false
  /-- The link rests in L2 (R590). -/
  l2 : Bool := false
  /-- 10-bit tags are enabled (R117). -/
  tenBit : Bool := false
  /-- The link runs at the rate of generation `gen + 1` on `2 ^ lanes` lanes (R117; log entry 129). -/
  gen : Nat := 4
  lanes : Nat := 3
  /-- Functions with PME enabled, by code (R593). -/
  pme : Tbl Bool := []
deriving DecidableEq, Repr, Inhabited

/-! Acholt: firmware, log, Bench, early view and calendar. -/

/-- One entry of the event log (R560). -/
structure LogEntry where
  type : Nat
  flags : Nat
  source : Nat
  seq : Nat
  ltime : Nat
  calSec : Nat
  calSub : Nat
  data : List Byte
deriving DecidableEq, Repr, Inhabited

/-- What Acholt is doing: held in reset, running a slot, waiting in recovery (R553), or between an end and the next start. -/
inductive AcholtPhase where
  | off | starting | running | recovery
deriving DecidableEq, Repr, Inhabited

/-- A resource replaced by a spare (R564): kind, resource and spare. -/
structure BenchUse where
  kind : Nat
  resource : Nat
  spare : Nat
deriving DecidableEq, Repr, Inhabited

/-- One running early-view entry (R567 to R570). -/
structure EarlyEntry where
  output : Nat
  slot : Nat
  cs : Nat
  pfEnd : Bool
  /-- The stream pages that were assigned: first page and count. -/
  firstPage : Nat
  pages : Nat
  camera : Bool
  canopy : Bool
  /-- An EARLY_VIEW SUB 1 waits for the output's next latch. -/
  ending : Bool
deriving DecidableEq, Repr, Inhabited

/-- Flash, OTP, journal, log and the running firmware. -/
structure MgtSt where
  phase : AcholtPhase := .off
  /-- Flash bytes by offset; an unlisted byte is erased and reads 0xFF (R549). -/
  flash : List Host.Cell := []
  /-- OTP: serial number, epoch steps, anti-rollback steps, spare fuses used (R100, R555). -/
  serial : Nat := 0
  epochSteps : Nat := 0
  fwSteps : Nat := 0
  fusesUsed : Nat := 0
  /-- Journal: the ACTIVE slot, TRIAL, TRIES (R552) and MEMBERS (R531). -/
  active : Nat := 0
  trial : Bool := false
  tries : Nat := 0
  members : Nat := 0
  /-- Journal: slot counters as last mirrored to flash (R156). -/
  counters : Tbl Nat := []
  /-- Journal: replaced resources and spare-row mappings (R67, R549, R564). -/
  bench : List BenchUse := []
  spareRows : List (Nat × Nat) := []
  /-- BKSP is out of service for good (R73). -/
  bkspRetired : Bool := false
  /-- The running slot, its VERSION and ROLLBACK, and whether it is the recovery image. -/
  slot : Nat := 0
  version : Nat := 0
  imageRollback : Nat := 0
  recovery : Bool := false
  /-- A VERIFY has passed since the last WRITE (R554). -/
  verified : Bool := false
  /-- An ACTIVATE with NOW at 1, or a missed watchdog, has ended the firmware (R556). -/
  restartCause : Option Nat := none
  /-- The log ring, newest first (at most 2,048), the next SEQ, and the next SEQ to mirror (R560, R562). -/
  log : List LogEntry := []
  nextSeq : Nat := 0
  nextMirror : Nat := 0
  /-- Entries held while Acholt restarts (R556), oldest first. -/
  logFifo : List LogEntry := []
  /-- Unmirrored entries were lost, which the next Boot entry tells (R562, R579). -/
  logLoss : Bool := false
  /-- The image of the last sensor window, with its LTIME (R559); before the first window every value is its reset value. -/
  sensorWindow : List Byte := []
  /-- LTIME from which the sensors, then the aging monitors, are read again (R557), and LTIME at which the watchdog was last started (R556). -/
  sensorDue : Nat := 0
  ageDue : Nat := 0
  watchdogAt : Nat := 0
  early : List EarlyEntry := []
  /-- BOOT_SEL as sampled (R580). -/
  bootSel : Nat := 0
  /-- FSPI runs 8D-8D-8D (R548). -/
  fspiOctal : Bool := false
  /-- LOCKED has been set at a start that runs the early view, which has not been applied (R568, R593). -/
  earlyDue : Bool := false
  /-- EARLY_VIEW commands of SUB 1 and the outputs that have still to end (R570). -/
  earlyEnds : List (CmdRef × Nat) := []
  /-- The 32.768 kHz oscillator runs. -/
  oscillator : Bool := true
  /-- Thermal trips recorded in the Thermos domain and not yet logged: site and temperature (R581). -/
  trips : List (Nat × Nat) := []
deriving DecidableEq, Repr, Inhabited

/-! Layers, commit groups, compositors, Canopies, timing generators and ports. -/

/-- A layer record (R179). `acq` and `rel` are the fence words with their enable bits. -/
structure LRec where
  slot : Nat := 0
  hide : Bool := false
  fmt : Nat := 0
  enc : Nat := 0
  flags : Nat := 0
  z : Nat := 0
  alpha : Nat := 0
  blend : Nat := 0
  base : Nat := 0
  chroma : Nat := 0
  stride : Nat := 0
  sx : Nat := 0
  sy : Nat := 0
  sw : Nat := 0
  sh : Nat := 0
  dx : Nat := 0
  dy : Nat := 0
  dw : Nat := 0
  dh : Nat := 0
  acq : Nat := 0
  rel : Nat := 0
  acqV : Nat := 0
  relV : Nat := 0
  vtaps : Nat := 0
deriving DecidableEq, Repr, Inhabited

/-- What a layer slot shows: its current record with the taps in force (R185), the round of its output in which it landed (R192),
and for a view the plane 0 address that the latest latch chose (R316, R541). -/
structure LayerSt where
  cur : Option LRec := none
  round : Nat := 0
  viewBase : Option Nat := none
deriving DecidableEq, Repr, Inhabited

/-- A release fence that waits until every line that read its buffer has left the runway (R196, R198): output, fence, value, the lines
of the output's frame that have to leave, and the output's round in which the record was replaced. -/
structure Release where
  out : Nat
  fence : Nat
  value : Nat
  lines : Nat
  round : Nat
deriving DecidableEq, Repr, Inhabited

/-- The commands that land at a latch (R177, R220, R249, R296). -/
inductive GKind where
  | commit | colour | scaler | writeback | canopy | outstage | canopyOwn | backlight
deriving DecidableEq, Repr, Inhabited

/-- How far a group has come (R180, R187, R189). -/
inductive GPhase where
  | collecting | waiting | validating | validated
deriving DecidableEq, Repr, Inhabited

/-- One record of a group: the command and continuation that carry it, the offset of its first offending reserved field, and whether its
slot's assignment has changed since its command started (R168), and whether it has landed. -/
structure GRec where
  r : LRec
  cmd : Nat
  cont : Nat
  rsv : Option Nat
  stale : Bool := false
  landed : Bool := false
deriving DecidableEq, Repr, Inhabited

/-- A commit group, or another command that lands as a group of one output (R178 to R194, R226, R233, R255, R296). -/
structure Group where
  id : Nat := 0
  kind : GKind := .commit
  code : Nat := 0
  queue : Nat := 0
  sec : Bool := false
  cmds : List CmdRef := []
  /-- The body of the first command, which every further command of a MORE group repeats (R180). -/
  body : List Byte := []
  /-- EXT of the descriptor header. -/
  ext : Nat := 0
  mask : Nat := 0
  anchor : Nat := 0
  part : Bool := false
  targetEn : Bool := false
  validateOnly : Bool := false
  target : Nat := 0
  /-- A breach of R180: the command that holds the offending field, and RESULT bits [15:0]. -/
  bad : Option (Nat × Nat) := none
  /-- The first reserved header field that is not 0: its command and RESULT bits [15:0]. -/
  hdrRsv : Option (Nat × Nat) := none
  recs : List GRec := []
  phase : GPhase := .collecting
  /-- The order in which validations completed (R192). -/
  ord : Nat := 0
  late : Bool := false
  tapsRed : Bool := false
  dropped : Bool := false
  /-- Once decided (R190): FRAME_SEQ of the anchor's frame, the instant, and whether the anchor was stopped. -/
  decided : Option (Nat × Nat × Bool) := none
  /-- Outputs on which the group has landed. -/
  landed : Nat := 0
  /-- The image or table read for the command (R225, R254). -/
  data : List Byte := []
deriving DecidableEq, Repr, Inhabited

/-- The Canopy in force (R250). -/
structure CanopySt where
  on : Bool := false
  fmt : Nat := 0
  blend : Nat := 0
  base : Nat := 0
  stride : Nat := 0
  x : Nat := 0
  y : Nat := 0
  w : Nat := 0
  h : Nat := 0
  alpha : Nat := 0
deriving DecidableEq, Repr, Inhabited

/-- The running computation of one check window in a frame (R262, R264): the CRC register, the pixels fed, and whether the frame's result
has been decided. -/
structure CwRun where
  crc : Nat := 0xFFFFFFFF
  fed : Nat := 0
  decided : Bool := false
deriving DecidableEq, Repr, Inhabited

/-- The result of a window whose frame has ended, not yet applied (R264, R265): window, result, CRC, reaction bits and FRAME_SEQ. -/
structure CwDue where
  w : Nat
  result : Nat
  crc : Nat
  react : Nat
  seq : Nat
deriving DecidableEq, Repr, Inhabited

/-- The capture of one frame (R233): its group, tap, format, target and FRAME_SEQ, and the lines composed for it, of how many; the FIFO of lines that wait to be
written, each as its remaining writes (R234); the lines written, and the LTIME at which the last was. -/
structure Capture where
  group : Group
  tap : Nat
  fmt : Nat
  base : Nat
  stride : Nat
  seq : Nat
  lines : Nat := 0
  height : Nat := 0
  fifo : List (List (Nat × List Byte)) := []
  written : Nat := 0
  doneAt : Nat := 0
deriving DecidableEq, Repr, Inhabited

/-- A request to bench the spare compositor or to move back (R242, R243, R566): trigger, command and direction. -/
structure SwapReq where
  trigger : Nat
  cmd : Option CmdRef
  back : Bool
deriving DecidableEq, Repr, Inhabited

/-- One output: compositor, runway, colour stage, Canopy, check windows and timing generator. -/
structure OutSt where
  /-- Latches and stopped decisions so far (R192). -/
  round : Nat := 0
  /-- LTIME of the last latch (R182); 0 before the first. -/
  lastLatch : Nat := 0
  /-- The next line to compose and the next active line to scan out (R35). -/
  compose : Nat := 0
  scan : Nat := 0
  /-- The packed pixels of the active line that the pixel domain sends, and the LTIME at which it began (R37, R264). -/
  sending : Option (List Nat) := none
  lineAt : Nat := 0
  /-- Complete lines in the runway, oldest first, as packed pixels (R205). -/
  runway : List (List Nat) := []
  /-- The lowest count of lines ahead in the frame so far (R39). -/
  minLevel : Nat := 3
  /-- The colour-stage image and the scaler table in force; empty for the reset state (R219, R222, R224). -/
  stage : List Byte := []
  coefs : List Byte := []
  /-- The output-stage image in force; empty for the reset state (R252). -/
  final : List Byte := []
  canopy : CanopySt := {}
  /-- FAIL_COLOUR replaces the Canopy for the rest of the frame, and until the next CANOPY_SET (R257). -/
  failFrame : Bool := false
  failHeld : Bool := false
  /-- The check windows: running state, results due, and stored EXPECT words whose check bits were inverted (R268). -/
  cw : Tbl CwRun := []
  cwDue : List CwDue := []
  cwBad : Tbl Bool := []
  /-- Captures in progress (R233). -/
  captures : List Capture := []
  swapReq : Option SwapReq := none
  /-- Genlock (R282 to R284): consecutive references within 2 us, the last reference, and whether the follower runs from the source's pixel
  clock. -/
  refs : Nat := 0
  lastRef : Option Nat := none
  refPeriod : Nat := 0
  onClock : Bool := false
  /-- Genlock steering of the pixel clock, in parts per 10^9 (R282). -/
  steer : Int := 0
  /-- LTIME at which ENABLE started the generator, and its start instant once a reference has given it (R283). -/
  enabledAt : Nat := 0
  startAt : Option Nat := none
  /-- The routed stream carries the video of the frame in progress (R277, R290, R291). -/
  video : Bool := false
  /-- Latches since the generator runs with its port's link up, and the automatic BL_EN (R294). -/
  litFrames : Nat := 0
  lit : Bool := false
  /-- PERIOD and DUTY of the PWM period in progress, and the LTIME at which it began (R295). -/
  pwmPeriod : Nat := 0x780
  pwmDuty : Nat := 0
  pwmAt : Nat := 0
deriving DecidableEq, Repr, Inhabited

/-- A side-channel transaction as it stood at GO (R293): KIND, ADDR, the bytes to write, the bytes to read, DEFER answers so far, and whether a DSI
packet waits for the next latch. -/
structure SideTxn where
  kind : Nat
  addr : Nat
  bytes : List Byte
  count : Nat
  defers : Nat := 0
  waits : Bool := false
deriving DecidableEq, Repr, Inhabited

/-- A port (R290 to R293): retrains left after an HPD IRQ, a latch since ENABLE, a link lost and not yet regained,
and a link that stays down until ENABLE is written again; the side-channel transaction in progress. -/
structure DispPortSt where
  retriesLeft : Nat := 0
  latched : Bool := false
  lost : Bool := false
  dead : Bool := false
  side : Option SideTxn := none
deriving DecidableEq, Repr, Inhabited

structure DispSt where
  layers : Tbl LayerSt := []
  /-- Groups not yet completed, in the order in which their first commands started. -/
  groups : List Group := []
  nextGroup : Nat := 0
  nextOrd : Nat := 0
  /-- Commands of WAIT_FRAME: command, output and SEQ (R182). -/
  waits : List (CmdRef × Nat × Nat) := []
  /-- Release fences still to be signalled. -/
  releases : List Release := []
  /-- Host-memory data that has arrived for lines being composed: slot, address and bytes (R176). -/
  hostLines : List (Nat × Nat × List Byte) := []
  outs : Tbl OutSt := []
  ports : Tbl DispPortSt := []
deriving DecidableEq, Repr, Inhabited

/-! Camera ingest and warp. -/

/-- A warp job (R324 to R332): its command, the owner, whether it is standing and its OUT_CS, and once started the inputs fixed per pass
(base and geometry, none where the context supplies nothing) and the output buffer. -/
structure WarpJob where
  cmd : Option CmdRef := none
  code : Nat := 0
  sec : Bool := false
  /-- A standing job (R331), and which one it is: standing jobs are numbered as they are installed, from 1. -/
  standing : Bool := false
  serial : Nat := 0
  body : List Byte := []
  passes : List (List Byte) := []
  /-- Output lines done: where a job that has been pre-empted or frozen resumes (R324, R517). -/
  lines : Nat := 0
  /-- The buffer of OUT_CS that the job writes, none where none qualified, and the frame of OUT_CS that it is. -/
  outBuf : Option Nat := none
  frame : Nat := 0
  /-- The input of each pass as a record of format, geometry and crop; none where the context supplies nothing (R332). -/
  inputs : List (Option LRec) := []
  /-- The frames held: context and buffer. -/
  inBufs : List (Nat × Nat) := []
  /-- Format, stride, base and chroma offset of the output, once started (R325). -/
  out : LRec := {}
deriving DecidableEq, Repr, Inhabited

structure WarpSt where
  queue : List WarpJob := []
  /-- One-shot jobs that a freeze of their owner has stopped (R517). -/
  parked : List WarpJob := []
  /-- Standing runs that wait, in trigger order: OUT_CS and the number of the trigger. -/
  runs : List (Nat × Nat) := []
  job : Option WarpJob := none
  preempted : Option WarpJob := none
  pixels : Nat := 0
deriving DecidableEq, Repr, Inhabited

/-- A standing job installed on its OUT_CS (R331). -/
structure Standing where
  job : WarpJob
  engine : Nat
  trigger : Nat
  /-- WARP_CANCEL commands that wait for the run in progress. -/
  cancel : List CmdRef
deriving DecidableEq, Repr, Inhabited

/-- A stream context (R304 to R323). -/
structure CsSt where
  /-- The body of STREAM_SET from byte 32, and its continuation (R308). -/
  cfg : List Byte := []
  cont : List Byte := []
  /-- The view binding holds (R314). -/
  viewOn : Bool := false
  /-- A frame is in progress, the buffer it fills (none where none qualified), and its lines so far. -/
  inFrame : Bool := false
  buf : Option Nat := none
  lines : Nat := 0
  /-- A frame start has been followed by neither its frame end nor a line timeout (R312). -/
  awaits : Bool := false
  /-- The chroma row that waits for its pair (R305). -/
  held : List Byte := []
  /-- The newest complete frame since STREAM_START: its buffer and FRAMES value. -/
  newest : Option Nat := none
  /-- Buffers that a peer's views hold, by 32 × peer + binding (R541). -/
  peerViews : Tbl (Option Nat) := []
  /-- When each buffer was last released or filled, to find the oldest (R315). -/
  stamps : Tbl Nat := []
  nextStamp : Nat := 0
  lastStart : Option Nat := none
  lastLine : Nat := 0
  lastEnd : Option Nat := none
  pinned : Option Nat := none
  holds : List (CmdRef × Nat) := []
  standing : Option Standing := none
  /-- WARP_CANCEL commands whose job has been replaced, and that wait for the run in progress (R331). -/
  cancels : List CmdRef := []
  /-- OFF was entered through VF_FREEZE (R311). -/
  frozen : Bool := false
  /-- Frames begun, and the tag of each ring slot: frame and line (R318). -/
  begun : Nat := 0
  tags : Tbl (Option (Nat × Nat)) := []
  /-- When each line of the frame begun last and of the one before it was written, for its slack (R321): frame, line and LTIME. -/
  arrivals : List (Nat × Nat × Nat) := []
  /-- The source kind that the view shows (R316: 1 live, 2 fallback, 0 none), the buffer, and for a line-locked view frame F (R318). -/
  viewKind : Nat := 0
  viewBuf : Option Nat := none
  viewFrame : Nat := 0
  /-- Source lines whose layer deadline passed before they arrived, with the LTIME of the deadline (R321). -/
  due : List (Nat × Nat) := []
  /-- Slack of the frame in progress (R321): lines measured and their sum. -/
  slackN : Nat := 0
  slackSum : Int := 0
  slackMin : Int := 0
  slackMax : Int := 0
deriving DecidableEq, Repr, Inhabited

structure VinSt where
  cs : Tbl CsSt := []
  we : Tbl WarpSt := []
  /-- Triggers of standing runs so far (R324), and standing jobs installed so far (R331). -/
  triggers : Nat := 0
  installed : Nat := 0
deriving DecidableEq, Repr, Inhabited

/-! Graphics, compute and copy. -/

/-- A pipeline handle (R353 to R358): the digest, place and length of its object, what a command checks of it, and its native size. -/
structure Pipe where
  hash : List Byte
  obj : Nat
  len : Nat
  compute : Bool
  push : Nat
  targets : List Nat
  /-- SET_SIZE, and the vertex-input, raster and blend sections (R353, R354). -/
  setSize : Nat := 0
  vertexIn : List Byte := []
  raster : List Byte := []
  blend : List Byte := []
  kib : Nat
  pin : Bool
deriving DecidableEq, Repr, Inhabited

/-- An entry of the translation cache (R357); the list of entries stands most recently used first. -/
structure XltEntry where
  owner : Nat
  hash : List Byte
  kib : Nat
  pin : Bool
deriving DecidableEq, Repr, Inhabited

/-- A colour target (R362). -/
structure GTarget where
  base : Nat
  stride : Nat
  fmt : Nat
  load : Nat
  store : Nat
  clear : List Nat
deriving DecidableEq, Repr, Inhabited

/-- An entry of a resource table (R367). -/
structure ResEntry where
  kind : Nat
  fmt : Nat
  enc : Nat
  host : Bool
  base : Nat
  size : Nat
  stride : Nat
  sampler : Nat
  levels : Nat
  chroma : Nat
deriving DecidableEq, Repr, Inhabited

/-- What the tiles of a pass need of a draw: the raster and blend sections of its pipeline, SCISSOR, VIEWPORT as six binary32 values, and its resource
table. -/
structure DrawSt where
  raster : List Byte
  blend : List Byte
  scissor : List Nat
  viewport : List Nat
  res : List ResEntry
deriving DecidableEq, Repr, Inhabited

/-- An entry of a tile's list: the draw of the pass and the primitive of the draw, where it lies and what binning wrote there (R370). -/
structure BinEntry where
  tile : Nat
  draw : Nat
  prim : Nat
  addr : Nat
  data : List Byte
deriving DecidableEq, Repr, Inhabited

/-- Tile storage of one sample (R363): its pixel word in each target, depth as binary32, and stencil. -/
structure SampleSt where
  words : List Nat
  depth : Nat
  stencil : Nat
deriving DecidableEq, Repr, Inhabited

/-- An open pass (R362). -/
structure PassSt where
  targets : List GTarget
  width : Nat
  height : Nat
  /-- PFLAGS, and the values to which depth and stencil are cleared (R363). -/
  flags : Nat := 0
  depthClear : Nat := 0
  stencilClear : Nat := 0
  /-- A START_DEADLINE not yet used (R348). -/
  deadline : Nat
  /-- The draws binned, in ring order. -/
  drawn : List DrawSt := []
  /-- The tile lists, and the bytes of the arena and of the Basket that they take (R370). -/
  lists : List BinEntry := []
  arenaUsed : Nat := 0
  basketUsed : Nat := 0
  /-- Incremental renders of the pass, and what the save area holds by sample: 4 × (y × WIDTH + x) + sample (R371, R372). -/
  renders : Nat := 0
  saved : Tbl SampleSt := []
  /-- Tiles that PASS_END has rendered and stored. -/
  done : List Nat := []
deriving DecidableEq, Repr, Inhabited

/-- A graphics context (R341 to R373). -/
structure GpuCtx where
  /-- Settings of CTX_SET: PRIORITY before the clamp to MAX_PRIO, GUARD_US, NEED, arena and Basket (R360). -/
  prioReq : Nat := 0
  guard : Nat := 10
  need : Nat := 1
  arenaBase : Nat := 0
  arenaKib : Nat := 0
  basketMib : Nat := 0
  basketBase : Nat := 0
  pass : Option PassSt := none
  pipes : Tbl (Option Pipe) := []
  /-- Started commands, in ring order (R343). -/
  cmds : List (CmdRef × Cmd) := []
  /-- The first command is work for the clusters; it has held one; its START_DEADLINE; its guard has acted (R347, R349). -/
  active : Bool := false
  begun : Bool := false
  deadline : Nat := 0
  fired : Bool := false
  /-- The pipeline whose translation is in progress (R355). -/
  loading : Option Pipe := none
  /-- The resource table and the workgroups that remain of a dispatch (R365, R367), and what its shaders' last loads returned. -/
  res : List ResEntry := []
  todo : Nat := 0
  got : List (List Nat) := []
deriving DecidableEq, Repr, Inhabited

/-- A logical cluster (R344, R349): the context that holds it, the one that held it last and since when, the context that stands first in the round-robin
order, its slice has passed, the command for which pre-emption was requested, and a requested swap (R340). -/
structure ClusterSt where
  run : Option Nat := none
  last : Option Nat := none
  since : Nat := 0
  /-- Where the round-robin order of each level stands (R344). -/
  rr : Tbl Nat := []
  expired : Bool := false
  req : Option Nat := none
  swap : Option SwapReq := none
deriving DecidableEq, Repr, Inhabited

/-- A copy command on its channel (R376): the offset at which it stands, as a row and bytes of that row, and the bytes moved since they were last counted
(R385, R517). -/
structure CpJob where
  ref : CmdRef
  cmd : Cmd
  code : Nat
  row : Nat := 0
  off : Nat := 0
  moved : Nat := 0
deriving DecidableEq, Repr, Inhabited

/-- A copy channel: the command that runs, those queued behind it, and the host data that has arrived. -/
structure CpChan where
  run : Option CpJob := none
  queue : List CpJob := []
  host : List Byte := []
deriving DecidableEq, Repr, Inhabited

structure GpuSt where
  ctx : Tbl GpuCtx := []
  clusters : Tbl ClusterSt := []
  cache : List XltEntry := []
  /-- LTIME of the ENGINE_FAULT completions that each physical cluster caused (R340). -/
  faults : Tbl (List Nat) := []
  chans : Tbl CpChan := []
  /-- Bytes moved by each copy engine (R385), and the channel that its next request to host memory may come from first (R375). -/
  moved : Tbl Nat := []
  turn : Tbl Nat := []
deriving DecidableEq, Repr, Inhabited

/-! Mailboxes and check-value units. -/

/-- A transmit slot (R475 to R482): its words, and while posted its deadline, the MBX_SEND that posted it and SENDER_RESET. -/
structure MbxSlot where
  data : Tbl Word := []
  posted : Bool := false
  deadline : Option Nat := none
  bulk : Option CmdRef := none
  senderReset : Bool := false
deriving DecidableEq, Repr, Inhabited

/-- One end of a channel (R492): its control fields, and the flags of its transmit slots. -/
structure MbxEnd where
  opened : Bool := false
  rxNotice : Bool := false
  txNotice : Bool := false
  timeout : Nat := 0
  rxReset : Nat := 0
  timedOut : Nat := 0
  werr : Bool := false
  /-- Posted slots of the direction that leads away from the end, oldest first. -/
  order : List Nat := []
  /-- EV384 + channel has been raised for the reset of this end that is in progress (R481). -/
  resetEv : Bool := false
deriving DecidableEq, Repr, Inhabited

/-- An MBX_SEND or MBX_RECV in progress (R483 to R485): its channel and end, messages read or taken, messages popped, and for host memory the
bytes that have arrived. -/
structure MbxBulk where
  ref : CmdRef
  code : Nat
  sec : Bool
  send : Bool
  chan : Nat
  side : Nat
  count : Nat
  buf : Nat
  host : Bool
  deadline : Option Nat
  moved : Nat := 0
  popped : Nat := 0
  resets : Nat := 0
  data : List Byte := []
deriving DecidableEq, Repr, Inhabited

structure MbxSt where
  /-- By 2 × channel + end (0 A, 1 B), and for slots four times that plus the slot. -/
  slots : Tbl MbxSlot := []
  ends : Tbl MbxEnd := []
  bulk : List MbxBulk := []
  /-- The spanning channels whose entries on the device at a position name this device (R474); the far end of the link reports them. -/
  peerChans : Tbl (List Nat) := []
  /-- The running value of each check-value unit; none is the init value of its POLY (R489). -/
  cvu : Tbl (Option Nat) := []
deriving DecidableEq, Repr, Inhabited

/-! Voice-coil haptics. -/

/-- The state of a full bridge (R415). -/
inductive Bridge where
  | off | push | pull | short
deriving DecidableEq, Repr, Inhabited

/-- The gates of legs A and B that are high, GAH, GAL, GBH, GBL in turn (R415). -/
def Bridge.gates : Bridge → Bool × Bool × Bool × Bool
  | .off => (false, false, false, false)
  | .push => (true, false, false, true)
  | .pull => (false, true, true, false)
  | .short => (false, true, false, true)

/-- One gate of a leg is turned off and the other turned on between the two states (R415). -/
def Bridge.crosses : Bridge → Bridge → Bool
  | .push, .pull | .pull, .push | .push, .short | .pull, .short | .short, .push | .short, .pull => true
  | _, _ => false

/-- A haptic channel (R415 to R433); its state, effect and queued effect stand in HAP_CH_STAT. -/
structure HapCh where
  /-- Bytes 32 to 63 of the HAP_SET in force (R427). -/
  cfg : List Byte := []
  /-- The 2 ms SHORT at the end of BRAKE is in progress (R425). -/
  shorting : Bool := false
  bridge : Bridge := .off
  /-- Clock periods of PUSH or PULL in this PWM period (R416). -/
  width : Nat := 0
  /-- Clock periods of dead time, every gate low, before `bridge` begins (R415). -/
  dead : Nat := 0
  /-- The bridge state that was turned off last, and the clock periods for which every gate has been low since then (R415). -/
  last : Bridge := .off
  rest : Nat := 0
  /-- PWM periods since the effect started, and since BRAKE or its SHORT began (R416, R425). -/
  pos : Nat := 0
  ticks : Nat := 0
  /-- Samples in a row with |v| below STOP_VEL, and with |I| too small for a closed coil (R425, R428). -/
  slow : Nat := 0
  weak : Nat := 0
  /-- PWM periods at the last gap of the tracking, and us since the last read of the accelerometer (R419, R421). -/
  gapAt : Nat := 0
  accUs : Nat := 0
  /-- A gap of the tracking is in progress (R419). -/
  gapping : Bool := false
  /-- The last zero crossing of velocity that a gap saw, in us since the effect started (R419). -/
  cross : Option Nat := none
  /-- The target of R418 in 0.01 g, the frequency in Hz at which the effect is driven, 0 for none, and a segment that starts negative (R419, R423). -/
  target : Int := 0
  freq : Nat := 0
  inverted : Bool := false
  /-- The last sample's voltage in mV, current in mA and current slope in A/s (R417, R418). -/
  mv : Int := 0
  ma : Int := 0
  slope : Int := 0
  /-- Velocity in um/s, coil resistance in milliohms, coil temperature in degrees (R418, R419, R429). -/
  vel : Int := 0
  res : Nat := 0
  temp : Int := 25
  /-- The sums of the squared samples of current, in mA², of the PWM periods of the last 100 ms, newest first (R429). -/
  squares : List Nat := []
  /-- Past intervals in DRIVE, newest first, and the start of the present one (R429). -/
  drives : List (Nat × Nat) := []
  driveFrom : Nat := 0
  /-- Panel acceleration in 0.01 g, from the accelerometer or from back-EMF (R418), failed reads in a row, and back-EMF estimation until the next HAP_SET (R421). -/
  acc : Int := 0
  accFails : Nat := 0
  fallback : Bool := false
  /-- HAP_STOP commands that wait for the end of BRAKE. -/
  stops : List CmdRef := []
deriving DecidableEq, Repr, Inhabited

structure HapSt where
  chans : Tbl HapCh := []
  /-- RAM effects by k for E128 + k: the bytes of R423; none loaded is empty. -/
  effects : Tbl (List Byte) := []
deriving DecidableEq, Repr, Inhabited

/-! Capacitive touch and keys. -/

/-- The states of a point (R392). -/
inductive PtState where
  | init | track | touched | recal
deriving DecidableEq, Repr, Inhabited

/-- A measured point (R392): its baseline, the scans taken in INIT or RECAL, the count kept meanwhile, consecutive scans at or below
-NEG_TH and at or above the touch threshold, scans towards the next drift step, LTIME of the touch, and its last delta. -/
structure Point where
  st : PtState := .init
  base : Nat := 0
  n : Nat := 0
  kept : Nat := 0
  neg : Nat := 0
  deb : Nat := 0
  drift : Nat := 0
  since : Nat := 0
  delta : Int := 0
deriving DecidableEq, Repr, Inhabited

/-- A contact of the last scan (R399, R400). -/
structure Contact where
  id : Nat
  x : Nat
  y : Nat
  strength : Nat
  area : Nat
  hover : Bool
  /-- The key of its node (R399). -/
  node : Nat := 0
deriving DecidableEq, Repr, Inhabited

/-- What waits for a scan boundary (R405). -/
inductive TchWork where
  | set (ref : CmdRef) (image : List Byte)
  | stop (ref : CmdRef)
  | rebase (ref : CmdRef) (mask : Nat)
deriving DecidableEq, Repr

/-- A touch engine (R386 to R413). -/
structure TchEng where
  /-- The configuration image in force (R406); empty while unconfigured. -/
  cfg : List Byte := []
  /-- A scan is in progress, another is due when it ends, and the last starts no further one (R390, R410). -/
  inScan : Bool := false
  due : Bool := false
  quiet : Bool := false
  /-- LTIME at which the next scan is due, at which the scan in progress started, and from which the front ends are checked again; 0 for the check at
  start-up (R390, R411). -/
  nextAt : Nat := 0
  startedAt : Nat := 0
  checkAt : Nat := 0
  /-- Points: 40 × transmit + receive index for a node, 960 + line for a self line, 1,024 + line for a line measured in hover mode. -/
  pts : Tbl Point := []
  /-- LTIME at which the next report of a held object is due, by object (R402). -/
  heldAt : Tbl Nat := []
  contacts : List Contact := []
  /-- Ring entries written and not released (R401). -/
  unreleased : Nat := 0
  work : List TchWork := []
  /-- A TOUCH_SET whose image comes from host memory, and the bytes that have arrived. -/
  hostSet : List (CmdRef × List Byte) := []
  /-- Lines whose front end failed and that wait for a spare, and failed lines not yet reported (R411). -/
  toSpare : List (Nat × SwapReq) := []
  toReport : List Nat := []
  /-- A freeze of the owner has stopped the engine, or will at the next boundary (R517, R519). -/
  frozen : Bool := false
  /-- The key objects whose press woke the device and is still to be reported (R412). -/
  wakePress : List Nat := []
deriving DecidableEq, Repr, Inhabited

/-! Audio. -/

/-- A mix bus (R448 to R462): its Hamper entry in force and the one before the swap, empty while disabled; the length of the ramp and the samples of
it done; samples of a fade to disable done, plus one; samples of each input's fade done, plus one; filter state x1, x2, y1, y2 by band;
delay memory, newest first; the last sample; samples spent below SIL_THRESH. -/
structure BusSt where
  cur : List Byte := []
  old : List Byte := []
  r : Nat := 0
  i : Nat := 0
  dying : Nat := 0
  /-- Samples done of the fade of a freeze (R517, R519). -/
  hold : Nat := 0
  fade : Tbl Nat := []
  eq : Tbl (Int × Int × Int × Int) := []
  /-- The level of the peak detector of the dynamics stage (R450). -/
  level : Nat := 0
  delay : List Int := []
  out : Int := 0
  quiet : Nat := 0
  /-- An entry that has swapped in during a fade to disable, and takes effect at its end (R445, R462). -/
  next : List Byte := []
deriving DecidableEq, Repr, Inhabited

/-- A sink (R454, R458): as a bus, with the fades of MAIN (0) and ALERT (1), the steps of the DUCK ramp done and its length, and the last word sent. -/
structure SinkSt where
  cur : List Byte := []
  old : List Byte := []
  r : Nat := 0
  i : Nat := 0
  dying : Nat := 0
  /-- Samples done of the fade of a freeze (R517, R519). -/
  hold : Nat := 0
  fade : Tbl Nat := []
  duck : Nat := 0
  duckLen : Nat := 0
  out : Int := 0
  word : Int := 0
  quiet : Nat := 0
  /-- The words of the last 1.5 ms, newest first, for a rate converter (R438). -/
  past : List Int := []
  /-- An entry that has swapped in during a fade to disable, and takes effect at its end (R445, R462). -/
  next : List Byte := []
deriving DecidableEq, Repr, Inhabited

/-- A validated Hamper that waits for its swap (R460). -/
structure Hamper where
  ref : CmdRef
  code : Nat
  image : List Byte
  at_ : Nat
deriving DecidableEq, Repr, Inhabited

/-- A playback or capture stream (R463, R464): its set-up, host data that has arrived and bytes asked for, and whether it stands at LIMIT. -/
structure StreamSt where
  base : Nat := 0
  size : Nat := 0
  host : Bool := false
  data : List Byte := []
  asked : Nat := 0
  atLimit : Bool := false
deriving DecidableEq, Repr, Inhabited

/-- A chime player (R465): whether it plays, its clip, the next sample, clips left (0 for no end) and samples of gap left. -/
structure ChimeSt where
  on : Bool := false
  clip : Nat := 0
  len : Nat := 0
  rep : Nat := 0
  gapMs : Nat := 0
  pos : Nat := 0
  left : Nat := 0
  gap : Nat := 0
deriving DecidableEq, Repr, Inhabited

/-- Commands that act at the next sample boundary (R463, R465). -/
inductive AudWork where
  | stream (ref : CmdRef) (n : Nat) (run : Bool) (base size : Nat) (host : Bool)
  | play (ref : CmdRef) (n clip len rep gap : Nat)
  | stop (ref : CmdRef) (n : Nat)
  /-- Function-level reset of the owner stops stream `n` (R446). -/
  | halt (n : Nat)
deriving DecidableEq, Repr

/-- An amplifier enable (R469): its pin is active, and the LTIME at which it goes inactive, once every sink is silent. -/
structure AmpSt where
  active : Bool := false
  offAt : Option Nat := none
deriving DecidableEq, Repr, Inhabited

structure AudSt where
  /-- Sample boundaries so far since RUN was set (R436). -/
  n : Nat := 0
  /-- The graph has moved to the audio PLL (R437). -/
  fallback : Bool := false
  buses : Tbl BusSt := []
  sinks : Tbl SinkSt := []
  hampers : List Hamper := []
  streams : Tbl StreamSt := []
  chimes : Tbl ChimeSt := []
  work : List AudWork := []
  amps : Tbl AmpSt := []
deriving DecidableEq, Repr, Inhabited

/-- What the performance counters hold beside their registers (R494 to R501): the values of the last window by counter, groups that froze a counter in
the present window, and pixels counted towards the next thousand by event and instance. -/
structure PmcSt where
  /-- LTIME at which the present window of a group began; none while the group counts in no window (R500). -/
  began : Tbl (Option Nat) := []
  shown : Tbl Word := []
  frozen : Tbl Bool := []
  pix : Tbl Nat := []
deriving DecidableEq, Repr, Inhabited

/-! Partitions. -/

/-- A move of pages in progress (R508): first source and destination page numbers and the count of pages. -/
structure MoveOp where
  src : Nat
  dst : Nat
  count : Nat
deriving DecidableEq, Repr, Inhabited

/-- A management command that waits for host data: what has arrived, and the bytes it needs. -/
structure HostFetch where
  ref : CmdRef
  need : Nat
  data : List Byte := []
deriving DecidableEq, Repr, Inhabited

/-- Freezes by VF (R517): the command and the LTIME at which LIMIT_US passes; resets by owner code (R510): LTIME of the start; VFs whose queues have
been enabled since their last reset (R523); the page move; and fetches of management commands. -/
structure PartSt where
  freezes : Tbl (Option (CmdRef × Option Nat)) := []
  resets : Tbl (Option Nat) := []
  ran : Tbl Bool := []
  move : Option MoveOp := none
  fetches : List HostFetch := []
deriving DecidableEq, Repr, Inhabited

/-- What the sections 0x0003 to 0x000D of a Rucksack carry (R522), by index of the resource: registers of the function and of its resources, queues,
and what each chapter holds for them. -/
structure VfPart where
  code : Nat := 0
  regs : List Word := []
  queues : List QueueSt := []
  res : List (Nat × Nat × List Word) := []
  streamRegs : List (Nat × List Word) := []
  trigs : List (Nat × Word) := []
  layers : List (Nat × LayerSt) := []
  groups : List Group := []
  waits : List (CmdRef × Nat × Nat) := []
  stages : List (Nat × List Byte × List Byte) := []
  ctxs : List (Nat × GpuCtx) := []
  chans : List (Nat × CpChan) := []
  css : List (Nat × CsSt) := []
  /-- Jobs by engine, queued (false) or parked (true). -/
  jobs : List (Nat × Bool × WarpJob) := []
  engs : List (Nat × TchEng) := []
  haps : List (Nat × HapCh) := []
  effects : List (Nat × List Byte) := []
  buses : List (Nat × BusSt) := []
  sinks : List (Nat × SinkSt) := []
  streams : List (Nat × StreamSt) := []
  chimes : List (Nat × ChimeSt) := []
  hampers : List Hamper := []
  audWork : List AudWork := []
  fences : List (Nat × List Nat) := []
  /-- Mailbox channels: the function's end, its transmit slots and those of the other end, and the order in which each end's were posted. -/
  mail : List (Nat × MbxEnd × List MbxSlot × List MbxSlot × List Nat × List Nat) := []
  bulk : List MbxBulk := []
  cvus : List (Nat × Option Nat) := []
deriving Inhabited

/-! Power and reset. -/

/-- Where the device stands between its resets and power states (R580 to R594). -/
inductive PwrPhase where
  /-- PORST_n is low. -/
  | reset
  /-- A thermal trip holds the device in reset (R581). -/
  | tripped
  | on
  /-- Steps 1 to 4 of R590. -/
  | entering
  | dormant
  /-- Step 2 of R593, and steps 3 to 5. -/
  | railWait
  | resuming
  | calendar
deriving DecidableEq, Repr, Inhabited

/-- The power state: in a rail wait, the LTIME at which it ends; the pin that requests rails off, with its level (R590); ports whose WAKE_n is asserted
(R593); what Acholt did at DORMANT entry; and whether a trip holds the device until every site is cool (R581). -/
structure PwrSt where
  phase : PwrPhase := .reset
  railAt : Nat := 0
  rail : Option (Nat × Bool) := none
  wakeN : Tbl Bool := []
  acholt : AcholtPhase := .off
  held : Bool := false
deriving DecidableEq, Repr, Inhabited

/-- Everything but the device memory and the queue of commands. -/
structure Dev where
  /-- Registers by `Reg.key`; an unlisted register holds its reset value. -/
  regs : List (Nat × Word) := []
  /-- The values in force of class L registers (R16); unlisted likewise. -/
  live : List (Nat × Word) := []
  time : TimeSt := {}
  pace : PaceSt := {}
  msys : MemSysSt := {}
  own : OwnSt := {}
  hrq : HrqSt := {}
  ports : Tbl PortSt := []
  /-- Functions with Bus Master Enable at 1, and functions not in D0, by code (R645). -/
  busMaster : Tbl Bool := []
  notD0 : Tbl Bool := []
  /-- Other PCIe configuration of the functions, by code (R117, R121). -/
  pci : Tbl PciFn := []
  mgt : MgtSt := {}
  disp : DispSt := {}
  vin : VinSt := {}
  gpu : GpuSt := {}
  mbx : MbxSt := {}
  tch : Tbl TchEng := []
  hap : HapSt := {}
  aud : AudSt := {}
  pmc : PmcSt := {}
  part : PartSt := {}
  pwr : PwrSt := {}
  /-- The steps taken that used a free value so far: the argument of `Config.freeValue`. -/
  free : Nat := 0
  outbox : List Out := []
deriving DecidableEq, Repr, Inhabited

/-- The machine: the waiting commands, the device memory and the rest of the device. -/
structure State where
  pending : List Instr
  mem : Mem
  dev : Dev
deriving DecidableEq, Repr

/-- The device as a cold reset leaves it (R579 to R582): every register at its reset value, every bank zero (R77). -/
def State.reset : State := { pending := [], mem := {}, dev := {} }

end Sys2Proof.Machine
end

