-- ==== Sys2Proof/Config.lean ====
section
/-! DEFINITION. What an implementation fixes and the specification leaves open: every constant here has no body, so nothing
can be proved about its value. Each is named in the assumption log. -/

namespace Sys2Proof.Config

/-- A free value: the k-th value that the specification leaves open (log entry 5). -/
opaque freeValue : Nat → Nat

/-- The verdict of an ECDSA P-384 signature over SHA-384 against the key hash in OTP (R98, R100, R550, R567): signature
algorithms are cited by the manual and not restated (log entry 6). Arguments: the bytes signed and the signature. -/
opaque signatureVerifies : List Byte → List Byte → Bool

/-- The rate correction, in parts per 10^9, that the discipline of R44 or R537 chooses for a measured error in ns, before the
clamp that the rule states (log entry 7). Arguments: the error and the current correction. -/
opaque rateCorrection : Int → Int → Int

/-- How far a follower's pixel clock turns toward a phase error in ns, in thousandths of the way on which R282 brings the error to 0 (log entry 138).
Arguments: the error and the steering in force. -/
opaque genlockSteer : Int → Int → Int

/-- The PATH code recorded for a refused access of an engine that has no row in the table of R89 (log entry 8). -/
opaque pathOther : Nat

/-- The chroma siting that a warp engine assumes for its inputs, which carry no ENC byte (R172, R208, R327; log entry 24). -/
opaque warpSiting : Nat

/-- A SPIR-V module meets the validity rules of the standard, which the manual cites and does not restate (R355; log entry 25). Arguments: the section type of
R354 and the section. -/
opaque moduleAccepted : Nat → List Byte → Bool

/-- How exact arithmetic of a draw's blend, or the mean of four samples, becomes a whole number where it gives none (R362, R369; log entry 141). Arguments:
numerator and denominator. -/
opaque shadeRound : Nat → Nat → Nat

/-- A blend on an FP16 target, for which the manual gives no arithmetic (R354, R369; log entry 141). Arguments: the target's 16 bytes of the blend section,
CONST, and the components of the fragment and of the sample. -/
opaque blendHalf : List Byte → List Nat → List Nat → List Nat → List Nat

/-- The mean of four binary16 values that are not all one (R362; log entry 141). -/
opaque meanHalf : List Nat → Nat

/-- A filtered sample, whose precision the manual does not give (R367; log entry 142). Argument: the texels with their weights in 1/65536. -/
opaque filterTexels : List (Nat × List Nat) → List Nat

/-- Alpha of a texel outside an image under clamp to black (R367; log entry 142). -/
opaque blackAlpha : Nat

/-- Rounding of the peak detector of a bus, up where odd (R450; log entry 103). Arguments: the level before and |x|. -/
opaque dynRound : Nat → Nat → Nat

/-- What the gain factor of the dynamics stage adds to the exact one in its last places (R450; log entry 103). -/
opaque gainLow : Int → Nat

/-- The sample that an asynchronous rate converter yields (R438; log entry 102). Arguments: the rate of the port and that of the graph in Hz, and the graph's
last samples, newest first. -/
opaque convertRate : Nat → Nat → List Int → Int

/-- Panel acceleration in 0.01 g of a channel from the rate of change of its coil velocity, in um/s per PWM period: the scale of the actuator model (R418;
log entry 166). -/
opaque panelAcc : Nat → Int → Int

/-- The sine of R423 over half a cycle, in units of 1/32767: argument in millionths of a cycle (log entry 166). -/
opaque halfSine : Nat → Nat

/-- How the samples of a tracking gap correct the coil resistance in milliohms (R419; log entry 166): the resistance before, voltage in mV, current in mA
and current slope in A/s of the last driven sample, and the velocities in um/s that the gap measured. -/
opaque coilResistance : Nat → Int → Int → Int → List Int → Nat

/-- How long each pulse of ALARM lasts, in us (R422; log entry 166). -/
opaque alarmOn : Nat

/-- Whether the downward click of PRESS starts negative; the upward one of RELEASE then starts positive (R422; log entry 166). -/
opaque pressNegative : Bool

/-- The size in KiB of the native code that a pipeline object translates to (R357; log entry 25). -/
opaque nativeKib : List Byte → Nat

/-- The device-defined layout of section `type` of a Rucksack (R522; log entry 26). -/
opaque packSection : Nat → Machine.VfPart → List Byte

/-- What sections of a Rucksack say, by type and bytes: on a device it undoes `packSection` (R522, R524; log entry 26). -/
opaque unpackSections : List (Nat × List Byte) → Machine.VfPart

/-- The DSP_TG_ROUTE value of an early-view entry, which R567 places in the image without giving its offset (log entry 29). -/
opaque earlyRoute : List Byte → Nat

end Sys2Proof.Config
end

