-- ==== Sys2Proof/Machine/Ops.lean ====
section
/-! DEFINITION. The shared operations of the machine: registers and their fields, identities and worlds, events and notices,
fences, device memory and the ownership check. -/

namespace Sys2Proof.Machine

/-- Apply a change to the device, leaving memory and the queue of commands alone. -/
def State.onDev (s : State) (g : Dev → Dev) : State := { s with dev := g s.dev }

/-! Registers. -/

/-- The table key of member `i` of a register. -/
def Reg.key (r : Reg) (i : Nat) : Nat := i * 512 + r.ctorIdx

/-- The reset value of member `i` (log entries 2 and 3 for the members whose value depends on the index). -/
def Reg.resetAt (r : Reg) (i : Nat) : Word :=
  match r with
  | .MEM_BANK_STAT => if i = 16 then 0x1F00 else 0
  | .HRQ_MSIX_TABLE => if i % 4 = 3 then 1 else 0
  | .GPU_SC_STAT => if i < 8 then BitVec.ofNat 32 (i * 4) else 1
  | .MGT_BENCH => BitVec.ofNat 32 ([1, 544, 2, 1, 3, 4, 16, 8].getD i 0)
  | _ => BitVec.ofNat 32 r.resetWord

/-- What an unlisted key of the register table reads as. -/
def regDefault (k : Nat) : Word := Reg.resetAt (Reg.ofNat (k % 512)) (k / 512)

/-- The stored value of member `i` of a register. -/
def Dev.reg (d : Dev) (r : Reg) (i : Nat) : Word := Tbl.getD regDefault d.regs (r.key i)

def Dev.setReg (d : Dev) (r : Reg) (i : Nat) (v : Word) : Dev := { d with regs := Tbl.putD regDefault d.regs (r.key i) v }

/-- The value of a class L register in force (R16). -/
def Dev.liveReg (d : Dev) (r : Reg) (i : Nat) : Word := Tbl.getD regDefault d.live (r.key i)

/-- The pending write of a class L register takes effect at its boundary (R16). -/
def Dev.latch (d : Dev) (r : Reg) (i : Nat) : Dev :=
  { d with live := Tbl.putD regDefault d.live (r.key i) (d.reg r i) }

/-- A field of a word. -/
def Fld.get (F : Fld) (v : Word) : Nat := v.toNat / 2 ^ F.lo % 2 ^ F.w

/-- A word with one field replaced. -/
def Fld.put (F : Fld) (v : Word) (n : Nat) : Word :=
  BitVec.ofNat 32 (v.toNat / 2 ^ (F.lo + F.w) * 2 ^ (F.lo + F.w) + n % 2 ^ F.w * 2 ^ F.lo + v.toNat % 2 ^ F.lo)

def Dev.f (d : Dev) (F : Fld) (i : Nat) : Nat := F.get (d.reg F.reg i)

/-- A one-bit field, as a Boolean. -/
def Dev.fb (d : Dev) (F : Fld) (i : Nat) : Bool := d.f F i == 1

def Dev.setF (d : Dev) (F : Fld) (i n : Nat) : Dev := d.setReg F.reg i (F.put (d.reg F.reg i) n)

/-- A field of a class L register as it is in force. -/
def Dev.fl (d : Dev) (F : Fld) (i : Nat) : Nat := F.get (d.liveReg F.reg i)

def Dev.setFl (d : Dev) (F : Fld) (i n : Nat) : Dev :=
  { d with live := Tbl.putD regDefault d.live (F.reg.key i) (F.put (d.liveReg F.reg i) n) }

/-- Set both the stored and the in-force value of a class L field. -/
def Dev.setBoth (d : Dev) (F : Fld) (i n : Nat) : Dev := (d.setF F i n).setFl F i n

/-- Count in a saturating field. -/
def Dev.count (d : Dev) (F : Fld) (i n : Nat) : Dev := d.setF F i (satAdd (2 ^ F.w - 1) (d.f F i) n)

/-- A 64-bit value held in two registers. -/
def Dev.reg64 (d : Dev) (lo hi : Reg) (i : Nat) : Nat := (d.reg lo i).toNat + 2 ^ 32 * (d.reg hi i).toNat

def Dev.setReg64 (d : Dev) (lo hi : Reg) (i v : Nat) : Dev :=
  (d.setReg lo i (BitVec.ofNat 32 v)).setReg hi i (BitVec.ofNat 32 (v / 2 ^ 32))

/-- What leaves the device is recorded. -/
def Dev.emit (d : Dev) (o : Out) : Dev := { d with outbox := o :: d.outbox }

/-- A free value, and the device with the counter of free values advanced (log entry 5). -/
def Dev.free1 (d : Dev) : Nat × Dev := (Config.freeValue d.free, { d with free := d.free + 1 })

def Dev.now (d : Dev) : Nat := d.time.ltime

/-- An index in the register tables of a member with two indices. -/
def idx2 (n a b : Nat) : Nat := n * a + b

/-! Identities and worlds. -/

/-- A requester: its MID and its world (R80). -/
structure Req where
  mid : Nat
  sec : Bool
deriving DecidableEq, Repr, Inhabited

/-- VFv is marked secure by the lock table in force (R98). -/
def Dev.secureVf (d : Dev) (v : Nat) : Bool := bit d.own.secureVf v

/-- The world of a function (R80, R82). -/
def Dev.secure (d : Dev) : Fn → Bool
  | .sp0 => true
  | .acholt => d.own.acholtSecure
  | .pf _ => false
  | .vf v => d.secureVf v.val

/-- The world of an owner code. -/
def Dev.secureCode (d : Dev) (c : Nat) : Bool :=
  match Fn.ofCode c with
  | some f => d.secure f
  | none => false

/-- A Secure owner in the sense of R646: code 0x01 or 0x02, or a VF marked secure. -/
def Dev.secureOwner (d : Dev) (c : Nat) : Bool :=
  c == 1 || c == 2 || (decide (0x10 ≤ c ∧ c < 0x50) && d.secureVf (c - 0x10))

def Dev.req (d : Dev) (f : Fn) : Req := ⟨f.code, d.secure f⟩

/-- A function holds a resource that carries owner code `c` (R640). -/
def Dev.holds (d : Dev) (f : Fn) (c : Nat) : Bool :=
  match f with
  | .acholt => c == 2 || (c == 1 && d.own.acholtSecure)
  | _ => c == f.code

/-- The code belongs to the PF family of port `p` (R639). -/
def inFamily (p c : Nat) : Bool := c == 4 + p || decide (0x10 + 32 * p ≤ c ∧ c < 0x30 + 32 * p)

/-- The port of a PF or VF owner code. -/
def portOf (c : Nat) : Option Nat := if inFamily 0 c then some 0 else if inFamily 1 c then some 1 else none

/-- The codes between which a requester may move an owner (R93). -/
def Dev.mayGive (d : Dev) (f : Fn) (c : Nat) : Bool :=
  match f with
  | .pf p => c == 0 || (inFamily p.val c && !(decide (0x10 ≤ c) && d.secureVf (c - 0x10)))
  | .sp0 => decide (c ≤ 5 ∨ (0x10 ≤ c ∧ c < 0x50))
  | .acholt => d.own.acholtSecure && decide (c ≤ 5 ∨ (0x10 ≤ c ∧ c < 0x50))
  | .vf _ => false

/-- The function exists (R118): PFs, SP0 and Acholt always, VFs under NumVFs and VF Enable. -/
def Dev.exists? (d : Dev) : Fn → Bool
  | .vf v =>
    let p := d.ports.get (v.val / 32)
    p.vfEnable && decide (v.val % 32 < p.numVfs)
  | _ => true

def Dev.updPart (d : Dev) (g : PartSt → PartSt) : Dev := { d with part := g d.part }

/-- The function is in function-level reset (R510). -/
def Dev.inReset (d : Dev) (c : Nat) : Bool := (d.part.resets.get c).isSome

/-- The VF with owner code `c` freezes, is FROZEN, or is saved or restored (R517, R527). -/
def Dev.vfHeld (d : Dev) (c : Nat) : Bool :=
  decide (0x10 ≤ c ∧ c < 0x50) && decide (3 ≤ d.f GLB_VF_STAT.STATE (c - 0x10) ∧ d.f GLB_VF_STAT.STATE (c - 0x10) ≤ 5)

/-- Acholt runs its firmware (R556) and is not halted (R108). -/
def Dev.acholtRuns (d : Dev) : Bool := d.mgt.phase == .running && !d.own.acholtHalted

/-! The Convoy. -/

/-- This device is a member, and position 0 leads (R531). -/
def Dev.member (d : Dev) : Bool := bit (d.f CNV_STAT.MEMBERS 0) (d.f CNV_STAT.POSITION 0)

/-- The device is a Convoy follower (R46, R531): a member at another position than 0 of a Convoy whose leader, position 0, is a member. -/
def Dev.follower (d : Dev) : Bool := d.member && d.f CNV_STAT.POSITION 0 != 0 && bit (d.f CNV_STAT.MEMBERS 0) 0

/-- A position whose memory an engine may name (R545). -/
def Dev.peerOk (d : Dev) (p : Nat) : Bool := p != d.f CNV_STAT.POSITION 0 && bit (d.f CNV_STAT.MEMBERS 0) p

/-- The port that joins this device to a position, and the position at port `k` (R529). -/
def Dev.peerPort (d : Dev) (p : Nat) : Nat := (p + 3 - d.f CNV_STAT.POSITION 0) % 4

def Dev.peerAt (d : Dev) (k : Nat) : Nat := (d.f CNV_STAT.POSITION 0 + k + 1) % 4

/-- The link to a position carries traffic. -/
def Dev.peerUp? (d : Dev) (p : Nat) : Bool := d.peerOk p && d.fb CNV_PORT_STAT.UP (d.peerPort p)

/-! What the ports can send. -/

/-- The port of a function can send its posted writes (R645). -/
def Dev.canSend (d : Dev) (f : Fn) : Bool :=
  match portOf f.code with
  | none => true
  | some p =>
    let pt := d.ports.get p
    pt.linkUp && !pt.inReset && d.busMaster.get f.code && !d.notD0.get f.code

/-- The number of MSI-X vectors of a function (R117). -/
def fnVectors : Fn → Nat
  | .pf _ => 64
  | .vf _ => 16
  | _ => 0

/-- Send an MSI-X message of a function (R139, R150, R152): nothing for a vector beyond its count or a function that does not
exist; a masked vector leaves its pending bit set (log entry 3). -/
def Dev.sendMsix (d : Dev) (f : Fn) (v : Nat) : Dev :=
  if v < fnVectors f ∧ d.exists? f ∧ d.canSend f ∧ ¬d.inReset f.code then
    let e := idx2 256 f.code (4 * v)
    if (d.reg .HRQ_MSIX_TABLE (e + 3)).toNat % 2 = 1 then
      let w := idx2 2 f.code (v / 32)
      d.setReg .HRQ_MSIX_PBA w (d.reg .HRQ_MSIX_PBA w ||| BitVec.ofNat 32 (2 ^ (v % 32)))
    else
      d.emit (.msix f v ((d.reg .HRQ_MSIX_TABLE e).toNat + 2 ^ 32 * (d.reg .HRQ_MSIX_TABLE (e + 1)).toNat) (d.reg .HRQ_MSIX_TABLE (e + 2)).toNat)
  else d

/-! Events (R148 to R152). -/

/-- The event is pending. -/
def Dev.pend (d : Dev) (k : Nat) : Bool := bit (d.reg .HRQ_EV_PEND (k / 32)).toNat (k % 32)

/-- An occurrence of event `k` (R150). -/
def Dev.raise (d : Dev) (k : Nat) : Dev :=
  let was := d.pend k
  let d1 := d.setReg .HRQ_EV_PEND (k / 32) (d.reg .HRQ_EV_PEND (k / 32) ||| BitVec.ofNat 32 (2 ^ (k % 32)))
  let d2 := if d1.fb HRQ_EV_ROUTE.ACHOLT k then d1.emit (.acholt k) else d1
  if !was && d2.fb HRQ_EV_ROUTE.MSIX_EN k then
    match Fn.ofCode (d2.f HRQ_EV_ROUTE.FUNC k) with
    | some f => d2.sendMsix f (d2.f HRQ_EV_ROUTE.VECTOR k)
    | none => d2
  else d2

def Dev.raiseIf (d : Dev) (c : Bool) (k : Nat) : Dev := if c then d.raise k else d

/-! Performance counters (R494 to R501). -/

/-- The mode of a group; code 3 acts as 0 (R504). -/
def Dev.pmcMode (d : Dev) (g : Nat) : Nat := d.f PMC_GRP_CTRL.MODE g % 3

/-- Counter `i` is the high word of a chained pair (R497). -/
def Dev.pmcChained (d : Dev) (i : Nat) : Bool := i % 2 == 1 && d.fb PMC_SEL.CHAIN i && d.pmcMode (i / 8) == 0

/-- Set bit `i` of a flag register of two words. -/
def Dev.setFlag64 (d : Dev) (lo hi : Reg) (i : Nat) : Dev :=
  if i < 32 then d.setReg lo 0 (d.reg lo 0 ||| BitVec.ofNat 32 (2 ^ i)) else d.setReg hi 0 (d.reg hi 0 ||| BitVec.ofNat 32 (2 ^ (i - 32)))

/-- A counter passes 0xFFFF_FFFF `w` times: a carry into its chained pair, or OVF (R496, R497). -/
def Dev.pmcWrap (d : Dev) (i w : Nat) : Dev :=
  if w = 0 ∨ d.pmcChained i then d
  else if i % 2 = 0 ∧ d.pmcChained (i + 1) then d.setReg .PMC_CNT (i + 1) (d.reg .PMC_CNT (i + 1) + BitVec.ofNat 32 w)
  else (d.setFlag64 .PMC_OVF_LO .PMC_OVF_HI i).raiseIf (d.fb PMC_GRP_CTRL.OVF_EV (i / 8)) 456

def Dev.pmcAdd (d : Dev) (i n : Nat) : Dev :=
  let x := (d.reg .PMC_CNT i).toNat + n
  (d.setReg .PMC_CNT i (BitVec.ofNat 32 x)).pmcWrap i (x / 2 ^ 32)

/-- The selector of a counter names an event (R494); microseconds have no instance. -/
def Dev.pmcNames (d : Dev) (i ev inst : Nat) : Bool :=
  d.fb PMC_SEL.EN i && d.f PMC_SEL.EVENT i == ev && (ev == 1 || d.f PMC_SEL.INST i == inst)

/-- FUNC of a counter names the function whose work an occurrence is (R494). -/
def Dev.pmcFor (d : Dev) (i code : Nat) : Bool := d.f PMC_SEL.FUNC i == 0x7F || d.f PMC_SEL.FUNC i == code

/-- The code of an occurrence that is no function's work, which no FUNC names. -/
def noFunction : Nat := 0x80

/-- The counter names a Secure function or 0x01 while NINV_S is 0 (R495). -/
def Dev.pmcMuted (d : Dev) (i : Nat) : Bool :=
  !d.own.ninvS && d.f PMC_SEL.FUNC i != 0x7F && (d.f PMC_SEL.FUNC i == 1 || d.secureCode (d.f PMC_SEL.FUNC i))

def Dev.pmcFreeze (d : Dev) (g : Nat) : Dev := { d with pmc := { d.pmc with frozen := d.pmc.frozen.put g true } }

/-- `n` occurrences of an event for work of `code`; those of Secure work freeze every counter of the event while NINV_S is 0 (R110, R494, R500). -/
def Dev.pmcHit (d : Dev) (ev inst code : Nat) (sec : Bool) (n : Nat) : Dev :=
  if n = 0 then d
  else (List.range 64).foldl (fun (d : Dev) i =>
    if d.pmcNames i ev inst && d.pmcMode (i / 8) != 2 && !d.pmcChained i then
      (if sec && !d.own.ninvS then d.pmcFreeze (i / 8) else if d.pmcMuted i || !d.pmcFor i code then d else d.pmcAdd i n)
    else d) d

/-- The bin of a latency of `t` ns (R501). -/
def pmcBin (base t : Nat) : Nat := if t < base then 0 else if base * 2 ^ 14 ≤ t then 15 else Nat.log2 (t / base) + 1

/-- One occurrence of a latency event (R501). -/
def Dev.pmcLatency (d : Dev) (ev inst code : Nat) (sec : Bool) (t : Nat) : Dev :=
  (List.range 8).foldl (fun (d : Dev) g =>
    if d.pmcMode g == 2 && d.pmcNames (8 * g) ev inst then
      (if sec && !d.own.ninvS then d.pmcFreeze g
       else if d.pmcMuted (8 * g) || !d.pmcFor (8 * g) code then d
       else
        let b := pmcBin (max 1 (d.f PMC_GRP_CFG2.BASE_NS g)) t
        let F : Fld := ⟨.PMC_CNT, 16 * (b % 2), 16⟩
        d.count F (8 * g + b / 2) 1)
    else d) d

/-- Pixels that count by thousands (R494, events 0x0C and 0x0D). -/
def Dev.pmcPixels (d : Dev) (ev inst code : Nat) (sec : Bool) (n : Nat) : Dev :=
  let k := 256 * ev + inst
  let x := d.pmc.pix.get k + n
  { d with pmc := { d.pmc with pix := d.pmc.pix.put k (x % 1000) } }.pmcHit ev inst code sec (x / 1000)

/-- Units of 64 bytes. -/
def units64 (n : Nat) : Nat := (n + 63) / 64

/-- Data of a function moves over its host port; `out` tells the direction (R494). -/
def Dev.pmcPort (d : Dev) (f : Fn) (out : Bool) (n : Nat) : Dev :=
  match portOf f.code with
  | some p => d.pmcHit 0x05 (2 * p + b2n out) f.code (d.secure f) (units64 n)
  | none => d

/-- Posted writes carry at most Max Payload Size (R117). -/
def Dev.payload (d : Dev) (f : Fn) : Nat := 128 * 2 ^ (d.pci.get f.code).maxPayload

/-- One posted write; No Snoop is set only where the function's configuration enables it. -/
def Dev.postOne (d : Dev) (f : Fn) (a : Nat) (bs : List Byte) (noSnoop : Bool) : Dev :=
  (d.emit (.hostWrite f a bs (noSnoop && (d.pci.get f.code).noSnoop))).pmcPort f true bs.length

/-- Posted writes to host memory (R121), in pieces that the function may send. -/
def Dev.post (d : Dev) (f : Fn) (a : Nat) (bs : List Byte) (noSnoop : Bool := false) : Dev :=
  let k := d.payload f
  if bs.length ≤ k then d.postOne f a bs noSnoop
  else (List.range ((bs.length + k - 1) / k)).foldl (fun (d : Dev) j => d.postOne f (a + k * j) ((bs.drop (k * j)).take k) noSnoop) d

/-! Reads of host memory (R117, R121; log entry 129). -/

/-- A request for which a tag of its port is free: 768 in flight with 10-bit tags, and 256 without (R117). -/
def Dev.tagFree (d : Dev) (f : Fn) : Bool :=
  match portOf f.code with
  | some p => decide ((d.hrq.reads.filter fun r => r.sent.isSome && portOf r.f.code == some p).length < if (d.ports.get p).tenBit then 768 else 256)
  | none => true

/-- The copy engine and channel of a request. -/
def HostReq.copy? (r : HostReq) : Option (Nat × Nat) := match r.work with | .copy e ch => some (e.val, ch.val) | _ => none

/-- A copy engine holds up to 64 transfers, and its channels take turns; a VF that freezes issues none (R375, R517). -/
def Dev.copyMaySend (d : Dev) (r : HostReq) : Bool :=
  match r.copy? with
  | none => true
  | some (e, ch) =>
    let of' := fun (p : HostReq → Bool) => d.hrq.reads.filter fun q => p q && (match q.copy? with | some (e', _) => e' == e | none => false)
    let dist := fun (c : Nat) => (c + 16 - d.gpu.turn.get e) % 16
    !d.vfHeld r.f.code && decide ((of' fun q => q.sent.isSome).length < 64) &&
      (of' fun q => q.sent.isNone && !d.vfHeld q.f.code).all fun q => match q.copy? with | some (_, c) => decide (dist ch ≤ dist c) | none => true

/-- The first request that waits and may go is sent. -/
def Dev.sendNext (d : Dev) : Dev :=
  match d.hrq.reads.findIdx? fun r => r.sent.isNone && d.tagFree r.f && d.copyMaySend r with
  | none => d
  | some k =>
    let r := d.hrq.reads.getD k default
    let turn := match r.copy? with | some (e, ch) => d.gpu.turn.put e ((ch + 1) % 16) | none => d.gpu.turn
    { d with gpu := { d.gpu with turn := turn }, hrq := { d.hrq with reads := d.hrq.reads.set k { r with sent := some d.now } } }.emit (.hostRead r.f r.addr r.len (r.noSnoop && (d.pci.get r.f.code).noSnoop))

def Dev.sendReads (d : Dev) : Nat → Dev
  | 0 => d
  | n + 1 => d.sendNext.sendReads n

/-- Read requests carry at most Max Read Request Size, 512 bytes at most (R117). -/
def Dev.readSize (d : Dev) (f : Fn) : Nat := min 512 (128 * 2 ^ (d.pci.get f.code).maxRead)

/-- A read of host memory is asked for, in requests of the size that the function may send. -/
def Dev.hostRead (d : Dev) (w : Work) (ref : Option CmdRef) (f : Fn) (a n : Nat) (noSnoop : Bool := false) : Dev :=
  let k := d.readSize f
  let rs := (List.range ((n + k - 1) / k)).map fun j =>
    ({ work := w, ref := ref, f := f, addr := a + k * j, len := min k (n - k * j), noSnoop := noSnoop } : HostReq)
  { d with hrq := { d.hrq with reads := d.hrq.reads ++ rs } }.sendReads rs.length

/-- Only requests that pass a test stay; what the others return is discarded, and requests that waited for their tags are sent. -/
def Dev.keepReads (d : Dev) (p : HostReq → Bool) : Dev :=
  let rs := d.hrq.reads.filter p
  { d with hrq := { d.hrq with reads := rs } }.sendReads rs.length

/-- The reads for a piece of work are dropped. -/
def Dev.dropReads (d : Dev) (w : Work) : Dev := d.keepReads fun r => r.work != w

/-- The earliest LTIME at which a request may run past the completion timeout, in ns from its sending: 50 ms, or the start of the range that Device
Control 2 selects (R121; log entry 129). -/
def PciFn.timeoutNs (x : PciFn) : Nat :=
  match x.timeout with
  | 1 => 50000
  | 2 => 1000000
  | 5 => 16000000
  | 6 => 65000000
  | 9 => 260000000
  | 10 => 1000000000
  | 13 => 4000000000
  | 14 => 17000000000
  | _ => 50000000

/-- The request has run past its completion timeout. -/
def Dev.readLate (d : Dev) (r : HostReq) : Bool :=
  match r.sent with
  | some t => decide (t + (d.pci.get r.f.code).timeoutNs ≤ d.now)
  | none => false

/-! The event log (R560 to R562). -/

/-- The 22 fixed bytes and the data of an entry, as it stands in the ring (R560). -/
def LogEntry.bytes (e : LogEntry) : List Byte :=
  toLe e.type 1 ++ toLe e.flags 1 ++ toLe e.source 2 ++ toLe e.seq 4 ++ toLe e.ltime 8 ++ toLe e.calSec 4 ++ toLe e.calSub 2 ++
    (e.data ++ List.replicate 10 0).take 10

/-- CAL_SUB counts at 32,768 Hz, which no command follows, so a reading of it while VALID is 1 is a free value (log entry 27). -/
def Dev.calSub (d : Dev) : Nat × Dev :=
  if d.fb MGT_CAL_SUB.VALID 0 then (2 ^ 15 + d.free1.1 % 2 ^ 15, d.free1.2) else (0, d)

/-- An entry of the next number, without its place in the ring. -/
def Dev.logEntry (d : Dev) (sub type severity source : Nat) (data : List Byte) : LogEntry :=
  { type := type, flags := severity + (if type ∈ [2, 5, 6, 7] then 4 else 0), source := source, seq := d.mgt.nextSeq % 2 ^ 32,
    ltime := d.now, calSec := (d.reg .MGT_CAL_SEC 0).toNat, calSub := sub, data := data }

/-- The entry takes its place in the ring (R560). -/
def Dev.logPut (d : Dev) (e : LogEntry) : Dev :=
  let m := d.mgt
  { d with mgt := { m with log := ({ e with seq := m.nextSeq % 2 ^ 32 } :: m.log).take 2048, nextSeq := m.nextSeq + 1 } }.setReg
    .MGT_LOG_NEWEST 0 (BitVec.ofNat 32 m.nextSeq)

/-- Log an event: in the ring while Acholt runs, and in the FIFO of 64 entries while it does not (R556, R560). Types 2, 5, 6
and 7 carry SECURE (R561). -/
def Dev.log (d0 : Dev) (type severity source : Nat) (data : List Byte) : Dev :=
  let d := d0.calSub.2
  let e := d.logEntry d0.calSub.1 type severity source data
  match d.mgt.phase with
  | .running => d.logPut e
  | _ =>
    if d.mgt.logFifo.length < 64 then { d with mgt := { d.mgt with logFifo := d.mgt.logFifo ++ [e] } }
    else d.count MGT_LOG_LOST.LOG_LOST 0 1

/-! Queues: records and notices (R131, R135 to R139). -/

/-- The index of queue `q` of function `f` in the HRQ register tables. -/
def qi (f : Fn) (q : Fin 8) : Nat := idx2 8 f.code q.val

def Dev.queue (d : Dev) (i : Nat) : QueueSt := d.hrq.queues.get i

def Dev.setQueue (d : Dev) (i : Nat) (s : QueueSt) : Dev := { d with hrq := { d.hrq with queues := d.hrq.queues.put i s } }

/-- The number of slots of the rings (R126, R160). -/
def Dev.sqSize (d : Dev) (i : Nat) : Nat := 2 ^ d.f HRQ_Q_CFG.SQ_LOG2 i

def Dev.cqSize (d : Dev) (i : Nat) : Nat := 2 ^ d.f HRQ_Q_CFG.CQ_LOG2 i

/-- Bytes of the SP0 window (R123); a byte outside it reads 0. -/
def Dev.winRead (d : Dev) (a n : Nat) : List Byte :=
  (List.range n).map fun k => if a + k < 0x40000 then Tbl.getD (fun _ => (0 : Byte)) d.hrq.window (a + k) else 0

def winPut (w : List Host.Cell) (a : Nat) : List Byte → List Host.Cell
  | [] => w
  | b :: t => winPut (if a < 0x40000 then Tbl.putD (fun _ => (0 : Byte)) w a b else w) (a + 1) t

def Dev.winWrite (d : Dev) (a : Nat) (bs : List Byte) : Dev :=
  { d with hrq := { d.hrq with window := winPut d.hrq.window a bs } }

/-- A 16-byte record (R135). -/
def record (tag status : Nat) (phase notice : Bool) (result ltime : Nat) : List Byte :=
  toLe tag 2 ++ toLe status 1 ++ toLe (b2n phase + 2 * b2n notice) 1 ++ toLe result 4 ++ toLe ltime 8

/-- The interrupt of a queue (R139): a message, or for SP0 an interrupt that stays due until the records written are released. -/
def Dev.queueInterrupt (d : Dev) (f : Fn) (q : Fin 8) : Dev :=
  let i := qi f q
  let qs := d.queue i
  let d1 := d.setQueue i { qs with unsignalled := 0, spDue := if f = .sp0 then qs.unreleased else qs.spDue }
  if f = .sp0 then d1 else d1.sendMsix f (d1.f HRQ_Q_IRQ.VECTOR i)

/-- A condition of R139 is looked for after a record is written; `now?` is an IRQ flag or a notice. -/
def Dev.coalesce (d : Dev) (f : Fn) (q : Fin 8) (now? : Bool) : Dev :=
  let i := qi f q
  let qs := d.queue i
  if d.fb HRQ_Q_IRQ.IRQ_EN i && (now? || decide (max 1 (d.f HRQ_Q_IRQ.COAL_COUNT i) ≤ qs.unsignalled)) then
    d.queueInterrupt f q
  else d

/-- Put one record into the completion ring of queue (f, q), which has room, and advance the tail (R131, R136). The record is
lost when the port cannot send it (R645). -/
def Dev.putRecord (d : Dev) (f : Fn) (q : Fin 8) (tag status result ltime : Nat) (notice irq poisoned : Bool) : Dev :=
  let i := qi f q
  let qs := d.queue i
  let t := d.f HRQ_Q_PTR.CQ_TAIL i
  let bs := record tag status qs.phase notice result ltime
  let at' := d.reg64 .HRQ_CQ_BASE_LO .HRQ_CQ_BASE_HI i + 16 * t
  let t' := (t + 1) % d.cqSize i
  let sent := f = .sp0 || (d.canSend f && !poisoned)
  let qs1 := { qs with
    phase := if t' = 0 then !qs.phase else qs.phase
    unreleased := qs.unreleased + 1
    unsignalled := if sent then qs.unsignalled + 1 else qs.unsignalled
    firstUnsig := if sent && qs.unsignalled == 0 then d.now else qs.firstUnsig }
  let d1 := (d.setQueue i qs1).setF HRQ_Q_PTR.CQ_TAIL i t'
  if sent then
    let d2 := if f = .sp0 then d1.winWrite at' bs else d1.post f at' bs (d.fb HRQ_Q_CFG.NO_SNOOP i)
    d2.coalesce f q (notice || irq)
  else ((d1.setF HRQ_Q_STAT.HOST_ERR i 1).setF HRQ_Q_STAT.HALTED i 1).raise 35

/-- The lowest-numbered enabled queue of a function with a given type (R138). -/
def Dev.noticeQueue (d : Dev) (f : Fn) (ty : Nat) : Option (Fin 8) :=
  ([0, 1, 2, 3, 4, 5, 6, 7] : List (Fin 8)).find? fun q =>
    d.fb HRQ_Q_CFG.ENABLE (qi f q) && d.f HRQ_Q_CFG.TYPE (qi f q) == ty

/-- A notice with LTIME `t` to the function that holds owner code `c` (R138): discarded and counted when the ring is full (R131). Whether its data is
poisoned inside the device (R645) is a free value (log entry 115). -/
def Dev.noticeAt (d : Dev) (t c ty src status result : Nat) : Dev :=
  match Fn.ofCode c with
  | none => d
  | some .acholt => d
  | some f =>
    match if d.inReset c then none else d.noticeQueue f ty with
    | none => d
    | some q =>
      if d.cqSize (qi f q) ≤ (d.queue (qi f q)).unreleased then
        (d.count HRQ_Q_STAT.NOTICE_LOST (qi f q) 1).raise 36
      else d.free1.2.putRecord f q src status result t true false (bit d.free1.1 0)

def Dev.notice (d : Dev) (c ty src status result : Nat) : Dev := d.noticeAt d.now c ty src status result

/-! Commands in flight. -/

def Dev.cmd? (d : Dev) (c : CmdRef) : Option Cmd := (d.queue c.queue).cmds.find? fun x => x.id == c.id

/-- Change one command of a queue. -/
def Dev.updCmd (d : Dev) (c : CmdRef) (g : Cmd → Cmd) : Dev :=
  let qs := d.queue c.queue
  d.setQueue c.queue { qs with cmds := qs.cmds.map fun x => if x.id = c.id then g x else x }

/-- The function whose queue has index `i`. -/
def queueFn (i : Nat) : Option Fn := Fn.ofCode (i / 8)

/-- Flags of R132. -/
def Cmd.flag (c : Cmd) (b : Nat) : Bool := bit (le c.lead 1 1) b

/-! Fences (R142 to R147). -/

def Dev.fence (d : Dev) (i : Nat) : Nat := d.hrq.fences.get i

def Dev.setFence (d : Dev) (i v : Nat) : Dev := { d with hrq := { d.hrq with fences := d.hrq.fences.put i (v % 2 ^ 64) } }

/-- The right to signal a fence (R143): work of the owner, or the Secure world. -/
def Dev.maySignal (d : Dev) (code : Nat) (sec : Bool) (i : Nat) : Bool :=
  sec || (d.f HRQ_FENCE_OWNER.OWNER (i / 64) == code && code != 0)

/-- The right to wait on a fence or read it (R143): the owner, its PF family, or the Secure world. -/
def Dev.mayWait (d : Dev) (code : Nat) (sec : Bool) (i : Nat) : Bool :=
  let o := d.f HRQ_FENCE_OWNER.OWNER (i / 64)
  sec || (o == code && code != 0) || (inFamily 0 o && inFamily 0 code) || (inFamily 1 o && inFamily 1 code)

/-- A signal of a round is stale (R144): its value does not lie above the fence, or a larger one reaches the fence in the same round. -/
def Dev.staleIn (d : Dev) (xs : List Signal) (x : Signal) : Bool :=
  decide (x.value ≤ d.fence x.fence) || xs.any fun y => y.fence == x.fence && decide (x.value < y.value)

/-- The signals of one arbitration round (R144): each fence takes the largest value where that lies above its own, and commands whose signal is stale
are marked. -/
def Dev.judge (d : Dev) (xs : List Signal) : Dev :=
  xs.foldl (fun e x =>
    let e1 := if e.fence x.fence < x.value then e.setFence x.fence x.value else e
    match x.ref with
    | some r => if d.staleIn xs x then e1.updCmd r fun c => { c with stale := true } else e1
    | none => e1) d

/-- A signal reaches its fence, at the end of the round where several operations end in it. -/
def Dev.signal (d : Dev) (x : Signal) : Dev :=
  match d.hrq.joint with
  | some xs => { d with hrq := { d.hrq with joint := some (xs ++ [x]) } }
  | none => d.judge [x]

/-- Operations that end in one arbitration round: their signals are judged together, after it (R144, R189). -/
def Dev.openRound (d : Dev) : Dev := { d with hrq := { d.hrq with joint := some [] } }

def Dev.closeRound (d : Dev) : Dev :=
  match d.hrq.joint with
  | some xs => { d with hrq := { d.hrq with joint := none } }.judge xs
  | none => d

/-- Operations that end in one round; within a round that is open already they join it. -/
def Dev.jointly (d : Dev) (g : Dev → Dev) : Dev := if d.hrq.joint.isSome then g d else (g d.openRound).closeRound

def State.jointly (s : State) (g : State → State) : State :=
  if s.dev.hrq.joint.isSome then g s else (g (s.onDev Dev.openRound)).onDev Dev.closeRound

/-- The signal of a command that completes (R140, R146). A rejected envelope never signals, whatever SIG_ERR of its inner command says (DESIGN CHOICE,
log entry 133). -/
def Dev.signalCmd (d : Dev) (ref : CmdRef) (c : Cmd) : Dev :=
  let rejected := match c.env with | some e => !e.accepted | none => false
  let i := le c.lead 6 2
  match queueFn ref.queue with
  | some f =>
    if rejected || !c.flag 5 || !(decide (c.status < 0x40) || c.flag 6) || decide (4096 ≤ i) || !d.maySignal f.code c.secure i then d
    else d.signal ⟨i, le c.lead 16 8, some ref⟩
  | none => d

/-- A command completes with a status and a RESULT (R135), and signals its fence (R146); one that has ended already is left as it is. -/
def Dev.endCmd (d : Dev) (c : CmdRef) (status result : Nat) : Dev :=
  let d1 := { d with hrq := { d.hrq with nextEnd := d.hrq.nextEnd + 1 } }
  let d2 := d1.updCmd c fun x => if x.phase = .ended then x else
    { x with phase := .ended, status := status, result := result % 2 ^ 32, ltime := d.now, order := d1.hrq.nextEnd, signalled := true }
  match d.cmd? c with
  | some x => if x.phase = .ended then d2 else d2.signalCmd c { x with status := status }
  | none => d2

/-- Several commands complete at once, in one round. -/
def Dev.endAll (d : Dev) (cs : List CmdRef) (status result : Nat) : Dev := d.jointly fun d => cs.foldl (fun d c => d.endCmd c status result) d

/-- A request still serves an operation: the command that asked for it, if one did, has not ended. -/
def Dev.readLive (d : Dev) (r : HostReq) : Bool :=
  match r.ref with
  | some c => (match d.cmd? c with | some x => x.phase != .ended | none => false)
  | none => true

/-- RESULT of a command error: the payload offset of the first offending field and an index (R135). -/
def errAt (off : Nat) (index : Nat := 0xFFFF) : Nat := off % 2 ^ 16 + 2 ^ 16 * (index % 2 ^ 16)

/-- RESULT of a command error whose field lies outside the payload. -/
def errOutside : Nat := errAt 0xFFFF

def Cmd.opcode (c : Cmd) : Nat := le c.lead 0 1

/-- The payload: the leading body, then 62 bytes of each continuation (R133). -/
def Cmd.payload (c : Cmd) : List Byte := c.lead.drop 32 ++ (c.conts.map (List.drop 2)).flatten

/-! Status codes (R141). -/

def ST_OK := 0x00
def ST_TAPS_REDUCED := 0x01
def ST_PARTIAL_LANDED := 0x02
def ST_LANDED_LATE := 0x03
def ST_FENCE_STALE := 0x04
def ST_CLAMPED := 0x05
def ST_REPLACED := 0x06
def ST_BAD_OPCODE := 0x40
def ST_BAD_CHAIN := 0x41
def ST_BAD_FIELD := 0x42
def ST_NOT_OWNER := 0x43
def ST_NOT_PERMITTED := 0x44
def ST_AUTH_FAIL := 0x45
def ST_LOCK_INVALID := 0x46
def ST_HELD := 0x47
def ST_FENCE_DENIED := 0x48
def ST_FENCE_TIMEOUT := 0x49
def ST_LINEBUF := 0x4A
def ST_COVERAGE := 0x4B
def ST_SLOT_LIMIT := 0x4C
def ST_BAD_FORMAT := 0x4D
def ST_BAD_GEOMETRY := 0x4E
def ST_BENCH_EXHAUSTED := 0x4F
def ST_BUSY := 0x50
def ST_VERSION := 0x51
def ST_RESOURCE_LIMIT := 0x52
def ST_REPLAY := 0x53
def ST_KEY_SLOT := 0x54
def ST_AUTH_REQUIRED := 0x55
def ST_OWN_REFUSED := 0x80
def ST_POISONED := 0x81
def ST_HOST_DMA := 0x82
def ST_TILE_OOM := 0x83
def ST_EVICTED := 0x84
def ST_FETCH_OWNER := 0x85
def ST_RX_RESET := 0x86
def ST_RX_TIMEOUT := 0x87
def ST_ABORTED := 0x88
def ST_ENGINE_FAULT := 0x89

/-! Device memory. -/

/-- The size of a bank and where LPDDR5X begins (R52). -/
def bankBytes : Nat := 0x800000

def ddrBase : Nat := 0x800000000

/-- The LPDDR5X channel that serves an address (log entry 11). -/
def ddrChannel (a : Nat) : Nat := a / 64 % 2

/-- Physical places (log entry 10): banks 0 to 15 and BKSP (16) in order, then the shadow buffers, then LPDDR5X. -/
def shadowBase : Nat := 0x9000000

/-- The address lies in a populated range (R52). -/
def Dev.populated (d : Dev) (a : Nat) : Bool :=
  decide (a < 16 * bankBytes) || decide (ddrBase ≤ a ∧ a < ddrBase + d.msys.ddrBytes)

/-- The bank that serves bank number `n`'s range (R53, R72). -/
def Dev.serving (d : Dev) (n : Nat) : Nat := if d.f MEM_BANK_STAT.REPLACES 16 == n then 16 else n

/-- The physical place of a byte of physical bank `b`, under the walker's redirect (R64, R65). -/
def Dev.bankPlace (d : Dev) (b off : Nat) : Nat :=
  let w := d.msys.walk
  if w.phase ≠ .idle ∧ w.bank = b ∧ off / 4096 = w.region ∧ w.restored ≤ off % 4096 / 64 then
    shadowBase + 4096 * b + off % 4096
  else b * bankBytes + off

/-- The physical place that serves a populated device address. -/
def Dev.place (d : Dev) (a : Nat) : Nat :=
  if a < 16 * bankBytes then d.bankPlace (d.serving (a / bankBytes)) (a % bankBytes) else a

/-- The second place of a write while its bank migrates (R72), in the shadow buffer where the walker redirects the region (R64). -/
def Dev.mirror (d : Dev) (a : Nat) : Option Nat :=
  match d.msys.swap with
  | some sw =>
    if a < 16 * bankBytes ∧ d.serving (a / bankBytes) = sw.src then some (d.bankPlace sw.dst (a % bankBytes)) else none
  | none => none

/-- What a byte that nothing has written reads as (R77; log entry 9 for LPDDR5X). -/
def memDefault : Nat → Byte := fun _ => 0

def Mem.byte (m : Mem) (p : Nat) : Byte := Tbl.getD memDefault m.cells p

def Mem.setByte (m : Mem) (p : Nat) (b : Byte) : Mem := { m with cells := Tbl.putD memDefault m.cells p b }

/-- The memory is in canonical form. -/
def Mem.wf (m : Mem) : Bool := Tbl.wfD memDefault m.cells

def Mem.setPoison (m : Mem) (w : Nat) (v : Bool) : Mem := { m with poison := m.poison.put w v }

/-- Clear `n` bytes from physical place `p`, with valid check bits. -/
def Mem.zero (m : Mem) (p n : Nat) : Mem :=
  { cells := m.cells.filter fun c => !decide (p ≤ c.1 ∧ c.1 < p + n)
    poison := m.poison.filter fun c => !decide (p ≤ c.1 ∧ c.1 < p + n) }

/-- Copy `n` bytes and their poison marks from one physical place to another. -/
def Mem.copy (m : Mem) (src dst n : Nat) : Mem :=
  let z := m.zero dst n
  let z1 := (m.cells.filter fun c => decide (src ≤ c.1 ∧ c.1 < src + n)).foldl (fun z c => z.setByte (dst + (c.1 - src)) c.2) z
  (m.poison.filter fun c => decide (src ≤ c.1 ∧ c.1 < src + n)).foldl (fun z c => z.setPoison (dst + (c.1 - src)) c.2) z1

/-- One byte of device memory, as a read of the map returns it. -/
def State.byteAt (s : State) (a : Nat) : Byte := s.mem.byte (s.dev.place a)

def State.bytesAt (s : State) (a n : Nat) : List Byte := (List.range n).map fun k => s.byteAt (a + k)

/-- Reads of the place are checked: every bank, and LPDDR5X with inline error protection (R62, R642). -/
def Dev.checked (d : Dev) (a : Nat) : Bool := decide (a < 16 * bankBytes) || d.fb MEM_DDR_STAT.ECC_EN (ddrChannel a)

/-- The 64-bit word that holds an address is poisoned, and the check of a read finds it so. -/
def State.poisonedAt (s : State) (a : Nat) : Bool := s.dev.checked a && s.mem.poison.get (s.dev.place a / 8 * 8)

/-- The 64-bit words that `n` bytes at `a` touch, by their addresses. -/
def wordsOf (a n : Nat) : List Nat := if n = 0 then [] else (List.range ((a + n - 1) / 8 + 1 - a / 8)).map fun k => (a / 8 + k) * 8

/-- The words of a read that the check finds poisoned. -/
def State.badWords (s : State) (a n : Nat) : List Nat := (wordsOf a n).filter s.poisonedAt

/-- Store one byte of device memory, in both banks while the bank migrates (R72). -/
def Dev.storeByte (d : Dev) (m : Mem) (a : Nat) (b : Byte) : Mem :=
  let m1 := m.setByte (d.place a) b
  match d.mirror a with
  | some p => m1.setByte p b
  | none => m1

/-- Clear or set the poison mark of the word at `a`. -/
def Dev.markWord (d : Dev) (m : Mem) (a : Nat) (v : Bool) : Mem :=
  let m1 := m.setPoison (d.place a / 8 * 8) v
  match d.mirror a with
  | some p => m1.setPoison (p / 8 * 8) v
  | none => m1

def Dev.storeBytes (d : Dev) : Mem → Nat → List Byte → Mem
  | m, _, [] => m
  | m, a, b :: t => d.storeBytes (d.storeByte m a b) (a + 1) t

/-! Benching (R71 to R73, R564, R566). -/

/-- Automatic swaps of kind `k` are enabled (R564), and Acholt runs (R556). -/
def Dev.autoBench (d : Dev) (k : Nat) : Bool := d.acholtRuns && !bit (d.f MGT_AGE_CFG.AUTO_DIS 0) k

/-- An automatic request finds no spare (R566). -/
def Dev.benchExhausted (d : Dev) (kind resource trigger : Nat) : Dev :=
  (d.log 0x08 1 487 (toLe kind 1 ++ toLe resource 2 ++ toLe 0xFFFF 2 ++ toLe trigger 1 ++ toLe 0 1)).raise 487

/-- A completed swap is raised, logged and kept in the journal, and MGT_BENCH counts it (R549, R564, R566). -/
def Dev.benchDone (d : Dev) (kind resource spare trigger : Nat) (back : Bool) : Dev :=
  let uses := if back then d.mgt.bench.eraseP fun u => u.kind == kind && u.resource == resource
    else ⟨kind, resource, spare⟩ :: d.mgt.bench
  let n := (uses.filter fun u => u.kind == kind).length
  let d1 := { d with mgt := { d.mgt with bench := uses } }
  (((d1.setF MGT_BENCH.IN_USE kind n).setF MGT_BENCH.RETIRED kind n).log 0x08 0 486
    (toLe kind 1 ++ toLe resource 2 ++ toLe spare 2 ++ toLe trigger 1 ++ toLe (b2n back) 1)).raise 486

/-- BKSP is free to serve a bank (R73). -/
def Dev.bkspFree (d : Dev) : Bool :=
  d.msys.swap.isNone && d.f MEM_BANK_STAT.REPLACES 16 == 0x1F && !d.fb MEM_BANK_STAT.RETIRED 16

/-- Step 1 of a swap (R72, R74). -/
def Dev.startSwap (d : Dev) (src dst : Nat) (back : Bool) (trigger : Nat) (cmd : Option CmdRef) : Dev :=
  ({ d with msys := { d.msys with swap := some ⟨src, dst, 0, back, trigger, cmd⟩ } }.setF MEM_BANK_STAT.MIGRATING src 1).setF
    MEM_BANK_STAT.MIGRATING dst 1

/-- An automatic request to bench BKSP in place of a bank (R71). -/
def Dev.autoBank (d : Dev) (b : Nat) : Dev :=
  if !d.autoBench 0 ∨ d.fb MEM_BANK_STAT.RETIRED b ∨ d.fb MEM_BANK_STAT.MIGRATING b then d
  else if d.bkspFree then d.startSwap b 16 false 1 none
  else d.benchExhausted 0 b 1

/-- BKSP with uncorrectable errors in two sweeps on the Bench goes out of service for good (R73). -/
def Dev.retireBksp (d : Dev) : Dev :=
  { d with mgt := { d.mgt with bkspRetired := true } }.setF MEM_BANK_STAT.RETIRED 16 1

/-! Errors of the memory (R62, R642). -/

/-- The sweep in which a bank showed an uncorrectable error is noted: in the second one BKSP is benched in its place (R71), and BKSP goes out of
service where the walker found the errors while BKSP was on the Bench (R73). -/
def Dev.ueSweep (d : Dev) (b : Nat) (walker : Bool) : Dev :=
  let w := d.msys.walk
  let sw := w.sweeps + 1
  if w.ueLast.get b = sw ∨ (b = 16 ∧ ¬(walker ∧ d.f MEM_BANK_STAT.REPLACES 16 = 0x1F)) then d
  else
    let n := w.ueSweeps.get b + 1
    let d1 := { d with msys := { d.msys with walk := { w with ueLast := w.ueLast.put b sw, ueSweeps := w.ueSweeps.put b n } } }
    if n < 2 then d1 else if b = 16 then d1.retireBksp else d1.autoBank b

/-- `n` words of physical bank `b` with uncorrectable errors (R62): UE, UE_COUNT and EV064, and the sweep in which they were seen. -/
def Dev.bankUe (d : Dev) (b n : Nat) (walker : Bool) : Dev :=
  if n = 0 then d else (((d.count MEM_BANK_ECC.UE_COUNT b n).setF MEM_BANK_STAT.UE b 1).raise 64).ueSweep b walker

/-- An uncorrectable error of an access in the word at a device address (R62, R642). -/
def Dev.memUe (d : Dev) (a : Nat) : Dev :=
  if a < 16 * bankBytes then d.bankUe (d.serving (a / bankBytes)) 1 false
  else if d.fb MEM_DDR_STAT.ECC_EN (ddrChannel a) then
    ((d.count MEM_DDR_ECC.UE_COUNT (ddrChannel a) 1).setF MEM_DDR_STAT.UE (ddrChannel a) 1).raise 64
  else d

/-- A partial write to a poisoned word is discarded and counted, and nothing else (R63, R642). -/
def Dev.memDiscard (d : Dev) (a : Nat) : Dev :=
  if a < 16 * bankBytes then d.count MEM_BANK_ECC.UE_COUNT (d.serving (a / bankBytes)) 1
  else d.count MEM_DDR_ECC.UE_COUNT (ddrChannel a) 1

/-- A corrected error of an access at a device address (R62, R642). -/
def Dev.memCe (d : Dev) (a : Nat) : Dev :=
  if a < 16 * bankBytes then d.count MEM_BANK_ECC.CE_COUNT (d.serving (a / bankBytes)) 1
  else if d.fb MEM_DDR_STAT.ECC_EN (ddrChannel a) then d.count MEM_DDR_ECC.CE_COUNT (ddrChannel a) 1 else d

/-- The lines that a host access or a peer request reaches are counted as granted (R494). -/
def Dev.pmcLines (d : Dev) (r : Req) (a n : Nat) : Dev :=
  (List.range ((a + n + 63) / 64 - a / 64)).foldl (fun (d : Dev) k =>
    let x := (a / 64 + k) * 64
    if !d.populated x then d
    else if x < ddrBase then d.pmcHit 0x02 (d.serving (x / bankBytes)) r.mid (r.sec || r.mid == 6) 1
    else d.pmcHit 0x04 (ddrChannel x) r.mid (r.sec || r.mid == 6) 1) d

/-- A round of bank `b` in which the requesters `ms` stalled (R494): a counter counts it once if one of them is work that it selects; where none of these but Secure
work and work of MID 0x06 did, the round freezes it while NINV_S is 0 (R110). -/
def Dev.pmcStall (d : Dev) (b : Nat) (ms : List Rival) : Dev :=
  let hidden := fun (m : Rival) => (m.sec || m.mid == 6) && !d.own.ninvS
  (List.range 64).foldl (fun (d : Dev) i =>
    if ms.isEmpty || !d.pmcNames i 0x03 b || d.pmcMode (i / 8) == 2 || d.pmcChained i then d
    else if ms.any fun m => !hidden m && d.pmcFor i m.mid && !d.pmcMuted i then d.pmcAdd i 1
    else if ms.any hidden then d.pmcFreeze (i / 8)
    else d) d

/-! Ownership (R83 to R95). -/

/-- The offset of an address's byte in the ownership table (R85). -/
def ownOffset (a : Nat) : Nat := if a < ddrBase then a / 4096 else 0x8000 + (a - ddrBase) / 4096

/-- The size of the table (R85). -/
def Dev.tableSize (d : Dev) : Nat := (32768 + d.msys.ddrBytes / 4096 + 4095) / 4096 * 4096

/-- The address lies in the table range (R86). -/
def Dev.inTable (d : Dev) (a : Nat) : Bool :=
  decide (d.own.tableBase ≤ a ∧ a < d.own.tableBase + d.tableSize)

/-- Where the table byte of the page that holds an address stands (R83, R85). -/
def Dev.tableAt (d : Dev) (a : Nat) : Nat := d.own.tableBase + ownOffset a

/-- The table byte of the page that holds an address (R83). -/
def State.ownByte (s : State) (a : Nat) : Byte := s.byteAt (s.dev.tableAt a)

def State.ownerOf (s : State) (a : Nat) : Nat := (s.ownByte a).toNat % 128

/-- The device itself writes a table byte (R86: no master does); in a poisoned word the partial write is discarded and counted (R63). -/
def State.setOwnByte (s : State) (a : Nat) (b : Byte) : State :=
  if s.poisonedAt (s.dev.tableAt a) then s.onDev (·.memDiscard (s.dev.tableAt a))
  else { s with mem := s.dev.storeByte s.mem (s.dev.tableAt a) b }

/-- A grant covers a page. -/
def Grant.covers (g : Grant) (a : Nat) : Bool := decide (g.base ≤ a ∧ a < g.base + 4096 * g.pages)

/-- A page keeps its contents through an assignment (R94). -/
def Dev.keepsContents (d : Dev) (keep : Bool) (old new : Nat) : Bool :=
  let sv := fun c => decide (0x10 ≤ c ∧ c < 0x50) && d.secureVf (c - 0x10)
  keep && ((inFamily 0 old && inFamily 0 new) || (inFamily 1 old && inFamily 1 new)) && !sv old && !sv new

/-- The page of an assignment in progress waits for its zero-fill or its update (R95). -/
def State.awaitsZero (s : State) (a : Nat) : Bool :=
  match s.dev.own.assign with
  | some op =>
    decide (op.first ≤ a / 4096 ∧ a / 4096 < op.first + op.count) && s.ownerOf a != op.owner &&
      !s.dev.keepsContents op.keep (s.ownerOf a) op.owner
  | none => false

/-- R87: whether a requester may reach a page. A poisoned word of the table is not used (R63): no owner is known, and nobody but the device agents
is permitted (DEDUCED, log entry 156). -/
def State.permits (s : State) (r : Req) (a : Nat) (write : Bool) : Bool :=
  let d := s.dev
  let o := s.ownerOf a
  let sv := fun c => decide (0x10 ≤ c ∧ c < 0x50) && d.secureVf (c - 0x10)
  if !d.populated a || (write && d.inTable a) then false
  else if r.mid = 0x06 then true
  else if s.poisonedAt (d.tableAt a) then false
  else if write && s.awaitsZero a then false
  else if r.mid = 0x02 && r.sec && !d.inTable a then true
  else if r.mid = 0x07 then
    d.own.invS || (d.own.invN && (o == 4 || o == 5 || (decide (0x10 ≤ o ∧ o < 0x50) && !sv o)))
  else if o = 0x01 then r.sec
  else if o = 0x02 then r.mid == 0x02
  else if o = 0x03 then
    d.own.shared.any fun g => g.covers a &&
      ((decide (0x60 ≤ r.mid ∧ r.mid < 0x64) && bit g.peers (r.mid - 0x60)) ||
       (decide (r.mid = 4 ∨ r.mid = 5) && bit g.funcs (r.mid - 4)))
  else if o = 0x04 ∨ o = 0x05 then r.mid == o
  else if 0x10 ≤ o ∧ o < 0x50 then r.mid == o || (r.mid == 4 + (o - 0x10) / 32 && !sv o)
  else false

/-- The checks of R89 beside R87, by path; `out` is the output of a writeback. -/
def State.pathCheck (s : State) (r : Req) (path a out : Nat) : Bool :=
  let o := s.ownerOf a
  if path = 1 then o == 1
  else if path = 7 then o == 1 || s.dev.own.wbGrants.any fun g => g.covers a && bit g.funcs out
  else if path = 8 then o == 3 || (o == 1 && r.sec)
  else true

def State.checkAccess (s : State) (r : Req) (path a : Nat) (write : Bool) (out : Nat := 0) : Bool :=
  s.permits r a write && s.pathCheck r path a out

/-- A refusal is counted, recorded and raised (R90, R115). PATH is the row of R89, 11 and 12 for device agents and JTAG; path 13 stands for an access
that has no row there (log entry 8). -/
def Dev.refuse (d : Dev) (r : Req) (path a : Nat) (write : Bool) : Dev :=
  let d1 := d.count OWN_REFUSE_INFO.OWN_REFUSE_COUNT 0 1
  let d2 := if d1.fb OWN_REFUSE_INFO.VALID 0 then d1 else
    ((((((d1.setReg64 .OWN_REFUSE_ADDR_LO .OWN_REFUSE_ADDR_HI 0 a).setF OWN_REFUSE_INFO.MID 0 r.mid).setF
      OWN_REFUSE_INFO.SECURE 0 (b2n r.sec)).setF OWN_REFUSE_INFO.WRITE 0 (b2n write)).setF OWN_REFUSE_INFO.PATH 0
      (if path < 13 then path else Config.pathOther)).setF
      OWN_REFUSE_INFO.VALID 0 1)
  d2.raise 16

/-- An access is refused; where the check met a poisoned word of the table, that read of it is counted (R62). -/
def State.refuseAt (s : State) (r : Req) (path a : Nat) (write : Bool) : State :=
  s.onDev fun d => (if d.populated a && s.poisonedAt (d.tableAt a) then d.memUe (d.tableAt a) else d).refuse r path a write

/-- A permitted write marks its page dirty, unless a device agent made it (R91). -/
def State.markDirty (s : State) (r : Req) (a : Nat) : State :=
  if r.mid = 0x06 then s else s.setOwnByte a (s.ownByte a ||| 0x80)

/-- The bytes of a 64-bit word that a write of `n` bytes at `a` covers are all of it. -/
def coversWord (w a n : Nat) : Bool := decide (a ≤ w ∧ w + 8 ≤ a + n)

/-- Store the bytes of one permitted write: a full word clears its poison, a partial write to a poisoned word is discarded and
counted (R63). `a0` and `n0` bound the whole write. -/
def State.storeWord (s : State) (a0 n0 a : Nat) (b : Byte) : State :=
  let w := a / 8 * 8
  if coversWord w a0 n0 then { s with mem := s.dev.storeByte (s.dev.markWord s.mem w false) a b }
  else if s.poisonedAt a then (if a = max w a0 then { s with dev := s.dev.memDiscard a } else s)
  else { s with mem := s.dev.storeByte s.mem a b }

def State.storeAll (s : State) (a0 n0 : Nat) : Nat → List Byte → State
  | _, [] => s
  | a, b :: t => (s.storeWord a0 n0 a b).storeAll a0 n0 (a + 1) t

/-- One write inside one 64-byte line, already permitted. -/
def State.storeLine (s : State) (r : Req) (a : Nat) (bs : List Byte) : State :=
  (s.storeAll a bs.length a bs).markDirty r a

/-- A write of any length, checked once for each 64-byte access (R88), stopping at the first refusal (R90, R91). -/
def State.writeLines (s : State) (r : Req) (path out : Nat) : Nat → Nat → List Byte → State × Bool
  | 0, _, _ => (s, true)
  | fuel + 1, a, bs =>
    if bs = [] then (s, true)
    else if s.checkAccess r path a true out then
      let n := 64 - a % 64
      (s.storeLine r a (bs.take n)).writeLines r path out fuel (a + n) (bs.drop n)
    else (s.refuseAt r path a true, false)

def State.writeMem (s : State) (r : Req) (path a : Nat) (bs : List Byte) (out : Nat := 0) : State × Bool :=
  s.writeLines r path out (bs.length / 64 + 2) a bs

/-- Data in pieces of 64 bytes. -/
def pieces (bs : List Byte) : List (List Byte) := (List.range ((bs.length + 63) / 64)).map fun k => (bs.drop (64 * k)).take 64

/-- The outcome of an engine's read or write. -/
inductive Fetch where
  | ok (bs : List Byte)
  | refused
  | poisoned
deriving DecidableEq, Repr, Inhabited

/-- The status of a failed access (R63, R91). -/
def Fetch.status : Fetch → Nat
  | .ok _ => 0
  | .refused => ST_OWN_REFUSED
  | .poisoned => ST_POISONED

/-- A read of any length, checked once for each 64-byte access (R88); it stops at the first refusal or poisoned word. -/
def State.readLines (s : State) (r : Req) (path out : Nat) : Nat → Nat → Nat → List Byte → State × Fetch
  | 0, _, _, acc => (s, .ok acc)
  | fuel + 1, a, n, acc =>
    if n = 0 then (s, .ok acc)
    else if s.checkAccess r path a false out then
      let k := min n (64 - a % 64)
      let bad := s.badWords a k
      if bad.isEmpty then s.readLines r path out fuel (a + k) (n - k) (acc ++ s.bytesAt a k)
      else (s.onDev fun d => bad.foldl Dev.memUe d, .poisoned)
    else (s.refuseAt r path a false, .refused)

def State.readMem (s : State) (r : Req) (path a n : Nat) (out : Nat := 0) : State × Fetch :=
  s.readLines r path out (n / 64 + 2) a n []

/-- What the code finds in the words of a read (R62, R642): a corrected error is counted, and a word that it cannot correct is poisoned from then
on. -/
def State.findErrors (s : State) (a n : Nat) (es : List Ecc) : State :=
  ((wordsOf a n).zip es).foldl (fun (s : State) x =>
    if !s.dev.checked x.1 || s.poisonedAt x.1 then s
    else match x.2 with
      | .clean => s
      | .corrected => s.onDev (·.memCe x.1)
      | .uncorrectable => { s with mem := s.dev.markWord s.mem x.1 true }) s

/-- A read of one permitted access in whose words the code may find errors. -/
def State.readEcc (s : State) (r : Req) (path a n : Nat) (es : List Ecc) : State × Fetch :=
  (if s.checkAccess r path a false then s.findErrors a n es else s).readMem r path a n

end Sys2Proof.Machine
end

