-- ==== Sys2Proof/Machine/Operands.lean ====
section
/-! DEFINITION. Operand forms: pixel formats and where their samples lie (R171 to R174), layer records (R179) and the fields that
command bodies share. -/

namespace Sys2Proof.Machine

/-! Pixel formats. -/

/-- Bytes of plane 0 that `w` pixels take from the start of a line (R171, R173). -/
def lineBytes (fmt w : Nat) : Nat :=
  if fmt = 1 ∨ fmt = 2 ∨ fmt = 3 then 4 * w
  else if fmt = 4 ∨ fmt = 7 then 2 * w
  else if fmt = 8 then (w + 1) / 2 * 4
  else if fmt = 9 then (5 * w + 3) / 4
  else if fmt = 10 then (3 * w + 1) / 2
  else if fmt = 11 then 8 * w
  else w

/-- The offset of pixel `x` in its line (R173). -/
def pixelOffset (fmt x : Nat) : Nat := if fmt = 8 then x / 2 * 4 else lineBytes fmt x

/-- NV12, NV16 and P010 have a chroma plane. -/
def twoPlane (fmt : Nat) : Bool := fmt == 5 || fmt == 6 || fmt == 7

def isYuv (fmt : Nat) : Bool := decide (5 ≤ fmt ∧ fmt ≤ 8)

/-- Luma lines for each chroma row (R173). -/
def chromaV (fmt : Nat) : Nat := if fmt = 6 then 1 else 2

/-- Bytes of one chroma pair (R173). -/
def pairBytes (fmt : Nat) : Nat := if fmt = 7 then 4 else 2

/-- The format carries no alpha (R212). -/
def noAlpha (fmt : Nat) : Bool := fmt == 2 || fmt == 4 || isYuv fmt

/-- Round up to a multiple of 64. -/
def up64 (n : Nat) : Nat := (n + 63) / 64 * 64

/-- The rule of R174 on STRIDE, for `w` pixels counted from the left edge of the buffer. -/
def strideOk (fmt stride w : Nat) : Bool :=
  stride % 64 == 0 && decide (64 ≤ stride ∧ stride ≤ 65472 ∧ up64 (lineBytes fmt w) ≤ stride)

/-- Bytes `lo` to `hi` lie in BK00 to BK15. -/
def inBanks (lo hi : Nat) : Bool := decide (lo ≤ hi ∧ hi < 16 * bankBytes)

/-- Bytes `lo` to `hi` lie wholly in populated LPDDR5X. -/
def Dev.inDdr (d : Dev) (lo hi : Nat) : Bool := decide (ddrBase ≤ lo ∧ lo ≤ hi ∧ hi < ddrBase + d.msys.ddrBytes)

/-- Bytes `lo` to `hi` lie in on-chip SRAM or wholly in populated LPDDR5X. -/
def Dev.inDevice (d : Dev) (lo hi : Nat) : Bool := inBanks lo hi || d.inDdr lo hi

/-- The size of a frame (R308). -/
def frameSize (fmt stride height chroma : Nat) : Nat :=
  if fmt = 5 ∨ fmt = 7 then chroma + stride * height / 2
  else if fmt = 6 then chroma + stride * height
  else stride * height

/-! Layer records. -/

/-- Parse the 62 bytes of a continuation as a layer record (R179). -/
def LRec.parse (b : List Byte) : LRec :=
  { slot := le b 0 2 % 512, hide := bit (le b 0 2) 15, fmt := le b 2 1, enc := le b 3 1, flags := le b 4 1, z := le b 5 1 % 32,
    alpha := le b 6 1, blend := le b 7 1, base := le b 8 8, chroma := le b 16 4, stride := le b 20 2,
    sx := le b 22 2, sy := le b 24 2, sw := le b 26 2, sh := le b 28 2, dx := le b 30 2, dy := le b 32 2, dw := le b 34 2,
    dh := le b 36 2, acq := le b 38 2, rel := le b 40 2, acqV := le b 42 8, relV := le b 50 8, vtaps := le b 58 1 }

/-- The offset of the first reserved field of a record that is not 0 (check 3 of R183); a HIDE record has only bits [14:9] of SLOT. -/
def LRec.reserved (b : List Byte) : Option Nat :=
  if bits (le b 0 2) 14 9 ≠ 0 then some 0
  else if bit (le b 0 2) 15 then none
  else if le b 3 1 / 32 ≠ 0 then some 3
  else if le b 4 1 / 16 ≠ 0 then some 4
  else if le b 5 1 / 32 ≠ 0 then some 5
  else if bits (le b 38 2) 14 12 ≠ 0 then some 38
  else if bits (le b 40 2) 14 12 ≠ 0 then some 40
  else if le b 59 3 ≠ 0 then some 59
  else none

def LRec.tapsAuto (r : LRec) : Bool := bit r.flags 0
def LRec.hostMem (r : LRec) : Bool := bit r.flags 1
def LRec.flipH (r : LRec) : Bool := bit r.flags 2
def LRec.flipV (r : LRec) : Bool := bit r.flags 3
def LRec.acqEn (r : LRec) : Bool := bit r.acq 15
def LRec.relEn (r : LRec) : Bool := bit r.rel 15
def LRec.acqFence (r : LRec) : Nat := r.acq % 4096
def LRec.relFence (r : LRec) : Nat := r.rel % 4096

/-- The layer is scaled (R216), and its vertical filter runs (R217). -/
def LRec.scaled (r : LRec) : Bool := r.sw != r.dw || r.sh != r.dh
def LRec.vScaled (r : LRec) : Bool := r.sh != r.dh

/-- The layer is opaque over its destination rectangle (R212). -/
def LRec.opaque? (r : LRec) : Bool := r.alpha == 0xFF && (r.blend == 2 || noAlpha r.fmt)

/-- FORMAT and ENC combine as R172 allows. -/
def LRec.formatOk (r : LRec) : Bool :=
  let e := r.enc % 4
  decide (1 ≤ r.fmt ∧ r.fmt ≤ 11 ∧ r.fmt ≠ 9 ∧ r.fmt ≠ 10) && decide (bits r.enc 4 3 < 2) &&
    (if isYuv r.fmt then e != 0 else if r.fmt = 11 then e != 3 else true)

/-- The last bytes that the record's crop reads lie where R174 allows. -/
def LRec.placed (d : Dev) (r : LRec) : Bool :=
  let lo := r.base + r.sy * r.stride + pixelOffset r.fmt r.sx
  let hi := r.base + (r.sy + r.sh - 1) * r.stride + lineBytes r.fmt (r.sx + r.sw) - 1
  let v := chromaV r.fmt
  let clo := r.base + r.chroma + r.sy / v * r.stride + r.sx / 2 * pairBytes r.fmt
  let chi := r.base + r.chroma + (r.sy + r.sh - 1) / v * r.stride + (r.sx + r.sw - 1) / 2 * pairBytes r.fmt + pairBytes r.fmt - 1
  if twoPlane r.fmt then (inBanks lo hi && inBanks clo chi) || (d.inDdr lo hi && d.inDdr clo chi) else d.inDevice lo hi

/-- The ratio limits of R216. -/
def ratioOk (src dst : Nat) : Bool := decide (src ≤ 2 * dst ∧ dst ≤ 8 * src)

/-- Check 6 of R183 (R174, R184, R216) for an active area of `w` by `h`: the offset of the first field that breaks it. `dev` tells that the
placement rule applies; `ext` is the extent of a view's buffer (R314). -/
def LRec.geometry (d : Dev) (r : LRec) (w h : Nat) (dev : Bool) (ext : Option (Nat × Nat)) : Option Nat :=
  if r.base % 64 ≠ 0 then some 8
  else if r.chroma % 64 ≠ 0 then some 16
  else if r.sw = 0 ∨ 15360 < r.sw then some 26
  else if r.sh = 0 ∨ 16383 < r.sh then some 28
  else if r.dw = 0 ∨ 15360 < r.dw then some 34
  else if r.dh = 0 ∨ 16383 < r.dh then some 36
  else if !strideOk r.fmt r.stride (r.sx + r.sw) then some 20
  else if isYuv r.fmt && (r.sx % 2 != 0) then some 22
  else if (r.fmt = 5 ∨ r.fmt = 7) && (r.sy % 2 != 0) then some 24
  else if isYuv r.fmt && (r.sw % 2 != 0) then some 26
  else if (r.fmt = 5 ∨ r.fmt = 7) && (r.sh % 2 != 0) then some 28
  else if match ext with | some (ew, eh) => decide (ew < r.sx + r.sw ∨ eh < r.sy + r.sh) | none => false then some 22
  else if dev && !r.placed d then some 8
  else if w < r.dx + r.dw then some 30
  else if h < r.dy + r.dh then some 32
  else if !ratioOk r.sw r.dw then some 26
  else if !ratioOk r.sh r.dh then some 28
  else none

/-- The line capacity of the scaler for a number of taps (R218). -/
def tapCapacity (taps : Nat) : Nat := if taps = 6 then 5120 else if taps = 4 then 7680 else 15360

/-- The taps with which a record's scaler lines fit (R185, R218): `none` when check 9 fails. -/
def LRec.fitTaps (r : LRec) : Option Nat :=
  let l := min r.sw r.dw
  if !r.vScaled then some r.vtaps
  else if l ≤ tapCapacity r.vtaps then some r.vtaps
  else if r.tapsAuto then ([4, 2] : List Nat).find? fun t => decide (t ≤ r.vtaps ∧ l ≤ tapCapacity t)
  else none

/-! Bodies. -/

/-- Byte `b` of a command's leading descriptor is the start of an `n`-byte field (R132). -/
def Cmd.u (c : Cmd) (b n : Nat) : Nat := le c.lead b n

/-- EXT of the descriptor header (R132). -/
def Cmd.ext (c : Cmd) : Nat := c.u 24 8

/-- Bytes `lo` to `hi` of the leading descriptor are all 0. -/
def Cmd.zero (c : Cmd) (lo hi : Nat) : Bool := (List.range (hi + 1 - lo)).all fun k => c.u (lo + k) 1 == 0

/-- The payload offset of byte `b` of the leading body (R135). -/
def bodyOff (b : Nat) : Nat := b - 32

/-- A command error at byte `b` of the leading body. -/
def errByte (b : Nat) (index : Nat := 0xFFFF) : Nat := errAt (bodyOff b) index

/-- The first of a list of failed checks: status and RESULT. -/
def firstError : List (Bool × Nat × Nat) → Option (Nat × Nat)
  | [] => none
  | (bad, st, res) :: t => if bad then some (st, res) else firstError t

/-- A serial comparison of FRAME_SEQ values: `target` reached or passed (R188). -/
def seqReached (now target : Nat) : Bool := decide ((now + 2 ^ 32 - target % 2 ^ 32) % 2 ^ 32 < 2 ^ 31)

end Sys2Proof.Machine
end

