-- ==== Sys2Proof/Machine/Crypto.lean ====
section
/-! DEFINITION. The check values of R486 and the HMAC-SHA-256 of R154. SHA-256 and HMAC are cited by the manual and not restated
(log entry 6). -/

namespace Sys2Proof.Machine

/-! Cyclic redundancy checks (R486). -/

/-- One bit of a CRC of width `w` that takes the most significant bit first. -/
def crcMsbBit (w poly v : Nat) : Nat :=
  if v / 2 ^ (w - 1) % 2 = 1 then Nat.xor (v * 2 % 2 ^ w) poly else v * 2 % 2 ^ w

/-- One bit of a reflected CRC; `rpoly` is the polynomial with its bits reversed. -/
def crcLsbBit (rpoly v : Nat) : Nat := if v % 2 = 1 then Nat.xor (v / 2) rpoly else v / 2

def iter {α : Type} (g : α → α) : Nat → α → α
  | 0, x => x
  | n + 1, x => iter g n (g x)

/-- One byte of an unreflected CRC. -/
def crcMsbByte (w poly v : Nat) (b : Byte) : Nat :=
  iter (crcMsbBit w poly) 8 (Nat.xor v (b.toNat * 2 ^ (w - 8)))

/-- One byte of a reflected CRC. -/
def crcLsbByte (rpoly v : Nat) (b : Byte) : Nat := iter (crcLsbBit rpoly) 8 (Nat.xor v b.toNat)

/-- The initial running value of each POLY. -/
def crcInit : Nat → Nat
  | 0 => 0xFFFFFFFF
  | 1 => 0xFFFFFFFF
  | 2 => 0xFFFF
  | _ => 0

/-- Feed one byte to the running value of a POLY (R486). -/
def crcFeed (poly v : Nat) (b : Byte) : Nat :=
  match poly with
  | 0 => crcLsbByte 0xEDB88320 v b
  | 1 => crcLsbByte 0x82F63B78 v b
  | 2 => crcMsbByte 16 0x1021 v b
  | _ => crcMsbByte 64 0x42F0E1EBA9EA3693 v b

/-- The result after the final XOR (R486, R489). -/
def crcFinal (poly v : Nat) : Nat :=
  match poly with
  | 0 => Nat.xor v 0xFFFFFFFF
  | 1 => Nat.xor v 0xFFFFFFFF
  | _ => v

/-- The CRC of a list of bytes. -/
def crcOf (poly : Nat) (bs : List Byte) : Nat := crcFinal poly (bs.foldl (crcFeed poly) (crcInit poly))

/-! SHA-256 and HMAC. -/

namespace Sha256

/-- The `r`-th root of `x`, rounded down, of up to 36 bits: one bit after another from the highest. -/
def root (r x : Nat) : Nat := (List.range 36).foldl (fun t j => let u := t + 2 ^ (35 - j); if u ^ r ≤ x then u else t) 0

/-- The first 64 primes, which are those below 312: no prime below 18 divides them but itself. -/
def primes : List Nat := (List.range 312).filter fun n => decide (1 < n) && ([2, 3, 5, 7, 11, 13, 17] : List Nat).all fun q => n == q || n % q != 0

/-- 32 bits of the fraction of the cube root of each of the 64 primes. -/
def K : List Nat := primes.map fun p => root 3 (p * 2 ^ 96) % 2 ^ 32

/-- 32 bits of the fraction of the square root of each of the first eight primes. -/
def H0 : List Word := (primes.take 8).map fun p => BitVec.ofNat 32 (root 2 (p * 2 ^ 64))

def beWord (bs : List Byte) : Word := bs.foldl (fun (v : Word) b => v * 256 + b.setWidth 32) 0

/-- The next word of the message schedule from the last sixteen, newest first. -/
def schedWord (w : List Word) : Word :=
  let w15 := w.getD 14 0
  let w2 := w.getD 1 0
  let s0 := w15.rotateRight 7 ^^^ w15.rotateRight 18 ^^^ (w15 >>> 3)
  let s1 := w2.rotateRight 17 ^^^ w2.rotateRight 19 ^^^ (w2 >>> 10)
  w.getD 15 0 + s0 + w.getD 6 0 + s1

/-- One round on the eight working variables a to h. -/
def round (v : List Word) (k w : Word) : List Word :=
  match v with
  | [a, b, c, d, e, f, g, h] =>
    let t1 := h + (e.rotateRight 6 ^^^ e.rotateRight 11 ^^^ e.rotateRight 25) + ((e &&& f) ^^^ (~~~e &&& g)) + k + w
    let t2 := (a.rotateRight 2 ^^^ a.rotateRight 13 ^^^ a.rotateRight 22) + ((a &&& b) ^^^ (a &&& c) ^^^ (b &&& c))
    [t1 + t2, a, b, c, d + t1, e, f, g]
  | _ => v

/-- Sixteen words of one 64-byte block, oldest first. -/
def blockWords : Nat → List Byte → List Word
  | 0, _ => []
  | n + 1, bs => beWord (bs.take 4) :: blockWords n (bs.drop 4)

/-- The rounds: constants, words of the block still unused, the last sixteen words newest first, and the variables. -/
def rounds : List Nat → List Word → List Word → List Word → List Word
  | [], _, _, v => v
  | k :: ks, w :: ws, last, v => rounds ks ws ((w :: last).take 16) (round v (BitVec.ofNat 32 k) w)
  | k :: ks, [], last, v =>
    let w := schedWord last
    rounds ks [] ((w :: last).take 16) (round v (BitVec.ofNat 32 k) w)

def block (h : List Word) (bs : List Byte) : List Word :=
  (h.zip (rounds K (blockWords 16 bs) [] h)).map fun p => p.1 + p.2

def blocks : Nat → List Word → List Byte → List Word
  | 0, h, _ => h
  | n + 1, h, bs => blocks n (block h (bs.take 64)) (bs.drop 64)

def pad (bs : List Byte) : List Byte :=
  let n := bs.length
  bs ++ (0x80 :: List.replicate ((119 - n % 64) % 64) 0) ++ (toLe (8 * n) 8).reverse

def hash (bs : List Byte) : List Byte :=
  let m := pad bs
  ((blocks (m.length / 64) H0 m).map fun w => (toLe w.toNat 4).reverse).flatten

/-- HMAC with a key of at most 64 bytes. -/
def hmac (key msg : List Byte) : List Byte :=
  let k := (key ++ List.replicate 64 0).take 64
  hash (k.map (· ^^^ 0x5C) ++ hash (k.map (· ^^^ 0x36) ++ msg))

end Sha256

end Sys2Proof.Machine
end

