-- ==== Sys2Proof/Machine/RegRules.lean ====
section
/-! DEFINITION. How a register write is applied (R9 to R17, R643, R644): which fields are refused, which flag tells it, and
what is stored. -/

namespace Sys2Proof.Machine

/-- SP0 answers: it is enabled once LOCKED is set, and in recovery (R101, R553). -/
def Dev.spOn (d : Dev) : Bool := d.fb OWN_LOCK_STAT.LOCKED 0 || d.mgt.phase == .recovery

/-- A function's host port or SP0 answers requests: enabled under R101, its link up and the function existing. -/
def Dev.reaches (d : Dev) (f : Fn) : Bool :=
  match f with
  | .sp0 => d.spOn
  | .acholt => true
  | _ => match portOf f.code with
    | some p => let pt := d.ports.get p; pt.enabled && pt.linkUp && !pt.inReset && d.exists? f
    | none => true

/-- A timing generator of an output is not OFF. -/
def Dev.tgOn (d : Dev) (n : Nat) : Bool := d.f DSP_TG_STAT.STATE n != 0

/-- A queue runs while ENABLE is 1 or commands are in flight (R159, R162). -/
def Dev.queueActive (d : Dev) (i : Nat) : Bool := !(d.queue i).cmds.isEmpty

/-- Whether the block of a register runs (R15), as each block's chapter defines it. The walker counts as stopped from a write of ENABLE 0 on, though the
write takes effect after the current region (R68; DESIGN CHOICE, log entry 157). -/
def Dev.running (d : Dev) (r : Reg) (i : Nat) : Bool :=
  match r with
  | .GLB_LTIME_CTRL => d.f GLB_LTIME_CTRL.SRC 0 != 0 || d.follower
  | .OWN_ASSIGN_ADDR_LO | .OWN_ASSIGN_ADDR_HI | .OWN_ASSIGN_CTRL => d.fb OWN_ASSIGN_STAT.BUSY 0
  | .HRQ_SQ_BASE_LO | .HRQ_SQ_BASE_HI | .HRQ_CQ_BASE_LO | .HRQ_CQ_BASE_HI | .HRQ_Q_CFG | .HRQ_SHADOW_LO | .HRQ_SHADOW_HI =>
    d.fb HRQ_Q_CFG.ENABLE i || d.queueActive i
  | .MEM_WALK_CTRL => d.fb MEM_WALK_CTRL.ENABLE 0
  | .MEM_MOVE_SRC_LO | .MEM_MOVE_SRC_HI | .MEM_MOVE_DST_LO | .MEM_MOVE_DST_HI | .MEM_MOVE_CTRL => d.fb MEM_MOVE_STAT.BUSY 0
  | .DSP_TG_CTRL | .DSP_TG_H0 | .DSP_TG_H1 | .DSP_TG_V0 | .DSP_TG_V1 | .DSP_TG_PCLK | .DSP_TG_ROUTE | .DSP_TG_GL => d.tgOn i
  | .DSP_PORT_CFG => d.fb DSP_PORT_CFG.ENABLE i
  | .VIN_RX_CFG => d.fb VIN_RX_CFG.ENABLE i
  | .GPU_CTX_ASSIGN => !(d.gpu.ctx.get i).cmds.isEmpty || (d.gpu.ctx.get i).pass.isSome
  | .CVU_CTRL | .CVU_FEED8 | .CVU_FEED32 => d.fb CVU_CTRL.BUSY i
  | .PMC_SEL => d.fb PMC_SEL.EN i
  | .PMC_GRP_CTRL | .PMC_GRP_CFG2 => (List.range 8).any fun k => d.fb PMC_SEL.EN (8 * i + k)
  | .AUD_GLB_CTRL => d.fb AUD_GLB_CTRL.RUN 0
  | .AUD_SRC_CFG => decide (i < 64) && d.fb AUD_TDM_CFG.ENABLE (d.f AUD_SRC_CFG.PORT i)
  | .AUD_SNK_CFG =>
    if i < 40 then d.fb AUD_TDM_CFG.ENABLE (d.f AUD_SNK_CFG.PORT i) else decide (i < 56) && d.fb AUD_DPA_CFG.EN (d.f AUD_SNK_CFG.PORT i)
  | .AUD_TDM_CFG => d.fb AUD_TDM_CFG.ENABLE i
  | .AUD_PDM_CFG => d.fb AUD_PDM_CFG.ENABLE i
  | .AUD_DPA_CFG => d.fb AUD_DPA_CFG.EN i
  | .AUD_AMP_CFG => d.fb AUD_AMP_CFG.EN i
  | .TCH_TE_ASSIGN | .TCH_TE_STAT | .TCH_RPT_HEAD | .TCH_WAKE_CFG | .TCH_WAKE_MASK => d.f TCH_TE_STAT.STATE i != 0
  | _ => false

/-- The flag of an ignored write (R3, R9, R641 and each chapter's status register). -/
def Dev.werr (d : Dev) (who : Fn) (r : Reg) (i : Nat) : Dev :=
  match r with
  | .GLB_ID | .GLB_STAT | .GLB_LTIME_LO | .GLB_LTIME_HI | .GLB_LTIME_CTRL | .GLB_LTIME_STAT | .GLB_LTIME_RATE
  | .GLB_PTM_OFFSET_LO | .GLB_PTM_OFFSET_HI | .GLB_VF_STAT => d.setF GLB_STAT.WERR 0 1
  | .HRQ_SQ_BASE_LO | .HRQ_SQ_BASE_HI | .HRQ_CQ_BASE_LO | .HRQ_CQ_BASE_HI | .HRQ_Q_CFG | .HRQ_Q_IRQ | .HRQ_Q_STAT
  | .HRQ_Q_PTR | .HRQ_SHADOW_LO | .HRQ_SHADOW_HI | .HRQ_Q_TIMEOUT =>
    if who = .acholt then d else d.setF HRQ_Q_STAT.WERR i 1
  | .HRQ_APERTURE_LO | .HRQ_APERTURE_HI | .HRQ_MSIX_TABLE | .HRQ_MSIX_PBA | .HRQ_FENCE_VAL_LO | .HRQ_FENCE_VAL_HI
  | .HRQ_FENCE_SIG_LO | .HRQ_FENCE_SIG_HI | .HRQ_FENCE_OWNER | .HRQ_EV_ROUTE | .HRQ_EV_PEND | .HRQ_KEY_STAT
  | .HRQ_KEY_CTR_LO | .HRQ_KEY_CTR_HI =>
    if who = .acholt then d else d.setF HRQ_Q_STAT.WERR (idx2 8 who.code 0) 1
  | .MEM_MOVE_SRC_LO | .MEM_MOVE_SRC_HI | .MEM_MOVE_DST_LO | .MEM_MOVE_DST_HI | .MEM_MOVE_CTRL | .MEM_MOVE_STAT =>
    d.setF MEM_MOVE_STAT.WERR 0 1
  | .MEM_BANK_CFG | .MEM_BANK_STAT | .MEM_BANK_ECC | .MEM_BANK_CONFLICT | .MEM_DDR_ECC | .MEM_DDR_STAT | .MEM_WALK_CTRL
  | .MEM_WALK_STAT | .MEM_STAT => d.setF MEM_STAT.WERR 0 1
  | .OWN_LOCK_STAT | .OWN_TABLE_BASE_LO | .OWN_TABLE_BASE_HI | .OWN_TABLE_SIZE | .OWN_ASSIGN_ADDR_LO | .OWN_ASSIGN_ADDR_HI
  | .OWN_ASSIGN_CTRL | .OWN_ASSIGN_STAT | .OWN_QUERY_ADDR_LO | .OWN_QUERY_ADDR_HI | .OWN_QUERY_RESULT | .OWN_REFUSE_ADDR_LO
  | .OWN_REFUSE_ADDR_HI | .OWN_REFUSE_INFO | .OWN_PIN_WORLD | .OWN_CE_WORLD | .OWN_HOLD_PWR | .OWN_HOLD_CLK
  | .OWN_DEBUG_STAT | .OWN_SECURE_VF_LO | .OWN_SECURE_VF_HI => d.setF OWN_ASSIGN_STAT.WERR 0 1
  | .DSP_SLOT_ASSIGN | .DSP_SLOT_STAT | .DSP_SLOT_SEQ => d.setF DSP_SLOT_STAT.WERR i 1
  | .DSP_CMP_CTRL | .DSP_CMP_UCOL | .DSP_CMP_STAT | .DSP_CMP_UR | .DSP_CMP_UR_LAST | .DSP_CMP_COV | .DSP_RUNWAY_CTRL | .DSP_RUNWAY_STAT =>
    d.setF DSP_CMP_STAT.WERR i 1
  | .DSP_CNP_STAT | .DSP_CNP_FAILCOL | .DSP_OST_CFG | .DSP_CNP_SEQ => d.setF DSP_CNP_STAT.WERR i 1
  | .DSP_CW_EXP | .DSP_CW_CTRL | .DSP_CW_XY | .DSP_CW_WH | .DSP_CW_CRC | .DSP_CW_RES | .DSP_CW_CNT =>
    d.setF DSP_CNP_STAT.WERR (i / 16) 1
  | .DSP_TG_CTRL | .DSP_TG_H0 | .DSP_TG_H1 | .DSP_TG_V0 | .DSP_TG_V1 | .DSP_TG_PCLK | .DSP_TG_ROUTE | .DSP_TG_GL | .DSP_TG_GL_OFS
  | .DSP_TG_STAT | .DSP_TG_SEQ | .DSP_TG_PHASE | .DSP_TG_EVSTAT | .DSP_BL_CTRL | .DSP_BL_PWM => d.setF DSP_TG_STAT.WERR i 1
  | .DSP_PORT_CFG | .DSP_PORT_STAT | .DSP_PORT_SC_CMD | .DSP_PORT_SC_STAT => d.setF DSP_PORT_STAT.WERR i 1
  | .DSP_PORT_SC_DATA => d.setF DSP_PORT_STAT.WERR (i / 4) 1
  | .VIN_CS_ASSIGN | .VIN_CS_STAT | .VIN_CS_FRAMES | .VIN_CS_AGE | .VIN_CS_CNT | .VIN_CS_LL_SLACK | .VIN_CS_LL_TRIM | .VIN_CS_LINE
  | .VIN_CS_FE_LO | .VIN_CS_FE_HI => d.setF VIN_CS_STAT.WERR i 1
  | .VIN_RX_CFG | .VIN_RX_STAT => d.setF VIN_RX_STAT.WERR i 1
  | .GPU_CTX_ASSIGN | .GPU_CTX_STAT | .GPU_CTX_USE | .GPU_CTX_PIPES => d.setF GPU_CTX_STAT.WERR i 1
  | .CPE_CH_ASSIGN | .CPE_CH_STAT => d.setF CPE_CH_STAT.WERR i 1
  | .PMC_CNT | .PMC_SEL => d.setF PMC_GRP_STAT.WERR (i / 8) 1
  | .PMC_GRP_CTRL | .PMC_GRP_CFG2 | .PMC_GRP_STAT => d.setF PMC_GRP_STAT.WERR i 1
  | .AUD_TDM_CFG | .AUD_TDM_STAT => d.setF AUD_TDM_STAT.WERR i 1
  | .AUD_GLB_CTRL | .AUD_GLB_STAT | .AUD_SAMPLE_LO | .AUD_SAMPLE_HI | .AUD_SAMPLE_LTIME_LO | .AUD_SAMPLE_LTIME_HI | .AUD_SRC_CFG | .AUD_SNK_CFG
  | .AUD_BUS_ASSIGN | .AUD_PDM_CFG | .AUD_DPA_CFG | .AUD_BUS_STAT | .AUD_SNK_STAT | .AUD_AMP_CFG | .AUD_AMP_MASK_LO | .AUD_AMP_MASK_HI
  | .AUD_STRM_POS | .AUD_STRM_LIMIT | .AUD_STRM_STAT => d.setF AUD_GLB_STAT.WERR 0 1
  | .TCH_TE_ASSIGN | .TCH_TE_STAT | .TCH_TE_SCAN | .TCH_TE_TIME | .TCH_RPT_HEAD | .TCH_RPT_STAT | .TCH_KEY_STATE | .TCH_WAKE_CFG
  | .TCH_WAKE_MASK | .TCH_FAIL_LO | .TCH_FAIL_HI | .TCH_TE_MODE => (d.setF TCH_TE_STAT.WERR i 1).raise (304 + 8 * i + 6)
  | .HAP_CH_ASSIGN | .HAP_CH_STAT | .HAP_CH_MEAS | .HAP_CH_CNT => (d.setF HAP_CH_STAT.WERR i 1).raise (337 + 2 * i)
  | .HAP_TRIG_CFG =>
    let c := d.f HAP_TRIG_CFG.CH i
    (d.setF HAP_CH_STAT.WERR c 1).raise (337 + 2 * c)
  | .CNV_STAT | .CNV_OFFSET | .CNV_PORT_STAT | .CNV_PEER_INFO | .CNV_RLB | .CNV_CE_PEER => d.setF CNV_STAT.WERR 0 1
  | .MGT_STAT | .MGT_FW_VER | .MGT_FW_RB | .MGT_THERM_CFG | .MGT_AGE_CFG | .MGT_THERM | .MGT_VMON | .MGT_AGE | .MGT_BENCH | .MGT_LOG_NEWEST
  | .MGT_LOG_MIRROR | .MGT_LOG_LOST | .MGT_CAL_SUB | .MGT_CAL_SEC | .MGT_CAL_ALARM => d.setF MGT_STAT.WERR 0 1
  | .PWR_DOM_OFF | .PWR_DOM_ON | .PWR_DOM_STAT | .PWR_CLK_OFF | .PWR_CLK_ON | .PWR_CLK_STAT | .PWR_REQ_STAT => d.setF PWR_REQ_STAT.WERR 0 1
  | .PWR_STATE_CTRL | .PWR_STATE_STAT | .PWR_WAKE_EN | .PWR_WAKE_GPIO_LO | .PWR_WAKE_GPIO_HI | .PWR_PACE_CTRL | .PWR_PACE_STAT | .PWR_PROBE_SEL
  | .PWR_PROBE_DATA => d.setF PWR_STATE_STAT.WERR 0 1
  | .CVU_ASSIGN | .CVU_CTRL | .CVU_FEED8 | .CVU_FEED32 | .CVU_RESULT_LO | .CVU_RESULT_HI => (d.setF CVU_CTRL.WERR i 1).raise (448 + i)
  | _ => d

/-- The stored form of a written value: fixed-bound clamps (R643), and reserved codes whose write a field map ignores. -/
def Dev.stored (d : Dev) (r : Reg) (i : Nat) (val : Word) : Word :=
  let cl := fun (F : Fld) (lo hi : Nat) (v : Word) => F.put v (clampN lo hi (F.get v))
  let keep := fun (F : Fld) (bad : Nat → Bool) (v : Word) => if bad (F.get v) then F.put v (d.f F i) else v
  match r with
  | .GLB_LTIME_CTRL => keep GLB_LTIME_CTRL.SRC (· == 3) val
  | .HRQ_Q_CFG => cl HRQ_Q_CFG.SQ_LOG2 4 16 (cl HRQ_Q_CFG.CQ_LOG2 4 16 val)
  | .MEM_WALK_CTRL => cl MEM_WALK_CTRL.WALK_INTERVAL_US 100 1000000 val
  | .PWR_PACE_CTRL => keep PWR_PACE_CTRL.MODE (2 ≤ ·) (cl PWR_PACE_CTRL.VMAX_MV 735 880 val)
  | .PWR_STATE_CTRL => cl PWR_STATE_CTRL.RAIL_WAIT_MS 1 50 val
  | .DSP_TG_PCLK => cl DSP_TG_PCLK.M 0x00A6AAAB 0x23280000 val
  | .DSP_PORT_CFG => cl DSP_PORT_CFG.DSI_MBPS 80 4500 val
  | .VIN_RX_CFG => cl VIN_RX_CFG.MBPS 80 4500 val
  | .DSP_BL_CTRL => keep DSP_BL_CTRL.EN_MODE (· == 3) val
  | .TCH_WAKE_CFG => cl TCH_WAKE_CFG.WAKE_MS 10 1000 val
  | .HAP_TRIG_CFG => keep HAP_TRIG_CFG.EDGE (· == 3) val
  | _ => val

/-- The value that a write carries for a field. -/
def FieldDesc.of (fd : FieldDesc) (v : Word) : Nat := v.toNat / 2 ^ fd.lo % 2 ^ fd.w

/-- The write counts as a write to the field (R644). -/
def FieldDesc.hits (fd : FieldDesc) (old val : Word) : Bool :=
  match fd.acc with
  | .rw | .rws => fd.of val != fd.of old
  | .w1c => fd.of val != 0
  | .wo => if fd.w = 1 then fd.of val == 1 else true
  | .ro | .rc => false

/-- A rule of R14 or R15 refuses the field: Secure-only from the Normal world, or set-up only while the block runs. -/
def FieldDesc.refused (fd : FieldDesc) (sec running : Bool) : Bool :=
  (fd.cls == .s && running) || (fd.sec && !sec)

/-- POL, PRESCALE and SYNC are the set-up of the PWM pin: its world protects them too (R103, R294). -/
def Dev.pwmLocked (d : Dev) (who : Fn) (n : Nat) (fd : FieldDesc) : Bool :=
  !d.secure who && bit (d.reg .OWN_PIN_WORLD 2).toNat (12 + n) && fd.lo != DSP_BL_CTRL.EN_MODE.lo

/-- A Normal-world write that a lock or a pin's world refuses (R103, R279, R294). -/
def Dev.lockedOut (d : Dev) (who : Fn) (r : Reg) (i : Nat) : Bool :=
  !d.secure who && (match r with
  | .DSP_TG_CTRL | .DSP_TG_H0 | .DSP_TG_H1 | .DSP_TG_V0 | .DSP_TG_V1 | .DSP_TG_PCLK | .DSP_TG_ROUTE | .DSP_TG_GL | .DSP_TG_GL_OFS
  | .DSP_TG_STAT | .DSP_TG_SEQ | .DSP_TG_PHASE | .DSP_TG_EVSTAT => d.fb DSP_TG_CTRL.SEC_LOCK i
  | .DSP_BL_CTRL => d.fb DSP_TG_CTRL.SEC_LOCK i || bit (d.reg .OWN_PIN_WORLD 2).toNat i
  | .DSP_BL_PWM => d.fb DSP_TG_CTRL.SEC_LOCK i || bit (d.reg .OWN_PIN_WORLD 2).toNat (12 + i)
  | .DSP_PORT_CFG | .DSP_PORT_STAT | .DSP_PORT_SC_CMD | .DSP_PORT_SC_STAT => d.fb DSP_PORT_CFG.SEC_PORT i
  | .DSP_PORT_SC_DATA => d.fb DSP_PORT_CFG.SEC_PORT (i / 4)
  | _ => false)

/-- The register with an accepted field written; a write-only field stores nothing. -/
def FieldDesc.store (fd : FieldDesc) (r : Reg) (cur old val : Word) : Word :=
  match fd.acc with
  | .rw | .rws => (⟨r, fd.lo, fd.w⟩ : Fld).put cur (fd.of val)
  | .w1c => (⟨r, fd.lo, fd.w⟩ : Fld).put cur (fd.of (old &&& ~~~val))
  | _ => cur

/-- Apply a write field by field (R644); the flag tells that a field was refused. -/
def writeFields (r : Reg) (sec running : Bool) (extra : FieldDesc → Bool) (old val : Word) :
    List FieldDesc → Word → Bool → Word × Bool
  | [], cur, w => (cur, w)
  | fd :: t, cur, w =>
    if fd.hits old val then
      if fd.refused sec running || extra fd then writeFields r sec running extra old val t cur true
      else writeFields r sec running extra old val t (fd.store r cur old val) w
    else writeFields r sec running extra old val t cur w

/-! Power domains and interface clocks (R595, R597). -/

/-- The power domain that a register belongs to. -/
def regDomain (r : Reg) (i : Nat) : Option Nat :=
  match r with
  | .DSP_CMP_CTRL | .DSP_CMP_UCOL | .DSP_CMP_STAT | .DSP_CMP_UR | .DSP_CMP_UR_LAST | .DSP_CMP_COV | .DSP_CNP_STAT | .DSP_CNP_FAILCOL | .DSP_OST_CFG
  | .DSP_CNP_SEQ | .DSP_TG_CTRL | .DSP_TG_H0 | .DSP_TG_H1 | .DSP_TG_V0 | .DSP_TG_V1 | .DSP_TG_PCLK | .DSP_TG_ROUTE | .DSP_TG_GL | .DSP_TG_GL_OFS
  | .DSP_TG_STAT | .DSP_TG_SEQ | .DSP_TG_PHASE | .DSP_TG_EVSTAT | .DSP_BL_CTRL | .DSP_BL_PWM | .DSP_RUNWAY_CTRL | .DSP_RUNWAY_STAT => some i
  | .DSP_CW_EXP | .DSP_CW_CTRL | .DSP_CW_XY | .DSP_CW_WH | .DSP_CW_CRC | .DSP_CW_RES | .DSP_CW_CNT => some (i / 16)
  | .VIN_CS_ASSIGN | .VIN_CS_STAT | .VIN_CS_FRAMES | .VIN_CS_AGE | .VIN_CS_CNT | .VIN_CS_LL_SLACK | .VIN_CS_LL_TRIM | .VIN_CS_LINE | .VIN_CS_FE_LO
  | .VIN_CS_FE_HI | .VIN_RX_CFG | .VIN_RX_STAT => some 12
  | .VIN_WE_STAT | .VIN_WE_PIX => some 13
  | .GPU_SCHED_CTRL | .GPU_XLT_STAT | .GPU_XLT_CNT | .GPU_SC_STAT | .GPU_CTX_ASSIGN | .GPU_CTX_STAT | .GPU_CTX_USE | .GPU_CTX_PIPES => some 14
  | .CPE_CH_ASSIGN | .CPE_CH_STAT | .CPE_ENG_STAT | .CPE_ENG_BYTES => some 15
  | .TCH_TE_ASSIGN | .TCH_TE_STAT | .TCH_TE_SCAN | .TCH_TE_TIME | .TCH_RPT_HEAD | .TCH_RPT_STAT | .TCH_KEY_STATE | .TCH_WAKE_CFG | .TCH_WAKE_MASK
  | .TCH_FAIL_LO | .TCH_FAIL_HI | .TCH_TE_MODE => some (16 + i)
  | .HAP_CH_ASSIGN | .HAP_CH_STAT | .HAP_CH_MEAS | .HAP_CH_CNT | .HAP_TRIG_CFG | .HAP_EFF_ASSIGN => some 20
  | .AUD_GLB_CTRL | .AUD_GLB_STAT | .AUD_SAMPLE_LO | .AUD_SAMPLE_HI | .AUD_SAMPLE_LTIME_LO | .AUD_SAMPLE_LTIME_HI | .AUD_SRC_CFG | .AUD_SNK_CFG
  | .AUD_BUS_ASSIGN | .AUD_TDM_CFG | .AUD_TDM_STAT | .AUD_PDM_CFG | .AUD_DPA_CFG | .AUD_BUS_STAT | .AUD_SNK_STAT | .AUD_AMP_CFG
  | .AUD_AMP_MASK_LO | .AUD_AMP_MASK_HI | .AUD_STRM_POS | .AUD_STRM_LIMIT | .AUD_STRM_STAT => some 21
  | .CNV_STAT | .CNV_OFFSET | .CNV_PORT_STAT | .CNV_PEER_INFO | .CNV_RLB | .CNV_CE_PEER => some 22
  | _ => none

/-- The ENABLE field that demands an interface clock, and the clock. -/
def regClock (r : Reg) (i : Nat) : Option (Fld × Nat) :=
  match r with
  | .DSP_PORT_CFG => some (DSP_PORT_CFG.ENABLE, if i < 6 then i else i - 2)
  | .VIN_RX_CFG => some (VIN_RX_CFG.ENABLE, i - 2)
  | .AUD_TDM_CFG => some (AUD_TDM_CFG.ENABLE, 18 + i)
  | .AUD_PDM_CFG => some (AUD_PDM_CFG.ENABLE, 26 + i)
  | _ => none

/-- Domains that are off power up by themselves. -/
def Dev.needDomains (d : Dev) (m : Nat) : Dev :=
  d.setReg .PWR_DOM_STAT 0 (d.reg .PWR_DOM_STAT 0 ||| BitVec.ofNat 32 (m % 2 ^ 23))

def Dev.needClocks (d : Dev) (m : Nat) : Dev :=
  d.setReg .PWR_CLK_STAT 0 (d.reg .PWR_CLK_STAT 0 ||| BitVec.ofNat 32 (m % 2 ^ 31))

/-- What an access to a register demands. -/
def Dev.demandDomain (d : Dev) (r : Reg) (i : Nat) : Dev :=
  match regDomain r i with
  | some b => d.needDomains (2 ^ b)
  | none => d

def Dev.demandClock (d : Dev) (r : Reg) (i : Nat) : Dev :=
  match regClock r i with
  | some (F, b) => if d.fb F i then d.needClocks (2 ^ b) else d
  | none => d

/-- A register write, with the further refusals of a chapter's rule. -/
def Dev.writeX (d : Dev) (who : Fn) (r : Reg) (i : Nat) (val : Word) (extra : FieldDesc → Bool) : Dev :=
  let v := d.stored r i val
  let res := writeFields r (d.secure who) (d.running r i) (fun fd => d.lockedOut who r i || extra fd) (d.reg r i) v r.fields (d.reg r i) false
  let d1 := ((d.demandDomain r i).setReg r i res.1).demandClock r i
  if res.2 then d1.werr who r i else d1

/-- A register write under R644. -/
def Dev.write (d : Dev) (who : Fn) (r : Reg) (i : Nat) (val : Word) : Dev := d.writeX who r i val fun _ => false

/-- The write acts on a field and no rule refuses it: how write-only fields such as GO are seen. -/
def Dev.acts (d : Dev) (who : Fn) (F : Fld) (i : Nat) (val : Word) : Bool :=
  match F.reg.fields.find? fun fd => fd.lo == F.lo with
  | some fd => fd.hits (d.reg F.reg i) (d.stored F.reg i val) && !fd.refused (d.secure who) (d.running F.reg i) &&
    !d.lockedOut who F.reg i
  | none => false

end Sys2Proof.Machine
end

