-- ==== Sys2Proof/Machine/Ring.lean ====
section
/-! DEFINITION. Queues (R125 to R140, R160 to R162, R645), fences (R142 to R147), event routing (R150 to R152, R646) and the checks
of the authenticated envelope (R153 to R157). -/

namespace Sys2Proof.Machine

/-! Opcodes and rights. -/

/-- The opcodes that the chapters define for each queue type (R20, R125). -/
def opcodesOf : Nat → List Nat
  | 0 => [0x10, 0x11, 0x12, 0x18, 0x19, 0x1A, 0x20, 0x21, 0x22, 0x28]
  | 1 => [0x30, 0x31, 0x32, 0x33, 0x34, 0x35, 0x36]
  | 2 => [0x50, 0x51, 0x52, 0x53, 0x54, 0x55, 0x56, 0x57]
  | 3 => [0x60, 0x61, 0x62, 0x63, 0x64]
  | 4 => [0x70, 0x71, 0x72, 0x73]
  | 5 => [0x80, 0x81, 0x82, 0x83, 0x88, 0x89, 0x8A, 0x8B]
  | 6 => [0x90, 0x91]
  | _ => [0xA0, 0xA1, 0xA2, 0xA3, 0xA4, 0xA5, 0xA6, 0xA7, 0xA8, 0xA9, 0xAA, 0xAB, 0xAC, 0xAD, 0xAE, 0xAF]

/-- The opcode is one of the queue's type. -/
def Dev.opcodeOk (d : Dev) (qx op : Nat) : Bool := (opcodesOf (d.f HRQ_Q_CFG.TYPE qx)).contains op

/-- The mask of rights that a command needs (R153, R155, R546); 0 for a command that runs unwrapped. -/
def Dev.rightsNeeded (d : Dev) (c : Cmd) : Nat :=
  let sub := le c.lead 33 1
  let dbg := le c.lead 34 1 % 16
  match c.opcode with
  | 0x22 => 2 + 128
  | 0xA2 => 1
  | 0xA3 => 4 + (if dbg % 2 = b2n d.own.invS ∧ dbg / 2 % 2 = b2n d.own.ninvS then 0 else 128)
  | 0xA4 => 8
  | 0xA5 => 16
  | 0xA6 => 32
  | 0xA7 => 64
  | 0xAD => if sub = 0 ∨ sub = 2 then 2 + 128 else 0
  | _ => 0

/-! Doorbells. -/

/-- A write of a submission tail (R127). -/
def Dev.sqTail (d : Dev) (f : Fn) (q : Fin 8) (idx : Nat) : Dev :=
  let i := qi f q
  if d.sqSize i ≤ idx then (d.setF HRQ_Q_STAT.DB_ERR i 1).raise 34
  else if d.fb HRQ_Q_CFG.ENABLE i then d.setQueue i { d.queue i with tail := idx, bell := d.now }
  else d

/-- A write of a completion head (R127, R131): slots up to the new head are released. -/
def Dev.cqHead (d : Dev) (f : Fn) (q : Fin 8) (idx : Nat) : Dev :=
  let i := qi f q
  let n := d.cqSize i
  let qs := d.queue i
  if n ≤ idx then (d.setF HRQ_Q_STAT.DB_ERR i 1).raise 34
  else if d.fb HRQ_Q_CFG.ENABLE i || d.queueActive i then
    let rel := (idx + n - qs.cqHead) % n
    d.setQueue i { qs with cqHead := idx, unreleased := qs.unreleased - rel, spDue := qs.spDue - rel }
  else d

/-- A function that has queues: the PFs, SP0 once LOCKED is set (R101), and every enabled VF (R125). -/
def Dev.hasQueues (d : Dev) (f : Fn) : Bool :=
  match f with
  | .acholt => false
  | .sp0 => d.fb OWN_LOCK_STAT.LOCKED 0
  | _ => d.reaches f && !d.inReset f.code

def execDoorbellSqTail (f : Fn) (q : Fin 8) (idx : Nat) (s : State) : Host.Outcome State Fault Refusal :=
  .next (s.onDev fun d => if d.hasQueues f then d.sqTail f q idx else d)

def execDoorbellCqHead (f : Fn) (q : Fin 8) (idx : Nat) (s : State) : Host.Outcome State Fault Refusal :=
  .next (s.onDev fun d => if d.hasQueues f then d.cqHead f q idx else d)

/-! Fetching. -/

/-- A read of up to eight descriptors is issued (R128): one request, which never crosses the end of the ring. -/
def Dev.descriptorFetch (d : Dev) (f : Fn) (q : Fin 8) : Dev :=
  let i := qi f q
  let qs := d.queue i
  let n := d.sqSize i
  let head := d.f HRQ_Q_PTR.SQ_HEAD i
  let most := if f = .sp0 then 8 else d.readSize f / 64
  let k := min most (min (n - head) ((qs.tail + n - head) % n))
  if d.fb HRQ_Q_CFG.ENABLE i && !d.fb HRQ_Q_STAT.HALTED i && qs.reading == 0 && k != 0 && !d.inReset f.code && !d.vfHeld f.code then
    let d1 := d.setQueue i { qs with reading := k }
    if f = .sp0 then d1
    else d1.hostRead (.fetch f q) none f (d.reg64 .HRQ_SQ_BASE_LO .HRQ_SQ_BASE_HI i + 64 * head) (64 * k) (d.fb HRQ_Q_CFG.NO_SNOOP i)
  else d

def execDescriptorFetch (f : Fn) (q : Fin 8) (s : State) : Host.Outcome State Fault Refusal :=
  .next (s.onDev (·.descriptorFetch f q))

/-- The payload offset at which continuation `i` begins (R135). -/
def contOffset (i : Nat) : Nat := 32 + 62 * (i - 1)

/-- A fetched command joins the queue. -/
def Dev.addCmd (d : Dev) (i : Nat) (c : Cmd) : Dev :=
  let id := d.hrq.nextId
  let qs := d.queue i
  { d.setQueue i { qs with cmds := qs.cmds ++ [{ c with id := id }], chain := [] } with
    hrq := { (d.setQueue i { qs with cmds := qs.cmds ++ [{ c with id := id }], chain := [] }).hrq with nextId := id + 1 } }

/-- The command that a complete chain of descriptors forms (R133, R154). -/
def chainCmd (chain : List (List Byte)) (bad : Bool) : Cmd :=
  match chain with
  | [] => {}
  | h :: t =>
    if le h 0 1 = 0xF0 then
      { lead := t.headD [], conts := t.drop 1, env := some { header := h, inner := t, badExtent := bad } }
    else { lead := h, conts := t }

/-- A command whose chain breaks at continuation `i` (R134). It completes with BAD_CHAIN in its turn, where it would start: R134 does not say when (DESIGN
CHOICE, log entry 159). -/
def Dev.badChain (d : Dev) (qx : Nat) (chain : List (List Byte)) (i : Nat) : Dev := d.addCmd qx { chainCmd chain true with brokenAt := some i }

/-- A descriptor taken where a leading descriptor is expected. -/
def Dev.takeLeading (d : Dev) (i : Nat) (ds : List Byte) : Dev :=
  if bit (le ds 1 1) 0 then d.setQueue i { d.queue i with chain := [ds] } else d.addCmd i (chainCmd [ds] false)

/-- One fetched descriptor joins the chain of its command (R133, R134, R154). -/
def Dev.takeDescriptor (d : Dev) (i : Nat) (ds : List Byte) : Dev :=
  let qs := d.queue i
  let more := bit (le ds 1 1) 0
  let isEnv := le (qs.chain.headD []) 0 1 = 0xF0
  if qs.skipping then d.setQueue i { qs with skipping := more }
  else if qs.chain.isEmpty then d.takeLeading i ds
  else if le ds 0 1 ≠ 1 ∧ ¬(isEnv ∧ qs.chain.length = 1) then
    if isEnv then (d.addCmd i (chainCmd qs.chain true)).takeLeading i ds
    else (d.badChain i qs.chain qs.chain.length).takeLeading i ds
  else if 64 ≤ qs.chain.length then
    let d1 := if isEnv then d.addCmd i (chainCmd qs.chain true) else d.badChain i qs.chain qs.chain.length
    d1.setQueue i { d1.queue i with skipping := more }
  else if more then d.setQueue i { qs with chain := qs.chain ++ [ds] }
  else d.addCmd i (chainCmd (qs.chain ++ [ds]) false)

/-- A failed ring read (R645): fetching stops. -/
def Dev.ringReadFailed (d : Dev) (i : Nat) : Dev :=
  ((d.setQueue i { d.queue i with reading := 0 }).setF HRQ_Q_STAT.HOST_ERR i 1 |>.setF HRQ_Q_STAT.HALTED i 1).raise 35

/-- Data that moves in over a host port is counted, with its latency (R494). -/
def Dev.countHost (d : Dev) (f : Fn) (n ns : Nat) : Dev :=
  match portOf f.code with
  | some p => (d.pmcPort f false n).pmcLatency 0x22 p f.code (d.secure f) ns
  | none => d

/-- The head is written to its shadow address (R128); data poisoned inside the device is not sent (R645). -/
def Dev.shadow (d : Dev) (f : Fn) (i : Nat) (poisoned : Bool) : Dev :=
  if d.fb HRQ_Q_CFG.SHADOW_EN i then
    let a := d.reg64 .HRQ_SHADOW_LO .HRQ_SHADOW_HI i
    let bs := toLe (d.f HRQ_Q_PTR.SQ_HEAD i) 4
    if f = .sp0 then d.winWrite a bs
    else if d.canSend f && !poisoned then d.post f a bs
    else (d.setF HRQ_Q_STAT.HOST_ERR i 1).raise 35
  else d

/-- Descriptor data arrives (R128, R130), also for a read that was in flight when a failed record write halted the queue (R645; DESIGN CHOICE, log entry
160): the head advances and the descriptors are taken in ring order. For SP0 the data stands in the SP0 window; `none` is a failed read, and `poisoned`
tells of the shadow's data. -/
def Dev.descriptorData (d0 : Dev) (f : Fn) (q : Fin 8) (data : Option (List (List Byte))) (poisoned : Bool) : Dev :=
  let d := d0.dropReads (.fetch f q)
  let i := qi f q
  let qs := d.queue i
  let n := qs.reading
  let head := d.f HRQ_Q_PTR.SQ_HEAD i
  if n = 0 then d
  else
    let got := if f = .sp0 then
        some ((List.range n).map fun k => d.winRead (d.reg64 .HRQ_SQ_BASE_LO .HRQ_SQ_BASE_HI i + 64 * (head + k)) 64)
      else data
    match got with
    | none => d.ringReadFailed i
    | some ds =>
      let d1 := (d.setQueue i { qs with reading := 0 }).setF HRQ_Q_PTR.SQ_HEAD i ((head + n) % d.sqSize i)
      ((List.range n).foldl (fun d k => d.takeDescriptor i ((ds.getD k [] ++ List.replicate 64 0).take 64)) d1).shadow f i poisoned

/-- Descriptor data of the read in progress; data over a host port is counted, with its latency in ns (R494). -/
def execDescriptorData (f : Fn) (q : Fin 8) (data : Option (List (List Byte))) (poisoned : Bool) (ns : Nat) (s : State) :
    Host.Outcome State Fault Refusal :=
  .next (s.onDev fun d =>
    let n := (d.queue (qi f q)).reading
    (if n = 0 ∨ data = none then d else d.countHost f (64 * n) ns).descriptorData f q data poisoned)

/-! Starting commands. -/

def Cmd.isEnded (c : Cmd) : Bool := c.phase == .ended

/-- The command of a queue that is next to start (R129), and whether every earlier one has completed. -/
def QueueSt.next (q : QueueSt) : Option (Cmd × Bool) :=
  match q.cmds.dropWhile fun c => c.phase == .running || c.isEnded with
  | [] => none
  | c :: _ => some (c, (q.cmds.takeWhile fun c => c.phase == .running || c.isEnded).all Cmd.isEnded)

/-- The queue may start a command now: its function may start work, no completion waits for ring space (R131), and Acholt runs where the
queue is a management queue (R556). -/
def Dev.mayStart (d : Dev) (f : Fn) (qx : Nat) : Bool :=
  !d.fb HRQ_Q_STAT.CQ_FULL qx && !d.inReset f.code && (d.f HRQ_Q_CFG.TYPE qx != 7 || d.acholtRuns) &&
    (match f with
     | .vf v => d.f GLB_VF_STAT.STATE v.val == 1
     | _ => true)

/-- The checks of a command's chain and header (R134, R143, R153): the status with which it completes, if it may not start. -/
def Dev.headerFault (d : Dev) (f : Fn) (c : Cmd) : Option (Nat × Nat) :=
  match c.brokenAt with
  | some i => some (ST_BAD_CHAIN, errAt (contOffset i))
  | none =>
    if c.flag 7 ∨ le c.lead 4 2 ≥ 4096 ∨ le c.lead 6 2 ≥ 4096 then some (ST_BAD_FIELD, errOutside)
    else if c.env.isNone && d.rightsNeeded c != 0 then some (ST_AUTH_REQUIRED, errOutside)
    else if (c.flag 4 && !d.mayWait f.code c.secure (le c.lead 4 2)) ||
        (c.flag 5 && !d.maySignal f.code c.secure (le c.lead 6 2)) then some (ST_FENCE_DENIED, errOutside)
    else none

/-- What starting a command does once nothing holds it back. -/
abbrev Run := CmdRef → Cmd → State → State

/-- The fence of the command is reached, or it waits on none (R145). -/
def Dev.fenceReached (d : Dev) (c : Cmd) : Bool := !c.flag 4 || decide (le c.lead 8 8 ≤ d.fence (le c.lead 4 2))

/-- The warp engine that takes a job next (R324): with ENGINE 2, the one with fewer queued jobs, and WE0 when both have the same number. -/
def Dev.warpEngine (d : Dev) (engine : Nat) : Nat :=
  if engine = 2 then (if (d.vin.we.get 0).queue.length ≤ (d.vin.we.get 1).queue.length then 0 else 1) else engine

/-- The engine of the command can take it; otherwise it waits in its submission queue (R324). -/
def Dev.roomFor (d : Dev) (c : Cmd) : Bool :=
  c.opcode != 0x55 || decide ((d.vin.we.get (d.warpEngine (le c.lead 32 1 % 4))).queue.length < 32)

/-- A descriptor is dispatched: events 0x0E and 0x23 (R130, R494). -/
def Dev.pmcDispatch (d : Dev) (f : Fn) (q : Fin 8) (c : Cmd) : Dev :=
  let i := qi f q
  (d.pmcHit 0x0E (d.f HRQ_Q_CFG.TYPE i) f.code c.secure 1).pmcLatency 0x23 ((portOf f.code).getD 2) f.code c.secure (d.now - (d.queue i).bell)

/-- The power domains that a command needs (R597). -/
def Cmd.domains (c : Cmd) : Nat :=
  let o := c.opcode
  let b := le c.lead 32 1
  if o = 0x10 then le c.lead 32 2 % 4096
  else if o < 0x30 then 2 ^ (b % 16)
  else if o < 0x50 then 2 ^ 14
  else if o < 0x55 then 2 ^ 12
  else if o < 0x60 then 2 ^ 13
  else if o < 0x70 then 2 ^ 15
  else if o < 0x80 then 2 ^ 21
  else if o < 0x88 then 2 ^ (16 + b % 4)
  else if o < 0x90 then 2 ^ 20
  else 0

/-- A graphics command whose header fails stands behind earlier commands of its context, which complete first (R343): it joins them with its status. -/
def Dev.behindCtx (d : Dev) (f : Fn) (r : CmdRef) (c : Cmd) : Option Nat :=
  let g := c.u 32 2 % 128
  if decide (0x30 ≤ c.opcode ∧ c.opcode ≤ 0x36) && d.f GPU_CTX_ASSIGN.OWNER g == f.code && d.f GPU_CTX_ASSIGN.QUEUE g == r.queue % 8 &&
      !(d.gpu.ctx.get g).cmds.isEmpty then some g else none

/-- A command ends with a status as it starts. -/
def Dev.launchFault (d : Dev) (f : Fn) (r : CmdRef) (c : Cmd) (st res : Nat) : Dev :=
  match d.behindCtx f r c with
  | some g => { d.updCmd r fun x => { x with phase := .running, secure := c.secure } with
      gpu := { d.gpu with ctx := d.gpu.ctx.upd g fun x => { x with cmds := x.cmds ++ [(r, { c with status := st, result := res })] } } }
  | none => (d.updCmd r fun x => { x with secure := c.secure }).endCmd r st res

/-- Start a command whose envelope and opcode have been dealt with: header, fence rights, wait (R129, R134, R143, R145). -/
def State.launch (s : State) (f : Fn) (q : Fin 8) (c : Cmd) (run : Run) : State :=
  let r : CmdRef := ⟨qi f q, c.id⟩
  match s.dev.headerFault f c with
  | some (st, res) => s.onDev fun d => (d.launchFault f r c st res).raiseIf (st == ST_AUTH_REQUIRED) 33
  | none =>
    if s.dev.fenceReached c then
      (if s.dev.roomFor c then run r c (s.onDev fun d => ((d.needDomains c.domains).pmcDispatch f q c).updCmd r fun x => { x with phase := .running, secure := c.secure }) else s)
    else match c.phase with
      | .waiting _ => s
      | _ =>
        let ms := s.dev.f HRQ_Q_TIMEOUT.WAIT_MS (qi f q)
        s.onDev (·.updCmd r fun x => { x with
          phase := .waiting (if ms = 0 then none else some (s.dev.now + ms * 1000000)), secure := c.secure })

/-- Start the next command of a queue, if it is a bare command with one of the opcodes given. -/
def State.startNext (s : State) (f : Fn) (q : Fin 8) (ops : Nat → Bool) (run : Run) : State :=
  let i := qi f q
  match (s.dev.queue i).next with
  | none => s
  | some (c, all) =>
    if c.env.isSome || !ops c.opcode || !s.dev.opcodeOk i c.opcode || !s.dev.mayStart f i || (c.flag 3 && !all) then s
    else s.launch f q { c with secure := s.dev.secure f } run

/-- A leading descriptor whose opcode is none of its queue's type completes with BAD_OPCODE (R134). -/
def execBadOpcodeDescriptor (f : Fn) (q : Fin 8) (s : State) : Host.Outcome State Fault Refusal :=
  .next (s.onDev fun d =>
    let i := qi f q
    match (d.queue i).next with
    | none => d
    | some (c, _) =>
      if c.env.isSome || d.opcodeOk i c.opcode || !d.mayStart f i then d
      else (d.updCmd ⟨i, c.id⟩ fun x => { x with secure := d.secure f }).endCmd ⟨i, c.id⟩ ST_BAD_OPCODE errOutside)

/-- WAIT_MS passes before the fence is reached (R145). -/
def execFenceTimeout (f : Fn) (q : Fin 8) (s : State) : Host.Outcome State Fault Refusal :=
  .next (s.onDev fun d =>
    let i := qi f q
    match (d.queue i).next with
    | some (c, _) =>
      match c.phase with
      | .waiting (some t) =>
        if t ≤ d.now ∧ ¬ d.fenceReached c then (d.launchFault f ⟨i, c.id⟩ c ST_FENCE_TIMEOUT errOutside).raise 37 else d
      | _ => d
    | none => d)

/-! Completions. -/

/-- The status of the record: a stale signal turns OK into FENCE_STALE (R144). -/
def Cmd.recordStatus (c : Cmd) : Nat := if c.stale && c.status == ST_OK then ST_FENCE_STALE else c.status

/-- The oldest command of the queue has completed and its record may be written: an accepted envelope's only once its counter is in
flash (R156). -/
def Cmd.recordReady (c : Cmd) : Bool :=
  c.isEnded && (match c.env with | some e => !e.accepted || e.persisted | none => true)

/-- The header that governs the record: the envelope's where there is one (R154). -/
def Cmd.recordHeader (c : Cmd) : List Byte := match c.env with | some e => e.header | none => c.lead

/-- The command whose record is written next: the oldest of the queue, and for a graphics queue the one that completed first (R129, R343). -/
def Dev.nextRecord (d : Dev) (i : Nat) : Option Cmd :=
  let cs := (d.queue i).cmds
  if d.f HRQ_Q_CFG.TYPE i = 1 then
    (cs.filter Cmd.isEnded).foldl (fun best c => match best with
      | none => some c
      | some b => if c.order < b.order then some c else some b) none
  else cs.head?

/-- The record of a command of a queue, once its ring has room (R129, R131, R132). -/
def Dev.completionWrite (d : Dev) (f : Fn) (q : Fin 8) (poisoned : Bool) : Dev :=
  let i := qi f q
  match d.nextRecord i with
  | none => d
  | some c =>
    if !c.recordReady then d
    else
      let st := c.recordStatus
      let qs := d.queue i
      let rest := qs.cmds.filter fun x => x.id != c.id
      let fl := le c.recordHeader 1 1
      if bit fl 2 && st == ST_OK then (d.setQueue i { qs with cmds := rest }).setF HRQ_Q_STAT.CQ_FULL i 0
      else if d.cqSize i ≤ qs.unreleased then d.setF HRQ_Q_STAT.CQ_FULL i 1
      else ((d.setQueue i { qs with cmds := rest }).setF HRQ_Q_STAT.CQ_FULL i 0).putRecord f q (le c.recordHeader 2 2) st c.result
        c.ltime false (bit fl 1) poisoned

def execCompletionWrite (f : Fn) (q : Fin 8) (poisoned : Bool) (s : State) : Host.Outcome State Fault Refusal :=
  .next (s.onDev (·.completionWrite f q poisoned))

/-- COAL_US passes since the first record not yet signalled (R139). -/
def execCoalTimerExpire (f : Fn) (q : Fin 8) (s : State) : Host.Outcome State Fault Refusal :=
  .next (s.onDev fun d =>
    let i := qi f q
    let qs := d.queue i
    let us := d.f HRQ_Q_IRQ.COAL_US i
    if d.fb HRQ_Q_IRQ.IRQ_EN i && us != 0 && qs.unsignalled != 0 && decide (qs.firstUnsig + 1000 * us ≤ d.now) then
      d.queueInterrupt f q
    else d)

/-! Queue configuration. -/

/-- ABORT: every fetched command not yet started completes with ABORTED, whose RESULT is 0 (R160; DESIGN CHOICE, log entry 131), and no longer waits
for a key slot (R157). -/
def Dev.abortQueue (d : Dev) (i : Nat) : Dev :=
  let d1 := { d with hrq := { d.hrq with throttleWait := d.hrq.throttleWait.filter fun w => w.2 != i } }
  match queueFn i with
  | none => d1
  | some f => ((d.queue i).cmds.filter fun c => !(c.phase == .running || c.isEnded)).foldl (fun (d : Dev) c =>
      d.launchFault f ⟨i, c.id⟩ { c with secure := c.secure || (c.env.isNone && d.secure f) } ST_ABORTED 0) d1

/-- What R137 sets when ENABLE goes from 0 to 1; the function has run since its last reset (R523). A completion interrupt of an SP0 queue that is still
due ends with it (DESIGN CHOICE, log entry 130). -/
def Dev.enableQueue (d0 : Dev) (i : Nat) : Dev :=
  let d := { d0 with part := { d0.part with ran := d0.part.ran.put (i / 8) true } }
  ((d.setQueue i {}).setReg .HRQ_Q_PTR i 0).setF HRQ_Q_STAT.HALTED i 0 |>.setF HRQ_Q_STAT.CQ_FULL i 0

/-- Fetching stops (R160): a read in flight and an unfinished chain are dropped. -/
def Dev.disableQueue (d : Dev) (i : Nat) : Dev :=
  let d1 := match queueFn i with | some f => d.dropReads (.fetch f ⟨i % 8, Nat.mod_lt _ (by decide)⟩) | none => d
  d1.setQueue i { d1.queue i with reading := 0, chain := [], skipping := false }

/-- A write of HRQ_Q_CFG (R137, R160). -/
def qCfgWrite (who : Fn) (i : Nat) (val : Word) (d : Dev) : Dev :=
  let was := d.fb HRQ_Q_CFG.ENABLE i
  let busy := d.queueActive i
  let abort := d.acts who HRQ_Q_CFG.ABORT i val
  let d1 := d.writeX who .HRQ_Q_CFG i val fun fd => fd.lo == 0 && !was && busy && val.toNat % 2 == 1
  let is := d1.fb HRQ_Q_CFG.ENABLE i
  let d2 := if !was && is then d1.enableQueue i else if was && !is then d1.disableQueue i else d1
  if abort then d2.jointly (·.abortQueue i) else d2

/-- Which functions' register blocks a requester reaches (R159): a VF its own, the others through PF BAR0. -/
def mayReachQueue (who f : Fn) : Bool :=
  match who with
  | .vf _ => who == f
  | _ => true

def execQueueEnable (who f : Fn) (q : Fin 8) (val : Word) (s : State) : Host.Outcome State Fault Refusal :=
  .next (if mayReachQueue who f then s.onDev (qCfgWrite who (qi f q) val) else s)

def execQueueDisable (who f : Fn) (q : Fin 8) (val : Word) (s : State) : Host.Outcome State Fault Refusal :=
  .next (if mayReachQueue who f then s.onDev (qCfgWrite who (qi f q) val) else s)

def execQueueAbort (who f : Fn) (q : Fin 8) (val : Word) (s : State) : Host.Outcome State Fault Refusal :=
  .next (if mayReachQueue who f then s.onDev (qCfgWrite who (qi f q) val) else s)

/-! Fences. -/

/-- The key of a low word held, or of a snapshot kept, for a function (R10, R48). -/
def heldKey (who : Fn) (r : Reg) (i : Nat) : Nat := who.code * 2 ^ 40 + r.key i

/-- The 64-bit value that a high-word write forms (R10). -/
def Dev.formed (d : Dev) (who : Fn) (lo : Reg) (i : Nat) (hi : Word) : Nat :=
  (d.time.held.get (heldKey who lo i)).toNat + 2 ^ 32 * hi.toNat

/-- A high-word write to HRQ_FENCE_SIG (R143, R144). -/
def fenceSigWrite (who : Fn) (i : Nat) (val : Word) (d : Dev) : Dev :=
  if d.maySignal who.code (d.secure who) i then d.signal ⟨i, d.formed who .HRQ_FENCE_SIG_LO i val, none⟩
  else d.werr who .HRQ_FENCE_SIG_HI i

def execFenceSigWrite (who : Fn) (i : Fin 4096) (val : Word) (s : State) : Host.Outcome State Fault Refusal :=
  .next (s.onDev (fenceSigWrite who i.val val))

/-- A layer record is to signal a fence of the block (R179). -/
def LRec.signalsBlock (r : LRec) (b : Nat) : Bool := r.relEn && r.relFence / 64 == b

/-- A layer record waits on a fence of the block that has not reached its value (R179, R189). -/
def Dev.recWaits (d : Dev) (r : LRec) (b : Nat) : Bool := r.acqEn && r.acqFence / 64 == b && decide (d.fence r.acqFence < r.acqV)

/-- A descriptor waits on, or is to signal, a fence of the block (R147): by its header, or for a COMMIT not yet started by its layer records (R179). -/
def Dev.cmdUses (d : Dev) (c : Cmd) (b : Nat) : Bool :=
  let waits := c.phase != .running && !c.isEnded
  (waits && c.flag 4 && le c.lead 4 2 / 64 == b) || (!c.isEnded && c.flag 5 && le c.lead 6 2 / 64 == b) ||
    (waits && c.opcode == 0x10 && c.conts.any fun x => let r := LRec.parse (x.drop 2); d.recWaits r b || r.signalsBlock b)

/-- Commands, records of commit groups that have not landed, records on screen and waiting releases keep the owner of a block (R147, R179, R189, R506). -/
def Dev.fenceBlockBusy (d : Dev) (b : Nat) : Bool :=
  (d.hrq.queues.any fun e => e.2.cmds.any fun c => d.cmdUses c b) ||
    (d.disp.groups.any fun g => g.recs.any fun x => !x.landed && (d.recWaits x.r b || x.r.signalsBlock b)) ||
    (d.disp.layers.any fun e => match e.2.cur with | some r => r.signalsBlock b | none => false) ||
    d.disp.releases.any fun r => r.fence / 64 == b

/-- A write of HRQ_FENCE_OWNER (R93, R147, R163): a change of owner zeroes the block's values. -/
def fenceOwnerWrite (who : Fn) (b : Nat) (val : Word) (d : Dev) : Dev :=
  let old := d.f HRQ_FENCE_OWNER.OWNER b
  let new := HRQ_FENCE_OWNER.OWNER.get val
  if old = new then d
  else if d.fenceBlockBusy b || !d.mayGive who old || !d.mayGive who new then d.werr who .HRQ_FENCE_OWNER b
  else (List.range 64).foldl (fun d k => d.setFence (64 * b + k) 0) (d.setF HRQ_FENCE_OWNER.OWNER b new)

def execFenceOwnerWrite (who : Fn) (b : Fin 64) (val : Word) (s : State) : Host.Outcome State Fault Refusal :=
  .next (match who with
    | .vf _ => s
    | _ => s.onDev (fenceOwnerWrite who b.val val))

/-! Events. -/

/-- SECURE_SRC of an event (R646). -/
def Dev.evSecure (d : Dev) (k : Nat) : Bool :=
  if 96 ≤ k ∧ k < 192 then decide ((k - 96) % 8 = 0 ∨ (k - 96) % 8 = 6)
  else if k = 483 then true
  else if 192 ≤ k ∧ k < 256 then d.secureOwner (d.f VIN_CS_ASSIGN.OWNER ((k - 192) / 4))
  else if 304 ≤ k ∧ k < 336 then
    d.secureOwner (d.fl TCH_TE_ASSIGN.OWNER ((k - 304) / 8)) ||
      (decide ((k - 304) % 8 = 5) && bit (d.reg .OWN_PIN_WORLD 1).toNat (24 + (k - 304) / 8))
  else if 336 ≤ k ∧ k < 352 then d.secureOwner (d.fl HAP_CH_ASSIGN.OWNER ((k - 336) / 2))
  else if 384 ≤ k ∧ k < 448 then
    let e := fun c => c == 1 || c == 2 || (decide (0x10 ≤ c ∧ c < 0x50) && d.secureVf (c - 0x10))
    e (d.f MBX_BIND.END_A (k - 384)) || e (d.f MBX_BIND.END_B (k - 384))
  else if 448 ≤ k ∧ k < 456 then d.secureOwner (d.fl CVU_ASSIGN.OWNER (k - 448))
  else false

/-- Where SECURE_SRC changed, the routing by MSI-X is set to 0 before the change completes (R152). -/
def Dev.evSync (d : Dev) (old : Dev) (ks : List Nat) : Dev :=
  ks.foldl (fun d k => if d.evSecure k = old.evSecure k then d else
    ((d.setF HRQ_EV_ROUTE.MSIX_EN k 0).setF HRQ_EV_ROUTE.FUNC k 0).setF HRQ_EV_ROUTE.VECTOR k 0) d

/-- A W1C write to HRQ_EV_PEND: the Normal world cannot clear an event routed to FAULT_n or SP_IRQ_n (R151). -/
def evPendWrite (who : Fn) (w : Nat) (val : Word) (d : Dev) : Dev :=
  let keep := (List.range 32).foldl (fun (m : Nat) j =>
    if !d.secure who && (d.fb HRQ_EV_ROUTE.FAULT (32 * w + j) || d.fb HRQ_EV_ROUTE.SP_IRQ (32 * w + j)) then m + 2 ^ j else m) 0
  d.setReg .HRQ_EV_PEND w (d.reg .HRQ_EV_PEND w &&& ~~~(val &&& ~~~(BitVec.ofNat 32 keep)))

def execEventPendClear (who : Fn) (w : Fin 16) (val : Word) (s : State) : Host.Outcome State Fault Refusal :=
  .next (match who with
    | .vf _ => s
    | _ => s.onDev (evPendWrite who w.val val))

/-- A write of HRQ_EV_ROUTE (R152, R164): of a Secure source, MSIX_EN, FUNC and VECTOR only by the Secure world; by a PF only within its
own family. -/
def evRouteWrite (who : Fn) (k : Nat) (val : Word) (d : Dev) : Dev :=
  let foreign := fun (p c : Nat) => c != 0 && !inFamily p c
  let bad := match who with
    | .pf p => foreign p.val (d.f HRQ_EV_ROUTE.FUNC k) || foreign p.val (HRQ_EV_ROUTE.FUNC.get val)
    | _ => false
  if bad then d.werr who .HRQ_EV_ROUTE k
  else d.writeX who .HRQ_EV_ROUTE k val fun fd => decide (fd.lo < 14) && d.evSecure k && !d.secure who

def execEventRouteWrite (who : Fn) (k : Fin 512) (val : Word) (s : State) : Host.Outcome State Fault Refusal :=
  .next (match who with
    | .vf _ => s
    | _ => s.onDev (evRouteWrite who k.val val))

/-- A direct or routed condition asserts SP_IRQ_n (R139, R150). -/
def Dev.spIrq (d : Dev) : Bool :=
  ((List.range 512).any fun k => d.pend k && d.fb HRQ_EV_ROUTE.SP_IRQ k) ||
    ([0, 1, 2, 3, 4, 5, 6, 7] : List (Fin 8)).any fun q => (d.queue (qi .sp0 q)).spDue != 0

/-! The envelope. -/

/-- Step 1 of R155. -/
def Env.fieldsOk (e : Env) (serial func qtype : Nat) : Bool :=
  let h := e.header
  bit (le h 1 1) 0 && le h 1 1 / 8 == 0 && le h 4 1 / 8 == 0 && le h 6 2 == 0 && le h 16 8 == serial && le h 24 1 == func &&
    le h 25 1 == qtype && le h 26 6 == 0 && le h 48 16 == 0 && decide (1 ≤ le h 5 1 ∧ le h 5 1 ≤ 63) &&
    le h 5 1 == e.inner.length && !e.badExtent && le (e.inner.headD []) 0 1 != 0xF0

/-- Steps 2 to 4 of R155: the status of a rejection, 0 for acceptance. -/
def KeySlot.verdict (k : KeySlot) (e : Env) (needed : Nat) : Nat :=
  if !k.present || k.revoked || !(List.range 8).all (fun b => !bit needed b || bit k.rights b) then ST_KEY_SLOT
  else if (Sha256.hmac k.key (e.header.take 32 ++ e.inner.flatten)).take 16 ≠ (e.header.drop 32).take 16 then ST_AUTH_FAIL
  else if le e.header 8 8 ≤ k.counter then ST_REPLAY
  else 0

/-- A rejected envelope completes, is logged and raises EV032 (R149, R155, R561). -/
def Dev.rejectEnv (d : Dev) (r : CmdRef) (e : Env) (st : Nat) : Dev :=
  (((d.endCmd r st errOutside).log 0x06 1 32 (toLe (le e.header 4 1 % 8) 1 ++ toLe st 1 ++ toLe (le e.header 24 1) 1 ++
    toLe (le e.header 25 1) 1))).raise 32

def Dev.setKey (d : Dev) (i : Nat) (k : KeySlot) : Dev := { d with hrq := { d.hrq with keys := d.hrq.keys.put i k } }

/-- A rejection at step 3 or 4 counts, and the eighth in a row throttles the slot (R157). -/
def Dev.countFail (d : Dev) (i : Nat) : Dev :=
  let k := d.hrq.keys.get i
  let n := satAdd 15 k.fails 1
  d.setKey i { k with fails := n, lastReject := d.now, throttled := decide (8 ≤ n) }

/-- Take the envelope that is next in its queue (R155), unless one of a throttled slot waits (R157): the device, and the inner command with its world once it is accepted. -/
def Dev.takeEnvelope (d : Dev) (f : Fn) (q : Fin 8) : Dev × Option Cmd :=
  let i := qi f q
  match (d.queue i).next with
  | none => (d, none)
  | some (c, all) =>
    match c.env with
    | none => (d, none)
    | some e =>
      let r : CmdRef := ⟨i, c.id⟩
      if e.accepted || !d.mayStart f i || !d.acholtRuns || (c.flag 3 && !all) then (d, none)
      else
        let slot := le e.header 4 1 % 8
        let k := d.hrq.keys.get slot
        let waiting := d.hrq.throttleWait.filter fun w => w.1 == slot
        if k.throttled || (waiting.headD (slot, i)).2 != i then
          (if waiting.any fun w => w.2 == i then d
            else { d with hrq := { d.hrq with throttleWait := d.hrq.throttleWait ++ [(slot, i)] } }, none)
        else
          let d0 := { d with hrq := { d.hrq with throttleWait := d.hrq.throttleWait.filter fun w => !(w.1 == slot && w.2 == i) } }
          let st := if e.fieldsOk d.mgt.serial f.code (d.f HRQ_Q_CFG.TYPE i) then k.verdict e (d0.rightsNeeded c) else ST_BAD_FIELD
          if st = ST_BAD_FIELD ∨ st = ST_KEY_SLOT then (d0.rejectEnv r e st, none)
          else if st ≠ 0 then ((d0.countFail slot).rejectEnv r e st, none)
          else
            let sec := bit k.rights 7 || d0.secure f
            let d2 := d0.setKey slot { k with counter := le e.header 8 8, fails := 0 }
            let d1 := { d2 with hrq := { d2.hrq with toFlash := d2.hrq.toFlash ++ [(i, slot, le e.header 8 8)] } }
            (d1.updCmd r fun x => { x with secure := sec, env := some { e with accepted := true } },
              some { c with secure := sec, env := some { e with accepted := true } })

/-- The inner command of an accepted envelope that is next in a queue and has still to start (R155). -/
def Dev.acceptedNext (d : Dev) (f : Fn) (q : Fin 8) : Option Cmd :=
  match (d.queue (qi f q)).next with
  | some (c, all) =>
    match c.env with
    | some e => if e.accepted && d.mayStart f (qi f q) && (!c.flag 3 || all) then some c else none
    | none => none
  | none => none

/-- Start the inner command of an accepted envelope. -/
def State.startInner (s : State) (f : Fn) (q : Fin 8) (c : Cmd) (run : Run) : State :=
  if s.dev.opcodeOk (qi f q) c.opcode then s.launch f q c run else s.onDev (·.endCmd ⟨qi f q, c.id⟩ ST_BAD_OPCODE errOutside)

/-- Take the envelope that is next in a queue, and start its inner command once it is accepted (R154, R155). -/
def State.openEnvelope (s : State) (f : Fn) (q : Fin 8) (run : Run) : State :=
  match s.dev.acceptedNext f q, s.dev.takeEnvelope f q with
  | some c, _ => s.startInner f q c run
  | none, (d1, none) => { s with dev := d1 }
  | none, (d1, some c) => ({ s with dev := d1 }).startInner f q c run

/-- Start the next command of a queue if it is one that `p` accepts, in its envelope or bare. -/
def State.startIf (s : State) (f : Fn) (q : Fin 8) (p : Cmd → Bool) (run : Run) : State :=
  match (s.dev.queue (qi f q)).next with
  | none => s
  | some (c, _) => if !p c then s else if c.env.isSome then s.openEnvelope f q run else s.startNext f q (fun _ => true) run

/-- A command of the queue whose counter has reached flash. -/
def Cmd.persisted (c : Cmd) (slot counter : Nat) : Cmd :=
  { c with env := c.env.map fun e => if e.accepted && le e.header 4 1 % 8 == slot && le e.header 8 8 == counter then { e with persisted := true } else e }

/-- The oldest counter that an envelope of the queue has stored reaches flash, though its command be gone by now (R156). -/
def execEnvelopeCounterPersisted (f : Fn) (q : Fin 8) (s : State) : Host.Outcome State Fault Refusal :=
  .next (s.onDev fun d =>
    let i := qi f q
    match d.hrq.toFlash.find? fun x => x.1 == i with
    | some x =>
      let d1 := { d with mgt := { d.mgt with counters := d.mgt.counters.put x.2.1 (max (d.mgt.counters.get x.2.1) x.2.2) }
                         hrq := { d.hrq with toFlash := d.hrq.toFlash.erase x } }
      d1.setQueue i { d1.queue i with cmds := (d1.queue i).cmds.map fun c => c.persisted x.2.1 x.2.2 }
    | none => d)

/-- 100 ms pass after the last rejection on a throttled slot (R157). -/
def execEnvelopeThrottleExpire (slot : Fin 8) (s : State) : Host.Outcome State Fault Refusal :=
  .next (s.onDev fun d =>
    let k := d.hrq.keys.get slot.val
    if k.throttled && decide (k.lastReject + 100000000 ≤ d.now) then d.setKey slot.val { k with throttled := false } else d)

/-! SP0. -/

/-- ENTER_8D is accepted in 1S-1S-1S only; in 8D-8D-8D it has no effect and is not malformed (R122; DESIGN CHOICE, log entry 132). -/
def execSp0Enter8d (s : State) : Host.Outcome State Fault Refusal :=
  .next (if s.dev.spOn then s.onDev fun d => { d with hrq := { d.hrq with sp0Octal := true } } else s)

def execSp0Exit8d (s : State) : Host.Outcome State Fault Refusal :=
  .next (if s.dev.spOn then s.onDev fun d => { d with hrq := { d.hrq with sp0Octal := false } } else s)

/-- A malformed command (R124, R149). -/
def Dev.sp0Malformed (d : Dev) : Dev := { d with hrq := { d.hrq with protoErr := true } }.raise 38

/-- READ_STATUS (R124): WR_CRC, IRQ and PROTO_ERR, which it clears; a malformed command sets PROTO_ERR instead. -/
def execSp0ReadStatus (malformed : Bool) (s : State) : Host.Outcome State Fault Refusal :=
  .next (s.onDev fun d =>
    if !d.spOn then d
    else if malformed then d.sp0Malformed
    else
      let v := d.hrq.wrCrc % 2 ^ 16 + 2 ^ 16 * b2n d.spIrq + 2 ^ 17 * b2n d.hrq.protoErr
      { d with hrq := { d.hrq with protoErr := false } }.emit (.readData 0x01 (toLe v 4)))

end Sys2Proof.Machine
end

