-- ==== Sys2Proof/Machine/Mail.lean ====
section
/-! DEFINITION. Mailboxes (R472 to R485, R492) and check-value units (R486 to R490, R493). -/

namespace Sys2Proof.Machine

/-! Ends of a channel. -/

def Dev.mbxEnd (d : Dev) (c e : Nat) : MbxEnd := d.mbx.ends.get (2 * c + e)

def Dev.updEnd (d : Dev) (c e : Nat) (g : MbxEnd → MbxEnd) : Dev := { d with mbx := { d.mbx with ends := d.mbx.ends.upd (2 * c + e) g } }

def mbxKey (c e k : Nat) : Nat := (2 * c + e) * 4 + k

/-- Transmit slot `k` of end `e`. -/
def Dev.mbxSlot (d : Dev) (c e k : Nat) : MbxSlot := d.mbx.slots.get (mbxKey c e k)

def Dev.setSlot (d : Dev) (c e k : Nat) (s : MbxSlot) : Dev := { d with mbx := { d.mbx with slots := d.mbx.slots.put (mbxKey c e k) s } }

def Dev.mbxRemote (d : Dev) (c : Nat) : Bool := d.fb MBX_BIND.REMOTE c

/-- The MID of an end (R472). -/
def Dev.mbxMid (d : Dev) (c e : Nat) : Nat := if e = 0 then d.f MBX_BIND.END_A c else d.f MBX_BIND.END_B c

/-- The end that a requester is (R475): end B of a spanning channel lies on the peer. -/
def Dev.mbxSide (d : Dev) (c mid : Nat) : Option Nat :=
  if d.f MBX_BIND.END_A c = 0 then none
  else if d.f MBX_BIND.END_A c = mid then some 0
  else if d.f MBX_BIND.END_B c = mid ∧ ¬ d.mbxRemote c then some 1
  else none

/-- The function is in function-level reset, or Acholt restarts (R481, R510); a halted Acholt has not reset (R108). -/
def Dev.fnResets (d : Dev) (mid : Nat) : Bool :=
  match Fn.ofCode mid with
  | some (.vf v) => d.inReset mid || (d.ports.get (v.val / 32)).inReset
  | some (.pf p) => d.inReset mid || (d.ports.get p.val).inReset
  | some .acholt => d.mgt.phase != .running
  | _ => false

/-- The receiver of the direction that leads away from end `e` is in reset: a remote end while the channel is down (R474, R481). -/
def Dev.rxResets (d : Dev) (c e : Nat) : Bool :=
  if e = 0 ∧ d.mbxRemote c then !d.fb MBX_BIND.UP c else d.fnResets (d.mbxMid c (1 - e))

/-- PEER_UP (R477); of a remote end its device tells whether it can pop (log entry 149). -/
def Dev.peerUp (d : Dev) (c e : Nat) : Bool :=
  if e = 0 ∧ d.mbxRemote c then d.fb MBX_BIND.UP c && (d.mbxEnd c 1).opened
  else
    let mid := d.mbxMid c (1 - e)
    match Fn.ofCode mid with
    | some f => d.exists? f && (f != .sp0 || d.spOn) && !d.notD0.get mid && !d.fnResets mid && d.time.refRunning && (d.mbxEnd c (1 - e)).opened
    | none => false

/-- The device of the remote end of a spanning channel is told of this one's: a reset (4), whether it can pop (5), a message that has timed out (6), or
whether the entry still names the remote end (7) (log entry 149). -/
def Dev.tellPeer (d : Dev) (c e what v : Nat) : Dev :=
  if e = 0 ∧ d.mbxRemote c ∧ d.fb MBX_BIND.UP c then d.emit (.convoy (d.f MBX_BIND.PEER c) (toLe c 1 ++ toLe what 1 ++ toLe v 1)) else d

/-! Ending and delivering messages. -/

/-- A notice of the form of R479 to the function at an end, with LTIME `t`. -/
def Dev.mbxNotice (d : Dev) (t c e status result : Nat) : Dev :=
  if d.mbxMid c e = 2 then d.emit (.mailSignal c (result % 4) (bit result 8)) else d.noticeAt t (d.mbxMid c e) 6 c status result

/-- The bulk command that posted a message moves on: a pop counts, another end completes it with that status (R484). -/
def Dev.bulkEnded (d : Dev) (ref : CmdRef) (status : Nat) : Dev :=
  match d.mbx.bulk.find? fun b => b.ref == ref with
  | none => d
  | some b =>
    if status = ST_OK ∧ b.popped + 1 < b.count then
      { d with mbx := { d.mbx with bulk := d.mbx.bulk.map fun x => if x.ref = ref then { x with popped := x.popped + 1 } else x } }
    else { d with mbx := { d.mbx with bulk := d.mbx.bulk.filter fun x => x.ref != ref } }.endCmd ref status
      (if status = ST_OK then 0 else b.popped)

/-- A posted slot of end `e` returns to FREE, and its message ends with a status. -/
def Dev.slotFree (d : Dev) (c e k status : Nat) : Dev :=
  let s := d.mbxSlot c e k
  let d1 := (d.setSlot c e k { s with posted := false, deadline := none, bulk := none, senderReset := false }).updEnd c e fun x =>
    { x with order := x.order.filter (· != k) }
  let d2 := if e = 1 ∧ d1.mbxRemote c then d1.emit (.convoy (d1.f MBX_BIND.PEER c) (toLe c 1 ++ toLe k 1 ++ toLe status 1)) else d1
  match s.bulk with
  | some ref => d2.bulkEnded ref status
  | none => d2

/-- A message is discarded with RX_RESET or RX_TIMEOUT (R477, R480, R481); one that has timed out is withdrawn from a remote receiver too. -/
def Dev.mbxDiscard (d : Dev) (c e k status : Nat) : Dev :=
  let d1 := (d.slotFree c e k status).updEnd c e fun x =>
    if status = ST_RX_RESET then { x with rxReset := x.rxReset ||| 2 ^ k } else { x with timedOut := x.timedOut ||| 2 ^ k }
  let d2 := if status = ST_RX_TIMEOUT then d1.tellPeer c e 6 k else d1
  if (d2.mbxEnd c e).txNotice then d2.mbxNotice d2.now c e status k else d2

/-- Slot `k` of end `e` is posted by a GO at LTIME `go` (R476, R479, R481). -/
def Dev.mbxPost (d : Dev) (go c e k : Nat) (bulk : Option CmdRef) : Dev :=
  let s := d.mbxSlot c e k
  let us := (d.mbxEnd c e).timeout
  let d1 := (d.setSlot c e k { s with posted := true, bulk := bulk, senderReset := false
                                      deadline := if us = 0 then none else some (d.now + 1000 * us) }).updEnd c e fun x =>
    { x with order := x.order ++ [k] }
  if d1.rxResets c e then
    let d2 := d1.mbxDiscard c e k ST_RX_RESET
    if (d2.mbxEnd c (1 - e)).resetEv then d2 else (d2.updEnd c (1 - e) fun x => { x with resetEv := true }).raise (384 + c)
  else if e = 0 ∧ d1.mbxRemote c then
    d1.emit (.convoy (d1.f MBX_BIND.PEER c)
      (toLe c 1 ++ toLe k 1 ++ ((List.range 16).map fun w => toLe (s.data.get w).toNat 4).flatten ++ toLe go 8))
  else if (d1.mbxEnd c (1 - e)).rxNotice then d1.mbxNotice go c (1 - e) ST_OK k
  else d1

/-- The receiver at end `e` pops its oldest message (R478); none where no slot is FULL. -/
def Dev.mbxPop (d : Dev) (c e : Nat) : Option Dev :=
  match (d.mbxEnd c (1 - e)).order with
  | k :: _ => some (d.slotFree c (1 - e) k ST_OK)
  | [] => none

/-! Bulk commands (R483 to R485). -/

def Dev.setBulk (d : Dev) (b : MbxBulk) : Dev :=
  { d with mbx := { d.mbx with bulk := d.mbx.bulk.map fun x => if x.ref = b.ref then b else x } }

/-- A bulk command ends. -/
def Dev.endBulk (d : Dev) (b : MbxBulk) (status result : Nat) : Dev :=
  { d with mbx := { d.mbx with bulk := d.mbx.bulk.filter fun x => x.ref != b.ref } }.endCmd b.ref status result

/-- RESULT of MBX_RECV. -/
def MbxBulk.recvResult (b : MbxBulk) : Nat := b.moved + 2 ^ 16 * b.resets

/-- MBX_SEND posts its next message into a FREE slot. -/
def State.sendOne (s : State) (b : MbxBulk) : Option State :=
  match ([0, 1, 2, 3] : List Nat).find? fun k => !(s.dev.mbxSlot b.chan b.side k).posted with
  | none => none
  | some k =>
    if b.moved = b.count ∨ (b.host ∧ b.data.length < 64 * (b.moved + 1)) then none
    else
      let got := if b.host then (s, Fetch.ok ((b.data.drop (64 * b.moved)).take 64)) else s.readMem ⟨b.code, b.sec⟩ 13 (b.buf + 64 * b.moved) 64
      match got with
      | (s1, .ok bs) =>
        let words : Tbl Word := (List.range 16).foldl (fun t w => t.put w (BitVec.ofNat 32 (le bs (4 * w) 4))) []
        some (s1.onDev fun d => ((d.setBulk { b with moved := b.moved + 1 }).setSlot b.chan b.side k
          { d.mbxSlot b.chan b.side k with data := words })|>.mbxPost d.now b.chan b.side k (some b.ref))
      | (s1, e) => some (s1.onDev (·.endBulk b e.status b.popped))

/-- MBX_RECV takes the oldest message of its end. -/
def State.recvOne (s : State) (b : MbxBulk) : Option State :=
  match (s.dev.mbxEnd b.chan (1 - b.side)).order with
  | [] => none
  | k :: _ =>
    let m := s.dev.mbxSlot b.chan (1 - b.side) k
    let bs := ((List.range 16).map fun w => toLe (m.data.get w).toNat 4).flatten
    let b1 := { b with moved := b.moved + 1, resets := b.resets + b2n m.senderReset * 2 ^ b.moved }
    let fin := fun (d : Dev) => match d.mbxPop b.chan b.side with
      | some d1 => if b1.moved = b.count then d1.endBulk b1 ST_OK b1.recvResult else d1.setBulk b1
      | none => d
    if b.host then
      match Fn.ofCode b.code with
      | some f => some (s.onDev fun d =>
          if d.canSend f then fin (d.post f (b.buf + 64 * b.moved) bs) else d.endBulk b ST_HOST_DMA b.recvResult)
      | none => none
    else match s.writeMem ⟨b.code, b.sec⟩ 13 (b.buf + 64 * b.moved) bs with
      | (s1, true) => some (s1.onDev fin)
      | (s1, false) => some (s1.onDev (·.endBulk b ST_OWN_REFUSED b.recvResult))

/-- Bulk commands of a channel move on until none can; those of a VF that a freeze holds wait (R517). -/
def State.mbxPump (s : State) (c : Nat) : Nat → State
  | 0 => s
  | n + 1 =>
    match (s.dev.mbx.bulk.filter fun b => b.chan == c && !s.dev.vfHeld b.code).findSome? fun b => if b.send then s.sendOne b else s.recvOne b with
    | some s1 => s1.mbxPump c n
    | none => s

def State.mbxRun (s : State) (c : Nat) : State := s.mbxPump c 64

/-- Bulk commands of every channel move on, where a reset or a thaw may have freed slots or let them go on (R484, R517). -/
def State.mbxRunAll (s : State) : State := ((s.dev.mbx.bulk.map (·.chan)).eraseDups).foldl State.mbxRun s

/-- The checks of R483: status and RESULT. -/
def Dev.mbxErr (d : Dev) (f : Fn) (c : Cmd) (recv : Bool) : Option (Nat × Nat) :=
  let host := bit (c.u 34 1) 0
  firstError
    [((d.mbxSide (c.u 32 1 % 64) f.code).isNone, ST_NOT_OWNER, errByte 32), (c.ext != 0, ST_BAD_FIELD, errOutside),
     (!c.conts.isEmpty, ST_BAD_FIELD, errAt 32), (decide (64 ≤ c.u 32 1), ST_BAD_FIELD, errByte 32),
     (!decide (1 ≤ c.u 33 1 ∧ c.u 33 1 ≤ 16), ST_BAD_FIELD, errByte 33),
     (decide (2 ≤ c.u 34 1) || (host && f == .sp0), ST_BAD_FIELD, errByte 34), (c.u 35 1 != 0, ST_BAD_FIELD, errByte 35),
     (if recv then decide (4000000000 < c.u 36 4) else c.u 36 4 != 0, ST_BAD_FIELD, errByte 36),
     (!c.zero 48 63, ST_BAD_FIELD, errByte 48),
     (c.u 40 8 % 64 != 0 || (!host && !d.inDevice (c.u 40 8) (c.u 40 8 + 64 * c.u 33 1 - 1)), ST_BAD_GEOMETRY, errByte 40)]

def State.mbxBulk (s : State) (f : Fn) (send : Bool) (ref : CmdRef) (c : Cmd) : State :=
  match s.dev.mbxErr f c (!send) with
  | some (st, res) => s.onDev (·.endCmd ref st res)
  | none =>
    let ch := c.u 32 1 % 64
    let us := c.u 36 4
    let b : MbxBulk := { ref := ref, code := f.code, sec := c.secure, send := send, chan := ch, side := (s.dev.mbxSide ch f.code).getD 0
                         count := c.u 33 1, buf := c.u 40 8, host := bit (c.u 34 1) 0
                         deadline := if send ∨ us = 0 then none else some (s.dev.now + 1000 * us) }
    (s.onDev fun d =>
      let d1 := { d with mbx := { d.mbx with bulk := d.mbx.bulk ++ [b] } }
      if send && b.host then d1.hostRead (.queue f (Fin.ofNat 8 ref.queue)) (some ref) f b.buf (64 * b.count) else d1).mbxRun ch

def runMbx (f : Fn) (send : Bool) : Run := fun ref c s => s.mbxBulk f send ref c

def execMbxSend (f : Fn) (q : Fin 8) (s : State) : Host.Outcome State Fault Refusal :=
  .next (s.startNext f q (· == 0x90) (runMbx f true))

def execMbxRecv (f : Fn) (q : Fin 8) (s : State) : Host.Outcome State Fault Refusal :=
  .next (s.startNext f q (· == 0x91) (runMbx f false))

/-- WAIT_US passes (R485). -/
def execMbxRecvTimeout (c : Fin 64) (e : Fin 2) (s : State) : Host.Outcome State Fault Refusal :=
  .next (s.onDev fun d =>
    match d.mbx.bulk.find? fun b => !b.send && b.chan == c.val && b.side == e.val &&
        (match b.deadline with | some t => decide (t ≤ d.now) | none => false) with
    | some b => d.endBulk b ST_OK b.recvResult
    | none => d)

/-! Register accesses to a channel window (R475, R476, R478, R492). -/

def Dev.mbxWerr (d : Dev) (c e : Nat) : Dev := d.updEnd c e fun x => { x with werr := true }

def mbxTxDataWrite (who : Fn) (c k w : Nat) (val : Word) (d : Dev) : Dev :=
  match d.mbxSide c who.code with
  | none => d
  | some e =>
    let s := d.mbxSlot c e k
    if s.posted then d.mbxWerr c e else d.setSlot c e k { s with data := s.data.put w val }

/-- A write of GO: bits post their slots in ascending order. -/
def mbxGoWrite (who : Fn) (c : Nat) (val : Word) (s : State) : State :=
  match s.dev.mbxSide c who.code with
  | none => s
  | some e => (s.onDev fun d => ([0, 1, 2, 3] : List Nat).foldl (fun (d : Dev) k =>
      if !bit val.toNat k then d else if (d.mbxSlot c e k).posted then d.mbxWerr c e else d.mbxPost d.now c e k none) d).mbxRun c

def mbxPopWrite (who : Fn) (c : Nat) (val : Word) (s : State) : State :=
  match s.dev.mbxSide c who.code with
  | none => s
  | some e =>
    if !bit val.toNat 0 then s
    else (s.onDev fun d => match d.mbxPop c e with | some d1 => d1 | none => d.mbxWerr c e).mbxRun c

def mbxEndCtrlWrite (who : Fn) (c : Nat) (val : Word) (d : Dev) : Dev :=
  match d.mbxSide c who.code with
  | none => d
  | some e => (d.updEnd c e fun x => { x with
      opened := bit val.toNat 0, rxNotice := bit val.toNat 1, txNotice := bit val.toNat 2, timeout := bits val.toNat 31 16 }).tellPeer c e 5
      (b2n (bit val.toNat 0))

def mbxTxStatWrite (who : Fn) (c : Nat) (val : Word) (d : Dev) : Dev :=
  match d.mbxSide c who.code with
  | none => d
  | some e => d.updEnd c e fun x => { x with
      rxReset := x.rxReset - (x.rxReset &&& bits val.toNat 7 4), timedOut := x.timedOut - (x.timedOut &&& bits val.toNat 11 8)
      werr := x.werr && !bit val.toNat 14 }

/-- A read of a register of the window shows the requester's end. -/
def Dev.mbxTxStat (d : Dev) (c e : Nat) : Nat :=
  let x := d.mbxEnd c e
  (([0, 1, 2, 3] : List Nat).foldl (fun a k => a + b2n (d.mbxSlot c e k).posted * 2 ^ k) 0) + 16 * (x.rxReset % 16) + 256 * (x.timedOut % 16) +
    2 ^ 12 * b2n (d.peerUp c e) + 2 ^ 13 * b2n (!(d.mbxRemote c) || d.fb MBX_BIND.UP c) + 2 ^ 14 * b2n x.werr

def Dev.mbxRxStat (d : Dev) (c e : Nat) : Nat :=
  let o := (d.mbxEnd c (1 - e)).order
  (([0, 1, 2, 3] : List Nat).foldl (fun a k => a + b2n (d.mbxSlot c (1 - e) k).posted * 2 ^ k) 0) + 16 * o.headD 0 + 64 * o.length +
    512 * (([0, 1, 2, 3] : List Nat).foldl (fun a k => a + b2n (d.mbxSlot c (1 - e) k).senderReset * 2 ^ k) 0)

def Dev.mbxEndCtrl (d : Dev) (c e : Nat) : Nat :=
  let x := d.mbxEnd c e
  b2n x.opened + 2 * b2n x.rxNotice + 4 * b2n x.txNotice + 2 ^ 16 * x.timeout

/-- MBX_RX_DATA: the words of a FULL slot; a slot that is not FULL reads 0. -/
def Dev.mbxRxData (d : Dev) (c e k w : Nat) : Word :=
  let s := d.mbxSlot c (1 - e) k
  if s.posted then s.data.get w else 0

def execMbxGo (who : Fn) (c : Fin 64) (val : Word) (s : State) : Host.Outcome State Fault Refusal := .next (mbxGoWrite who c.val val s)

def execMbxPop (who : Fn) (c : Fin 64) (val : Word) (s : State) : Host.Outcome State Fault Refusal := .next (mbxPopWrite who c.val val s)

/-- TIMEOUT_US passes without a pop (R477). -/
def execMbxTimeout (c : Fin 64) (e : Fin 2) (k : Fin 4) (s : State) : Host.Outcome State Fault Refusal :=
  .next (match (s.dev.mbxSlot c.val e.val k.val).deadline with
    | some t =>
      if (s.dev.mbxSlot c.val e.val k.val).posted ∧ t ≤ s.dev.now then (s.onDev (·.mbxDiscard c.val e.val k.val ST_RX_TIMEOUT)).mbxRun c.val
      else s
    | none => s)

/-! Reset of an end (R481, R482). -/

/-- The end resets as a receiver: messages posted to it are discarded. -/
def Dev.mbxRxReset (d : Dev) (c e : Nat) : Dev :=
  let ks := (d.mbxEnd c (1 - e)).order
  let d1 := ks.foldl (fun d k => d.mbxDiscard c (1 - e) k ST_RX_RESET) d
  let d2 := d1.updEnd c e fun x => { x with opened := false, rxNotice := false, txNotice := false, resetEv := !ks.isEmpty }
  d2.raiseIf (!ks.isEmpty) (384 + c)

/-- The end resets as a sender: messages already posted are marked, and unposted data is cleared. -/
def Dev.mbxTxReset (d : Dev) (c e : Nat) : Dev :=
  ([0, 1, 2, 3] : List Nat).foldl (fun (d : Dev) k =>
    let s := d.mbxSlot c e k
    d.setSlot c e k (if s.posted then { s with senderReset := true } else {})) d

/-- One end of a channel resets. -/
def Dev.mbxResetEnd (d : Dev) (c e : Nat) : Dev := ((d.mbxTxReset c e).mbxRxReset c e).tellPeer c e 4 0

/-- The bulk commands of an end are discarded with their function (R510). -/
def Dev.mbxDropBulk (d : Dev) (c e : Nat) : Dev :=
  ([0, 1, 2, 3] : List Nat).foldl (fun (d : Dev) k => d.setSlot c e k { d.mbxSlot c e k with bulk := none })
    { d with mbx := { d.mbx with bulk := d.mbx.bulk.filter fun b => !(b.chan == c && b.side == e) } }

/-- Every end that a function is resets. -/
def Dev.mbxResetFn (d : Dev) (mid : Nat) : Dev :=
  (List.range 64).foldl (fun (d : Dev) c => match d.mbxSide c mid with
    | some e => (d.mbxDropBulk c e).mbxResetEnd c e
    | none => d) d

/-- The registers of every end that a function is return to their reset values at reset-done (R510); messages it has posted stay queued (R482). -/
def Dev.mbxRegsReset (d : Dev) (mid : Nat) : Dev :=
  (List.range 64).foldl (fun (d : Dev) c => match d.mbxSide c mid with
    | some e => d.updEnd c e fun x => { order := x.order }
    | none => d) d

/-- UP of a spanning channel: its entry and the peer's name each other, and the link is up (R474). -/
def Dev.spanUp (d : Dev) (c : Nat) : Bool :=
  let p := d.f MBX_BIND.PEER c
  d.f MBX_BIND.END_A c != 0 && d.mbxRemote c && d.peerUp? p && (d.mbx.peerChans.get p).contains c

/-! Check-value units. -/

/-- The running value: the init value of POLY until a byte is fed (R489). -/
def Dev.cvuVal (d : Dev) (u : Nat) : Nat := (d.mbx.cvu.get u).getD (crcInit (d.f CVU_CTRL.POLY u))

def Dev.setCvu (d : Dev) (u : Nat) (v : Option Nat) : Dev := { d with mbx := { d.mbx with cvu := d.mbx.cvu.put u v } }

/-- Feed bytes in order (R488). -/
def Dev.cvuFeed (d : Dev) (u : Nat) (bs : List Byte) : Dev := d.setCvu u (some (bs.foldl (crcFeed (d.f CVU_CTRL.POLY u)) (d.cvuVal u)))

/-- CVU_RESULT (R489). -/
def Dev.cvuResult (d : Dev) (u : Nat) : Nat := crcFinal (d.f CVU_CTRL.POLY u) (d.cvuVal u)

def Dev.cvuOwner (d : Dev) (u : Nat) : Nat := d.fl CVU_ASSIGN.OWNER u

/-- A register feed by the owner (R488, R493). -/
def cvuFeedWrite (who : Fn) (r : Reg) (u n : Nat) (val : Word) (d : Dev) : Dev :=
  if !d.holds who (d.cvuOwner u) then d
  else if d.fb CVU_CTRL.BUSY u then d.werr who r u
  else d.cvuFeed u (toLe val.toNat n)

def execCvuFeed8 (who : Fn) (u : Fin 8) (val : Word) (s : State) : Host.Outcome State Fault Refusal :=
  .next (s.onDev (cvuFeedWrite who .CVU_FEED8 u.val 1 val))

def execCvuFeed32 (who : Fn) (u : Fin 8) (val : Word) (s : State) : Host.Outcome State Fault Refusal :=
  .next (s.onDev (cvuFeedWrite who .CVU_FEED32 u.val 4 val))

/-- The owner, and the PF driver of its family (R490), reach CVU_CTRL. -/
def Dev.mayCvu (d : Dev) (who : Fn) (u : Nat) : Bool :=
  d.holds who (d.cvuOwner u) || (match who with | .pf _ => d.mayGive who (d.cvuOwner u) | _ => false)

/-- A write of CVU_CTRL (R488, R489): a change of POLY and INIT reset the running value. A PF that does not own the unit writes INIT alone (R490). -/
def cvuCtrlWrite (who : Fn) (u : Nat) (val : Word) (d : Dev) : Dev :=
  if d.holds who (d.cvuOwner u) then
    let init := d.acts who CVU_CTRL.INIT u val
    let d1 := d.write who .CVU_CTRL u val
    if init ∨ d1.f CVU_CTRL.POLY u ≠ d.f CVU_CTRL.POLY u then d1.setCvu u none else d1
  else if d.mayCvu who u && CVU_CTRL.INIT.get val == 1 then
    (if d.fb CVU_CTRL.BUSY u then d.werr who .CVU_CTRL u else d.setCvu u none)
  else d

def execCvuInit (who : Fn) (u : Fin 8) (val : Word) (s : State) : Host.Outcome State Fault Refusal :=
  .next (s.onDev (cvuCtrlWrite who u.val val))

def execCvuPolyChange (who : Fn) (u : Fin 8) (val : Word) (s : State) : Host.Outcome State Fault Refusal :=
  .next (s.onDev (cvuCtrlWrite who u.val val))

/-- A change of a unit's owner takes effect once no feed is in progress (R487). -/
def Dev.cvuApply (d : Dev) (u : Nat) : Dev :=
  if d.f CVU_ASSIGN.OWNER u = d.fl CVU_ASSIGN.OWNER u ∨ d.fb CVU_CTRL.BUSY u then d
  else ((d.latch .CVU_ASSIGN u).setCvu u none).evSync d [448 + u]

/-- A write of CVU_ASSIGN; that of a VF that does not own the unit is one of a non-owner (R341, R493). -/
def cvuAssignWrite (who : Fn) (u : Nat) (val : Word) (d : Dev) : Dev :=
  let old := d.f CVU_ASSIGN.OWNER u
  let new := CVU_ASSIGN.OWNER.get val
  let vf : Bool := match who with | .vf _ => true | _ => false
  if decide (old = new) || (vf && !d.holds who (d.cvuOwner u)) then d
  else if d.mayGive who old && d.mayGive who new then (d.setF CVU_ASSIGN.OWNER u new).cvuApply u
  else d.werr who .CVU_ASSIGN u

/-- Only a PF, SP0 or Acholt reaches an assignment register (R341, R487). -/
def assigner : Fn → Bool
  | .vf _ => false
  | _ => true

def execCvuAssignWrite (who : Fn) (u : Fin 8) (val : Word) (s : State) : Host.Outcome State Fault Refusal :=
  .next (if assigner who then s.onDev (cvuAssignWrite who u.val val) else s)

end Sys2Proof.Machine
end

