-- ==== Sys2Proof/Machine/Time.lean ====
section
/-! DEFINITION. LTIME and its discipline (R40 to R51), the pace probes and the governor (R25 to R34). -/

namespace Sys2Proof.Machine

/-! LTIME. -/

/-- The nominal reference period in units of 2^-32 ns: 26 ns plus 0x0AAA_AAAB (R41). -/
def ltimePeriod : Nat := 26 * 2 ^ 32 + 0x0AAAAAAB

/-- One reference period: the integer part of period, correction and carried fraction is added and the fraction carried (R41). -/
def TimeSt.step (t : TimeSt) : TimeSt :=
  let x := ((t.frac + ltimePeriod : Nat) + t.rate * (ltimePeriod : Nat) / 1000000000 : Int).toNat
  { t with ltime := (t.ltime + x / 2 ^ 32) % 2 ^ 64, frac := x % 2 ^ 32 }

/-- One calendar period of carried LTIME: 30,517 ns and 37/64 (R47). -/
def TimeSt.carry (t : TimeSt) : TimeSt :=
  let x := t.calFrac + 37
  { t with ltime := (t.ltime + 30517 + x / 64) % 2 ^ 64, calFrac := x % 64 }

/-- In DORMANT the Thermos domain carries LTIME and sets CARRIED (R47). -/
def execLtimeCarryStep (s : State) : Host.Outcome State Fault Refusal :=
  .next (if s.dev.time.refRunning then s
    else s.onDev fun d => { d with time := d.time.carry }.setF GLB_LTIME_STAT.CARRIED 0 1)

/-- The port that disciplines LTIME (R44, R46, R50): none at a follower, since only the leader disciplines to a host. -/
def Dev.sourcePort (d : Dev) : Option Nat :=
  if d.follower then none
  else if d.f GLB_LTIME_CTRL.SRC 0 = 1 then some 0
  else if d.f GLB_LTIME_CTRL.SRC 0 = 2 then some 1
  else none

/-- PTM_INTERVAL_MS and SLEW_PPM as they act (R50). -/
def Dev.ptmIntervalMs (d : Dev) : Nat := clampN 1 1000 (d.f GLB_LTIME_CTRL.PTM_INTERVAL_MS 0)

def Dev.slewPpm (d : Dev) : Nat := clampN 1 250 (d.f GLB_LTIME_CTRL.SLEW_PPM 0)

def Dev.setRate (d : Dev) (x : Int) : Dev :=
  { d with time := { d.time with rate := x } }.setReg .GLB_LTIME_RATE 0 (BitVec.ofInt 32 x)

/-- LOCKED falls, which LOCK_LOST records (R51). -/
def Dev.unlock (d : Dev) : Dev :=
  if d.fb GLB_LTIME_STAT.LOCKED 0 then (d.setF GLB_LTIME_STAT.LOCKED 0 0).setF GLB_LTIME_STAT.LOCK_LOST 0 1 else d

/-- The source in use (R46, R51): the leader once its LTIME has been adopted, none at a follower before that, and SRC elsewhere. -/
def Dev.sourceCode (d : Dev) : Nat :=
  if d.follower then (if d.time.adopted then 3 else 0) else d.f GLB_LTIME_CTRL.SRC 0

/-- SRC_ACTIVE follows the source in use; a new source keeps the rate and captures a new reference offset (R44, R51). HOLDOVER, which told of the old
source, ends with it (DESIGN CHOICE, log entry 153). -/
def Dev.newSource (d : Dev) : Dev :=
  ((({ d with time := { d.time with ptmRef := none, inBand := 0, lastPtm := d.now } }.setF GLB_LTIME_STAT.SRC_ACTIVE 0 d.sourceCode).unlock).setF
    GLB_LTIME_STAT.HOLDOVER 0 0)

def Dev.syncSource (d : Dev) : Dev := if d.f GLB_LTIME_STAT.SRC_ACTIVE 0 = d.sourceCode then d else d.newSource

/-- A valid exchange on the source port (R44, R45): capture the reference offset, or steer the rate toward it. An exchange outside the
band ends the lock (R51). The exchange that captures the reference offset is not counted among the eight (DESIGN CHOICE, log entry 121). -/
def Dev.discipline (d : Dev) (offset : Int) : Dev :=
  let d1 := ({ d with time := { d.time with lastPtm := d.now } }.setF GLB_LTIME_STAT.HOLDOVER 0 0)
  match d1.time.ptmRef with
  | none => { d1 with time := { d1.time with ptmRef := some offset, inBand := 0 } }
  | some ref =>
    let err := offset - ref
    let lim : Int := d1.slewPpm * 1000
    let d2 := d1.setRate (clampI (-lim) lim (Config.rateCorrection err d1.time.rate))
    if -50 ≤ err ∧ err ≤ 50 then
      let n := min 8 (d2.time.inBand + 1)
      let d3 := { d2 with time := { d2.time with inBand := n } }
      if n = 8 then d3.setF GLB_LTIME_STAT.LOCKED 0 1 else d3
    else { d2 with time := { d2.time with inBand := 0 } }.unlock

/-- A PTM exchange of port `p` (R44): the offset is stored, and the source port disciplines LTIME. -/
def execPtmExchange (p : Fin 2) (host : BitVec 64) (s : State) : Host.Outcome State Fault Refusal :=
  .next (s.onDev fun d =>
    let off := toSigned 64 (host.toNat + 2 ^ 64 - d.now)
    let d1 := d.setReg64 .GLB_PTM_OFFSET_LO .GLB_PTM_OFFSET_HI p.val (ofSigned 64 off)
    if d1.sourcePort = some p.val then d1.discipline off else d1)

/-- HOLDOVER and LOCK_LOST are set and LOCKED is cleared (R45). -/
def Dev.enterHoldover (d : Dev) : Dev :=
  ((({ d with time := { d.time with inBand := 0 } }.setF GLB_LTIME_STAT.HOLDOVER 0 1).setF GLB_LTIME_STAT.LOCK_LOST 0 1).setF
    GLB_LTIME_STAT.LOCKED 0 0).raise 0

/-- Three intervals pass without a valid exchange on the source (R45). -/
def execPtmHoldover (s : State) : Host.Outcome State Fault Refusal :=
  .next (s.onDev fun d =>
    if d.sourcePort.isSome && !d.fb GLB_LTIME_STAT.HOLDOVER 0 &&
      decide (d.time.lastPtm + 3 * d.ptmIntervalMs * 1000000 ≤ d.now) then d.enterHoldover else d)

/-- A write of GLB_LTIME_CTRL (R50, R51): a change of SRC keeps the rate and captures a new reference offset. -/
def ltimeCtrlWrite (who : Fn) (val : Word) (d : Dev) : Dev :=
  let d1 := d.write who .GLB_LTIME_CTRL 0 val
  if d1.f GLB_LTIME_CTRL.SRC 0 = d.f GLB_LTIME_CTRL.SRC 0 ∨ d1.follower then d1 else d1.newSource

/-- VF writes to the LTIME window are ignored (R49). -/
def execLtimeCtrlWrite (who : Fn) (val : Word) (s : State) : Host.Outcome State Fault Refusal :=
  .next (match who with
    | .vf _ => s
    | _ => s.onDev (ltimeCtrlWrite who val))

/-! Pace. -/

/-- Probe `e` belongs to an engine bound by a floor guarantee that is enabled (R24, R27): compositors of outputs whose timing
generator is not OFF, ingest front ends while a context is not OFF, and audio mixing while RUN is 1. -/
def Dev.ingestOn (d : Dev) : Bool := (List.range 16).any fun c => d.f VIN_CS_STAT.STATE c != 0

def Dev.floorBound (d : Dev) (e : Nat) : Bool :=
  if e < 12 then d.tgOn e
  else if e = 12 then (List.range 12).any fun n => d.tgOn n && d.fb DSP_CMP_STAT.SPARE n
  else if e < 17 then d.ingestOn
  else if e = 55 ∨ e = 56 then d.fb AUD_GLB_CTRL.RUN 0
  else false

/-- FLOOR_HELD: any floor-bound engine is enabled (R33). -/
def Dev.floorHeld (d : Dev) : Bool := (List.range 12).any d.tgOn || d.ingestOn || d.fb AUD_GLB_CTRL.RUN 0

/-- Change the setpoint: a Voltage write, and the Status command that tells when the voltage is reached (R26, R28); after AVS_FAULT the governor
changes nothing (R30). -/
def Dev.setVcore (d : Dev) (mv : Nat) : Dev :=
  if d.fb PWR_PACE_STAT.AVS_FAULT 0 ∨ mv = d.pace.setpoint then d
  else ({ d with pace := { d.pace with setpoint := mv } }.emit (.avs mv)).emit .avsStatus

/-- A floor-bound engine becomes enabled (R26, R27): the setpoint goes to 735 mV at once, and the enable completes only once the
regulator reports the voltage reached. -/
def Dev.floorEnable (d : Dev) : Dev :=
  let d1 := if d.pace.setpoint < 735 then d.setVcore 735 else d
  if d.pace.setpoint < 735 ∨ d1.f PWR_PACE_STAT.VCORE_MV 0 < 735 then { d1 with pace := { d1.pace with enableWaits := true } } else d1

/-- The pace an engine needs (R26): floor for an enabled floor-bound engine, its demand otherwise. -/
def Dev.need (d : Dev) (demand : List Nat) (e : Nat) : Nat := if d.floorBound e then 256 else demand.getD e 0

/-- The window of 10 us of LTIME in which the device stands (R7, R25). -/
def Dev.paceWindow (d : Dev) : Nat := d.now / 10000

/-- The regulator's Status reports the setpoint reached: enables that waited for the rise complete (R27, R28). -/
def execAvsStatusDone (s : State) : Host.Outcome State Fault Refusal :=
  .next (s.onDev fun d =>
    let p := d.pace
    let reached := decide (735 ≤ p.setpoint)
    let d1 := { d with pace := { p with
      noAnswer := 0, enableWaits := p.enableWaits && !reached, starts := if reached then [] else p.starts } }.setF
      PWR_PACE_STAT.VCORE_MV 0 p.setpoint
    if reached then d1.endAll p.starts ST_OK 0 else d1)

/-- A transaction goes unanswered; the third in a row sets AVS_FAULT (R30). -/
def execAvsNoAnswer (s : State) : Host.Outcome State Fault Refusal :=
  .next (s.onDev fun d =>
    let n := min 3 (d.pace.noAnswer + 1)
    let d1 := { d with pace := { d.pace with noAnswer := n } }
    if n = 3 ∧ ¬ d.fb PWR_PACE_STAT.AVS_FAULT 0 then
      ((d1.setF PWR_PACE_STAT.AVS_FAULT 0 1).log 0x0D 2 489 (toLe 0 1 ++ toLe (d1.f PWR_PACE_STAT.VCORE_MEAS_MV 0) 2)).raise 489
    else d1)

/-- The monitors compare VDD_CORE with 0.72 V while FLOOR_HELD is 1 (R31). -/
def Dev.belowFloor (d : Dev) (mv : Nat) : Dev :=
  if mv < 720 ∧ d.floorHeld then
    ((d.setF PWR_PACE_STAT.BELOW_FLOOR 0 1).log 0x0D 2 490 (toLe 1 1 ++ toLe mv 2)).raise 490
  else d

/-- The monitors find VDD_CORE at `mv` (R31). -/
def execBelowFloor (mv : Nat) (s : State) : Host.Outcome State Fault Refusal :=
  .next (s.onDev fun d => (d.setF PWR_PACE_STAT.VCORE_MEAS_MV 0 mv).belowFloor mv)

end Sys2Proof.Machine
end

