-- ==== Sys2Proof/Machine/Audio.lean ====
section
/-! DEFINITION. Audio routing, mixing and effects (R436 to R471). -/

namespace Sys2Proof.Machine

def Dev.updAud (d : Dev) (g : AudSt → AudSt) : Dev := { d with aud := g d.aud }

def Dev.bus (d : Dev) (b : Nat) : BusSt := d.aud.buses.get b

def Dev.setBus (d : Dev) (b : Nat) (x : BusSt) : Dev := d.updAud fun a => { a with buses := a.buses.put b x }

def Dev.sink (d : Dev) (j : Nat) : SinkSt := d.aud.sinks.get j

def Dev.setSink (d : Dev) (j : Nat) (x : SinkSt) : Dev := d.updAud fun a => { a with sinks := a.sinks.put j x }

/-- Samples per second of the graph (R436). -/
def Dev.graphFs (d : Dev) : Nat := if d.fb AUD_GLB_CTRL.GRAPH_FS 0 then 96000 else 48000

/-- Samples of a fade of 2 ms (R445). -/
def Dev.fadeLen (d : Dev) : Nat := d.graphFs / 500

/-! Arithmetic (R447). -/

def sat32 (x : Int) : Int := clampI (-(2 ^ 31)) (2 ^ 31 - 1) x

/-- A quotient rounded to nearest with ties upward. -/
def roundDiv (n : Int) (den : Nat) : Int := (2 * n + (den : Int)) / (2 * max 1 den : Nat)

/-- A 32-bit field as a signed value. -/
def s32 (bs : List Byte) (o : Nat) : Int := toSigned 32 (le bs o 4)

def s16 (bs : List Byte) (o : Nat) : Int := toSigned 16 (le bs o 2)

/-- A sum of products in 64 bits; one that falls outside them has a free value. -/
def Dev.acc64 (d : Dev) (x : Int) : Int × Dev :=
  if -(2 ^ 63) ≤ x ∧ x < 2 ^ 63 then (x, d) else (toSigned 64 d.free1.1, d.free1.2)

/-- |x| lies below a threshold in tenths of a dBFS (R467): |x| < 2^27 × 10^(t/200), compared exactly. -/
def belowDb (x t : Int) : Bool := decide (x.natAbs ^ 200 * 10 ^ (-t).toNat < 2 ^ 5400)

/-- Old and new values in a ramp of `r` samples, of which `i` are done, times `r`; outside a ramp the new value, times 1 (R461). -/
def rampMix (r i : Nat) (old new : Int) : Int := if i < r then old * (r - 1 - i : Nat) + new * (i + 1 : Nat) else new

def rampDen (r i : Nat) : Nat := if i < r then r else 1

/-- The weight of a fade of which `n - 1` samples are done, over `len`; `n` = 0 for no fade (R445). -/
def fadeWeight (n len : Nat) : Nat := if n = 0 then len else len - n

/-! Hamper entries (R456 to R458). -/

def bit8 (bs : List Byte) (o b : Nat) : Bool := bit (le bs o 1) b

/-- An input of a bus entry is enabled. -/
def inEn (e : List Byte) (k : Nat) : Bool := bit8 e (8 + 8 * k + 1) 0

def inCode (e : List Byte) (k : Nat) : Nat := le e (8 + 8 * k) 1

def inGain (e : List Byte) (k : Nat) : Int := s32 e (8 + 8 * k + 4)

def Dev.srcOwner (d : Dev) (i : Nat) : Nat := d.f AUD_SRC_CFG.OWNER i

def Dev.busOwner (d : Dev) (b : Nat) : Nat := d.f AUD_BUS_ASSIGN.OWNER b

def Dev.snkOwner (d : Dev) (j : Nat) : Nat := d.f AUD_SNK_CFG.OWNER j

/-- PUBLIC of a bus stands in its entry in force (R444). -/
def Dev.busPublic (d : Dev) (b : Nat) : Bool := bit8 (d.bus b).cur 1 6

/-- What an input of `owner` may name (R444); `below` bounds the buses of a bus input. -/
def Dev.mayName (d : Dev) (owner below code : Nat) : Bool :=
  if code < 96 then d.srcOwner code == owner || d.fb AUD_SRC_CFG.PUBLIC code
  else
    let b := code - 128
    decide (128 ≤ code ∧ b < below) && (d.busOwner b == owner || d.busPublic b)

/-! Fades (R445). -/

def Dev.busFaded (d : Dev) (b : Nat) : Dev := (d.setF AUD_BUS_STAT.FADED b 1).raise 355

def Dev.snkFaded (d : Dev) (j : Nat) : Dev := (d.setF AUD_SNK_STAT.FADED j 1).raise 355

/-- Inputs that have lost their right start to fade; `n` is where the fade stands. -/
def Dev.busRights (d : Dev) (n b : Nat) : Dev :=
  let x := d.bus b
  let bad := (List.range 16).filter fun k => x.cur != [] && inEn x.cur k && x.fade.get k == 0 && !d.mayName (d.busOwner b) b (inCode x.cur k)
  if bad.isEmpty then d else (d.setBus b { x with fade := bad.foldl (fun t k => t.put k n) x.fade }).busFaded b

def Dev.snkRights (d : Dev) (n j : Nat) : Dev :=
  let x := d.sink j
  let bad := ([0, 1] : List Nat).filter fun k => x.cur != [] && le x.cur (2 + k) 1 != 0xFF && x.fade.get k == 0 &&
    !d.mayName (d.snkOwner j) 24 (le x.cur (2 + k) 1)
  if bad.isEmpty then d else (d.setSink j { x with fade := bad.foldl (fun t k => t.put k n) x.fade }).snkFaded j

/-- Where the fades stand: `n` for inputs of `owner`, at their start for the others. -/
def Dev.audRightsOf (d : Dev) (owner n : Nat) : Dev :=
  let at_ := fun (c : Nat) => if c = owner then n else 1
  (List.range 64).foldl (fun d j => d.snkRights (at_ (d.snkOwner j)) j) ((List.range 24).foldl (fun d b => d.busRights (at_ (d.busOwner b)) b) d)

/-- Every input that has lost its right starts to fade. -/
def Dev.audRights (d : Dev) : Dev := d.audRightsOf 0 1

/-- A bus or sink fades to zero over 2 ms and is then disabled. -/
def Dev.busDie (d : Dev) (b : Nat) : Dev :=
  let x := d.bus b
  if (x.cur == [] && !decide (x.i < x.r)) || x.dying != 0 then d else d.setBus b { x with dying := 1 }

def Dev.snkDie (d : Dev) (j : Nat) : Dev :=
  let x := d.sink j
  if (x.cur == [] && !decide (x.i < x.r)) || x.dying != 0 then d else d.setSink j { x with dying := 1 }

/-! Ports. -/

/-- The frame rates of R439 by FS code. -/
def fsHz (c : Nat) : Nat := [8000, 16000, 32000, 44100, 48000, 88200, 96000, 176400, 192000].getD c 0

def slotWidth (v : Word) : Nat := if AUD_TDM_CFG.SLOT_W.get v = 1 then 32 else 16

def wordBits (v : Word) : Nat := [16, 24, 32].getD (AUD_TDM_CFG.WORD.get v) 64

/-- A set-up of a TDM port that R439 supports. -/
def tdmOk (v : Word) : Bool :=
  let n := AUD_TDM_CFG.SLOTS.get v
  decide (1 ≤ n ∧ n ≤ 16) && decide (wordBits v ≤ slotWidth v) && decide (AUD_TDM_CFG.FS.get v ≤ 8) &&
    decide (n * slotWidth v * fsHz (AUD_TDM_CFG.FS.get v) ≤ 24576000)

/-- The TDM port whose bit clock is the graph clock (R437). -/
def Dev.clockPort (d : Dev) : Option Nat :=
  let k := d.f AUD_GLB_CTRL.GRAPH_CLK 0
  if d.aud.fallback ∨ k = 0 ∨ 9 ≤ k then none else some (k - 1)

/-- RUNNING and SYNC of a port (R438). -/
def Dev.tdmStat (d : Dev) (p : Nat) : Dev :=
  let on := d.fb AUD_TDM_CFG.ENABLE p
  let rate := decide (fsHz (d.f AUD_TDM_CFG.FS p) = d.graphFs)
  let sync := on && (if d.fb AUD_TDM_CFG.MASTER p then rate else decide (d.clockPort = some p))
  (d.setF AUD_TDM_STAT.RUNNING p (b2n (on && !d.fb AUD_TDM_STAT.PD p))).setF AUD_TDM_STAT.SYNC p (b2n sync)

def Dev.tdmStats (d : Dev) : Dev := (List.range 8).foldl Dev.tdmStat d

/-- A slave port's bit clock shows no edge for 4 frames (R437). -/
def execTdmClockLoss (p : Fin 8) (s : State) : Host.Outcome State Fault Refusal :=
  .next (s.onDev fun d =>
    if !(d.fb AUD_TDM_CFG.ENABLE p.val && !d.fb AUD_TDM_CFG.MASTER p.val) then d
    else
      let d1 := (d.setF AUD_TDM_STAT.CLK_LOST p.val 1).raise 353
      if d1.fb AUD_GLB_CTRL.RUN 0 && decide (d1.clockPort = some p.val) then
        (((d1.updAud fun a => { a with fallback := true }).setF AUD_GLB_STAT.CLK_FALLBACK 0 1).raise 358).tdmStats
      else d1)

/-! Sources (R442). -/

/-- The sample of a TDM or PDM source; the left channel of a PDM port is that of the rising edge, or of the falling one with SWAP (R440). -/
def Dev.portSample (d : Dev) (ins : AudioIn) (i : Nat) : Int :=
  if i < 64 then
    let p := d.f AUD_SRC_CFG.PORT i
    let sl := d.f AUD_SRC_CFG.SLOT i
    if d.fb AUD_TDM_CFG.ENABLE p && !d.fb AUD_TDM_STAT.PD p && decide (sl < d.f AUD_TDM_CFG.SLOTS p) then
      let v := ins.tdm.getD (16 * p + sl) 0
      let w := wordBits (d.reg .AUD_TDM_CFG p)
      sat32 (if w ≤ 28 then v * (2 ^ (28 - w) : Nat) else v / (2 ^ (w - 28) : Nat))
    else 0
  else
    let q := (i - 64) / 2
    let edge := if d.fb AUD_PDM_CFG.SWAP q then 1 - i % 2 else i % 2
    if d.fb AUD_PDM_CFG.ENABLE q then sat32 (ins.pdm.getD (2 * q + edge) 0) else 0

/-! Streams (R463, R464). -/

def Dev.stream (d : Dev) (n : Nat) : StreamSt := d.aud.streams.get n

def Dev.setStream (d : Dev) (n : Nat) (x : StreamSt) : Dev := d.updAud fun a => { a with streams := a.streams.put n x }

/-- The owner of a stream's left channel. -/
def Dev.streamOwner (d : Dev) (n : Nat) : Nat := if n < 8 then d.srcOwner (72 + 2 * n) else d.snkOwner (56 + 2 * (n - 8))

/-- A code owns both channels of a stream. -/
def Dev.ownsStream (d : Dev) (code n : Nat) : Bool :=
  if n < 8 then d.srcOwner (72 + 2 * n) == code && d.srcOwner (73 + 2 * n) == code
  else d.snkOwner (56 + 2 * (n - 8)) == code && d.snkOwner (57 + 2 * (n - 8)) == code

/-- A stream no longer runs. -/
def Dev.streamOff (d : Dev) (n : Nat) : Dev := (d.dropReads (.audio (Fin.ofNat 12 n))).setF AUD_STRM_STAT.RUN n 0

/-- A refused or failed access stops the stream (R463). -/
def Dev.streamFault (d : Dev) (n : Nat) : Dev := ((d.streamOff n).setF AUD_STRM_STAT.XRUN n 1).raise 352

/-- The stream stands at LIMIT: the boundary counts, and a run of them raises EV352 once (R464). -/
def Dev.streamLimit (d : Dev) (n : Nat) : Dev :=
  let x := d.stream n
  ((d.setStream n { x with atLimit := true }).count AUD_STRM_STAT.XRUN_COUNT n 1).raiseIf (!x.atLimit) 352

/-- Eight more bytes lie before LIMIT. -/
def Dev.streamRoom (d : Dev) (n : Nat) : Bool :=
  let x := d.stream n
  decide (8 ≤ (d.f AUD_STRM_LIMIT.LIMIT n + x.size - d.f AUD_STRM_POS.POS n) % max 1 x.size)

def Dev.streamStep (d : Dev) (n : Nat) : Dev :=
  let x := d.stream n
  (d.setF AUD_STRM_POS.POS n ((d.f AUD_STRM_POS.POS n + 8) % max 1 x.size)).setStream n { (d.stream n) with atLimit := false }

/-- Host data is asked for 64 bytes at a time, ahead of POS. -/
def Dev.streamAsk (d : Dev) (n : Nat) : Dev :=
  let x := d.stream n
  match Fn.ofCode (d.streamOwner n) with
  | some f =>
    if x.asked ≤ x.data.length ∧ x.data.length < 64 then
      (d.hostRead (.audio (Fin.ofNat 12 n)) none f (x.base + (d.f AUD_STRM_POS.POS n + x.data.length) % max 1 x.size) 64).setStream n
        { x with asked := x.data.length + 64 }
    else d
  | none => d

/-- The two samples of a playback stream at a boundary. -/
def State.playback (s : State) (n : Nat) : State × Int × Int :=
  let d := s.dev
  if !d.fb AUD_STRM_STAT.RUN n || d.vfHeld (d.streamOwner n) then (s, 0, 0)
  else if !d.streamRoom n then (s.onDev (·.streamLimit n), 0, 0)
  else
    let x := d.stream n
    let c := d.streamOwner n
    let val := fun (bs : List Byte) => (s32 bs 0 / 16, s32 bs 4 / 16)
    if x.host then
      (if 8 ≤ x.data.length then
        (s.onDev fun d => ((d.setStream n { x with data := x.data.drop 8, asked := x.asked - 8 }).streamStep n).streamAsk n, val x.data)
       else (s.onDev (·.streamAsk n), 0, 0))
    else match s.readMem ⟨c, d.secureCode c⟩ 13 (x.base + d.f AUD_STRM_POS.POS n) 8 with
      | (s1, .ok bs) => (s1.onDev (·.streamStep n), val bs)
      | (s1, _) => (s1.onDev (·.streamFault n), 0, 0)

/-- Host data of a playback stream arrives. -/
def Dev.streamData (d : Dev) (n : Nat) (bs : List Byte) : Dev :=
  let x := d.stream n
  if d.fb AUD_STRM_STAT.RUN n && x.host then d.setStream n { x with data := x.data ++ bs } else d

/-- A capture stream takes the samples of its two sinks. -/
def State.capture (s : State) (n : Nat) : State :=
  let d := s.dev
  if !d.fb AUD_STRM_STAT.RUN n || d.vfHeld (d.streamOwner n) then s
  else if !d.streamRoom n then s.onDev (·.streamLimit n)
  else
    let x := d.stream n
    let c := d.streamOwner n
    let j := 56 + 2 * (n - 8)
    let bs := toLe (ofSigned 32 (d.sink j).word) 4 ++ toLe (ofSigned 32 (d.sink (j + 1)).word) 4
    let a := x.base + d.f AUD_STRM_POS.POS n
    if x.host then
      match Fn.ofCode c with
      | some f => if d.canSend f then s.onDev fun d => (d.post f a bs).streamStep n else s.onDev (·.streamFault n)
      | none => s.onDev (·.streamFault n)
    else match s.writeMem ⟨c, d.secureCode c⟩ 13 a bs with
      | (s1, true) => s1.onDev (·.streamStep n)
      | (s1, false) => s1.onDev (·.streamFault n)

/-! Chimes (R465). -/

def Dev.chime (d : Dev) (n : Nat) : ChimeSt := d.aud.chimes.get n

def Dev.setChime (d : Dev) (n : Nat) (x : ChimeSt) : Dev := d.updAud fun a => { a with chimes := a.chimes.put n x }

def Dev.chimeEnd (d : Dev) (n : Nat) : Dev := if (d.chime n).on then (d.setChime n {}).raise 357 else d

/-- The sample of a chime player; after its last sample a clip repeats behind its gap, or the player ends. -/
def State.chimeSample (s : State) (n : Nat) : State × Int :=
  let x := s.dev.chime n
  let c := s.dev.srcOwner (88 + n)
  if !x.on then (s, 0)
  else if x.gap ≠ 0 then (s.onDev (·.setChime n { x with gap := x.gap - 1 }), 0)
  else match s.readMem ⟨c, s.dev.secureCode c⟩ 13 (x.clip + 2 * x.pos) 2 with
    | (s1, .ok bs) =>
      let v := s16 bs 0 * 4096
      if x.pos + 1 < x.len then (s1.onDev (·.setChime n { x with pos := x.pos + 1 }), v)
      else if x.rep ≠ 0 ∧ x.left ≤ 1 then (s1.onDev (·.chimeEnd n), v)
      else (s1.onDev (·.setChime n { x with pos := 0, left := x.left - 1, gap := x.gapMs * s1.dev.graphFs / 1000 }), v)
    | (s1, _) => (s1.onDev (·.chimeEnd n), 0)

/-- The samples of all 96 sources. -/
def State.sources (s : State) (ins : AudioIn) : State × List Int :=
  let ports := (List.range 72).map (s.dev.portSample ins)
  let pb := (List.range 8).foldl (fun (acc : State × List Int) n => let r := acc.1.playback n; (r.1, acc.2 ++ [r.2.1, r.2.2])) (s, ports)
  (List.range 8).foldl (fun (acc : State × List Int) n => let r := acc.1.chimeSample n; (r.1, acc.2 ++ [r.2])) pb

/-- The fade of a freeze moves on (R517, R519). -/
def holdStep (held : Bool) (len n : Nat) : Nat := if held then min len (n + 1) else n - 1

/-! Buses (R448 to R453). -/

/-- The sample that an input reads: a source, or the output of a bus. -/
def inSample (src : List Int) (d : Dev) (code : Nat) : Int := if code < 128 then src.getD code 0 else (d.bus (code - 128)).out

/-- One input's product in an entry. -/
def inProduct (src : List Int) (d : Dev) (e : List Byte) (k : Nat) : Int :=
  if e != [] && inEn e k then inSample src d (inCode e k) * inGain e k else 0

/-- One biquad band (R449). -/
def Dev.biquad (d : Dev) (e : List Byte) (band : Nat) (st : Int × Int × Int × Int) (x : Int) : Dev × Int × (Int × Int × Int × Int) :=
  let c := fun k => s32 e (136 + 20 * band + 4 * k)
  let a := d.acc64 (c 0 * x + c 1 * st.1 + c 2 * st.2.1 - c 3 * st.2.2.1 - c 4 * st.2.2.2)
  let y := sat32 (roundDiv a.1 (2 ^ 29))
  (a.2, y, (x, st.1, y, st.2.2.1))

/-- The ten bands in series. -/
def Dev.equalise (d : Dev) (e : List Byte) (t : Tbl (Int × Int × Int × Int)) (x : Int) : Dev × Int × Tbl (Int × Int × Int × Int) :=
  (List.range 10).foldl (fun (acc : Dev × Int × Tbl (Int × Int × Int × Int)) k =>
    let r := acc.1.biquad e k (acc.2.2.get k) acc.2.1
    (r.1, r.2.1, acc.2.2.put k r.2.2)) (d, x, t)

/-- The gain computer of R450, in units of 0.0001 dB: nothing up to the knee, the square of the way into it within it, and the slope of the ratio above;
RATIO 0 is a limiter. MAKEUP comes on top. -/
def dynGain (e : List Byte) (level : Int) : Int :=
  let t := 1000 * s16 e 336
  let k : Int := 1000 * (le e 340 2 : Nat)
  let past := level - t + k / 2
  let ratio := le e 338 2
  let num : Int := if ratio = 0 then -1 else 10 - (ratio : Int)
  let den := if ratio = 0 then 1 else ratio
  let g := if past ≤ 0 then 0
    else if past < k then roundDiv (num * past * past) (den * (2 * k).toNat)
    else roundDiv (num * (level - t)) den
  g + 1000 * (le e 342 2 : Nat)

/-- e^(-num/den) in units of 2^-60, by its series. -/
def expNeg (num den : Nat) : Nat :=
  ((List.range 40).foldl (fun (a : Nat × Int) k =>
    let t := a.1 * num / (max 1 den * (k + 1))
    (t, if k % 2 = 0 then a.2 - (t : Int) else a.2 + (t : Int))) (2 ^ 60, 2 ^ 60)).2.toNat

/-- The level of the detector after a sample: a step toward |x| of 1 - e^(-1/(τ fs)), with τ ATTACK_US while rising and RELEASE_MS while falling. -/
def dynLevel (e : List Byte) (fs level : Nat) (x : Int) : Nat :=
  let us := if level < x.natAbs then le e 344 2 else 1000 * le e 346 2
  let n : Int := (level : Int) * 2 ^ 60 + ((x.natAbs : Int) - level) * (2 ^ 60 - (expNeg 1000000 (us * fs) : Int))
  (n / 2 ^ 60).toNat + (if n % 2 ^ 60 = 0 then 0 else Config.dynRound level x.natAbs % 2)

/-- The next bits of a binary logarithm: `m` is the mantissa in units of 2^-40. -/
def logBits : Nat → Nat → Nat → Nat
  | 0, _, acc => acc
  | n + 1, m, acc =>
    let q := m * m / 2 ^ 40
    if 2 ^ 41 ≤ q then logBits n (q / 2) (2 * acc + 1) else logBits n q (2 * acc)

/-- The binary logarithm of a number above 0, in units of 2^-24. -/
def log2Fix (n : Nat) : Nat := Nat.log2 n * 2 ^ 24 + logBits 24 (n * 2 ^ 40 / 2 ^ Nat.log2 n) 0

/-- A ratio to 2^`one` in units of 0.0001 dB; 0 lies below every threshold. -/
def inDb (one n : Nat) : Int := if n = 0 then -1000000000 else ((log2Fix n : Int) - (one * 2 ^ 24 : Nat)) * 60206 / 2 ^ 24

/-- The greatest factor in units of 2^-28 that is no more than a gain in units of 0.0001 dB, from its highest bit down. -/
def gainBits (g : Int) : Nat → Nat → Nat
  | 0, f => f
  | n + 1, f => gainBits g n (if inDb 28 (f + 2 ^ n) ≤ g then f + 2 ^ n else f)

/-- A gain as a factor in units of 2^-28: 0 dB is 1.0. -/
def gainFactor (g : Int) : Nat :=
  let f := gainBits g 42 0
  if g = 0 then 2 ^ 28 else f + Config.gainLow g % (f / 2 ^ 16 + 1)

/-- The dynamics stage (R450): detector, level in dBFS with 0 dBFS at 0x0800_0000, gain computer and makeup. How the stage rounds is not stated: the detector's
last place and a 2^-16 part of the factor stand free in Config (log entry 103). -/
def Dev.dynamics (d : Dev) (e : List Byte) (level : Nat) (x : Int) : Int × Nat :=
  let l := dynLevel e d.graphFs level x
  (sat32 (roundDiv (x * (gainFactor (dynGain e (inDb 27 l)) : Nat)) (2 ^ 28)), l)

/-- The delayed sample of a line whose newest entry is the present one. -/
def delayed (line : List Int) (e : List Byte) : Int := if bit8 e 1 4 then line.getD (le e 352 2) 0 else line.getD 0 0

/-- Old and new entries are both in force: the routes of a ramp run in parallel (R461). -/
def BusSt.crossing (x : BusSt) : Bool := x.cur != [] && x.old != [] && decide (x.i < x.r)

/-- The entry whose EQ and dynamics run: the one in force, and in a ramp to the low-latency path the old one (R448, R461). -/
def BusSt.chainEntry (x : BusSt) : List Byte :=
  let act := if x.cur = [] then x.old else x.cur
  if bit8 act 1 1 && x.crossing then x.old else act

/-- One input's product at a sample, times the ramp's length: EN of the bus ramps by its GAIN alone. -/
def BusSt.inMix (x : BusSt) (src : List Int) (d : Dev) (k : Nat) : Int :=
  if x.crossing then rampMix x.r x.i (inProduct src d x.old k) (inProduct src d x.cur k)
  else inProduct src d (if x.cur = [] then x.old else x.cur) k * (rampDen x.r x.i : Nat)

/-- One bus computes its sample. -/
def Dev.busSample (d : Dev) (src : List Int) (b : Nat) : Dev :=
  let x := d.bus b
  let act := if x.cur = [] then x.old else x.cur
  if x.cur = [] ∧ x.r ≤ x.i then d.setBus b { x with out := 0 }
  else
    let fl := d.fadeLen
    let num := ((List.range 16).map fun k => x.inMix src d k * (fadeWeight (x.fade.get k) fl : Nat)).foldl (· + ·) 0
    let tot := d.acc64 (num / (rampDen x.r x.i * max 1 fl : Nat))
    let x0 := if tot.1 = num / (rampDen x.r x.i * max 1 fl : Nat) then sat32 (roundDiv num (rampDen x.r x.i * max 1 fl * 2 ^ 28)) else
      sat32 (roundDiv tot.1 (2 ^ 28))
    let ce := x.chainEntry
    let eq := if bit8 ce 1 2 && !bit8 ce 1 1 then tot.2.equalise ce x.eq x0 else (tot.2, x0, x.eq)
    let dy := if bit8 ce 1 3 && !bit8 ce 1 1 then d.dynamics ce x.level eq.2.1 else (eq.2.1, x.level)
    let line := (dy.1 :: x.delay).take 9601
    let chain := fun (e : List Byte) => if bit8 e 1 1 then x0 else delayed line e
    let x3 := if x.crossing then sat32 (roundDiv (rampMix x.r x.i (chain x.old) (chain x.cur)) (rampDen x.r x.i)) else chain act
    let gain := fun (e : List Byte) => if e = [] then 0 else s32 e 4
    let y := if bit8 act 1 5 then 0 else
      sat32 (roundDiv (x3 * rampMix x.r x.i (gain x.old) (gain x.cur) * (fadeWeight x.dying fl * fadeWeight x.hold fl : Nat))
        (rampDen x.r x.i * max 1 fl * max 1 fl * 2 ^ 28))
    eq.1.setBus b { x with eq := eq.2.2, level := dy.2, delay := line, out := y, hold := holdStep (d.vfHeld (d.busOwner b)) fl x.hold }

/-! Sinks (R447, R454). -/

/-- MAIN or ALERT of a sink entry reads a bus. -/
def snkBus (d : Dev) (e : List Byte) (k : Nat) : Int :=
  let c := le e (2 + k) 1
  if e = [] ∨ c = 0xFF then 0 else (d.bus (c - 128)).out

/-- The DUCK ramp moves one step (R454): in while the ALERT bus is not SILENT, and out again. A ramp in progress keeps its length; the next takes RAMP_US of the
Hamper in force. -/
def Dev.duckStep (d : Dev) (x : SinkSt) : Nat × Nat :=
  let a := le x.cur 3 1
  let at_ := if x.duck = 0 then (0, x.r) else if x.duckLen ≤ x.duck then (x.r, x.r) else (x.duck, x.duckLen)
  (if x.cur != [] && bit8 x.cur 1 1 && a != 0xFF && !d.fb AUD_BUS_STAT.SILENT (a - 128) then min at_.2 (at_.1 + 1) else at_.1 - 1, at_.2)

/-- The word that leaves a sink, and whether it saturated (R447, R463). -/
def Dev.snkWord (d : Dev) (j : Nat) (s : Int) : Int × Bool :=
  let v := clampI (-0x08000000) 0x08000000 s
  if j < 40 then
    let w := wordBits (d.reg .AUD_TDM_CFG (d.f AUD_SNK_CFG.PORT j % 8))
    let p := if w ≤ 28 then roundDiv v (2 ^ (28 - w)) else v * (2 ^ (w - 28) : Nat)
    let q := clampI (-(2 ^ (w - 1) : Nat)) ((2 ^ (w - 1) : Nat) - 1) p
    (q, v != s || q != p)
  else if j < 56 then (v, v != s)
  else (sat32 (v * 16), v != s || sat32 (v * 16) != v * 16)

/-- What a sink takes from MAIN (0) or ALERT (1), times the square of the ramp's length, 2^56 and the length of the DUCK ramp: a route that changes crossfades, and
the gains of one that stays ramp each (R454, R461). -/
def Dev.snkRoute (d : Dev) (x : SinkSt) (dk : Nat × Nat) (k : Nat) : Int :=
  let den := rampDen x.r x.i
  let duck := fun (e : List Byte) => if k = 0 then (2 ^ 28 * (dk.2 - dk.1) : Nat) + s32 e 8 * (dk.1 : Int) else (2 ^ 28 * dk.2 : Nat)
  let whole := fun (e : List Byte) => snkBus d e k * s32 e 4 * duck e
  if x.cur ≠ [] ∧ x.old ≠ [] ∧ le x.cur (2 + k) 1 = le x.old (2 + k) 1 then
    snkBus d x.cur k * rampMix x.r x.i (s32 x.old 4) (s32 x.cur 4) * rampMix x.r x.i (duck x.old) (duck x.cur)
  else rampMix x.r x.i (whole x.old) (whole x.cur) * den

/-- One sink takes its sample. -/
def Dev.snkSample (d : Dev) (j : Nat) : Dev :=
  let x := d.sink j
  if x.cur = [] ∧ x.r ≤ x.i then d.setSink j { x with out := 0, word := 0, past := (0 :: x.past).take 145 }
  else
    let fl := max 1 d.fadeLen
    let den := rampDen x.r x.i
    let dk := d.duckStep x
    let dl := (dk.1, max 1 dk.2)
    let sum := d.snkRoute x dl 0 * (fadeWeight (x.fade.get 0) fl : Nat) + d.snkRoute x dl 1 * (fadeWeight (x.fade.get 1) fl : Nat)
    let y := sat32 (roundDiv (sum * (fadeWeight x.dying fl * fadeWeight x.hold fl : Nat)) (den * den * fl * fl * fl * dl.2 * 2 ^ 56))
    let w := d.snkWord j y
    let d1 := (d.setSink j { x with
      out := y, word := w.1, past := (w.1 :: x.past).take 145, duck := dk.1, duckLen := dk.2
      hold := holdStep (d.vfHeld (d.snkOwner j)) fl x.hold }).setF AUD_SNK_STAT.DUCKED j (b2n (dk.1 != 0))
    if w.2 then (d1.setF AUD_SNK_STAT.CLIP j 1).raise 354 else d1

/-- A word through the rate converter of a port of `hz` (R438). -/
def Dev.converted (d : Dev) (hz bits : Nat) (x : SinkSt) : Int :=
  clampI (-(2 ^ (bits - 1) : Nat)) ((2 ^ (bits - 1) : Nat) - 1) (Config.convertRate hz d.graphFs x.past)

/-- What TDM port `p` sends in a transmit slot: the word of the sink that the slot is mapped to, through the port's rate converter unless the port is synchronous,
and zero without a sink or while powered down (R438, R439, R468). -/
def Dev.tdmOut (d : Dev) (p slot : Nat) : Int :=
  if !d.fb AUD_TDM_CFG.ENABLE p || d.fb AUD_TDM_STAT.PD p then 0
  else match (List.range 40).find? fun j => d.fb AUD_SNK_STAT.ENABLED j && d.f AUD_SNK_CFG.PORT j == p && d.f AUD_SNK_CFG.SLOT j == slot with
    | some j =>
      if d.fb AUD_TDM_STAT.SYNC p then (d.sink j).word
      else d.converted (fsHz (d.f AUD_TDM_CFG.FS p)) (wordBits (d.reg .AUD_TDM_CFG p)) (d.sink j)
    | none => 0

/-- BCLK and FSYNC of a master port run; those of one that is powered down stand low (R468). -/
def Dev.tdmClocks (d : Dev) (p : Nat) : Bool := d.fb AUD_TDM_CFG.ENABLE p && d.fb AUD_TDM_CFG.MASTER p && !d.fb AUD_TDM_STAT.PD p

/-- What DisplayPort audio stream `i` carries on a channel: none while it is off, has fewer channels, or the samples are discarded because the stream's
generator does not run or its port is not up; zero without a sink (R441). A stream at another rate than the graph's passes its rate converter (R438). -/
def Dev.dpaOut (d : Dev) (i ch : Nat) : Option Int :=
  let runs := (List.range 12).any fun n =>
    d.f DSP_TG_ROUTE.PORT n == i / 4 && d.f DSP_TG_ROUTE.STREAM n == i % 4 && d.f DSP_TG_STAT.STATE n == 2
  let up := d.fb DSP_PORT_STAT.LINK_UP (i / 4) && runs
  if !d.fb AUD_DPA_CFG.EN i || decide ((if d.fb AUD_DPA_CFG.CH8 i then 8 else 2) ≤ ch) || !up then none
  else match (List.range 16).find? fun k => d.fb AUD_SNK_STAT.ENABLED (40 + k) && d.f AUD_SNK_CFG.PORT (40 + k) == i && d.f AUD_SNK_CFG.SLOT (40 + k) == ch with
    | some k =>
      let hz := fsHz (d.f AUD_DPA_CFG.FS i)
      some (if hz = d.graphFs then (d.sink (40 + k)).word else d.converted hz 32 (d.sink (40 + k)))
    | none => some 0

/-! After the samples: silence, ramps and fades. -/

/-- SILENT of a bus or sink after a sample (R467): the new count of quiet samples, and the new bit. -/
def silence (fs : Nat) (thr : Int) (ms quiet : Nat) (out : Int) : Nat × Bool :=
  if ms = 0 ∨ !belowDb out thr then (0, false)
  else
    let n := min (ms * fs) (quiet + 1)
    (n, decide (ms * fs ≤ 1000 * n))

def Dev.busSilence (d : Dev) (b : Nat) : Dev :=
  let x := d.bus b
  let r := if x.cur = [] then (0, false) else silence d.graphFs (s16 x.cur 356) (le x.cur 358 2) x.quiet x.out
  ((d.setBus b { x with quiet := r.1 }).setF AUD_BUS_STAT.SILENT b (b2n r.2)).raiseIf (bit8 x.cur 1 7 && r.2 != d.fb AUD_BUS_STAT.SILENT b) 356

def Dev.snkSilence (d : Dev) (j : Nat) : Dev :=
  let x := d.sink j
  let r := if x.cur = [] ∨ le x.cur 3 1 ≠ 0xFF then (0, false) else silence d.graphFs (s16 x.cur 12) (le x.cur 14 2) x.quiet x.out
  ((d.setSink j { x with quiet := r.1 }).setF AUD_SNK_STAT.SILENT j (b2n r.2)).raiseIf (bit8 x.cur 1 7 && r.2 != d.fb AUD_SNK_STAT.SILENT j) 356

/-- Fades move on. -/
def fadeOn (len : Nat) (t : Tbl Nat) : Tbl Nat := t.map fun p => (p.1, min len (p.2 + 1))

def Dev.busAdvance (d : Dev) (b : Nat) : Dev :=
  let x := d.bus b
  let fl := d.fadeLen
  let x1 := { x with i := min x.r (x.i + 1), fade := fadeOn fl x.fade, dying := if x.dying = 0 then 0 else x.dying + 1 }
  let x2 := if fl ≤ x.dying ∧ x.dying ≠ 0 then (if x.next = [] then {} else { cur := x.next, r := x.r } : BusSt) else if x1.r ≤ x1.i ∧ x1.cur = [] then ({} : BusSt) else x1
  (((d.setBus b x2).setF AUD_BUS_STAT.ENABLED b (b2n (x2.cur != [] || decide (x2.i < x2.r)))).setF AUD_BUS_STAT.RAMP b (b2n (decide (x2.i < x2.r))))

def Dev.snkAdvance (d : Dev) (j : Nat) : Dev :=
  let x := d.sink j
  let fl := d.fadeLen
  let x1 := { x with i := min x.r (x.i + 1), fade := fadeOn fl x.fade, dying := if x.dying = 0 then 0 else x.dying + 1 }
  let x2 := if fl ≤ x.dying ∧ x.dying ≠ 0 then (if x.next = [] then { past := x.past } else { cur := x.next, r := x.r, past := x.past } : SinkSt) else if x1.r ≤ x1.i ∧ x1.cur = [] then ({ past := x.past } : SinkSt) else x1
  (d.setSink j x2).setF AUD_SNK_STAT.ENABLED j (b2n (x2.cur != [] || decide (x2.i < x2.r)))

/-! Amplifiers and power-down (R468, R469). -/

/-- A sink in the mask of an amplifier is not SILENT; a disabled one is not SILENT (R467; DEDUCED, log entry 148). -/
def Dev.ampWanted (d : Dev) (k : Nat) : Bool :=
  (List.range 64).any fun j => bit (d.reg64 .AUD_AMP_MASK_LO .AUD_AMP_MASK_HI k) j && !d.fb AUD_SNK_STAT.SILENT j

def Dev.ampStep (d : Dev) (k : Nat) : Dev :=
  let x := d.aud.amps.get k
  let put := fun (y : AmpSt) => d.updAud fun a => { a with amps := a.amps.put k y }
  if d.ampWanted k then put { active := true, offAt := none }
  else if x.active ∧ x.offAt = none then put { x with offAt := some (d.now + d.f AUD_AMP_CFG.OFF_MS k * 1000000) }
  else d

/-- The GPIO that an amplifier enable drives, with its level (R469). -/
def Dev.ampPin (d : Dev) (k : Nat) : Option (Nat × Bool) :=
  if d.fb AUD_AMP_CFG.EN k && decide (d.f AUD_AMP_CFG.PIN k < 48) then
    some (d.f AUD_AMP_CFG.PIN k, (d.aud.amps.get k).active != d.fb AUD_AMP_CFG.POL k)
  else none

def execAmpOffTimer (k : Fin 8) (s : State) : Host.Outcome State Fault Refusal :=
  .next (s.onDev fun d =>
    match (d.aud.amps.get k.val).offAt with
    | some t => if t ≤ d.now then d.updAud fun a => { a with amps := a.amps.put k.val {} } else d
    | none => d)

/-- An enabled bus input names a receive source of port `p`. -/
def Dev.portRead (d : Dev) (p : Nat) : Bool :=
  (List.range 24).any fun b =>
    let e := (d.bus b).cur
    e != [] && (List.range 16).any fun k => inEn e k && decide (inCode e k < 64) && d.f AUD_SRC_CFG.PORT (inCode e k) == p

/-- AUTO_PD: the port powers down or restarts. -/
def Dev.portPd (d : Dev) (p : Nat) : Dev :=
  let idle := (List.range 40).all fun j => d.f AUD_SNK_CFG.PORT j != p || d.fb AUD_SNK_STAT.SILENT j || !d.fb AUD_SNK_STAT.ENABLED j
  d.setF AUD_TDM_STAT.PD p (b2n (d.fb AUD_TDM_CFG.ENABLE p && d.fb AUD_TDM_CFG.AUTO_PD p && idle && !d.portRead p))

/-! Hampers (R456 to R462). -/

def hNbus (h : List Byte) : Nat := le h 6 1
def hNsink (h : List Byte) : Nat := le h 7 1
def hBus (h : List Byte) (k : Nat) : List Byte := (h.drop (64 + 384 * k)).take 384
def hSink (h : List Byte) (k : Nat) : List Byte := (h.drop (64 + 384 * hNbus h + 32 * k)).take 32

def hBuses (h : List Byte) : List (List Byte) := (List.range (hNbus h)).map (hBus h)
def hSinks (h : List Byte) : List (List Byte) := (List.range (hNsink h)).map (hSink h)

/-- Check 2 of R459: the first bus or sink not owned, or named twice. -/
def Dev.hamperOwner (d : Dev) (code : Nat) (h : List Byte) : Option Nat :=
  let bs := (hBuses h).map fun e => le e 0 1
  let js := (hSinks h).map fun e => le e 0 1
  match bs.zipIdx.find? fun b => (decide (b.1 < 24) && d.busOwner b.1 != code) || (bs.take b.2).contains b.1 with
  | some b => some b.1
  | none => (js.zipIdx.find? fun j => (decide (j.1 < 64) && d.snkOwner j.1 != code) || (js.take j.2).contains j.1).map (·.1)

/-- The fields of a bus entry (R457, R453). -/
def busEntryOk (fs : Nat) (e : List Byte) : Bool :=
  let within := fun (v lo hi : Int) => decide (lo ≤ v ∧ v ≤ hi)
  decide (le e 0 1 < 24) && le e 2 2 == 0 && le e 348 4 == 0 && le e 354 2 == 0 && le e 360 24 == 0 &&
    ((List.range 16).all fun k =>
      let c := inCode e k
      (decide (c < 96) || decide (128 ≤ c ∧ c < 152)) && decide (le e (8 + 8 * k + 1) 1 < 2) && le e (8 + 8 * k + 2) 2 == 0 &&
        !(bit8 e 1 1 && inEn e k && decide (128 ≤ c))) &&
    within (s16 e 336) (-600) 0 && (le e 338 2 == 0 || within (le e 338 2) 10 200) && within (le e 340 2) 0 240 && within (le e 342 2) 0 240 &&
    within (le e 344 2) 10 50000 && within (le e 346 2) 1 5000 && within (le e 352 2) 0 (fs / 10 : Nat) && within (s16 e 356) (-1200) 0 &&
    within (le e 358 2) 0 60000

/-- A bus is LL once the Hamper has swapped (R454). -/
def Dev.llAfter (d : Dev) (code : Nat) (h : List Byte) (b : Nat) : Bool :=
  match (hBuses h).find? fun e => le e 0 1 == b with
  | some e => bit8 e 1 1
  | none => d.busOwner b != code && bit8 (d.bus b).cur 1 1

/-- The fields of a sink entry by themselves (R458). -/
def sinkFieldsOk (e : List Byte) : Bool :=
  let ok := fun c => c == 0xFF || decide (128 ≤ c ∧ c < 152)
  decide (le e 0 1 < 64) && le e 1 1 / 4 % 32 == 0 && ok (le e 2 1) && ok (le e 3 1) && decide (-1200 ≤ s16 e 12 ∧ s16 e 12 ≤ 0) &&
    decide (le e 14 2 ≤ 60000) && le e 16 16 == 0

/-- The fields of a sink entry (R458), whose ALERT names an LL bus (R454). -/
def Dev.sinkEntryOk (d : Dev) (code : Nat) (h e : List Byte) : Bool := sinkFieldsOk e && (le e 3 1 == 0xFF || d.llAfter code h (le e 3 1 - 128))

/-- Check 3 of R459: the number at fault, 0xFFFF for the header. -/
def Dev.hamperFields (d : Dev) (code : Nat) (h : List Byte) : Option Nat :=
  if le h 0 4 ≠ 0x41484D50 ∨ le h 4 2 ≠ 1 ∨ 24 < hNbus h ∨ 64 < hNsink h ∨ le h 8 2 < 500 ∨ 20000 < le h 8 2 ∨ le h 10 54 ≠ 0 then some 0xFFFF
  else match (hBuses h).find? fun e => !busEntryOk d.graphFs e with
    | some e => some (le e 0 1)
    | none => ((hSinks h).find? fun e => !d.sinkEntryOk code h e).map fun e => le e 0 1

/-- Check 4 of R459. A bus of another owner is judged by its PUBLIC in force. -/
def Dev.hamperRights (d : Dev) (code : Nat) (h : List Byte) : Option Nat :=
  match (hBuses h).find? fun e => (List.range 16).any fun k => inEn e k && !d.mayName code (le e 0 1) (inCode e k) with
  | some e => some (le e 0 1)
  | none => ((hSinks h).find? fun e => ([2, 3] : List Nat).any fun k => le e k 1 != 0xFF && !d.mayName code 24 (le e k 1)).map fun e => le e 0 1

/-- HAMPER: read and validated (R459), it waits for its boundary. -/
def State.hamper (s : State) (f : Fn) (ref : CmdRef) (c : Cmd) : State :=
  let a := c.u 40 8
  let r : Req := ⟨f.code, c.secure⟩
  let fin := fun (s : State) (st res : Nat) => s.onDev (·.endCmd ref st res)
  match firstError [(!c.conts.isEmpty, ST_BAD_FIELD, errAt 32), (!c.zero 32 39, ST_BAD_FIELD, errByte 32), (!c.zero 48 63, ST_BAD_FIELD, errByte 48),
      (a % 64 != 0, ST_BAD_FIELD, errByte 40), (!s.dev.inDevice a (a + 63), ST_BAD_GEOMETRY, errByte 40)] with
  | some (st, res) => fin s st res
  | none =>
    match s.readMem r 13 a 64 with
    | (s1, .ok hd) =>
      let n := 64 + 384 * hNbus hd + 32 * hNsink hd
      if !s1.dev.inDevice a (a + n - 1) then fin s1 ST_BAD_GEOMETRY (errByte 40)
      else match s1.readMem r 13 a n with
        | (s2, .ok h) =>
          match s2.dev.hamperOwner f.code h, s2.dev.hamperFields f.code h, s2.dev.hamperRights f.code h with
          | some i, _, _ => fin s2 ST_NOT_OWNER (errAt 0xFFFF i)
          | none, some i, _ => fin s2 ST_BAD_FIELD (errAt 0xFFFF i)
          | none, none, some i => fin s2 ST_NOT_PERMITTED (errAt 0xFFFF i)
          | none, none, none => s2.onDev (·.updAud fun x => { x with hampers := x.hampers ++ [⟨ref, f.code, h, c.ext⟩] })
        | (s2, e) => fin s2 e.status 0
    | (s1, e) => fin s1 e.status 0

def runHamper (f : Fn) : Run := fun ref c s => s.hamper f ref c

def execHamper (f : Fn) (q : Fin 8) (s : State) : Host.Outcome State Fault Refusal := .next (s.startNext f q (· == 0x70) (runHamper f))

/-- What ramps between two entries of a bus (R461): EN, LL, DELAY_EN, DELAY, GAIN, and CODE, EN and gain of an input. -/
def busRamps (o n : List Byte) : Bool :=
  (o == []) != (n == []) || bit8 o 1 1 != bit8 n 1 1 || bit8 o 1 4 != bit8 n 1 4 || le o 352 2 != le n 352 2 || le o 4 4 != le n 4 4 ||
    (List.range 16).any fun k => inEn o k != inEn n k || inCode o k != inCode n k || inGain o k != inGain n k

/-- What ramps between two entries of a sink: EN, MAIN, ALERT, GAIN and DUCK (R461). -/
def sinkRamps (o n : List Byte) : Bool :=
  (o == []) != (n == []) || le o 2 1 != le n 2 1 || le o 3 1 != le n 3 1 || le o 4 4 != le n 4 4 || le o 8 4 != le n 8 4

/-- A new entry of a bus takes effect with its ramp, where something ramps (R449, R461); it ends the holds of R445. In a fade to disable it waits for the fade's
end (DEDUCED, log entry 148). -/
def Dev.swapBus (d : Dev) (b r : Nat) (e : List Byte) : Dev :=
  let x := d.bus b
  let new := if bit8 e 1 0 then e else []
  if x.dying ≠ 0 then d.setBus b { x with next := new, r := r, i := r }
  else if x.cur = [] ∧ new = [] then d
  else
    let eq := if bit8 new 1 2 && !bit8 x.cur 1 2 then [] else x.eq
    (d.setBus b { x with cur := new, old := x.cur, r := r, i := if busRamps x.cur new then 0 else r, fade := [], eq := eq }).setF AUD_BUS_STAT.ENABLED b 1

def Dev.swapSink (d : Dev) (j r : Nat) (e : List Byte) : Dev :=
  let x := d.sink j
  let new := if bit8 e 1 0 then e else []
  if x.dying ≠ 0 then d.setSink j { x with next := new, r := r, i := r }
  else if x.cur = [] ∧ new = [] then d
  else (d.setSink j { x with cur := new, old := x.cur, r := r, i := if sinkRamps x.cur new then 0 else r, fade := [] }).setF AUD_SNK_STAT.ENABLED j 1

/-- A ramp of an owner's buses or sinks runs (R462). -/
def Dev.ownerRamps (d : Dev) (code : Nat) : Bool :=
  ((List.range 24).any fun b => d.busOwner b == code && decide ((d.bus b).i < (d.bus b).r)) ||
    (List.range 64).any fun j => d.snkOwner j == code && decide ((d.sink j).i < (d.sink j).r)

/-- The swap of a Hamper (R460): the submitter's other buses and sinks are disabled. Of its new entries, inputs that have
lost their right since validation are held at zero; other owners' inputs that lose theirs by it fade (R445; DEDUCED, log entry 148). -/
def Dev.swapHamper (d : Dev) (h : Hamper) : Dev :=
  let r := le h.image 8 2 * d.graphFs / 1000000
  let d1 := (List.range 24).foldl (fun (d : Dev) b => if d.busOwner b = h.code then
    d.swapBus b r (((hBuses h.image).find? fun e => le e 0 1 == b).getD []) else d) d
  let d2 := (List.range 64).foldl (fun (d : Dev) j => if d.snkOwner j = h.code then
    d.swapSink j r (((hSinks h.image).find? fun e => le e 0 1 == j).getD []) else d) d1
  (d2.audRightsOf h.code d2.fadeLen).endCmd h.ref ST_OK ((d2.reg .AUD_SAMPLE_LO 0).toNat)

/-- Hampers that are due swap: the first of each owner, none while a ramp of its owner runs. -/
def Dev.swapDue (d : Dev) : Dev :=
  d.aud.hampers.foldl (fun (d : Dev) h =>
    let first := (d.aud.hampers.find? fun x => x.code == h.code) == some h
    if first && decide (h.at_ ≤ d.now) && !d.ownerRamps h.code then
      (d.swapHamper h).updAud fun a => { a with hampers := a.hampers.filter fun x => x.ref != h.ref }
    else d) d

/-! The other commands (R463, R465). -/

/-- What waits for a sample boundary acts. -/
def Dev.audWork (d : Dev) : AudWork → Dev
  | .stream ref n run base size host =>
    let d1 := if run then (((d.streamOff n).setStream n { base := base, size := size, host := host }).setF AUD_STRM_POS.POS n 0).setF
          AUD_STRM_STAT.RUN n 1
      else d.streamOff n
    d1.endCmd ref ST_OK 0
  | .play ref n clip len rep gap =>
    (d.setChime n { on := true, clip := clip, len := len, rep := rep, gapMs := gap, pos := 0, left := rep, gap := 0 }).endCmd ref ST_OK 0
  | .stop ref n => (d.chimeEnd n).endCmd ref ST_OK 0
  | .halt n => d.streamOff n

def Dev.audWorks (d : Dev) : Dev := d.aud.work.foldl Dev.audWork (d.updAud fun a => { a with work := [] })

def Dev.audLater (d : Dev) (w : AudWork) : Dev := d.updAud fun a => { a with work := a.work ++ [w] }

/-- The stream runs, or is to start. -/
def Dev.streamOn (d : Dev) (n : Nat) : Bool :=
  d.aud.work.foldl (fun on w => match w with | .stream _ m run _ _ _ => if m = n then run else on | _ => on) (d.fb AUD_STRM_STAT.RUN n)

def runAudStream (f : Fn) : Run := fun ref c s => s.onDev fun d =>
  let n := c.u 32 1 % 16
  let run := c.u 33 1 % 2 == 1
  let size := c.u 48 4
  match firstError [(decide (12 ≤ n) || c.u 32 1 / 16 != 0, ST_BAD_FIELD, errByte 32), (!d.ownsStream f.code n, ST_NOT_OWNER, errByte 32),
      (c.ext != 0, ST_BAD_FIELD, errOutside), (!c.conts.isEmpty, ST_BAD_FIELD, errAt 32),
      (decide (4 ≤ c.u 33 1) || (f == .sp0 && bit (c.u 33 1) 1), ST_BAD_FIELD, errByte 33), (!c.zero 34 39, ST_BAD_FIELD, errByte 34),
      (run && c.u 40 8 % 64 != 0, ST_BAD_FIELD, errByte 40), (run && (decide (size < 4096 ∨ 4194304 < size) || size % 64 != 0), ST_BAD_FIELD, errByte 48),
      (!c.zero 52 63, ST_BAD_FIELD, errByte 52), (run && d.streamOn n, ST_BUSY, errByte 32)] with
  | some (st, res) => d.endCmd ref st res
  | none => d.audLater (.stream ref n run (c.u 40 8) size (bit (c.u 33 1) 1))

def execAudStreamSet (f : Fn) (q : Fin 8) (s : State) : Host.Outcome State Fault Refusal := .next (s.startNext f q (· == 0x71) (runAudStream f))

def runChimePlay (f : Fn) : Run := fun ref c s => s.onDev fun d =>
  let n := c.u 32 1 % 8
  let len := c.u 48 4
  match firstError [(c.u 32 1 / 8 != 0, ST_BAD_FIELD, errByte 32), (d.srcOwner (88 + n) != f.code, ST_NOT_OWNER, errByte 32),
      (c.ext != 0, ST_BAD_FIELD, errOutside), (!c.conts.isEmpty, ST_BAD_FIELD, errAt 32), (!c.zero 34 39, ST_BAD_FIELD, errByte 34),
      (decide (len < 1 ∨ 1048576 < len), ST_BAD_FIELD, errByte 48), (!c.zero 54 63, ST_BAD_FIELD, errByte 54),
      (!inBanks (c.u 40 8) (c.u 40 8 + 2 * len - 1), ST_BAD_GEOMETRY, errByte 40)] with
  | some (st, res) => d.endCmd ref st res
  | none => d.audLater (.play ref n (c.u 40 8) len (c.u 33 1) (c.u 52 2))

def execChimePlay (f : Fn) (q : Fin 8) (s : State) : Host.Outcome State Fault Refusal := .next (s.startNext f q (· == 0x72) (runChimePlay f))

def runChimeStop (f : Fn) : Run := fun ref c s => s.onDev fun d =>
  let n := c.u 32 1 % 8
  match firstError [(c.u 32 1 / 8 != 0, ST_BAD_FIELD, errByte 32), (d.srcOwner (88 + n) != f.code, ST_NOT_OWNER, errByte 32),
      (c.ext != 0, ST_BAD_FIELD, errOutside), (!c.conts.isEmpty, ST_BAD_FIELD, errAt 32), (!c.zero 33 63, ST_BAD_FIELD, errByte 33)] with
  | some (st, res) => d.endCmd ref st res
  | none => d.audLater (.stop ref n)

def execChimeStop (f : Fn) (q : Fin 8) (s : State) : Host.Outcome State Fault Refusal := .next (s.startNext f q (· == 0x73) (runChimeStop f))

/-! The sample boundary (R436). -/

/-- SAMPLE_SEQ and AUD_SAMPLE_LTIME of this boundary. -/
def Dev.sampleStamp (d : Dev) : Dev :=
  ((d.setReg64 .AUD_SAMPLE_LO .AUD_SAMPLE_HI 0 d.aud.n).setReg64 .AUD_SAMPLE_LTIME_LO .AUD_SAMPLE_LTIME_HI 0 d.now).updAud fun a => { a with n := a.n + 1 }

/-- What follows the samples of a boundary. A bus that ends its fade loses its entry and with it PUBLIC (R444; DEDUCED, log entry 148). -/
def Dev.sampleAfter (d : Dev) : Dev :=
  let d1 := (List.range 64).foldl Dev.snkSilence ((List.range 24).foldl Dev.busSilence d)
  let d2 := (List.range 64).foldl Dev.snkAdvance ((List.range 24).foldl Dev.busAdvance d1)
  (((List.range 8).foldl Dev.portPd ((List.range 8).foldl Dev.ampStep d2.audRights))).tdmStats

/-- A sample boundary; none comes before the regulator has reported the rise that RUN waits for (R27, R436). -/
def execSampleBoundary (ins : AudioIn) (s : State) : Host.Outcome State Fault Refusal :=
  .next (if !s.dev.fb AUD_GLB_CTRL.RUN 0 || s.dev.pace.enableWaits then s
  else s.jointly fun s =>
    let src := (s.onDev fun d => (d.sampleStamp.audWorks).swapDue).sources ins
    let s1 := src.1.onDev fun d => (List.range 64).foldl Dev.snkSample ((List.range 24).foldl (fun d b => d.busSample src.2 b) d)
    (([8, 9, 10, 11] : List Nat).foldl State.capture s1).onDev Dev.sampleAfter)

/-! Register writes. -/

/-- A write of AUD_GLB_CTRL (R436, R437): RUN starts the graph with SAMPLE_SEQ at 0; a write while RUN is 0 returns the graph to its port's clock. -/
def audCtrlWrite (who : Fn) (val : Word) (d : Dev) : Dev :=
  let was := d.fb AUD_GLB_CTRL.RUN 0
  let d1 := (if was then d else d.updAud fun a => { a with fallback := false }).write who .AUD_GLB_CTRL 0 val
  (if !was && d1.fb AUD_GLB_CTRL.RUN 0 then ((d1.updAud fun a => { a with n := 0 }).setReg64 .AUD_SAMPLE_LO .AUD_SAMPLE_HI 0 0).floorEnable else d1).tdmStats

/-- A write of AUD_TDM_CFG: one whose ENABLE 1 breaks a limit is ignored as a whole (R439, R644). The port powers down or restarts at once (R468). -/
def tdmCfgWrite (who : Fn) (p : Nat) (val : Word) (d : Dev) : Dev :=
  let cfg := if d.fb AUD_TDM_CFG.ENABLE p then d.reg .AUD_TDM_CFG p else val
  if bit val.toNat 0 && !tdmOk cfg then d.werr who .AUD_TDM_CFG p else ((d.write who .AUD_TDM_CFG p val).portPd p).tdmStats

/-- An owner field may change under R341. -/
def Dev.ownerOk (d : Dev) (who : Fn) (old new : Nat) : Bool := old == new || (d.mayGive who old && d.mayGive who new)

/-- Another sink of the same kind already has the place that a write gives sink `j` (R442). -/
def Dev.placeTaken (d : Dev) (j : Nat) (val : Word) : Bool :=
  let kind := fun (k : Nat) => if k < 40 then 0 else if k < 56 then 1 else 2
  let place := fun (v : Word) => v.toNat / 256 % 256
  place val != place (d.reg .AUD_SNK_CFG j) && decide (j < 56) &&
    (List.range 56).any fun k => k != j && kind k == kind j && place (d.reg .AUD_SNK_CFG k) == place val

/-- A write of a source's, bus's or sink's owner register: an OWNER that R341 does not allow is refused, and the other fields take effect (R443, R445,
R644); only sources 0 to 63 have a port and a slot (R471). -/
def audSrcWrite (who : Fn) (i : Nat) (w : Word) (d : Dev) : Dev :=
  let val := if i < 64 then w else w &&& 0xFF
  (d.writeX who .AUD_SRC_CFG i val fun fd => fd.lo == 0 && !d.ownerOk who (d.srcOwner i) (AUD_SRC_CFG.OWNER.get val)).audRights

def audBusWrite (who : Fn) (b : Nat) (val : Word) (d : Dev) : Dev :=
  let old := d.busOwner b
  if !d.ownerOk who old (AUD_BUS_ASSIGN.OWNER.get val) then d.werr who .AUD_BUS_ASSIGN b
  else
    let d1 := d.write who .AUD_BUS_ASSIGN b val
    if d1.busOwner b = old then d1 else (d1.busDie b).audRights

/-- A write that would give a slot or channel a second sink is ignored whole (R442). -/
def audSnkWrite (who : Fn) (j : Nat) (val : Word) (d : Dev) : Dev :=
  let old := d.snkOwner j
  if d.placeTaken j val then d.werr who .AUD_SNK_CFG j
  else
    let d1 := d.writeX who .AUD_SNK_CFG j val fun fd => fd.lo == 0 && !d.ownerOk who old (AUD_SNK_CFG.OWNER.get val)
    if d1.snkOwner j = old then d1 else (d1.snkDie j).audRights

def audOwnerWrite (who : Fn) (val : Word) (d : Dev) : AudKind → Dev
  | .source i => audSrcWrite who i.val val d
  | .bus b => audBusWrite who b.val val d
  | .sink j => audSnkWrite who j.val val d

def execAudioOwnerWrite (who : Fn) (k : AudKind) (val : Word) (s : State) : Host.Outcome State Fault Refusal :=
  .next (if assigner who then s.onDev fun d => audOwnerWrite who val d k else s)

/-- The world of a GPIO pin (R103). -/
def Dev.gpioSecure (d : Dev) (pin : Nat) : Bool :=
  if pin < 32 then bit (d.reg .OWN_PIN_WORLD 0).toNat pin else decide (pin < 48) && bit (d.reg .OWN_PIN_WORLD 1).toNat (pin - 32)

/-- A Normal-world write that names a Secure pin is ignored (R469). -/
def ampCfgWrite (who : Fn) (k : Nat) (val : Word) (d : Dev) : Dev :=
  if !d.secure who && (d.gpioSecure (AUD_AMP_CFG.PIN.get val) || d.gpioSecure (d.f AUD_AMP_CFG.PIN k)) then d.werr who .AUD_AMP_CFG k
  else d.write who .AUD_AMP_CFG k val

/-! Function-level reset (R446). -/

/-- The owner's buses and sinks fade and are disabled, its streams stop at the next boundary, at once where the graph does not run, and its chime
players stop. -/
def Dev.audReset (d : Dev) (code : Nat) : Dev :=
  let d1 := (List.range 24).foldl (fun (d : Dev) b => if d.busOwner b = code then d.busDie b else d) d
  let d2 := (List.range 64).foldl (fun (d : Dev) j => if d.snkOwner j = code then d.snkDie j else d) d1
  let d3 := (List.range 12).foldl (fun (d : Dev) n =>
    if d.streamOwner n ≠ code then d
    else if d.fb AUD_GLB_CTRL.RUN 0 then d.audLater (.halt n) else d.streamOff n) d2
  let d4 := (List.range 8).foldl (fun (d : Dev) n => if d.srcOwner (88 + n) = code then d.chimeEnd n else d) d3
  d4.updAud fun a => { a with hampers := a.hampers.filter fun h => h.code != code }

end Sys2Proof.Machine
end

