-- ==== Sys2Proof/Machine/Banks.lean ====
section
/-! DEFINITION. Bank arbitration (R54 to R57, R61), the background test walker (R64 to R70) and the bank swap (R71 to R74). -/

namespace Sys2Proof.Machine

/-! Arbitration. -/

/-- The table key of a requester in a bank (R56; log entry 122). -/
def lostKey (b : Nat) (r : Rival) : Nat := (b * 8 + r.cls) * 4096 + r.unit % 4096

/-- Among requesters of one class, the round-robin order starts behind the requester granted last (R55). -/
def roundRobin (last : Nat) (rs : List Rival) : Option Rival :=
  rs.foldl (fun best r => match best with
    | none => some r
    | some x => if (r.unit + 4095 - last) % 4096 < (x.unit + 4095 - last) % 4096 then some r else best) none

/-- The requester that is granted a round of bank `b` (R55, R56). The order of R56 holds for the walker's restore of a line too, against writes of the same
line by classes 3 to 6, which R65 lets win by R55 (DESIGN CHOICE, log entry 155). -/
def MemSysSt.grant (m : MemSysSt) (b : Nat) (rs : List Rival) : Option Rival :=
  let high := rs.filter fun r => decide (r.cls ≤ 2)
  let starved := rs.filter fun r => decide (3 ≤ r.cls ∧ 32 ≤ m.lost.get (lostKey b r))
  let pool := if high.isEmpty && !starved.isEmpty then starved else rs
  let c := pool.foldl (fun c r => min c r.cls) 8
  roundRobin (m.lastUnit.get (b * 8 + c)) (pool.filter fun r => r.cls == c)

/-- Count a round in the millions that MEM_BANK_CONFLICT reports (R61). -/
def Dev.countRound (d : Dev) (b : Nat) (lostP otherP : Bool) : Dev :=
  let tick := fun (d : Dev) (c : Bool) (F : Fld) (t : Tbl Nat) (put : Tbl Nat → MemSysSt → MemSysSt) =>
    if !c then d
    else if t.get b + 1 < 1000000 then { d with msys := put (t.put b (t.get b + 1)) d.msys }
    else { d with msys := put (t.put b 0) d.msys }.count F b 1
  let d1 := tick d lostP MEM_BANK_CONFLICT.LOST_M d.msys.lostRounds fun t m => { m with lostRounds := t }
  tick d1 otherP MEM_BANK_CONFLICT.OTHER_M d1.msys.otherRounds fun t m => { m with otherRounds := t }

/-- One arbitration round of bank `b` (of an LPDDR5X channel for b ≥ 32, where only the class order applies): the device after
the round, and whether `me` was granted. PRIMARY and the conflict counts exist for banks 0 to 15, so a range that BKSP serves counts no conflict,
and neither does a bank whose PRIMARY is 0 (DESIGN CHOICE, log entry 124). A counter of stalls counts the requesters that the round did not grant (R494). -/
def Dev.round (d : Dev) (b : Nat) (me : Rival) (rivals : List Rival) : Dev × Bool :=
  let rs := me :: rivals
  match d.msys.grant b rs with
  | none => (d, true)
  | some w =>
    let lost1 := if b < 32 then
        rs.foldl (fun t r => if r = w then t.put (lostKey b r) 0 else t.put (lostKey b r) (t.get (lostKey b r) + 1)) d.msys.lost
      else d.msys.lost
    let d1 := { d with msys := { d.msys with lost := lost1, lastUnit := d.msys.lastUnit.put (b * 8 + w.cls) w.unit } }
    let p := d.f MEM_BANK_CFG.PRIMARY b
    let d2 := if b < 16 ∧ p ≠ 0 then
        d1.countRound b (rs.any fun r => r.cls == p && r != w) (w.cls != p)
      else d1
    (if b < 17 then d2.pmcStall b (rs.filter (· != w)) else d2, w == me)

/-- The bank or channel that an address is served by, as arbitration numbers them. -/
def Dev.arbiterOf (d : Dev) (a : Nat) : Nat :=
  if a < 16 * bankBytes then d.serving (a / bankBytes) else 32 + ddrChannel a

/-- A granted access is counted, with its latency (R494). -/
def Dev.countAccess (d : Dev) (r : Req) (a n : Nat) (read : Bool) (ns : Nat) : Dev :=
  let d1 := d.pmcLines r a n
  if a < ddrBase then d1.pmcLatency 0x20 (d.serving (a / bankBytes)) r.mid r.sec ns
  else if read then d1.pmcLatency 0x21 (ddrChannel a) r.mid r.sec ns
  else d1

/-- A host port or a peer reaches device memory (R55, R88): the check at issue, one arbitration round in class 6, and where that is granted the access.
None where it waits for a later round. -/
def State.contend (s : State) (r : Req) (path unit : Nat) (write : Bool) (a len : Nat) (data : List Byte) (ecc : List Ecc) (ns : Nat) (rivals : List Rival) :
    State × Option Fetch :=
  if !s.checkAccess r path a write then (s.refuseAt r path a write, some .refused)
  else
    let rd := s.dev.round (s.dev.arbiterOf a) ⟨6, r.mid, unit, r.sec⟩ rivals
    if !rd.2 then ({ s with dev := rd.1 }, none)
    else
      let s1 : State := { s with dev := rd.1.countAccess r a (if write then data.length else len) (!write) ns }
      if write then
        let x := s1.writeMem r path a data
        (x.1, some (if x.2 then .ok [] else .refused))
      else
        let x := s1.readEcc r path a len ecc
        (x.1, some x.2)

/-! The walker. -/

/-- The walker visits the bank (R64 and the section before it). -/
def Dev.walkable (d : Dev) (b : Nat) : Bool :=
  !d.fb MEM_BANK_STAT.RETIRED b && !d.fb MEM_BANK_STAT.MIGRATING b &&
    (if b = 16 then d.f MEM_BANK_STAT.REPLACES 16 == 0x1F else d.fb MEM_BANK_CFG.WALK_EN b)

/-- The next region to visit, as bank, region and whether the sweep wraps; `n` counts the banks still to look at. -/
def Dev.nextRegion (d : Dev) : Nat → Nat → Bool → Option (Nat × Nat × Bool)
  | 0, _, _ => none
  | n + 1, k, wrapped =>
    let b := k / 2048
    if 17 ≤ b then d.nextRegion n 0 true
    else if d.walkable b then some (b, k % 2048, wrapped)
    else d.nextRegion n ((b + 1) * 2048) wrapped

def Dev.setWalk (d : Dev) (w : WalkSt) : Dev := { d with msys := { d.msys with walk := w } }

/-- The walker visits the next region once WALK_INTERVAL_US has passed (R64, R68): corrected errors and poison that the copy meets are counted, and the
poison goes with the copy (R62). A sweep counts as completed when the first region of the next one begins (DESIGN CHOICE, log entry 154). -/
def execWalkRegion (corrected : Nat) (poisoned : List Nat) (s : State) : Host.Outcome State Fault Refusal :=
  let d := s.dev
  let w := d.msys.walk
  .next (if d.fb MEM_WALK_CTRL.ENABLE 0 && d.acholtRuns && w.phase == .idle && decide (w.due ≤ d.now) then
    match d.nextRegion 19 w.next false with
    | none => s
    | some (b, r, wrapped) =>
      let src := b * bankBytes + 4096 * r
      let m := poisoned.foldl (fun m o => m.setPoison (src + o % 4096 / 8 * 8) true) s.mem
      let n := (m.poison.filter fun c => decide (src ≤ c.1 ∧ c.1 < src + 4096) && c.2).length
      let d1 := (d.setF MEM_WALK_STAT.BANK 0 b).setF MEM_WALK_STAT.REGION 0 r
      let d2 := if wrapped then (d1.setWalk { w with sweeps := w.sweeps + 1 }).setF MEM_WALK_STAT.SWEEPS 0 (w.sweeps + 1) else d1
      let d3 := (d2.count MEM_BANK_ECC.CE_COUNT b corrected).bankUe b n true
      { s with
        mem := m.copy src (shadowBase + 4096 * b) 4096
        dev := d3.setWalk { d3.msys.walk with
          phase := .testing, bank := b, region := r, next := b * 2048 + r + 1, restored := 0, began := d.now
          due := d.now + 1000 * d.f MEM_WALK_CTRL.WALK_INTERVAL_US 0 } }
  else s)

/-- The test phase has run past REGION_TIMEOUT_US (R66, R68). -/
def Dev.walkLate (d : Dev) : Bool := decide (d.msys.walk.began + 1000 * max 10 (d.f MEM_WALK_CTRL.REGION_TIMEOUT_US 0) ≤ d.now)

/-- The test is abandoned, and the region is restored (R66). -/
def Dev.walkAbandon (d : Dev) : Dev := (d.setWalk { d.msys.walk with phase := .restoring }).count MEM_WALK_STAT.SKIPPED 0 1

def execWalkRegionTimeout (s : State) : Host.Outcome State Fault Refusal :=
  .next (s.onDev fun d => if d.msys.walk.phase = .testing ∧ d.walkLate then d.walkAbandon else d)

/-- A failing row is mapped to a free spare row of its bank (R67); a bank that reaches SPARE_ROW_LIMIT is benched (R71). -/
def Dev.mapRow (d : Dev) (b row : Nat) : Dev :=
  let used := d.f MEM_BANK_STAT.ROWS_USED b
  if used < 32 then
    let d1 := { d with mgt := { d.mgt with spareRows := (b, row) :: d.mgt.spareRows } }.setF MEM_BANK_STAT.ROWS_USED b (used + 1)
    let d2 := (d1.setF MGT_BENCH.IN_USE 1 d1.mgt.spareRows.length).log 0x09 0 0xFFFF (toLe b 1 ++ toLe row 2 ++ toLe used 1)
    if used + 1 = 24 then (let d3 := d2.setF MEM_BANK_STAT.ROW_LIMIT b 1; if b = 16 then d3 else d3.autoBank b) else d2
  else (d.log 0x09 2 64 (toLe b 1 ++ toLe row 2 ++ toLe 0xFF 1)).raise 64

/-- A row showed corrected errors; the third such visit without a clean one is treated as a failure (R67). -/
def Dev.rowHit (d : Dev) (b row : Nat) : Dev :=
  let w := d.msys.walk
  let k := b * 65536 + row
  let n := w.rowHits.get k + 1
  if n < 3 then d.setWalk { w with rowHits := w.rowHits.put k n }
  else (d.setWalk { w with rowHits := w.rowHits.put k 0 }).mapRow b row

def Dev.rowClean (d : Dev) (b row : Nat) : Dev :=
  d.setWalk { d.msys.walk with rowHits := d.msys.walk.rowHits.put (b * 65536 + row) 0 }

/-- The march test ends (R67): rows that failed, rows with corrected errors, and rows seen clean. A test that ends too late is abandoned (R66). -/
def execWalkTestEnd (failing corrected clean : List Nat) (s : State) : Host.Outcome State Fault Refusal :=
  .next (s.onDev fun d =>
    let b := d.msys.walk.bank
    if d.msys.walk.phase = .testing ∧ d.walkLate then d.walkAbandon
    else if d.msys.walk.phase = .testing then
      let d1 := clean.foldl (fun d r => d.rowClean b r) d
      let d2 := corrected.foldl (fun d r => d.rowHit b r) d1
      let d3 := failing.foldl (fun d r => d.mapRow b r) d2
      d3.setWalk { d3.msys.walk with phase := .restoring }
    else d)

/-- One line is read from the shadow buffer, written to the region and its redirect ends, where the walker wins the round at class 7 (R65); the last
ends the visit. -/
def execWalkRestoreLine (rivals : List Rival) (s : State) : Host.Outcome State Fault Refusal :=
  let w := s.dev.msys.walk
  .next (if w.phase = .restoring ∧ w.restored < 64 then
    let o := 64 * w.restored
    let rd := s.dev.round w.bank ⟨7, 0x06, unitWalker, true⟩ rivals
    if !rd.2 then { s with dev := rd.1 }
    else { s with
      mem := s.mem.copy (shadowBase + 4096 * w.bank + o) (w.bank * bankBytes + 4096 * w.region + o) 64
      dev := rd.1.setWalk { w with restored := w.restored + 1, phase := if w.restored = 63 then .idle else .restoring } }
  else s)

/-! The swap. -/

/-- The migration helper as a requester (R55). -/
def rivalHelper : Rival := ⟨5, 0x06, unitHelper, true⟩

/-- Step 2 of R72: one 4 KiB region, line by line, so that a line that the walker redirects is read and written where it stands (R64). The reads check
every word (R62): corrected errors are counted, and words that the code cannot correct are poisoned and copied so. The helper asks for the old bank at
class 5, and a region that loses its round waits (R55). -/
def execMigrationCopyRegion (corrected : Nat) (poisoned : List Nat) (rivals : List Rival) (s : State) : Host.Outcome State Fault Refusal :=
  .next (match s.dev.msys.swap with
  | some sw =>
    let rd := s.dev.round sw.src rivalHelper rivals
    if 2048 ≤ sw.next then s
    else if !rd.2 then { s with dev := rd.1 }
    else
      let d := rd.1
      let base := 4096 * sw.next
      let m := poisoned.foldl (fun m o => m.setPoison (d.bankPlace sw.src (base + o % 4096) / 8 * 8) true) s.mem
      let n := ((List.range 512).filter fun k => m.poison.get (d.bankPlace sw.src (base + 8 * k))).length
      { s with
        mem := (List.range 64).foldl (fun m k => m.copy (d.bankPlace sw.src (base + 64 * k)) (d.bankPlace sw.dst (base + 64 * k)) 64) m
        dev := ({ d with msys := { d.msys with swap := some { sw with next := sw.next + 1 } } }.count MEM_BANK_ECC.CE_COUNT sw.src corrected).bankUe
          sw.src n false }
  | none => s)

/-- A bank that leaves service has a clean history of uncorrectable errors when it returns (R71; log entry 123). -/
def WalkSt.forget (w : WalkSt) (b : Nat) : WalkSt := { w with ueSweeps := w.ueSweeps.put b 0, ueLast := w.ueLast.put b 0 }

/-- Step 3 of R72: the range moves, and a BENCH_SWAP command completes (R566). -/
def execBankSwapCutover (s : State) : Host.Outcome State Fault Refusal :=
  .next (match s.dev.msys.swap with
  | some sw =>
    if sw.next = 2048 then
      s.onDev fun d =>
        let bank := if sw.back then sw.dst else sw.src
        let d1 := ((({ d with msys := { d.msys with swap := none, walk := d.msys.walk.forget bank } }.setF MEM_BANK_STAT.MIGRATING sw.src 0).setF
          MEM_BANK_STAT.MIGRATING sw.dst 0).setF MEM_BANK_STAT.RETIRED bank (b2n !sw.back)).setF
          MEM_BANK_STAT.REPLACES 16 (if sw.back then 0x1F else bank)
        let d2 := d1.benchDone 0 bank 16 sw.trigger sw.back
        match sw.cmd with
        | some c => d2.endCmd c ST_OK 0
        | none => d2
    else s
  | none => s)

/-- Halves selected by the RET fields, with bank `n` holding `v` (R75). -/
def Dev.retHalves (d : Dev) (n v : Nat) : Nat :=
  ((List.range 16).map fun b =>
    let r := if b = n then v else d.f MEM_BANK_CFG.RET b
    r % 2 + r / 2).foldl (· + ·) 0

/-- A write of MEM_BANK_CFG: a RET that would select more than two halves in total is ignored (R58, R75). -/
def bankCfgWrite (who : Fn) (n : Nat) (val : Word) (d : Dev) : Dev :=
  d.writeX who .MEM_BANK_CFG n val fun fd =>
    fd.lo == MEM_BANK_CFG.RET.lo && decide (2 < d.retHalves n (MEM_BANK_CFG.RET.get val))

end Sys2Proof.Machine
end

