-- ==== Sys2Proof/Machine/Disp.lean ====
section
/-! DEFINITION. Layer slots, commit groups, their validation and what a landing does to a slot (R166 to R203). -/

namespace Sys2Proof.Machine

/-! Outputs and slots. -/

def Dev.out (d : Dev) (n : Nat) : OutSt := d.disp.outs.get n

def Dev.setOut (d : Dev) (n : Nat) (o : OutSt) : Dev := { d with disp := { d.disp with outs := d.disp.outs.put n o } }

def Dev.updOut (d : Dev) (n : Nat) (g : OutSt → OutSt) : Dev := d.setOut n (g (d.out n))

def Dev.layer (d : Dev) (s : Nat) : LayerSt := d.disp.layers.get s

def Dev.setLayer (d : Dev) (s : Nat) (l : LayerSt) : Dev := { d with disp := { d.disp with layers := d.disp.layers.put s l } }

def Dev.setGroups (d : Dev) (gs : List Group) : Dev := { d with disp := { d.disp with groups := gs } }

/-- Event `k` of output `n` (R202, R241, R267, R298). -/
def outEv (n k : Nat) : Nat := 96 + 8 * n + k

/-- FRAME_SEQ of an output (R188). -/
def Dev.seq (d : Dev) (n : Nat) : Nat := d.f DSP_TG_SEQ.FRAME_SEQ n

/-- The active area (R271). -/
def Dev.hact (d : Dev) (n : Nat) : Nat := d.f DSP_TG_H0.HACT n

def Dev.vact (d : Dev) (n : Nat) : Nat := d.f DSP_TG_V0.VACT n

/-- The timing generator scans: RUNNING or STOPPING. Otherwise it counts as stopped. -/
def Dev.tgScans (d : Dev) (n : Nat) : Bool := decide (2 ≤ d.f DSP_TG_STAT.STATE n)

/-- The owner of a slot in force (R166). -/
def Dev.slotOwner (d : Dev) (s : Nat) : Nat := d.fl DSP_SLOT_ASSIGN.OWNER s

/-- The output to which a slot is bound (R169): codes above 11 act as unbound. -/
def Dev.slotOut (d : Dev) (s : Nat) : Option Nat :=
  let o := d.fl DSP_SLOT_ASSIGN.OUTPUT s
  if o < 12 then some o else none

def Dev.slotsOf (d : Dev) (n : Nat) : List Nat := (List.range 384).filter fun s => d.slotOut s == some n

/-- The record that a slot shows, unless it is hidden. -/
def Dev.shown (d : Dev) (s : Nat) : Option LRec :=
  match (d.layer s).cur with
  | some r => if r.hide || d.f DSP_SLOT_STAT.HIDE_CAUSE s != 0 then none else some r
  | none => none

/-! Views: parameters that a record takes from a stream context (R314) or from a peer's (R541). -/

/-- The context whose view is the slot (R314). -/
def Dev.viewOf (d : Dev) (s : Nat) : Option Nat :=
  (List.range 16).find? fun c => let cs := d.vin.cs.get c; cs.viewOn && le cs.cfg 6 2 % 512 == s

/-- The remote binding in force on a slot (R541). -/
def Dev.remoteOf (d : Dev) (s : Nat) : Option Nat :=
  (List.range 32).find? fun r => d.fl CNV_RLB.EN r == 1 && d.fl CNV_RLB.SLOT r == s

/-- The fields of STREAM_SET that a view uses (R308). -/
def CsSt.lineLocked (c : CsSt) : Bool := bit (le c.cfg 1 1) 0
def CsSt.fbEn (c : CsSt) : Bool := bit (le c.cfg 1 1) 1
def CsSt.nbuf (c : CsSt) : Nat := 3 + le c.cfg 1 1 / 4 % 2
def CsSt.fmt (c : CsSt) : Nat := le c.cfg 5 1
def CsSt.width (c : CsSt) : Nat := le c.cfg 8 2
def CsSt.height (c : CsSt) : Nat := le c.cfg 10 2
def CsSt.stride (c : CsSt) : Nat := le c.cfg 12 2
def CsSt.bufBase (c : CsSt) : Nat := le c.cfg 16 8
def CsSt.pitch (c : CsSt) : Nat := le c.cfg 24 4
def CsSt.chroma (c : CsSt) : Nat := le c.cfg 28 4
def CsSt.ring (c : CsSt) : Nat := le c.cont 0 2
def CsSt.fbBase (c : CsSt) : Nat := le c.cont 8 8
def CsSt.buffer (c : CsSt) (k : Nat) : Nat := c.bufBase + k * c.pitch

/-- The record of a view: format, chroma offset, stride and base come from its context (R314). For a ring the chroma lies RING_LINES times STRIDE further
on (R318). -/
def Dev.takenView (d : Dev) (r : LRec) : LRec :=
  match d.viewOf r.slot with
  | some c =>
    let cs := d.vin.cs.get c
    { r with fmt := cs.fmt, stride := cs.stride, base := cs.bufBase, chroma := cs.chroma }
  | none => r

/-- The record of a peer's stream takes those fields from the peer (R541). -/
def Dev.takenPeer (d : Dev) (peers : List PeerView) (r : LRec) : LRec :=
  match d.viewOf r.slot, d.remoteOf r.slot, peers.find? (fun p => p.slot.val == r.slot) with
  | none, some k, some p =>
    if d.fl CNV_RLB.KIND k = 1 then { r with fmt := p.fmt, stride := p.stride, chroma := p.chroma, base := p.base.getD 0 } else r
  | _, _, _ => r

/-- The record as it acts. -/
def Dev.taken (d : Dev) (peers : List PeerView) (r : LRec) : LRec := d.takenView (d.takenPeer peers r)

/-! Release fences (R196 to R198). -/

/-- The record's release fence is signalled at once (R197). -/
def Dev.releaseNow (d : Dev) (code : Nat) (sec : Bool) (r : LRec) : Dev :=
  if !r.hide && r.relEn && d.maySignal code sec r.relFence then d.signal ⟨r.relFence, r.relV, none⟩ else d

/-- The release of a record that may have been shown waits for `lines` lines of its output's frame to leave the runway (R196). -/
def Dev.releaseLater (d : Dev) (n : Nat) (r : LRec) (lines : Nat) : Dev :=
  if !r.hide && r.relEn then
    { d with disp := { d.disp with releases := d.disp.releases ++ [⟨n, r.relFence, r.relV, lines, (d.out n).round⟩] } }
  else d

/-- Lines of the frame that have left the runway. -/
def OutSt.left (o : OutSt) : Nat := if o.sending.isSome then o.scan - 1 else o.scan

/-- The lines that a release waits for have left (R196, R198). -/
def Dev.releaseReady (d : Dev) (r : Release) : Bool :=
  let o := d.out r.out
  !d.tgScans r.out || o.round != r.round || decide (r.lines ≤ o.left)

/-- The `k`-th waiting release is signalled (R144, R196). -/
def execReleaseFenceSignal (k : Nat) (s : State) : Host.Outcome State Fault Refusal :=
  .next (s.onDev fun d =>
    match d.disp.releases[k]? with
    | none => d
    | some r =>
      if d.releaseReady r then
        { d with disp := { d.disp with releases := d.disp.releases.take k ++ d.disp.releases.drop (k + 1) } }.signal ⟨r.fence, r.value, none⟩
      else d)

/-! Group bookkeeping. -/

def bitsOf (mask : Nat) : List Nat := (List.range 12).filter fun n => bit mask n

/-- The group counts against output `n` (R187). -/
def Group.counts (g : Group) (n : Nat) : Bool :=
  bit g.mask n && !bit g.landed n && (g.phase == .validating || g.phase == .validated)

def Dev.pendCount (d : Dev) (n : Nat) : Nat := (d.disp.groups.filter fun g => g.counts n).length

/-- Bring DSP_PEND and the waiting bits of DSP_CMP_STAT and DSP_CNP_STAT up to date (R203, R244, R269). -/
def Dev.syncOut (d : Dev) (n : Nat) : Dev :=
  let on := fun (g : Group) => bit g.mask n && !bit g.landed n
  let tables := d.disp.groups.any fun g => on g && (g.kind == .colour || g.kind == .scaler) && g.phase == .validated
  let wb := (d.disp.groups.any fun g => on g && g.kind == .writeback) || !(d.out n).captures.isEmpty
  let cnp := d.disp.groups.any fun g => on g && (g.kind == .canopy || g.kind == .outstage || g.kind == .canopyOwn) && g.phase == .validated
  (((d.setF DSP_PEND.GROUPS n (d.pendCount n)).setF DSP_CMP_STAT.CSTAGE_PEND n (b2n tables)).setF DSP_CMP_STAT.WB_ARMED n
    (b2n wb)).setF DSP_CNP_STAT.PEND n (b2n cnp)

def Dev.syncOuts (d : Dev) : Dev := (List.range 12).foldl Dev.syncOut d

/-- Change one group. -/
def Dev.updGroup (d : Dev) (id : Nat) (h : Group → Group) : Dev :=
  d.setGroups (d.disp.groups.map fun g => if g.id = id then h g else g)

/-- Whether a waiting group may start its validation or load: at most 8 groups on every output (R187), one colour-stage or scaler table at
a time on an output (R226), and two writebacks (R233). -/
def Dev.mayValidate (d : Dev) (g : Group) : Bool :=
  let same := fun (ks : List GKind) => d.disp.groups.filter fun x => x.id != g.id && x.mask == g.mask && ks.contains x.kind &&
    (x.phase == .validating || x.phase == .validated) && x.landed == 0
  !d.vfHeld g.code && (bitsOf g.mask).all (fun n => decide (d.pendCount n < 8)) &&
    (if g.kind = .colour ∨ g.kind = .scaler then (same [.colour, .scaler]).isEmpty
     else if g.kind = .writeback then decide ((same [.writeback]).length < 2)
     else true)

/-- Commands that hold nothing to read are validated as they start. -/
def GKind.immediate : GKind → Bool
  | .writeback | .backlight => true
  | _ => false

/-- A validation ends with its checks passed (R192, R194): the group takes its place in the order, and is late where the latch of its
target frame has passed. -/
def Dev.passGroup (d : Dev) (id : Nat) (h : Group → Group) : Dev :=
  let d1 := d.updGroup id fun g => { h g with phase := .validated, ord := d.disp.nextOrd, late := seqReached (d.seq g.anchor) g.target }
  { d1 with disp := { d1.disp with nextOrd := d1.disp.nextOrd + 1 } }

/-- Groups in rising order of a key, those of one key in their own order. -/
def orderBy (key : Group → Nat) (gs : List Group) : List Group :=
  gs.foldl (fun l g => l.takeWhile (fun x => decide (key x ≤ key g)) ++ g :: l.dropWhile (fun x => decide (key x ≤ key g))) []

/-- Groups in the order in which their validations completed (R192). -/
def orderGroups (gs : List Group) : List Group := orderBy Group.ord gs

/-- Waiting groups start, oldest first, as room allows (R187); those that hold nothing to read pass in the same round, in the order of their owner
codes and queue numbers, which is that of their queue indices (R192). -/
def Dev.startWaiting (d : Dev) : Dev :=
  let d1 := d.disp.groups.foldl (fun (d : Dev) g =>
    if g.phase = .waiting && d.mayValidate g then d.updGroup g.id fun x => { x with phase := .validating } else d) d
  ((orderBy Group.queue (d1.disp.groups.filter fun g => g.kind.immediate && g.phase == .validating)).foldl (fun d g => d.passGroup g.id id) d1).syncOuts

/-- A command completes with the instant given (R193). -/
def Dev.endCmdAt (d : Dev) (c : CmdRef) (status result ltime : Nat) : Dev :=
  (d.endCmd c status result).updCmd c fun x => { x with ltime := ltime }

/-- A group completes: each command takes the status; `res` gives RESULT by command number. -/
def Dev.endGroup (d : Dev) (g : Group) (status : Nat) (res : Nat → Nat) (ltime : Nat) : Dev :=
  let d1 := d.jointly fun d => (g.cmds.zipIdx).foldl (fun d c => d.endCmdAt c.1 status (res c.2) ltime) d
  (d1.setGroups (d1.disp.groups.filter fun x => x.id != g.id)).startWaiting

/-- The status of a group that has landed everywhere (R185, R191, R193). -/
def Group.landStatus (g : Group) : Nat :=
  let stopped := match g.decided with | some x => x.2.2 | none => false
  if g.dropped then ST_PARTIAL_LANDED else if g.late && !stopped then ST_LANDED_LATE else if g.tapsRed then ST_TAPS_REDUCED else ST_OK

/-- A command error of a group: status, the command that holds the offending field, its offset, and the index of RESULT bits [31:16]
(R180, R183). -/
structure GErr where
  status : Nat
  cmd : Nat
  off : Nat
  index : Nat
deriving DecidableEq, Repr, Inhabited

def GErr.result (e : GErr) (k : Nat) : Nat := errAt (if k = e.cmd then e.off else 0xFFFF) e.index

/-- A group fails: no further record lands, and the release fence of every record that has not landed is signalled (R183, R197, R198). -/
def Dev.failGroup (d : Dev) (g : Group) (e : GErr) : Dev :=
  ((g.recs.filter fun r => !r.landed).foldl (fun d r => d.releaseNow g.code g.sec r.r) d).endGroup g e.status e.result d.now

/-! Slot assignment (R167, R168). -/

/-- A write of DSP_SLOT_ASSIGN: recorded as pending, or ignored with WERR. -/
def slotAssignWrite (who : Fn) (s : Nat) (val : Word) (d : Dev) : Dev :=
  match who with
  | .vf _ => d
  | _ =>
    if d.mayGive who (d.f DSP_SLOT_ASSIGN.OWNER s) && d.mayGive who (DSP_SLOT_ASSIGN.OWNER.get val) then
      let d1 := (d.setF DSP_SLOT_ASSIGN.OWNER s (DSP_SLOT_ASSIGN.OWNER.get val)).setF DSP_SLOT_ASSIGN.OUTPUT s
        (DSP_SLOT_ASSIGN.OUTPUT.get val)
      d1.setF DSP_SLOT_ASSIGN.PENDING s
        (b2n (d1.f DSP_SLOT_ASSIGN.OWNER s != d1.slotOwner s || d1.f DSP_SLOT_ASSIGN.OUTPUT s != d1.fl DSP_SLOT_ASSIGN.OUTPUT s))
    else d.setF DSP_SLOT_STAT.WERR s 1

def execSlotAssignWrite (who : Fn) (slot : Fin 384) (val : Word) (s : State) : Host.Outcome State Fault Refusal :=
  .next (s.onDev (slotAssignWrite who slot.val val))

/-- Hide a slot and clear its layer state (R168, R201); lines of its output's frame that may have read its buffer have to leave first. -/
def Dev.hideSlot (d : Dev) (s cause lines : Nat) : Dev :=
  let l := d.layer s
  let d1 := match l.cur, d.slotOut s with
    | some r, some n => d.releaseLater n r lines
    | some r, none => d.releaseNow (d.slotOwner s) true r
    | none, _ => d
  ((d1.setLayer s { l with cur := none, viewBase := none }).setF DSP_SLOT_STAT.VISIBLE s 0).setF DSP_SLOT_STAT.HIDE_CAUSE s cause

/-- Lines of the output's frame that have to leave the runway before the buffer of a slot that is hidden now is released (R196, R198): up to the last line
of its destination rectangle, if this frame shows it so far; none where it is hidden already, or has been switched off in this frame. -/
def Dev.linesToLeave (d : Dev) (s : Nat) : Nat :=
  match d.shown s, d.slotOut s with
  | some r, some n => if d.fb DSP_SLOT_STAT.OFF_FRAME s || decide ((d.out n).compose ≤ r.dy) then 0 else r.dy + r.dh
  | _, _ => 0

/-- The error of a group whose record names a slot that its function does not own. -/
def GRec.notOwner (r : GRec) : GErr := ⟨ST_NOT_OWNER, r.cmd, contOffset r.cont, r.r.slot⟩

/-- What a slot's change does to the groups that hold a record for it (R168): validated ones complete with NOT_OWNER, the others will fail
their validation. -/
def Dev.slotGroups (d : Dev) (s : Nat) : Dev :=
  d.disp.groups.foldl (fun (d : Dev) g =>
    match g.recs.find? fun r => r.r.slot == s with
    | none => d
    | some r =>
      if g.phase = .validated then (if r.landed then d else d.failGroup g r.notOwner)
      else d.updGroup g.id fun g => { g with recs := g.recs.map fun r => if r.r.slot = s then { r with stale := true } else r }) d

/-- End the view and remote bindings of a slot (R314, R541). -/
def Dev.unbindSlot (d : Dev) (s : Nat) : Dev :=
  let d1 := match d.viewOf s with
    | some c => { d with vin := { d.vin with cs := d.vin.cs.upd c fun x => { x with viewOn := false, viewKind := 0, viewBuf := none } } }.setF
        VIN_CS_STAT.VIEW c 0
    | none => d
  match d1.remoteOf s with
  | some k => d1.setBoth CNV_RLB.EN k 0
  | none => d1

/-- A pending assignment takes effect (R168). -/
def Dev.applySlot (d : Dev) (s : Nat) : Dev :=
  if d.fb DSP_SLOT_ASSIGN.PENDING s then
    let d1 := (d.slotGroups s).hideSlot s 1 0
    let d2 := if d1.f DSP_SLOT_ASSIGN.OWNER s = d1.slotOwner s then d1 else d1.unbindSlot s
    (d2.latch .DSP_SLOT_ASSIGN s).setF DSP_SLOT_ASSIGN.PENDING s 0
  else d

/-- The change of an unbound slot, or of a slot whose output's generator is stopped, takes effect. -/
def execSlotAssignApply (slot : Fin 384) (s : State) : Host.Outcome State Fault Refusal :=
  .next (s.onDev fun d =>
    match d.slotOut slot.val with
    | some n => if d.tgScans n then d else d.jointly (·.applySlot slot.val)
    | none => d.jointly (·.applySlot slot.val))

/-! COMMIT (R178 to R181). -/

/-- The body of a command, from byte 32. -/
def Cmd.body (c : Cmd) : List Byte := c.lead.drop 32

/-- The first reserved field of a COMMIT header that is not 0: RESULT bits [15:0]. -/
def Cmd.commitRsv (c : Cmd) : Option Nat :=
  if c.ext ≠ 0 then some 0xFFFF
  else if c.u 32 2 / 4096 ≠ 0 then some 0
  else if c.u 34 1 / 16 ≠ 0 then some 2
  else if c.u 35 1 / 16 ≠ 0 then some 3
  else if !c.zero 40 63 then some 8
  else none

/-- The header field in which a further command of a MORE group differs from the first (R180). -/
def Cmd.differs (c : Cmd) (body : List Byte) : Option Nat :=
  if c.u 32 2 ≠ le body 0 2 then some 0
  else if c.u 34 1 ≠ le body 2 1 then some 2
  else if c.u 35 1 % 16 / 4 ≠ le body 3 1 % 16 / 4 ∨ c.u 35 1 % 2 ≠ le body 3 1 % 2 then some 3
  else if c.u 36 4 ≠ le body 4 4 then some 4
  else none

/-- The records of one command. -/
def Cmd.records (c : Cmd) (k : Nat) : List GRec :=
  (c.conts.map (List.drop 2)).zipIdx.map fun b => { r := LRec.parse b.1, cmd := k, cont := b.2 + 1, rsv := LRec.reserved b.1 }

/-- The command of a queue that stands before another in ring order. -/
def before? (cs : List Cmd) (id : Nat) : Option Nat :=
  match cs with
  | a :: b :: t => if b.id = id then some a.id else before? (b :: t) id
  | _ => none

/-- The open MORE group of a queue. -/
def Dev.openGroup (d : Dev) (qx : Nat) : Option Group := d.disp.groups.find? fun g => g.queue == qx && g.phase == .collecting

/-- The last command of a group. -/
def Group.lastCmd (g : Group) : Nat := match g.cmds.getLast? with | some c => c.id | none => 0

/-- An open group closes, and waits for its validation. -/
def Dev.closeGroup (d : Dev) (id : Nat) (bad : Option (Nat × Nat)) : Dev :=
  d.updGroup id fun g => { g with phase := .waiting, bad := match g.bad with | some b => some b | none => bad }

/-- A new group begins with a command of the display-commit queue `qx` (R178, R194). -/
def Dev.newGroup (d : Dev) (g : Group) : Dev :=
  { d with disp := { d.disp with groups := d.disp.groups ++ [{ g with id := d.disp.nextGroup }], nextGroup := d.disp.nextGroup + 1 } }

/-- The target frame of a group (R194). -/
def Dev.targetOf (d : Dev) (anchor : Nat) (en : Bool) (target : Nat) : Nat := if en then target else (d.seq anchor + 1) % 2 ^ 32

/-- A COMMIT that begins a group. -/
def Dev.beginCommit (d : Dev) (ref : CmdRef) (code : Nat) (c : Cmd) : Dev :=
  let en := bit (c.u 35 1) 2
  let anchor := c.u 34 1 % 16
  d.newGroup
    { code := code, queue := ref.queue, sec := c.secure, cmds := [ref], body := c.body, ext := c.ext, mask := c.u 32 2 % 4096
      anchor := anchor, part := bit (c.u 35 1) 0, targetEn := en, validateOnly := bit (c.u 35 1) 3
      target := d.targetOf anchor en (c.u 36 4), hdrRsv := c.commitRsv.map fun o => (0, o), recs := c.records 0
      phase := if bit (c.u 35 1) 1 then .collecting else .waiting }

/-- A COMMIT that continues a MORE group (R180). -/
def Dev.joinCommit (d : Dev) (ref : CmdRef) (g : Group) (c : Cmd) : Dev :=
  let k := g.cmds.length
  let recs := g.recs ++ c.records k
  let bad := match c.differs g.body with
    | some o => some (k, o)
    | none => if 8 < k + 1 ∨ 256 < recs.length then some (k, 0xFFFF) else none
  let d1 := d.updGroup g.id fun x => { x with
    cmds := x.cmds ++ [ref], recs := recs
    hdrRsv := match x.hdrRsv with | some h => some h | none => c.commitRsv.map fun o => (k, o) }
  if bad.isSome || !bit (c.u 35 1) 1 then d1.closeGroup g.id bad else d1

/-- A COMMIT starts (R178, R180, R181). -/
def Dev.commit (d : Dev) (code : Nat) (ref : CmdRef) (c : Cmd) : Dev :=
  (match d.openGroup ref.queue with
   | some g =>
     if before? (d.queue ref.queue).cmds ref.id = some g.lastCmd then d.joinCommit ref g c
     else (d.closeGroup g.id (some (g.cmds.length, 0xFFFF))).beginCommit ref code c
   | none => d.beginCommit ref code c).startWaiting

def runCommit (code : Nat) : Run := fun ref c s => s.onDev (·.commit code ref c)

def execCommit (f : Fn) (q : Fin 8) (s : State) : Host.Outcome State Fault Refusal :=
  .next (s.startNext f q (· == 0x10) (runCommit f.code))

/-! WAIT_FRAME and QUERY_FRAME (R182). -/

/-- The reserved fields of both commands, and an OUTPUT that names no output. -/
def Cmd.frameErr (c : Cmd) (query : Bool) : Option (Nat × Nat) :=
  firstError
    [(c.ext != 0, ST_BAD_FIELD, errOutside), (decide (12 ≤ c.u 32 1), ST_BAD_FIELD, errByte 32),
     (!c.zero 33 35, ST_BAD_FIELD, errByte 33), (query && c.u 36 4 != 0, ST_BAD_FIELD, errByte 36),
     (!c.zero 40 63, ST_BAD_FIELD, errByte 40)]

def Dev.waitFrame (d : Dev) (ref : CmdRef) (c : Cmd) : Dev :=
  let n := c.u 32 1
  match c.frameErr false with
  | some (st, res) => d.endCmd ref st res
  | none =>
    if seqReached (d.seq n) (c.u 36 4) then d.endCmdAt ref ST_OK (d.seq n) (d.out n).lastLatch
    else { d with disp := { d.disp with waits := d.disp.waits ++ [(ref, n, c.u 36 4)] } }

def Dev.queryFrame (d : Dev) (ref : CmdRef) (c : Cmd) : Dev :=
  match c.frameErr true with
  | some (st, res) => d.endCmd ref st res
  | none => d.endCmdAt ref ST_OK (d.seq (c.u 32 1)) (d.out (c.u 32 1)).lastLatch

def runWaitFrame : Run := fun ref c s => s.onDev (·.waitFrame ref c)

def runQueryFrame : Run := fun ref c s => s.onDev (·.queryFrame ref c)

def execWaitFrame (f : Fn) (q : Fin 8) (s : State) : Host.Outcome State Fault Refusal :=
  .next (s.startNext f q (· == 0x11) runWaitFrame)

def execQueryFrame (f : Fn) (q : Fin 8) (s : State) : Host.Outcome State Fault Refusal :=
  .next (s.startNext f q (· == 0x12) runQueryFrame)

/-! The coverage budget (R214, R186). -/

/-- What a slot may show: each possible record, `none` for hidden. -/
structure Alts where
  slot : Nat
  alts : List (Option LRec)
deriving DecidableEq, Repr, Inhabited

/-- A record lies above another in stacking order (R179). -/
def LRec.above (a b : LRec) : Bool := decide (b.z < a.z ∨ (b.z = a.z ∧ b.slot < a.slot))

def LRec.onLine (r : LRec) (y : Nat) : Bool := decide (r.dy ≤ y ∧ y < r.dy + r.dh)

def LRec.onCol (r : LRec) (x : Nat) : Bool := decide (r.dx ≤ x ∧ x < r.dx + r.dw)

/-- Whatever the other slots show, pixel (x, y) of record `a` lies under an opaque layer above it (R213). -/
def hiddenAt (all : List Alts) (a : LRec) (x y : Nat) : Bool :=
  all.any fun t => t.slot != a.slot && !t.alts.isEmpty && t.alts.all fun b =>
    match b with
    | some b => b.opaque? && b.above a && b.onLine y && b.onCol x
    | none => false

/-- Insertion into a rising list, and the sorted list without repeats. -/
def insertN (l : List Nat) (k : Nat) : List Nat :=
  let lo := l.takeWhile (· < k)
  let hi := l.dropWhile (· < k)
  if hi.head? = some k then l else lo ++ k :: hi

def sortN (l : List Nat) : List Nat := l.foldl insertN []

/-- The columns at which a line's make-up can change. -/
def edges (all : List Alts) : List Nat :=
  sortN ((all.map fun t => (t.alts.map fun b => match b with | some b => [b.dx, b.dx + b.dw] | none => []).flatten).flatten)

/-- Unhidden pixels of a record on line `y`: each interval between two edges counts by its first column. -/
def unhidden (all : List Alts) (a : LRec) (y : Nat) : Nat :=
  let es := edges all
  ((es.zip (es.drop 1)).map fun p => if a.onCol p.1 && !hiddenAt all a p.1 y then p.2 - p.1 else 0).foldl (· + ·) 0

/-- The coverage of one record on line `y` (R214). -/
def coverageOf (all : List Alts) (a : LRec) (y : Nat) : Nat :=
  if a.onLine y then
    let h := unhidden all a y
    let w := if a.dw < a.sw then (h * a.sw + a.dw - 1) / a.dw else h
    if a.dh < a.sh then 2 * w else w
  else 0

/-- C(y), with the greatest coverage that any record of a slot gives (R186, R214). -/
def coverage (all : List Alts) (y : Nat) : Nat :=
  (all.map fun t => (t.alts.map fun b => match b with | some a => coverageOf all a y | none => 0).foldl max 0).foldl (· + ·) 0

/-- The lines at which the make-up changes; C(y) is constant between them. -/
def rows (all : List Alts) : List Nat :=
  0 :: ((all.map fun t => (t.alts.map fun b => match b with | some b => [b.dy, b.dy + b.dh] | none => []).flatten).flatten)

/-- The largest C(y) over the active lines. -/
def peakCoverage (all : List Alts) (h : Nat) : Nat :=
  (((rows all).filter (· < h)).map (coverage all)).foldl max 0

/-! Validation (R183 to R186). -/

/-- Records of a group for output `n`, as they act. -/
def Group.recsOn (g : Group) (d : Dev) (n : Nat) (peers : List PeerView) : List (GRec × LRec) :=
  (g.recs.filter fun r => d.slotOut r.r.slot == some n).map fun r => (r, d.taken peers r.r)

/-- What a record makes of the possibilities of its slot: it replaces them, or adds one where both outcomes have to fit (R186). -/
def Alts.add (t : Alts) (keep : Bool) (r : LRec) : Alts :=
  let new := if r.hide then none else some r
  { t with alts := if keep then new :: t.alts else [new] }

/-- The state of output `n` after a group has landed. -/
def applyAlts (all : List Alts) (d : Dev) (n : Nat) (peers : List PeerView) (keep : GRec → Bool) (g : Group) : List Alts :=
  (g.recsOn d n peers).foldl (fun all p => all.map fun t => if t.slot = p.1.r.slot then t.add (keep p.1) p.2 else t) all

/-- The place of a group in the order in which groups land: that of its validation, but behind every earlier group of its queue (R189, R192). -/
def Dev.landOrd (d : Dev) (g : Group) : Nat :=
  (d.disp.groups.filter fun x => x.phase == .validated && x.queue == g.queue && decide (x.id < g.id)).foldl (fun k x => max k x.ord) g.ord

/-- The state that output `n` will have after every group already validated for it has landed (R183). -/
def Dev.projected (d : Dev) (n : Nat) (peers : List PeerView) : List Alts :=
  (orderBy d.landOrd (d.disp.groups.filter fun g => g.kind == .commit && g.phase == .validated && bit g.mask n && !bit g.landed n)).foldl
    (fun all g => applyAlts all d n peers (fun r => g.part && g.decided.isNone && r.r.acqEn && !r.r.hide) g)
    ((d.slotsOf n).map fun s => ⟨s, [d.shown s]⟩)

/-- An error at field `off` of a record. -/
def GRec.err (r : GRec) (st off : Nat) : GErr := ⟨st, r.cmd, contOffset r.cont + off, r.r.slot⟩

/-- The first of the records for which a check gives a field offset. -/
def recCheck (g : Group) (st : Nat) (chk : GRec → Option Nat) : Option GErr :=
  match g.recs.find? fun r => (chk r).isSome with
  | some r => (chk r).map fun o => r.err st o
  | none => none

/-- Check 2 of R183. -/
def Dev.check2 (d : Dev) (g : Group) : Option GErr :=
  if g.mask = 0 then some ⟨ST_BAD_FIELD, 0, 0, 0xFFFF⟩
  else match recCheck g ST_BAD_FIELD fun r =>
      match d.slotOut r.r.slot with
      | some n => if bit g.mask n then none else some 0
      | none => some 0 with
    | some e => some e
    | none =>
      if !bit g.mask g.anchor then some ⟨ST_BAD_FIELD, 0, 2, 0xFFFF⟩
      else match (g.recs.zipIdx.find? fun p => (g.recs.take p.2).any fun x => x.r.slot == p.1.r.slot) with
        | some p => some (p.1.err ST_BAD_FIELD 0)
        | none => none

/-- The fields of one record under check 3 (R176, R183, R210, R314, R319, R541). -/
def Dev.check3 (d : Dev) (g : Group) (peers : List PeerView) (r : GRec) : Option Nat :=
  if r.rsv.isSome then r.rsv
  else if r.r.hide then none
  else if 2 < r.r.blend then some 7
  else if r.r.vScaled && !(r.r.vtaps == 2 || r.r.vtaps == 4 || r.r.vtaps == 6) then some 58
  else if r.r.hostMem && (g.code == 1 || (d.viewOf r.r.slot).isSome || (d.remoteOf r.r.slot).isSome) then some 4
  else match d.viewOf r.r.slot, d.slotOut r.r.slot with
    | some c, some n =>
      if (d.vin.cs.get c).lineLocked &&
        !(d.f DSP_TG_GL.SRC_TYPE n == 2 && d.f DSP_TG_GL.SRC_IDX n == c && d.f DSP_TG_GL.DIV_M1 n == 0) then some 0
      else none
    | _, _ => if peers.any fun p => p.slot.val == r.r.slot && p.lineLocked then some 0 else none

/-- Check 6 for one record (R174, R184, R314, R319). -/
def Dev.check6 (d : Dev) (peers : List PeerView) (r : GRec) : Option Nat :=
  match d.slotOut r.r.slot with
  | none => none
  | some n =>
    let a := d.taken peers r.r
    match d.viewOf r.r.slot with
    | some c =>
      let cs := d.vin.cs.get c
      if cs.lineLocked && (r.r.sh != r.r.dh || r.r.flipV) then some 28
      else a.geometry d (d.hact n) (d.vact n) false (some (cs.width, cs.height))
    | none =>
      match peers.find? (fun p => p.slot.val == r.r.slot), d.remoteOf r.r.slot with
      | some p, some _ => a.geometry d (d.hact n) (d.vact n) false (some (p.width, p.height))
      | none, some _ => a.geometry d (d.hact n) (d.vact n) false none
      | _, none => a.geometry d (d.hact n) (d.vact n) (!r.r.hostMem) none

/-- Checks 7, 8 and 10 on one output: status, if one fails. -/
def Dev.outputCheck (d : Dev) (all : List Alts) (n st : Nat) : Bool :=
  if st = ST_SLOT_LIMIT then decide (32 < (all.filter fun t => t.alts.any Option.isSome).length)
  else if st = ST_RESOURCE_LIMIT then
    decide (4 < (all.filter fun t => t.alts.any fun b => match b with | some b => b.scaled | none => false).length)
  else decide (8 * d.hact n < peakCoverage all (d.vact n))

def Dev.outputErr (d : Dev) (g : Group) (peers : List PeerView) (st : Nat) : Option GErr :=
  ((bitsOf g.mask).find? fun n =>
    d.outputCheck (applyAlts (d.projected n peers) d n peers (fun _ => g.part) g) n st).map fun n => ⟨st, 0, 0xFFFF, n⟩

/-- The first of a list of errors. -/
def firstErr : List (Option GErr) → Option GErr
  | [] => none
  | some e :: _ => some e
  | none :: t => firstErr t

/-- The checks of R183 in their order. -/
def Dev.validate (d : Dev) (g : Group) (peers : List PeerView) : Option GErr :=
  let shown := fun (chk : GRec → Option Nat) (r : GRec) => if r.r.hide then none else chk r
  firstErr
    [g.bad.map fun b => ⟨ST_BAD_FIELD, b.1, b.2, 0xFFFF⟩,
     recCheck g ST_NOT_OWNER fun r => if d.slotOwner r.r.slot == g.code && !r.stale then none else some 0,
     d.check2 g,
     g.hdrRsv.map fun b => ⟨ST_BAD_FIELD, b.1, b.2, 0xFFFF⟩,
     recCheck g ST_BAD_FIELD (d.check3 g peers),
     recCheck g ST_FENCE_DENIED (shown fun r =>
       if r.r.acqEn && !d.mayWait g.code g.sec r.r.acqFence then some 38
       else if r.r.relEn && !d.maySignal g.code g.sec r.r.relFence then some 40 else none),
     recCheck g ST_BAD_FORMAT (shown fun r => if (d.taken peers r.r).formatOk then none else some 2),
     recCheck g ST_BAD_GEOMETRY (shown (d.check6 peers)),
     d.outputErr g peers ST_SLOT_LIMIT,
     d.outputErr g peers ST_RESOURCE_LIMIT,
     recCheck g ST_LINEBUF (shown fun r => if (r.r.fitTaps).isSome then none else some 58),
     d.outputErr g peers ST_COVERAGE]

/-- A record with its taps reduced to those that fit (R185), and with what it takes from a peer's stream; a view's own fields are those at its landing
(R314). -/
def Dev.settle (d : Dev) (peers : List PeerView) (r : GRec) : GRec :=
  { r with r := { d.takenPeer peers r.r with vtaps := (r.r.fitTaps).getD r.r.vtaps } }

/-- The group that a queue's validation works on: the oldest that validates, or a MORE group broken by another opcode (R180). -/
def Dev.validating (d : Dev) (qx : Nat) (kinds : List GKind) : Option Group :=
  d.disp.groups.find? fun g => g.queue == qx && kinds.contains g.kind && g.phase == .validating && !d.vfHeld g.code

/-- A command of another opcode has followed an open group (R180). -/
def Dev.breakOpen (d : Dev) (qx : Nat) : Dev :=
  match d.openGroup qx with
  | none => d
  | some g =>
    let cs := (d.queue qx).cmds
    match cs.find? fun c => before? cs c.id == some g.lastCmd with
    | some c => if c.opcode = 0x10 && c.env.isNone then d else (d.closeGroup g.id (some (g.cmds.length, 0xFFFF))).startWaiting
    | none => d

/-- Validation of a COMMIT group ends (R183, R185, R187). -/
def Dev.groupValidated (d0 : Dev) (qx : Nat) (peers : List PeerView) : Dev :=
  let d := d0.breakOpen qx
  match d.validating qx [.commit] with
  | none => d
  | some g =>
    match d.validate g peers with
    | some e => d.failGroup g e
    | none =>
      let recs := g.recs.map (d.settle peers)
      let red := g.recs.any fun r => !r.r.hide && r.r.vScaled && r.r.fitTaps != some r.r.vtaps
      if g.validateOnly then d.endGroup g (if red then ST_TAPS_REDUCED else ST_OK) (fun _ => 0) d.now
      else (d.passGroup g.id fun x => { x with recs := recs, tapsRed := red }).syncOuts

/-- Validations end in one round: that of queue (f, q) and those of the other queues named, in the order of their indices (R192; each judged against
the state that the ones before it leave: DESIGN CHOICE, log entry 135). -/
def Dev.validateRound (d : Dev) (qs : List Nat) (peers : List PeerView) : Dev :=
  d.jointly fun d => (sortN qs).foldl (fun d qx => d.groupValidated qx peers) d

def execGroupValidated (f : Fn) (q : Fin 8) (also : List (Fn × Fin 8)) (peers : List PeerView) (s : State) : Host.Outcome State Fault Refusal :=
  .next (s.onDev (·.validateRound (qi f q :: also.map fun x => qi x.1 x.2) peers))

end Sys2Proof.Machine
end

