-- ==== Sys2Proof/Machine/Pixel.lean ====
section
/-! DEFINITION. Pixel arithmetic: working values, chroma, YUV conversion, FP16 (R206 to R209), blending (R210), the scaler (R217 to R219),
the Normal-world colour stage (R227 to R230) and the Secure output stage (R261). -/

namespace Sys2Proof.Machine

/-- Round to nearest with ties upward (R206). -/
def rnd (num : Int) (den : Nat) : Int := (2 * num + den) / (2 * den : Nat)

/-- A working value: an integer clamped to [0, 65535]. -/
def clamp16 (x : Int) : Nat := (clampI 0 65535 x).toNat

/-- A pixel in working values. -/
structure Px where
  r : Nat := 0
  g : Nat := 0
  b : Nat := 0
  a : Nat := 65535
deriving DecidableEq, Repr, Inhabited

/-- Bit replication of an n-bit component to 16 bits (R206). -/
def rep16 (n v : Nat) : Nat :=
  if n = 0 then 0
  else
    let k := (16 + n - 1) / n
    (List.range k).foldl (fun acc _ => acc * 2 ^ n + v) 0 / 2 ^ (k * n - 16)

/-! FP16 (R209). -/

/-- round(65535 × S(k / 4096)) for the sRGB curve S, k ≤ 4096: the largest t with 65535 × S ≥ t - 1/2. Above the linear part,
1.055 v^(5/12) - 0.055 ≥ (2t - 1) / 131070 is compared in the 12th power. -/
def srgbT (k : Nat) : Nat :=
  if k * 10000000 ≤ 31308 * 4096 then (rnd (65535 * 1292 * (k : Nat)) (100 * 4096)).toNat
  else
    let ge := fun (t : Nat) =>
      -- (2t - 1) × 1000 + 55 × 131070 over 1055 × 131070, to the 12th, against (k / 4096)^5
      decide ((((2 * t - 1 : Nat) * 1000 + 55 * 131070) ^ 12) * 4096 ^ 5 ≤ k ^ 5 * (1055 * 131070) ^ 12)
    (List.range 16).foldl (fun t j => if ge (t + 2 ^ (15 - j)) then t + 2 ^ (15 - j) else t) 0

/-- T[k], with T[4097] = T[4096]. -/
def fp16T (k : Nat) : Nat := srgbT (min k 4096)

/-- ⌊x × 2^24⌋ of a binary16 value clamped to [0, 1]; NaN and negative values give 0. -/
def fp16Fixed (h : Nat) : Nat :=
  let e := bits h 14 10
  let m := h % 1024
  if (e = 31 ∧ m ≠ 0) ∨ bit h 15 then 0
  else if e = 31 then 2 ^ 24
  else min (2 ^ 24) (if e = 0 then m else (1024 + m) * 2 ^ (e - 1))

/-- The working value of an FP16 colour component. -/
def fp16Colour (h : Nat) : Nat :=
  let p := fp16Fixed h
  let i := p / 4096
  let f := p % 4096
  (((fp16T i : Nat) : Int) + (((fp16T (i + 1) : Nat) - (fp16T i : Nat) : Int) * f + 2048) / 4096).toNat

/-- FP16 alpha: clamped to [0, 1] and scaled by 65535 with rounding. -/
def fp16Alpha (h : Nat) : Nat := (rnd (65535 * (fp16Fixed h : Nat)) (2 ^ 24)).toNat

/-! YUV (R207, R208). -/

/-- The matrix coefficients of R207 in millionths: kR, kGB, kGR, kB. -/
def yuvMatrix (enc : Nat) : Nat × Nat × Nat × Nat :=
  if enc % 4 = 1 then (1574800, 187324, 468124, 1855600) else (1474600, 164553, 571353, 1881400)

/-- YUV to RGB for samples of `n` bits, in exact arithmetic (R207). -/
def yuvRgb (n enc y cb cr : Nat) : Px :=
  let full := bit enc 2
  let s : Nat := 2 ^ (n - 8)
  let yo : Int := if full then 0 else 16 * s
  let yd : Nat := if full then 2 ^ n - 1 else 219 * s
  let co : Int := if full then (2 ^ (n - 1) : Nat) else 128 * s
  let cd : Nat := if full then 2 ^ n - 1 else 224 * s
  let den := yd * cd * 1000000
  let yv : Int := ((y : Nat) - yo) * (cd * 1000000 : Nat)
  let u : Int := ((cb : Nat) - co) * (yd : Nat)
  let v : Int := ((cr : Nat) - co) * (yd : Nat)
  let k := yuvMatrix enc
  let out := fun (x : Int) => (rnd (65535 * clampI 0 den x) den).toNat
  { r := out (yv + (k.1 : Nat) * v), g := out (yv - (k.2.1 : Nat) * u - (k.2.2.1 : Nat) * v), b := out (yv + (k.2.2.2 : Nat) * u) }

/-- Where the bytes of a layer's source come from, and how its rows lie: for a ring, row j lies in slot j mod the ring's lines (R318). -/
structure Source where
  r : LRec
  ring : Option Nat := none
  peek : Nat → Byte

def Source.rd (s : Source) (a n : Nat) : Nat := (List.range n).foldr (fun k acc => (s.peek (a + k)).toNat + 256 * acc) 0

/-- The address of a plane 0 row. -/
def Source.row (s : Source) (y : Nat) : Nat :=
  s.r.base + (match s.ring with | some l => y % l | none => y) * s.r.stride

/-- The address of a chroma row (R173, R318). -/
def Source.crow (s : Source) (y : Nat) : Nat :=
  s.r.base + s.r.chroma + (match s.ring with | some l => y % l | none => y) * s.r.stride

/-- A crop coordinate as a source coordinate, mirrored where the layer is flipped (R179). -/
def mirrored (s0 size c : Nat) (flip : Bool) : Nat := if flip then s0 + (size - 1 - c) else s0 + c

/-- Chroma columns, or chroma rows, that a crop of `size` from `s0` touches. -/
def chromaSpan (s0 size : Nat) : Nat := (s0 + (size - 1)) / 2 - s0 / 2 + 1

/-- Crop position `c` as a position in the pairs of the mirrored crop: pair `/ 2`, and within it `% 2`. A crop may begin or end within a pair (R326). -/
def chromaAt (s0 size c : Nat) (flip : Bool) : Nat := c + (if flip then s0 + size else s0) % 2

/-- Chroma column or row `k` of the mirrored crop as one of the source, clamped into the crop (R208). -/
def chromaIdx (s0 size : Nat) (flip : Bool) (k : Int) : Nat :=
  let n := chromaSpan s0 size
  let kc := (clampI 0 ((n : Nat) - 1) k).toNat
  s0 / 2 + (if flip then n - 1 - kc else kc)

/-- One stored Cb, Cr pair: column `k` of the mirrored crop, and a source chroma row. -/
def Source.pair (s : Source) (k : Int) (row : Nat) : Nat × Nat :=
  let col := chromaIdx s.r.sx s.r.sw s.r.flipH k
  if s.r.fmt = 8 then (s.rd (s.row row + 4 * col + 1) 1, s.rd (s.row row + 4 * col + 3) 1)
  else if s.r.fmt = 7 then (s.rd (s.crow row + 4 * col) 2 / 64, s.rd (s.crow row + 4 * col + 2) 2 / 64)
  else (s.rd (s.crow row + 2 * col) 1, s.rd (s.crow row + 2 * col + 1) 1)

/-- The chroma rows that row `y` of the mirrored crop mixes, the nearer first (R208): both the same where the format has one chroma row a row. -/
def Source.chromaRows (s : Source) (y : Nat) : Nat × Nat :=
  if s.r.fmt = 5 ∨ s.r.fmt = 7 then
    let q := chromaAt s.r.sy s.r.sh y s.r.flipV
    let j : Int := (q / 2 : Nat)
    (chromaIdx s.r.sy s.r.sh s.r.flipV j, chromaIdx s.r.sy s.r.sh s.r.flipV (if q % 2 = 0 then j - 1 else j + 1))
  else (mirrored s.r.sy s.r.sh y s.r.flipV, mirrored s.r.sy s.r.sh y s.r.flipV)

/-- The chroma columns that column `x` of the mirrored crop mixes, its own first (R208). -/
def Source.chromaCols (s : Source) (x : Nat) : Int × Int :=
  let q := chromaAt s.r.sx s.r.sw x s.r.flipH
  let k : Int := (q / 2 : Nat)
  (k, if bits s.r.enc 4 3 = 0 then (if q % 2 = 0 then k else k + 1) else if q % 2 = 0 then k - 1 else k + 1)

/-- The step of R208 between a sample and its neighbour: 3 parts to 1, rounded down. -/
def mix31 (a b : Nat × Nat) : Nat × Nat := ((3 * a.1 + b.1 + 2) / 4, (3 * a.2 + b.2 + 2) / 4)

/-- Chroma column `k` on crop row `y`, after the vertical step. -/
def Source.column (s : Source) (y : Nat) (k : Int) : Nat × Nat :=
  let rows := s.chromaRows y
  if s.r.fmt = 5 ∨ s.r.fmt = 7 then mix31 (s.pair k rows.1) (s.pair k rows.2) else s.pair k rows.1

/-- The upsampled chroma of crop pixel (x, y) (R208): co-sited samples on even columns stand as they are. -/
def Source.chroma (s : Source) (x y : Nat) : Nat × Nat :=
  let ks := s.chromaCols x
  let a := s.column y ks.1
  let b := s.column y ks.2
  if bits s.r.enc 4 3 = 0 then ((a.1 + b.1 + 1) / 2, (a.2 + b.2 + 1) / 2) else mix31 a b

/-- The luma sample of crop pixel (x, y), mirrored. -/
def Source.luma (s : Source) (x y : Nat) : Nat :=
  let sx := mirrored s.r.sx s.r.sw x s.r.flipH
  let row := s.row (mirrored s.r.sy s.r.sh y s.r.flipV)
  if s.r.fmt = 8 then s.rd (row + 4 * (sx / 2) + 2 * (sx % 2)) 1
  else if s.r.fmt = 7 then s.rd (row + 2 * sx) 2 / 64
  else s.rd (row + sx) 1

/-- The working values of one RGB pixel word (R171, R206). -/
def rgbPixel (fmt w : Nat) : Px :=
  if fmt = 1 then ⟨rep16 8 (bits w 23 16), rep16 8 (bits w 15 8), rep16 8 (bits w 7 0), rep16 8 (bits w 31 24)⟩
  else if fmt = 2 then ⟨rep16 8 (bits w 23 16), rep16 8 (bits w 15 8), rep16 8 (bits w 7 0), 65535⟩
  else if fmt = 3 then ⟨rep16 10 (bits w 29 20), rep16 10 (bits w 19 10), rep16 10 (bits w 9 0), rep16 2 (bits w 31 30)⟩
  else if fmt = 4 then ⟨rep16 5 (bits w 15 11), rep16 6 (bits w 10 5), rep16 5 (bits w 4 0), 65535⟩
  else ⟨fp16Colour (bits w 15 0), fp16Colour (bits w 31 16), fp16Colour (bits w 47 32), fp16Alpha (bits w 63 48)⟩

/-- The working values of crop pixel (x, y) of the mirrored crop (R205 step 1, without scaling). -/
def Source.pixel (s : Source) (x y : Nat) : Px :=
  if isYuv s.r.fmt then
    let c := s.chroma x y
    yuvRgb (if s.r.fmt = 7 then 10 else 8) s.r.enc (s.luma x y) c.1 c.2
  else
    let sx := mirrored s.r.sx s.r.sw x s.r.flipH
    rgbPixel s.r.fmt (s.rd (s.row (mirrored s.r.sy s.r.sh y s.r.flipV) + pixelOffset s.r.fmt sx)
      (if s.r.fmt = 11 then 8 else if s.r.fmt = 4 then 2 else 4))

/-! The scaler. -/

/-- π × 2^100, rounded down. -/
def piFix : Nat := 3982441812995697363688351113952

/-- sin(π a / b) × 2^100 for 0 ≤ a ≤ b: 30 terms of the series in fixed point. -/
def sinPi (a b : Nat) : Int :=
  let x : Int := (piFix * a / b : Nat)
  ((List.range 30).foldl (fun (st : Int × Int) k =>
      let term := st.2
      let next := -(term * x / (2 ^ 100 : Nat)) * x / (2 ^ 100 : Nat) / (((2 * k + 2) * (2 * k + 3) : Nat) : Int)
      (st.1 + term, next)) (0, x)).1

/-- sinc(m / d) × 2^100 for an integer m, with sinc(0) = 1 (R219). -/
def sincFix (m : Int) (d : Nat) : Int :=
  let a := m.natAbs
  if a = 0 then (2 ^ 100 : Nat)
  else
    let k := a / d
    let s := sinPi (a % d) d
    (if k % 2 = 0 then s else -s) * ((2 ^ 100 * d : Nat) : Int) / ((piFix * a : Nat) : Int)

/-- The weight of tap `t` at phase `q` of an `n`-tap filter, in units of 2^-100 (R219). -/
def tapWeight (n q t : Nat) : Int :=
  let x : Int := 64 * ((t : Nat) - (n / 2 : Nat) + 1 : Int) - q
  if n = 2 then (2 ^ 94 : Nat) * (64 - (x.natAbs : Nat) : Int)
  else if x.natAbs < 32 * n then sincFix x 64 * sincFix (2 * x) (64 * n) / (2 ^ 100 : Nat)
  else 0

/-- Round to nearest with ties upward for a signed denominator kept positive. -/
def rndDiv (num den : Int) : Int := (2 * num + den) / (2 * den)

/-- The default coefficient row of an `n`-tap filter at phase `q` (R219). -/
def defaultRow (n q : Nat) : List Int :=
  let ws := (List.range n).map (tapWeight n q)
  let total := ws.foldl (· + ·) 0
  let row := ws.map fun w => rndDiv (16384 * w) total
  let fix := 16384 - row.foldl (· + ·) 0
  let big := (List.range n).foldl (fun best t => if ws.getD best 0 < ws.getD t 0 then t else best) 0
  row.zipIdx.map fun p => if p.2 = big then p.1 + fix else p.1

/-- The byte offset of an `n`-tap set in the table of SCALER_SET (R223). -/
def tapSet (n : Nat) : Nat := if n = 8 then 0 else if n = 6 then 1024 else if n = 4 then 1792 else 2304

/-- A coefficient row in force: of the loaded table, or the default. -/
def coefRow (table : List Byte) (n q : Nat) : List Int :=
  if table = [] then defaultRow n q
  else (List.range n).map fun t => toSigned 16 (le table (tapSet n + 2 * (n * q + t)) 2)

/-- Source position, phase and tap indices of output index `i` (R217). -/
def scalePos (i src dst n : Nat) : List Nat × Nat :=
  let s : Int := (((2 * i + 1) * src : Nat) - (dst : Nat) : Int) * (2 ^ 16 : Nat) / (2 * dst : Nat)
  let first := s / (2 ^ 16 : Nat) - (n / 2 : Nat) + 1
  ((List.range n).map fun t => (clampI 0 ((src : Nat) - 1) (first + (t : Nat))).toNat, (s / (2 ^ 10 : Nat) % 64).toNat)

/-- One filtered sample, component by component (R217). -/
def filterPx (row : List Int) (vs : List Px) : Px :=
  let f := fun (get : Px → Nat) =>
    clamp16 (rnd (((row.zip vs).map fun p => p.1 * ((get p.2 : Nat) : Int)).foldl (· + ·) (0 : Int)) 16384)
  ⟨f Px.r, f Px.g, f Px.b, f Px.a⟩

/-- The layer's pixel at (ox, oy) of its destination rectangle (R216 to R218). The vertical filter runs on the narrower side. -/
def Source.layerPx (s : Source) (table : List Byte) (ox oy : Nat) : Px :=
  if !s.r.scaled then s.pixel ox oy
  else
    let h := scalePos ox s.r.sw s.r.dw 8
    let hrow := coefRow table 8 h.2
    if !s.r.vScaled then filterPx hrow (h.1.map fun c => s.pixel c oy)
    else
      let v := scalePos oy s.r.sh s.r.dh s.r.vtaps
      let vrow := coefRow table s.r.vtaps v.2
      if s.r.dw < s.r.sw then filterPx vrow (v.1.map fun y => filterPx hrow (h.1.map fun x => s.pixel x y))
      else filterPx hrow (h.1.map fun x => filterPx vrow (v.1.map fun y => s.pixel x y))

/-! Blending. -/

/-- A product of two working values, rounded (R210). -/
def mul16 (a b : Nat) : Nat := (rnd ((a * b : Nat) : Int) 65535).toNat

/-- One component of R210: the layer's `c` with pixel alpha `a` and plane alpha `p`, over `d`. -/
def blend1 (mode c a p d : Nat) : Nat :=
  let top := if mode = 1 then (rnd ((c * a * p : Nat) : Int) (65535 * 65535)).toNat else mul16 c p
  let keep := 65535 - (if mode = 2 then p else mul16 a p)
  min 65535 (top + mul16 d keep)

def blendPx (mode alpha : Nat) (c d : Px) : Px :=
  let p := alpha * 257
  ⟨blend1 mode c.r c.a p d.r, blend1 mode c.g c.a p d.g, blend1 mode c.b c.a p d.b, 65535⟩

/-! The Normal-world colour stage. `img` is the colour-stage image in force (R224), empty in the reset state. -/

/-- The interpolation of R227 over a 1,024-entry table. -/
def interp (e : Nat → Nat) (p : Nat) : Nat :=
  let i := p / 64
  let f := p % 64
  let a := e i
  let b := e (min (i + 1) 1023)
  ((a : Int) + (((b : Nat) - (a : Nat) : Int) * f + 32) / 64).toNat

def stageEn (img : List Byte) (b : Nat) : Bool := bit (le img 0 4) b

/-- De-gamma (R227). -/
def degamma (img : List Byte) (x : Nat) : Nat :=
  if stageEn img 0 then interp (fun i => le img (64 + 4 * i) 4 % 2 ^ 21) (x * 1023 * 64 / 65535)
  else (rnd ((x * 2 ^ 20 : Nat) : Int) 65535).toNat

/-- The matrix (R228). -/
def matrixRow (img : List Byte) (k r g b : Nat) : Nat :=
  let m := fun j => toSigned 32 (le img (16 + 4 * (3 * k + j)) 4)
  (clampI 0 0x100000 (rnd (m 0 * (r : Nat) + m 1 * (g : Nat) + m 2 * (b : Nat)) (2 ^ 16))).toNat

def matrix (img : List Byte) (v : Nat × Nat × Nat) : Nat × Nat × Nat :=
  if stageEn img 1 then
    (matrixRow img 0 v.1 v.2.1 v.2.2, matrixRow img 1 v.1 v.2.1 v.2.2, matrixRow img 2 v.1 v.2.1 v.2.2)
  else (min v.1 0x100000, min v.2.1 0x100000, min v.2.2 0x100000)

/-- One component of an entry of the 3D LUT (R224). -/
def lutEntry (img : List Byte) (j : Nat × Nat × Nat) (c : Nat) : Int :=
  ((le img (8256 + 8 * (j.1 + 33 * j.2.1 + 1089 * j.2.2)) 8 / 2 ^ (16 * c) % 4096 : Nat) : Int)

/-- Axes by falling fraction, ties in the order R, G, B (R229). -/
def lutOrder (f : Nat → Nat) : List Nat :=
  let ins := fun (l : List Nat) (k : Nat) => (l.takeWhile fun x => decide (f k ≤ f x)) ++ k :: (l.dropWhile fun x => decide (f k ≤ f x))
  ins (ins [0] 1) 2

def bump (j : Nat × Nat × Nat) (axis : Nat) : Nat × Nat × Nat :=
  if axis = 0 then (j.1 + 1, j.2.1, j.2.2) else if axis = 1 then (j.1, j.2.1 + 1, j.2.2) else (j.1, j.2.1, j.2.2 + 1)

/-- The 3D LUT by tetrahedral interpolation (R229). -/
def lut3d (img : List Byte) (v : Nat × Nat × Nat) : Nat × Nat × Nat :=
  if stageEn img 2 then
    let cell := fun x => if x / 2 ^ 15 = 32 then 31 else x / 2 ^ 15
    let frac := fun x => if x / 2 ^ 15 = 32 then 0x8000 else x % 2 ^ 15
    let f := fun k => if k = 0 then frac v.1 else if k = 1 then frac v.2.1 else frac v.2.2
    let k := lutOrder f
    let j0 := (cell v.1, cell v.2.1, cell v.2.2)
    let j1 := bump j0 (k.getD 0 0)
    let j2 := bump j1 (k.getD 1 0)
    let j3 := bump j2 (k.getD 2 0)
    let out := fun c =>
      ((lutEntry img j0 c * 0x8000 + (lutEntry img j1 c - lutEntry img j0 c) * (f (k.getD 0 0) : Nat) +
        (lutEntry img j2 c - lutEntry img j1 c) * (f (k.getD 1 0) : Nat) +
        (lutEntry img j3 c - lutEntry img j2 c) * (f (k.getD 2 0) : Nat) + 0x4000) / (2 ^ 15 : Nat)).toNat
    (out 0, out 1, out 2)
  else
    let q := fun x => (rnd ((x * 4095 : Nat) : Int) (2 ^ 20)).toNat
    (q v.1, q v.2.1, q v.2.2)

/-- The curve (R230). -/
def curve (img : List Byte) (v : Nat) : Nat :=
  if stageEn img 3 then interp (fun i => le img (4160 + 4 * i) 4 % 2 ^ 16) (v * 1023 * 64 / 4095)
  else (rnd ((v * 65535 : Nat) : Int) 4095).toNat

/-- The Normal-world colour stage (R227 to R230). -/
def colourStage (img : List Byte) (p : Px) : Px :=
  let v := lut3d img (matrix img (degamma img p.r, degamma img p.g, degamma img p.b))
  ⟨curve img v.1, curve img v.2.1, curve img v.2.2, 65535⟩

/-- The background colour of the image in force (R211, R224). -/
def background (img : List Byte) : Px := ⟨le img 4 2, le img 6 2, le img 8 2, 65535⟩

/-! The Secure output stage. `img` is the output-stage image in force (R252), empty in the reset state. -/

/-- The dither matrix of R261. -/
def ditherM (x y : Nat) : Nat :=
  ([0, 8, 2, 10, 12, 4, 14, 6, 3, 11, 1, 9, 15, 7, 13, 5] : List Nat).getD (y % 4 * 4 + x % 4) 0

/-- OCTRL in force: at reset DEPTH 2, DITHER 0 and FINAL_EN 0 (R261). -/
def octrl (img : List Byte) : Nat := if img = [] then 2 else le img 0 4

/-- Bits per component of a DEPTH code (R252). -/
def depthBits (code : Nat) : Nat := if code = 0 then 6 else if code = 1 then 8 else 10

/-- One component through the output stage, as 10 bits (R261). -/
def outComponent (img : List Byte) (x y v : Nat) : Nat :=
  let oc := octrl img
  let u := if bit oc 3 then interp (fun i => le img (64 + 4 * i) 4 % 2 ^ 16) (v * 1023 * 64 / 65535) else v
  let b := depthBits (oc % 4)
  let top := 2 ^ b - 1
  let q := if bit oc 2 then min top ((32 * u * top + 65535 * (2 * ditherM x y + 1)) / 2097120)
    else (rnd ((u * top : Nat) : Int) 65535).toNat
  q * 2 ^ (10 - b)

/-- The packed 30-bit pixel at output position (x, y) (R205, R261). -/
def packPx (img : List Byte) (x y : Nat) (p : Px) : Nat :=
  outComponent img x y p.r * 2 ^ 20 + outComponent img x y p.g * 2 ^ 10 + outComponent img x y p.b

/-- A component written by a capture or a warp: round(v × (2^b - 1) / 65535) (R233, R328). -/
def narrow (b v : Nat) : Nat := (rnd ((v * (2 ^ b - 1) : Nat) : Int) 65535).toNat

/-- The pixel word of a capture: alpha bits all ones (R233). -/
def captureWord (fmt : Nat) (p : Px) : Nat :=
  if fmt = 3 then 3 * 2 ^ 30 + narrow 10 p.r * 2 ^ 20 + narrow 10 p.g * 2 ^ 10 + narrow 10 p.b
  else 255 * 2 ^ 24 + narrow 8 p.r * 2 ^ 16 + narrow 8 p.g * 2 ^ 8 + narrow 8 p.b

end Sys2Proof.Machine
end

