-- ==== Sys2Proof/Machine/Compose.lean ====
section
/-! DEFINITION. Composing a line, scanning it out, layer deadlines and captures (R35 to R39, R204 to R213, R233, R237 to R240, R256 to
R259, R262). -/

namespace Sys2Proof.Machine

/-! Layers of a frame. -/

def Dev.offFrame (d : Dev) (s : Nat) : Bool := d.fb DSP_SLOT_STAT.OFF_FRAME s

/-- The record of a slot in the current frame: also one whose fetch was refused in it (R200, R238). -/
def Dev.frameRec (d : Dev) (s : Nat) : Option LRec :=
  match (d.layer s).cur with
  | some r =>
    let c := d.f DSP_SLOT_STAT.HIDE_CAUSE s
    if r.hide then none else if c = 0 ∨ (c = 2 ∧ d.offFrame s) then some r else none
  | none => none

/-- Insert a record into a stack kept from the lowest upward (R179). -/
def stackIn (l : List LRec) (r : LRec) : List LRec := l.takeWhile (fun x => r.above x) ++ r :: l.dropWhile (fun x => r.above x)

/-- The visible layers of output `n`, from the lowest upward (R211). -/
def Dev.stack (d : Dev) (n : Nat) : List LRec := ((d.slotsOf n).filterMap d.frameRec).foldl stackIn []

/-- Pixel (x, y) of a record lies under an opaque layer above it (R213, R238). -/
def coveredBy (stack : List LRec) (a : LRec) (x y : Nat) : Bool :=
  stack.any fun b => b.opaque? && b.above a && b.onLine y && b.onCol x

/-- A view that shows its ring (R318, R323). -/
def Dev.ringOf (d : Dev) (s : Nat) : Option CsSt :=
  match d.viewOf s with
  | some c => let cs := d.vin.cs.get c; if cs.lineLocked && cs.viewKind == 1 then some cs else none
  | none => none

/-- A byte that host memory or a peer returned for a slot. -/
def remoteByte (rb : List RemoteBytes) (s a : Nat) : Option Byte :=
  match rb.find? fun b => b.slot.val == s && decide (b.addr ≤ a ∧ a < b.addr + b.data.length) with
  | some b => b.data[a - b.addr]?
  | none => none

/-- The layer's data comes from host memory or from a peer (R176, R541). -/
def Dev.isRemote (d : Dev) (r : LRec) : Bool := r.hostMem || (d.remoteOf r.slot).isSome

/-- A remote binding's peer can be reached (R539, R545); a layer of host memory has none. -/
def Dev.remoteReady (d : Dev) (s : Nat) : Bool := match d.remoteOf s with | some k => d.peerUp? (d.fl CNV_RLB.PEER k) | none => true

/-- The places of a layer's samples in this frame. -/
def Dev.places (d : Dev) (r : LRec) (peek : Nat → Byte) : Source :=
  match d.ringOf r.slot with
  | some cs => { r := { r with base := cs.bufBase, chroma := cs.ring * cs.stride }, ring := some cs.ring, peek := peek }
  | none => { r := { r with base := ((d.layer r.slot).viewBase).getD r.base }, peek := peek }

/-- A byte that host memory has returned for a slot's line (R176). -/
def Dev.hostByte (d : Dev) (s a : Nat) : Option Byte :=
  match d.disp.hostLines.find? fun h => h.1 == s && decide (h.2.1 ≤ a ∧ a < h.2.1 + h.2.2.length) with
  | some h => h.2.2[a - h.2.1]?
  | none => none

/-- Where a layer's samples come from in this frame. -/
def State.source (s : State) (rb : List RemoteBytes) (r : LRec) : Source :=
  s.dev.places r (if r.hostMem then fun a => (s.dev.hostByte r.slot a).getD 0
    else if s.dev.isRemote r then fun a => (remoteByte rb r.slot a).getD 0 else s.byteAt)

/-! Which bytes a line needs. -/

/-- Crop rows that output row `oy` of the layer uses (R217). -/
def LRec.cropRows (r : LRec) (oy : Nat) : List Nat := if r.vScaled then (scalePos oy r.sh r.dh r.vtaps).1 else [oy]

/-- Crop columns that output column `ox` uses. -/
def LRec.cropCols (r : LRec) (ox : Nat) : List Nat := if r.scaled then (scalePos ox r.sw r.dw 8).1 else [ox]

/-- First bytes of the samples that crop pixel (x, y) needs. -/
def Source.touch (s : Source) (x y : Nat) : List Nat :=
  let sx := mirrored s.r.sx s.r.sw x s.r.flipH
  let row := mirrored s.r.sy s.r.sh y s.r.flipV
  let pix := s.row row + pixelOffset s.r.fmt sx
  if !isYuv s.r.fmt then [pix]
  else
    let cols := s.chromaCols x
    let rows := s.chromaRows y
    let at' := fun k =>
      let col := chromaIdx s.r.sx s.r.sw s.r.flipH k
      [rows.1, rows.2].map fun c => if s.r.fmt = 8 then s.row c + 4 * col else s.crow c + pairBytes s.r.fmt * col
    pix :: (at' cols.1 ++ at' cols.2)

/-- The 64-byte lines that line `y` of a layer needs: those of its unhidden pixels (R213). -/
def Source.lines (s : Source) (stack : List LRec) (y : Nat) : List Nat :=
  let cols := (List.range s.r.dw).filter fun ox => !coveredBy stack s.r (s.r.dx + ox) y
  let xs := sortN ((cols.map s.r.cropCols).flatten)
  let ys := sortN (s.r.cropRows (y - s.r.dy))
  (sortN ((ys.map fun cy => (xs.map fun cx => (s.touch cx cy).map (· / 64)).flatten).flatten)).map (64 * ·)

/-! Layers that are switched off. -/

/-- Switch a layer off for the rest of the frame. -/
def Dev.switchOff (d : Dev) (s : Nat) : Dev := d.setF DSP_SLOT_STAT.OFF_FRAME s 1

def CanopySt.onLine (c : CanopySt) (y : Nat) : Bool := c.on && decide (c.y ≤ y ∧ y < c.y + c.h)

/-- The composition of the line is Secure work: it blends the Canopy, or fetches for a Secure owner (R110). -/
def Dev.lineSecure (d : Dev) (n y : Nat) : Bool :=
  (d.out n).canopy.onLine y || (d.stack n).any fun r => r.onLine y && d.secureCode (d.slotOwner r.slot)

/-- A layer underrun (R237). -/
def Dev.underrun (d : Dev) (n s y : Nat) : Dev :=
  let d1 := (((d.switchOff s).setF DSP_CMP_STAT.LAYER_UR n 1).count DSP_CMP_UR.LAYER_UR_COUNT n 1)
  let d2 := if d1.fb DSP_CMP_UR_LAST.VALID n then d1 else
    ((d1.setF DSP_CMP_UR_LAST.SLOT n s).setF DSP_CMP_UR_LAST.LINE n y).setF DSP_CMP_UR_LAST.VALID n 1
  (d2.pmcHit 0x08 n (d.slotOwner s) (d.lineSecure n y || d.secureCode (d.slotOwner s)) 1).raise (outEv n 5)

/-- A piece of work for layer `s` of output `n`. -/
def layerWork (n s : Nat) : Work := .layer (Fin.ofNat 12 n) (Fin.ofNat 384 s)

/-- What host memory has returned, or is still to return, for the layers of some slots is dropped. -/
def Dev.dropHost (d : Dev) (n : Nat) (ss : List Nat) : Dev :=
  let d1 := { d with disp := { d.disp with hostLines := d.disp.hostLines.filter fun h => !ss.contains h.1 } }
  d1.keepReads fun r => !ss.any fun s => r.work == layerWork n s

/-- A host-memory or remote fetch fails (R176, R542). -/
def Dev.hostFetchFailed (d : Dev) (n s : Nat) : Dev := ((d.switchOff s).dropHost n [s]).raise (outEv n 3)

/-- A fetch is refused (R200). -/
def Dev.fetchRefused (d : Dev) (n s : Nat) : Dev :=
  (((((d.switchOff s).setF DSP_SLOT_STAT.HIDE_CAUSE s 2).setF DSP_SLOT_STAT.VISIBLE s 0).raise (outEv n 2)).notice
    (d.slotOwner s) 0 s ST_FETCH_OWNER (d.seq n))

/-- The requester of a layer's fetch (R81, R175). -/
def Dev.slotReq (d : Dev) (s : Nat) : Req := ⟨d.slotOwner s, d.secureCode (d.slotOwner s)⟩

/-- Read the 64-byte lines that an engine needs, until one fails (R88). -/
def State.touchLines (s : State) (r : Req) (path : Nat) : List Nat → State × Fetch
  | [] => (s, .ok [])
  | a :: t =>
    match s.readMem r path a 64 with
    | (s1, .ok _) => s1.touchLines r path t
    | (s1, e) => (s1, e)

/-- A ring line counts as arrived only while its slot's tag names it (R318). -/
def CsSt.arrived (c : CsSt) (j : Nat) : Bool := c.tags.get (j % c.ring) == some (c.viewFrame, j)

/-- The 64-byte lines of a layer that line `y` needs: none while the layer is switched off. -/
def Dev.needs (d : Dev) (stack : List LRec) (r : LRec) (y : Nat) : List Nat :=
  if d.offFrame r.slot || !r.onLine y then [] else (d.places r fun _ => 0).lines stack y

/-- Lines that a peer returned for a slot move over its link (R494). -/
def Dev.countRemote (d : Dev) (s n : Nat) : Dev :=
  match d.remoteOf s with
  | some k => d.pmcHit 0x06 (2 * d.peerPort (d.fl CNV_RLB.PEER k)) (d.slotOwner s) (d.secureCode (d.slotOwner s)) n
  | none => d

/-- Fetch one layer for line `y` (R176, R200, R237): a failure switches it off. -/
def State.fetchLayer (s : State) (n y : Nat) (rb : List RemoteBytes) (stack : List LRec) (r : LRec) : State :=
  let lines := s.dev.needs stack r y
  if lines.isEmpty || r.hostMem then s
  else if s.dev.isRemote r then
    if s.dev.remoteReady r.slot && lines.all fun a => (remoteByte rb r.slot a).isSome then s.onDev (·.countRemote r.slot lines.length)
    else s.onDev (·.hostFetchFailed n r.slot)
  else if (match s.dev.ringOf r.slot with | some cs => !cs.arrived (r.sy + y - r.dy) | none => false) then
    s.onDev (·.underrun n r.slot y)
  else
    match s.touchLines (s.dev.slotReq r.slot) 0 lines with
    | (s1, .ok _) => s1
    | (s1, .refused) => s1.onDev (·.fetchRefused n r.slot)
    | (s1, .poisoned) => s1.onDev (·.underrun n r.slot y)

/-! Layers in host memory (R176). -/

/-- Lines of a host-memory layer that line `y` needs and that have not arrived. -/
def Dev.hostMissing (d : Dev) (stack : List LRec) (y : Nat) (r : LRec) : List Nat :=
  if r.hostMem then (d.needs stack r y).filter fun a => (d.hostByte r.slot a).isNone else []

/-- The host-memory layers of which line `y` still needs data; none with CBLANK (R259). -/
def Dev.hostWaits (d : Dev) (n y : Nat) : List LRec :=
  if d.fb DSP_CNP_STAT.CBLANK n then [] else (d.stack n).filter fun r => !(d.hostMissing (d.stack n) y r).isEmpty

/-- Read the lines of a layer that have not been asked for, with the requester ID of the function that owns the slot. -/
def Dev.askHost (d : Dev) (n y : Nat) (r : LRec) : Dev :=
  match Fn.ofCode (d.slotOwner r.slot) with
  | some f => (d.hostMissing (d.stack n) y r).foldl (fun (d : Dev) a =>
      if d.hrq.reads.any fun q => q.work == layerWork n r.slot && q.addr == a then d else d.hostRead (layerWork n r.slot) none f a 64) d
  | none => d.hostFetchFailed n r.slot

/-- Data for a layer has arrived. -/
def Dev.hostArrived (d : Dev) (s a : Nat) (bs : List Byte) : Dev :=
  { d with disp := { d.disp with hostLines := d.disp.hostLines ++ [(s, a, bs)] } }

/-! The Canopy (R256 to R258). -/

/-- A Canopy fetch fails (R257): FAIL_COLOUR for the rest of the frame, and after a refusal until the next CANOPY_SET lands. -/
def Dev.canopyFault (d : Dev) (n : Nat) (held : Bool) : Dev :=
  ((d.updOut n fun o => { o with failFrame := true, failHeld := o.failHeld || held }).setF DSP_CNP_STAT.CANOPY_FAULT n 1).raise (outEv n 6)

/-- The address of Canopy pixel (x, y) (R250). -/
def CanopySt.addr (c : CanopySt) (x y : Nat) : Nat := c.base + (y - c.y) * c.stride + (x - c.x) * 4

/-- Fetch the Canopy's part of line `y`. -/
def State.fetchCanopy (s : State) (n y : Nat) : State :=
  let o := s.dev.out n
  let c := o.canopy
  if !c.onLine y || o.failFrame || o.failHeld then s
  else
    let first := c.addr c.x y / 64
    let last := (c.addr c.x y + 4 * c.w - 1) / 64
    match s.touchLines ⟨0x01, true⟩ 1 ((List.range (last + 1 - first)).map fun k => 64 * (first + k)) with
    | (s1, .ok _) => s1
    | (s1, .refused) => s1.onDev (·.canopyFault n true)
    | (s1, .poisoned) => s1.onDev (·.canopyFault n false)

/-- FAIL_COLOUR as a working value (R257). -/
def Dev.failColour (d : Dev) (n : Nat) : Px :=
  let v := d.fl DSP_CNP_FAILCOL.FAIL_COLOUR n
  ⟨rep16 10 (bits v 29 20), rep16 10 (bits v 19 10), rep16 10 (bits v 9 0), 65535⟩

/-- The Canopy blend of output pixel (x, y) over `p` (R257, R258). -/
def State.canopyBlend (s : State) (n x y : Nat) (p : Px) : Px :=
  let o := s.dev.out n
  let c := o.canopy
  if c.onLine y && decide (c.x ≤ x ∧ x < c.x + c.w) then
    if o.failFrame || o.failHeld then s.dev.failColour n
    else blendPx c.blend c.alpha (rgbPixel c.fmt (le (s.bytesAt (c.addr x y) 4) 0 4)) p
  else p

/-! A line. -/

/-- The blended layers of output pixel (x, y) (R210 to R213, R238). -/
def State.blendAt (s : State) (n : Nat) (rb : List RemoteBytes) (stack : List LRec) (x y : Nat) : Px :=
  let o := s.dev.out n
  stack.foldl (fun d r =>
    if r.onLine y && r.onCol x && !coveredBy stack r x y then
      if s.dev.offFrame r.slot then (if r.opaque? then background o.stage else d)
      else blendPx r.blend r.alpha ((s.source rb r).layerPx o.coefs (x - r.dx) (y - r.dy)) d
    else d) (background o.stage)

/-- The Normal-world part of line `y`: with CBLANK, black that bypasses the colour stage (R259). -/
def State.normalLine (s : State) (n y : Nat) (rb : List RemoteBytes) (blank : Bool) : List Px :=
  let o := s.dev.out n
  let stack := s.dev.stack n
  (List.range (s.dev.hact n)).map fun x =>
    if blank then ⟨0, 0, 0, 65535⟩ else colourStage o.stage (s.blendAt n rb stack x y)

/-- The line's source bytes are fetched, top layer first; none with CBLANK (R259). -/
def State.fetchLine (s : State) (n y : Nat) (rb : List RemoteBytes) (blank : Bool) : State :=
  let stack := s.dev.stack n
  (if blank then s else stack.reverse.foldl (fun s r => s.fetchLayer n y rb stack r) s).fetchCanopy n y

/-! Captures (R233, R234). -/

/-- A capture ends at LTIME `t`: its command completes. -/
def Dev.endCapture (d : Dev) (n : Nat) (c : Capture) (st res t : Nat) : Dev :=
  ((d.updOut n fun o => { o with captures := o.captures.filter fun x => x.group.id != c.group.id }).endGroup c.group st (fun _ => res) t).syncOuts

/-- The requester of a capture's writes (R81, R233). -/
def Capture.req (c : Capture) : Req := if c.tap = 1 then ⟨0x01, true⟩ else ⟨c.group.code, c.group.sec⟩

/-- The writes of one captured line, of up to 64 bytes each. -/
def Capture.writes (c : Capture) (y : Nat) (px : List Px) : List (Nat × List Byte) :=
  (pieces ((px.map fun p => toLe (captureWord c.fmt p) 4).flatten)).zipIdx.map fun b => (c.base + y * c.stride + 64 * b.2, b.1)

/-- A line enters the FIFO of a capture. -/
def Capture.take (c : Capture) (y vact : Nat) (px : List Px) : Capture :=
  { c with lines := y + 1, height := vact, fifo := c.fifo ++ [c.writes y px] }

/-- The FIFO of four lines takes a further line of every capture of the frame (R234). -/
def Dev.wbRoom (d : Dev) (n : Nat) : Bool :=
  let cs := (d.out n).captures
  let more := (cs.filter fun c => c.seq == d.seq n).length
  more == 0 || decide ((cs.map fun c => c.fifo.length).foldl (· + ·) 0 + more ≤ 4)

/-- The next write of an output's captures. -/
def Dev.wbNext (d : Dev) (n : Nat) : Option (Capture × Nat × List Byte) :=
  (d.out n).captures.findSome? fun c => (c.fifo.head?.bind List.head?).map fun w => (c, w.1, w.2)

/-- One write of a capture leaves its FIFO. -/
def Capture.drain (c : Capture) (t : Nat) : Capture :=
  match c.fifo with
  | (_ :: w :: ws) :: ls => { c with fifo := (w :: ws) :: ls }
  | _ :: ls => { c with fifo := ls, written := c.written + 1, doneAt := t }
  | [] => c

def Dev.wbWritten (d : Dev) (n : Nat) (c : Capture) : Dev :=
  d.updOut n fun o => { o with captures := o.captures.map fun x => if x.group.id = c.group.id then x.drain d.now else x }

/-! A line. -/

/-- Compose line `y` of output `n` (R205): the state after its fetches and captures, and its packed pixels. -/
def State.composeAt (s : State) (n y : Nat) (rb : List RemoteBytes) : State × List Nat :=
  let blank := s.dev.fb DSP_CNP_STAT.CBLANK n
  let s1 := s.fetchLine n y rb blank
  let pre := s1.normalLine n y rb blank
  let post := pre.zipIdx.map fun p => s1.canopyBlend n p.2 y p.1
  let line := post.zipIdx.map fun p => packPx (s1.dev.out n).final p.2 y p.1
  (s1.onDev fun d => ((d.updOut n fun o => { o with
      compose := y + 1
      captures := o.captures.map fun c => if c.seq = d.seq n then c.take y (d.vact n) (if c.tap = 1 then post else pre) else c
    }).dropHost n (d.slotsOf n)).pmcHit 0x07 n noFunction (d.lineSecure n y) 1, line)

/-- A runway line is free: four lines in all, one of them draining (R35). -/
def OutSt.free (o : OutSt) : Bool := decide (o.runway.length + b2n o.sending.isSome < 4)

def Dev.setLevel (d : Dev) (n : Nat) : Dev := d.setF DSP_RUNWAY_STAT.LEVEL n (min 3 (d.out n).runway.length)

/-- A line-locked view shows its ring on the output: the compositor is paced, and the runway-low check is suspended (R320). -/
def Dev.paced (d : Dev) (n : Nat) : Bool := (d.slotsOf n).any fun s => (d.ringOf s).isSome && (d.frameRec s).isSome

/-- The layer deadline of line `y` has passed: scan-out of line `y - 1` has begun, or for line 0 the last blanking line (R237). -/
def Dev.deadlinePast (d : Dev) (n y : Nat) : Bool :=
  let o := d.out n
  if o.scan = 0 then y == 0 && d.f DSP_TG_STAT.LINE n + 1 == d.f DSP_TG_V0.VTOTAL n else decide (y ≤ o.scan)

/-- The compositor may begin its next line: a runway line is free, or the line is late and has none to take; a paced line's deadline has passed; and
the writeback FIFO has room (R35, R234, R240, R320). -/
def Dev.mayCompose (d : Dev) (n : Nat) : Bool :=
  let o := d.out n
  d.tgScans n && decide (o.compose < d.vact n) && (o.free || decide (o.compose < o.scan)) && (!d.paced n || d.deadlinePast n o.compose) &&
    d.wbRoom n

/-- The compositor composes its next line (R35, R36, R204), or asks for the host-memory data that the line still needs (R176). The pixels of a line whose
scan-out has begun reach writeback alone (R240). -/
def State.composeNext (s : State) (n : Nat) (rb : List RemoteBytes) : State :=
  let o := s.dev.out n
  let y := o.compose
  if !s.dev.mayCompose n then s
  else match s.dev.hostWaits n y with
    | [] =>
      let res := s.composeAt n y rb
      if y < o.scan then res.1
      else res.1.onDev fun d => (d.updOut n fun o => { o with runway := o.runway ++ [res.2] }).setLevel n
    | rs => s.onDev fun d => rs.foldl (fun d r => d.askHost n y r) d

def execComposeLine (n : Fin 12) (rb : List RemoteBytes) (s : State) : Host.Outcome State Fault Refusal := .next (s.composeNext n.val rb)

/-! Scan-out. -/

/-- Feed the packed pixels of a line to the CRC-32C of a window (R262). -/
def CwRun.feed (c : CwRun) (px : List Nat) : CwRun :=
  { c with crc := ((px.map fun p => toLe (p % 2 ^ 30) 4).flatten).foldl (crcFeed 1) c.crc, fed := c.fed + px.length }

/-- The conditions of a hard lock on the settings of a follower (R281). -/
def Dev.hardMatch (d : Dev) (n src ofs : Nat) : Bool :=
  decide (src < 12) && ofs == 0 && d.f DSP_TG_H0.HTOTAL n == d.f DSP_TG_H0.HTOTAL src && d.f DSP_TG_V0.VTOTAL n == d.f DSP_TG_V0.VTOTAL src &&
    d.f DSP_TG_CTRL.LATCH_OFS n == d.f DSP_TG_CTRL.LATCH_OFS src && d.f DSP_TG_PCLK.M n == d.f DSP_TG_PCLK.M src

/-- The follower is hard-locked: its settings ask for it and meet the conditions (R281). -/
def Dev.hardOk (d : Dev) (n : Nat) : Bool :=
  d.f DSP_TG_GL.SRC_TYPE n == 1 && d.fb DSP_TG_GL.HARD n && d.hardMatch n (d.f DSP_TG_GL.SRC_IDX n) (d.f DSP_TG_GL_OFS.OFFSET_NS n)

/-- The generator whose pixel clock output `n` runs from: a hard follower on its source's clock follows it, through up to eleven others (R281). -/
def Dev.clockOf (d : Dev) (n : Nat) : Nat :=
  (List.range 12).foldl (fun m _ => if d.tgScans m && (d.out m).onClock && d.hardOk m then d.f DSP_TG_GL.SRC_IDX m else m) n

/-- The steering of the clock that output `n` runs from. -/
def Dev.steerOf (d : Dev) (n : Nat) : Int := (d.out (d.clockOf n)).steer

/-- Pixels of the line in progress that have been sent, with the pixel period in progress (R274): the clock is 38.4 MHz × M / 2^24 as steered. -/
def Dev.sentPixels (d : Dev) (n : Nat) : Nat :=
  let o := d.out n
  let f := d.f DSP_TG_PCLK.M n * ((10 : Int) ^ 9 + d.steerOf n).toNat * 384
  if o.sending.isSome then min (d.hact n) ((d.now - o.lineAt) * f / (2 ^ 24 * 10 ^ 13) + 1) else 0

/-- A window's run once `k` pixels of the line in progress have been sent: the lines that have ended, and that part of the line. -/
def Dev.cwAt (d : Dev) (n w k : Nat) : CwRun :=
  let o := d.out n
  let i := idx2 16 n w
  let r := o.cw.get w
  let wy := d.fl DSP_CW_XY.Y i
  match o.sending with
  | some line =>
    if wy < o.scan ∧ o.scan ≤ wy + d.fl DSP_CW_WH.H i then
      r.feed (((line.take k).drop (d.fl DSP_CW_XY.X i)).take (d.fl DSP_CW_WH.W i))
    else r
  | none => r

/-- A window's run over the pixels sent by now. -/
def Dev.cwNow (d : Dev) (n w : Nat) : CwRun := d.cwAt n w (d.sentPixels n)

/-- Enabled windows take the first `k` pixels of the line in progress. -/
def Dev.feedWindows (d : Dev) (n k : Nat) : Dev :=
  (List.range 16).foldl (fun (d : Dev) w =>
    if d.fl DSP_CW_CTRL.EN (idx2 16 n w) = 1 then d.updOut n fun o => { o with cw := o.cw.put w (d.cwAt n w k) } else d) d

/-- Bits per component of a port (R300). -/
def Dev.portBpc (d : Dev) (p : Nat) : Nat := 6 + 2 * d.f DSP_PORT_CFG.BPC p

/-- A packed pixel as a port carries it: each component's top bits (R289). -/
def portPixel (bpc px : Nat) : Nat :=
  let c := fun k => px / 2 ^ (10 * k) % 2 ^ 10 / 2 ^ (10 - bpc)
  (c 2 * 2 ^ bpc + c 1) * 2 ^ bpc + c 0

/-- The port that an output is routed to, if any (R278). -/
def Dev.portOfOut (d : Dev) (n : Nat) : Option Nat :=
  let p := d.f DSP_TG_ROUTE.PORT n
  if p < 16 then some p else none

/-- Line `l` of the frame begins on the routed stream, where it carries video: the order of its parts, and the sync with its polarities, which DSI and A-PHY
carry as sync events (R270). -/
def Dev.emitRaster (d : Dev) (n l : Nat) : Dev :=
  match d.portOfOut n with
  | some p => if (d.out n).video then
      let a := d.hact n
      let hfp := d.f DSP_TG_H1.HFP n
      let hsw := d.f DSP_TG_H1.HSW n
      let v := d.vact n + d.f DSP_TG_V1.VFP n
      d.emit (.raster p (d.f DSP_TG_ROUTE.STREAM n) l [a, hfp, hsw, d.f DSP_TG_H0.HTOTAL n - a - hfp - hsw]
        (decide (v ≤ l ∧ l < v + d.f DSP_TG_V1.VSW n)) (d.fb DSP_TG_CTRL.HPOL n) (d.fb DSP_TG_CTRL.VPOL n)) else d
  | none => d

/-- The pixels of the line sent so far leave on the routed stream, where it carries video. -/
def Dev.emitVideo (d : Dev) (n : Nat) (px : List Nat) : Dev :=
  match d.portOfOut n with
  | some p => if (d.out n).video then
      d.emit (.video p (d.f DSP_TG_ROUTE.STREAM n) ((d.out n).scan - 1) (px.map (portPixel (d.portBpc p)))) else d
  | none => d

/-- The line in progress ends with the first `k` of its pixels sent; a line cut short does not count as sent. -/
def Dev.closeLine (d : Dev) (n k : Nat) : Dev :=
  match (d.out n).sending with
  | some line => ((d.feedWindows n k).emitVideo n (line.take k)).updOut n fun o => { o with sending := none, scan := if k < d.hact n then o.scan - 1 else o.scan }
  | none => d

/-- The line in progress ends in full. -/
def Dev.finishLine (d : Dev) (n : Nat) : Dev := d.closeLine n (d.hact n)

/-- The runway-low check at the start of a line, with the lines that wait ahead (R37, R39). -/
def Dev.runwayCheck (d : Dev) (n ahead : Nat) (empty : Bool) : Dev :=
  let d1 := d.updOut n fun o => { o with minLevel := min o.minLevel (min 3 ahead) }
  let d2 := if empty then d1.setF DSP_RUNWAY_STAT.EMPTY n 1 else d1
  if ahead < d2.fl DSP_RUNWAY_CTRL.LOW_MARK n && !d2.paced n then (d2.setF DSP_RUNWAY_STAT.LOW n 1).raise (outEv n 4) else d2

/-- BL_EN in automatic mode rises at line 0 of the second frame (R294). -/
def Dev.litLine (d : Dev) (n y : Nat) : Dev :=
  if y = 0 ∧ 2 ≤ (d.out n).litFrames then d.updOut n fun o => { o with lit := true } else d

/-! Layer deadlines (R237, R318, R321). -/

/-- A slack measured for a line of the frame in progress (R321). -/
def CsSt.measure (c : CsSt) (sl : Int) : CsSt :=
  { c with slackN := c.slackN + 1, slackSum := c.slackSum + sl
           slackMin := if c.slackN = 0 then sl else min c.slackMin sl
           slackMax := if c.slackN = 0 then sl else max c.slackMax sl }

/-- The deadline of the line that shows source line `j` passes at LTIME `t`: its slack is measured now, or when it arrives. A line counts from its arrival,
though its ring slot may have been overwritten since. -/
def CsSt.lineDue (c : CsSt) (j t : Nat) : CsSt :=
  match c.arrivals.find? fun a => a.1 == c.viewFrame && a.2.1 == j with
  | some a => c.measure ((t : Int) - (a.2.2 : Int))
  | none => { c with due := c.due ++ [(j, t)] }

/-- The layer deadline of line `y` in a line-locked view that shows its ring: frame F is fixed at the first line (R318), and slack is measured (R321). -/
def Dev.ringDeadline (d : Dev) (y : Nat) (r : LRec) : Dev :=
  match d.viewOf r.slot with
  | some c =>
    if (d.ringOf r.slot).isSome && r.onLine y then
      let fix := fun (x : CsSt) => if y = r.dy then { x with viewFrame := x.begun } else x
      { d with vin := { d.vin with cs := d.vin.cs.upd c fun x => (fix x).lineDue (r.sy + y - r.dy) d.now } }
    else d
  | none => d

/-- Data that the model follows itself has not arrived for line `y`: a ring line, or a line of host memory that the compositor has not taken. -/
def Dev.dataLate (d : Dev) (n y : Nat) (stack : List LRec) (r : LRec) : Bool :=
  !(d.needs stack r y).isEmpty && decide ((d.out n).compose ≤ y) &&
    ((match d.ringOf r.slot with | some cs => !cs.arrived (r.sy + y - r.dy) | none => false) || !(d.hostMissing stack y r).isEmpty)

/-- The layer deadline of line `y` passes. -/
def Dev.deadlineAt (d : Dev) (n y : Nat) : Dev :=
  if y < d.vact n then
    let stack := d.stack n
    let d1 := stack.foldl (fun d r => d.ringDeadline y r) d
    if d1.fb DSP_CNP_STAT.CBLANK n then d1
    else (stack.filter (d1.dataLate n y stack)).foldl (fun d r => (d.underrun n r.slot y).dropHost n [r.slot]) d1
  else d

/-! Lines of the raster (R270; log entry 136). -/

/-- An active line is sent: line counter and backlight, and the layer deadline of the line after it. -/
def Dev.sendLine (d : Dev) (n y : Nat) (line : List Nat) : Dev :=
  ((((d.updOut n fun o => { o with scan := y + 1, sending := some line, lineAt := d.now }).setF DSP_TG_STAT.LINE n y).emitRaster n y).litLine n y).deadlineAt n
    (y + 1)

/-- A blanking line starts; the last one before line 0 is that line's layer deadline. -/
def Dev.blankLine (d : Dev) (n : Nat) : Dev :=
  let l := d.f DSP_TG_STAT.LINE n + 1
  let d1 := (d.setF DSP_TG_STAT.LINE n l).emitRaster n l
  if (d1.out n).scan = 0 ∧ l + 1 = d1.f DSP_TG_V0.VTOTAL n then d1.deadlineAt n 0 else d1

/-- The compositor completes the lines before line `y` that it still owes; their pixels reach writeback alone (R240). -/
def State.catchUp (s : State) (n y : Nat) (rb : List RemoteBytes) : State :=
  (List.range (y - (s.dev.out n).compose)).foldl (fun s _ => (s.composeAt n (s.dev.out n).compose rb).1) s

/-- The late compositor (R240): pixels in time are sent, UNDERRUN_COLOUR takes the place of the others, and the line is completed. Where no pixel is in time
and the compositor still waits, on an earlier line or on the writeback FIFO (R234), the line is completed later. -/
def State.lateLine (s : State) (n y : Nat) (rb : List RemoteBytes) (inTime : List Bool) : State :=
  let o := s.dev.out n
  let ucol := s.dev.fl DSP_CMP_UCOL.UNDERRUN_COLOUR n
  let late := fun (d : Dev) (line : List Nat) =>
    ((((d.runwayCheck n 0 true).setF DSP_CMP_STAT.LATE n 1).count DSP_CMP_UR.LATE_LINES n 1).raise (outEv n 5)).sendLine n y line
  if o.compose ≤ y ∧ (inTime.any id ∨ (o.compose = y ∧ s.dev.wbRoom n)) then
    let res := (s.catchUp n y rb).composeAt n y rb
    res.1.onDev fun d => late d (res.2.zipIdx.map fun p => if inTime.getD p.2 false then p.1 else ucol)
  else s.onDev fun d => late d (List.replicate (d.hact n) ucol)

/-- Before the latch the compositor completes the lines of the ending frame that it still owes, whose pixels reach writeback; they may wait in the FIFO
beyond its four lines, and the compositor waits for them then (R234, R240, R242). -/
def State.completeFrame (s : State) (n : Nat) : State := s.catchUp n (s.dev.vact n) []

/-- Active line `y` starts (R35, R37, R240). -/
def State.activeLine (s : State) (n y : Nat) (rb : List RemoteBytes) (inTime : List Bool) : State :=
  match (s.dev.out n).runway with
  | line :: rest => s.onDev fun d =>
      (((d.updOut n fun o => { o with runway := rest }).runwayCheck n rest.length false).sendLine n y line).setLevel n
  | [] => s.lateLine n y rb inTime

/-- The line that starts next is active (R270): line 0 follows the last blanking line. -/
def Dev.nextActive (d : Dev) (n : Nat) : Bool :=
  let y := (d.out n).scan
  decide (y < d.vact n ∧ (0 < y ∨ d.f DSP_TG_V0.VTOTAL n ≤ d.f DSP_TG_STAT.LINE n + 1))

/-- The latch instant has come: every active line of the frame has been sent, and line VACT + LATCH_OFS starts next (R275). -/
def Dev.latchDue (d : Dev) (n : Nat) : Bool :=
  decide ((d.out n).scan = d.vact n ∧ d.f DSP_TG_STAT.LINE n + 1 = d.vact n + d.f DSP_TG_CTRL.LATCH_OFS n)

/-- The pixel domain begins the next line of the raster. `inTime` marks the pixels of a late line that are composed by their scan-out time. The line at
which the latch falls starts with the LATCH command. -/
def State.lineStart (s : State) (n : Nat) (rb : List RemoteBytes) (inTime : List Bool) : State :=
  if !s.dev.tgScans n || s.dev.latchDue n then s
  else
    let s1 := s.onDev (·.finishLine n)
    if s.dev.nextActive n then s1.activeLine n (s.dev.out n).scan rb inTime else s1.onDev (·.blankLine n)

def execLineScanStart (n : Fin 12) (rb : List RemoteBytes) (inTime : List Bool) (s : State) : Host.Outcome State Fault Refusal :=
  .next (s.lineStart n.val rb inTime)

/-- The layer deadline that passed last finds further data missing (R237, R257, R542): layers, and the Canopy, whose data from memory or from a peer has not
arrived for a line that is not composed yet. -/
def Dev.layerDeadline (d : Dev) (n : Nat) (late : List (Fin 384)) (canopyLate : Bool) : Dev :=
  let o := d.out n
  let y := o.scan
  if d.tgScans n && d.deadlinePast n y && decide (o.compose ≤ y ∧ y < d.vact n) then
    let d1 := late.foldl (fun (d : Dev) s =>
      match d.frameRec s.val with
      | some r =>
        if d.slotOut s.val == some n && r.onLine y && !d.offFrame s.val && !d.fb DSP_CNP_STAT.CBLANK n then
          if (d.remoteOf s.val).isSome then d.hostFetchFailed n s.val else (d.underrun n s.val y).dropHost n [s.val]
        else d
      | none => d) d
    let o1 := d1.out n
    if canopyLate && o1.canopy.onLine y && !o1.failFrame && !o1.failHeld then d1.canopyFault n false else d1
  else d

def execLayerDeadline (n : Fin 12) (late : List (Fin 384)) (canopyLate : Bool) (s : State) : Host.Outcome State Fault Refusal :=
  .next (s.onDev (·.layerDeadline n.val late canopyLate))

/-- The last active line of a captured frame has been written (R233). -/
def Dev.captureDone (d : Dev) (n : Nat) : Dev :=
  match (d.out n).captures.find? fun c => decide (0 < c.height) && c.written == c.height with
  | some c => d.endCapture n c c.group.landStatus c.seq c.doneAt
  | none => d

def execWritebackDone (n : Fin 12) (s : State) : Host.Outcome State Fault Refusal := .next (s.onDev (·.captureDone n.val))

end Sys2Proof.Machine
end

