-- ==== Sys2Proof/Machine/Own.lean ====
section
/-! DEFINITION. Changing owners (R92 to R97), copy-channel worlds (R105, R106), debug access (R108, R109) and host access to
device memory (R120). -/

namespace Sys2Proof.Machine

/-! The assignment interface. -/

/-- The device address of page number `k` counted from address 0. -/
def pageAddr (k : Nat) : Nat := 4096 * k

def pagesOf (first count : Nat) : List Nat := (List.range count).map (first + ·)

/-- The checks of R92 in their order: RESULT, with 0 for a range that passes. -/
def State.assignCheck (s : State) (who : Fn) (first count owner : Nat) : Nat :=
  let ps := pagesOf first count
  if ps.any fun k => !s.dev.populated (pageAddr k) then 3
  else if ps.any fun k => s.dev.inTable (pageAddr k) then 4
  else if ps.any fun k => !s.dev.mayGive who (s.ownerOf (pageAddr k)) then 1
  else if !s.dev.mayGive who owner then 2
  else 0

/-- The checks of R96. -/
def State.clrDirtyCheck (s : State) (who : Fn) (first count : Nat) : Nat :=
  let ps := pagesOf first count
  if ps.any fun k => !s.dev.populated (pageAddr k) then 3
  else if ps.any fun k => s.dev.inTable (pageAddr k) then 4
  else if ps.any fun k => !s.permits (s.dev.req who) (pageAddr k) true then 5
  else 0

/-- The operation ends: DONE is set with its RESULT (R92, R96). -/
def Dev.assignDone (d : Dev) (result : Nat) : Dev :=
  (({ d with own := { d.own with assign := none } }.setF OWN_ASSIGN_STAT.BUSY 0 0).setF OWN_ASSIGN_STAT.DONE 0 1).setF
    OWN_ASSIGN_STAT.RESULT 0 result

/-- Clear DIRTY on every page of a range (R96). -/
def State.clearDirty (s : State) (first count : Nat) : State :=
  (pagesOf first count).foldl (fun s k => s.setOwnByte (pageAddr k) (s.ownByte (pageAddr k) &&& 0x7F)) s

/-- GO of OWN_ASSIGN_CTRL is accepted from a PF, SP0 or Acholt in secure mode (R93); CLR_DIRTY from any requester (R96). -/
def Dev.mayAssign (d : Dev) (who : Fn) (clr : Bool) : Bool :=
  match who with
  | .pf _ | .sp0 => true
  | .acholt => clr || d.own.acholtSecure
  | .vf _ => clr

/-- A write of OWN_ASSIGN_CTRL (R92, R93, R96, R113). -/
def assignCtrlWrite (who : Fn) (val : Word) (s : State) : State :=
  let go := s.dev.acts who OWN_ASSIGN_CTRL.GO 0 val
  let s1 := s.onDev (·.write who .OWN_ASSIGN_CTRL 0 val)
  if !go then s1
  else
    let d := s1.dev
    let clr := d.fb OWN_ASSIGN_CTRL.CLR_DIRTY 0
    let first := d.reg64 .OWN_ASSIGN_ADDR_LO .OWN_ASSIGN_ADDR_HI 0 / 4096
    let count := d.f OWN_ASSIGN_CTRL.COUNT_M1 0 + 1
    let owner := d.f OWN_ASSIGN_CTRL.OWNER 0
    if !d.mayAssign who clr then s1.onDev (·.setF OWN_ASSIGN_STAT.WERR 0 1)
    else if clr then
      let res := s1.clrDirtyCheck who first count
      (if res = 0 then s1.clearDirty first count else s1).onDev (·.assignDone res)
    else
      let res := s1.assignCheck who first count owner
      if res ≠ 0 then s1.onDev (·.assignDone res)
      else s1.onDev fun d => { d with own := { d.own with
        assign := some ⟨who, first, count, owner, d.fb OWN_ASSIGN_CTRL.KEEP 0, 0⟩ } }.setF OWN_ASSIGN_STAT.BUSY 0 1

def execOwnAssign (who : Fn) (val : Word) (s : State) : Host.Outcome State Fault Refusal := .next (assignCtrlWrite who val s)

def execOwnClrDirty (who : Fn) (val : Word) (s : State) : Host.Outcome State Fault Refusal := .next (assignCtrlWrite who val s)

/-- Pages of the operation at or after `k` that are still to be zero-filled (R94, R95). -/
def State.toZero (s : State) (op : AssignOp) : List Nat :=
  ((List.range op.count).drop op.filled).filter fun k =>
    let o := s.ownerOf (pageAddr (op.first + k))
    o != op.owner && !s.dev.keepsContents op.keep o op.owner

/-- Clear one page, line by line where each line stands, in both banks while it migrates (R94). -/
def State.zeroPage (s : State) (a : Nat) : State :=
  { s with mem := (List.range 64).foldl (fun m k =>
      let m1 := m.zero (s.dev.place (a + 64 * k)) 64
      match s.dev.mirror (a + 64 * k) with
      | some p => m1.zero p 64
      | none => m1) s.mem }

/-- The next page that R94 does not let keep its contents is zero-filled (R95). -/
def execOwnZeroFillPage (s : State) : Host.Outcome State Fault Refusal :=
  .next (match s.dev.own.assign with
  | some op =>
    match s.toZero op with
    | [] => s
    | k :: _ => (s.zeroPage (pageAddr (op.first + k))).onDev fun d =>
        { d with own := { d.own with assign := some { op with filled := k + 1 } } }
  | none => s)

/-- Steps 5 to 8 of R92, once no page waits for its zero-fill: one atomic change of the whole range (R95). -/
def execOwnAssignUpdate (s : State) : Host.Outcome State Fault Refusal :=
  .next (match s.dev.own.assign with
  | some op =>
    if (s.toZero op).isEmpty then
      ((pagesOf op.first op.count).foldl (fun s k => s.setOwnByte (pageAddr k) (BitVec.ofNat 8 op.owner)) s).onDev (·.assignDone 0)
    else s
  | none => s)

/-- What OWN_QUERY_RESULT shows a reader (R111): a PF sees 0 for a page that R87 would refuse it. -/
def State.queryResult (s : State) (who : Fn) : Nat :=
  let a := s.dev.reg64 .OWN_QUERY_ADDR_LO .OWN_QUERY_ADDR_HI 0
  if !s.dev.populated a then 0x100
  else match who with
    | .pf _ => if s.permits (s.dev.req who) a false then (s.ownByte a).toNat else 0
    | _ => (s.ownByte a).toNat

/-- The ownership table is written as 0x00, and as 0x01 over its own range (R97). -/
def State.initTable (s : State) : State :=
  let base := s.dev.own.tableBase
  let size := s.dev.tableSize
  let s1 := { s with mem := (List.range (size / 64)).foldl (fun m k => m.zero (s.dev.place (base + 64 * k)) 64) s.mem }
  (List.range (size / 4096)).foldl (fun s k => s.setOwnByte (base + 4096 * k) 0x01) s1

/-! Copy-channel worlds. -/

def cpeIdx (e ch : Nat) : Nat := idx2 16 e ch

/-- A channel has transfers in flight (R106). -/
def Dev.chanBusy (d : Dev) (e ch : Nat) : Bool := d.fb CPE_CH_STAT.BUSY (cpeIdx e ch)

/-- The world bit of a channel in force (R105). -/
def Dev.chanSecure (d : Dev) (e ch : Nat) : Bool := bit (d.reg .OWN_CE_WORLD e).toNat ch

/-- A change of the channel's world bit waits for its transfers (R106). -/
def Dev.chanWorldHeld (d : Dev) (e ch : Nat) : Bool :=
  match d.own.ceWorldHeld.get e with
  | some w => bit w.toNat ch != d.chanSecure e ch
  | none => false

/-- The held world of one channel takes effect if its transfers have retired (R106). -/
def Dev.applyWorld (d : Dev) (e ch : Nat) : Dev :=
  if d.chanWorldHeld e ch && !d.chanBusy e ch then
    d.setReg .OWN_CE_WORLD e (d.reg .OWN_CE_WORLD e ^^^ BitVec.ofNat 32 (2 ^ ch))
  else d

/-- A change of the channel worlds of engine `e` to `w` (R106): at once where no transfer is in flight, held otherwise. -/
def Dev.setWorlds (d : Dev) (e : Nat) (w : Word) : Dev :=
  (List.range 16).foldl (fun d ch => d.applyWorld e ch)
    { d with own := { d.own with ceWorldHeld := d.own.ceWorldHeld.put e (some (w &&& 0xFFFF)) } }

/-! Debug access. -/

def Dev.anyDebug (d : Dev) : Bool := d.own.invS || d.own.ninvS || d.own.invN || d.own.ninvN

/-- The enable that an instruction needs (R108, R109). -/
def Dev.jtagAccepts (d : Dev) : JtagInstr → Bool
  | .idcode | .bypass => true
  | .extest | .intest | .haltAcholt _ | .inspectSecure => d.own.invS
  | .traceSecure => d.own.ninvS
  | .traceNormal => d.own.ninvN
  | .memoryAccess => d.own.invS || d.own.invN
  | .haltNormal _ | .stepNormal => d.own.invN
  | .other => d.anyDebug

/-- What an accepted instruction does to the contexts that it halts, steps or lets go on (R108; log entry 126). -/
def OwnSt.debugged (o : OwnSt) : JtagInstr → OwnSt
  | .haltAcholt on => { o with acholtHalted := on }
  | .haltNormal on => { o with normalHalted := on, normalSteps := 0 }
  | .stepNormal => if o.normalHalted then { o with normalSteps := o.normalSteps + 1 } else o
  | _ => o

def execJtagInstruction (i : JtagInstr) (s : State) : Host.Outcome State Fault Refusal :=
  .next (s.onDev fun d =>
    let ok := d.jtagAccepts i
    (if ok then { d with own := d.own.debugged i } else d).emit (.jtag ok))

/-- A JTAG memory access (R82, R87): none with neither INV_S nor INV_N set. -/
def execJtagMemoryAccess (write : Bool) (addr len : Nat) (data : List Byte) (ecc : List Ecc) (s : State) : Host.Outcome State Fault Refusal :=
  let r : Req := ⟨0x07, s.dev.own.invS⟩
  .next (if !(s.dev.own.invS || s.dev.own.invN) then s
    else if write then
      match s.writeMem r 12 addr data with
      | (s1, true) => s1.onDev (·.pmcLines r addr data.length)
      | (s1, false) => s1
    else match s.readEcc r 12 addr len ecc with
      | (s1, .ok bs) => s1.onDev fun d => (d.pmcLines r addr len).emit (.readData 0x07 bs)
      | (s1, .poisoned) => s1.onDev (·.emit (.poisonedData 0x07))
      | (s1, .refused) => s1)

/-! Host access. -/

/-- A BAR4 access (R119, R120, R638): PF offsets are device addresses, a VF's lie above its aperture. -/
def execBarMemoryAccess (who : Fn) (off : Nat) (write : Bool) (len : Nat) (data : List Byte) (ecc : List Ecc) (rivals : List Rival) (ns : Nat)
    (s : State) : Host.Outcome State Fault Refusal :=
  let base := match who with
    | .vf _ => s.dev.reg64 .HRQ_APERTURE_LO .HRQ_APERTURE_HI who.code
    | _ => 0
  let size := match who with
    | .vf _ => 0x10000000
    | _ => 0x1000000000
  let r := s.dev.req who
  .next (match portOf who.code with
    | none => s
    | some p =>
      if !s.dev.reaches who ∨ size < off + (if write then data.length else len) then s
      else match s.contend r 10 (unitHost p) write (base + off) len data ecc ns rivals with
        | (s1, some (.ok bs)) =>
          if write then s1.onDev (·.pmcPort who false data.length) else s1.onDev fun d => (d.pmcPort who true len).emit (.readData r.mid bs)
        | (s1, some .poisoned) => s1.onDev (·.emit (.poisonedData r.mid))
        | (s1, some .refused) => if write then s1 else s1.onDev (·.emit (.readData r.mid (List.replicate len 0xFF)))
        | (s1, none) => s1)

end Sys2Proof.Machine
end

