-- ==== Sys2Proof/Machine/Copy.lean ====
section
/-! DEFINITION. The copy engines (R375 to R381, R385). -/

namespace Sys2Proof.Machine

def Dev.chan (d : Dev) (x : Nat) : CpChan := d.gpu.chans.get x

def Dev.updChan (d : Dev) (x : Nat) (g : CpChan → CpChan) : Dev := { d with gpu := { d.gpu with chans := d.gpu.chans.upd x g } }

/-- Channel `c` of engine `e` is number 16 e + c; CH of a body holds the same number. -/
def Cmd.cpChan (c : Cmd) : Nat := c.u 32 1 % 64

def Cmd.srcHost (c : Cmd) : Bool := c.opcode != 0x62 && bit (c.u 33 1) 0
def Cmd.dstHost (c : Cmd) : Bool := c.opcode != 0x64 && bit (c.u 33 1) 1

/-- The peer that the source or destination side of a channel addresses (R540). -/
def Dev.cpSrcPeer (d : Dev) (x : Nat) : Option Nat := if d.fl CNV_CE_PEER.SRC_EN x = 1 then some (d.fl CNV_CE_PEER.SRC_PEER x) else none

def Dev.cpDstPeer (d : Dev) (x : Nat) : Option Nat := if d.fl CNV_CE_PEER.DST_EN x = 1 then some (d.fl CNV_CE_PEER.DST_PEER x) else none

/-- A range lies in the populated memory of a peer (R540). -/
def Dev.inPeer (d : Dev) (p lo hi : Nat) : Bool :=
  inBanks lo hi || decide (ddrBase ≤ lo ∧ lo ≤ hi ∧ hi < ddrBase + 2 ^ 30 * d.f CNV_PEER_INFO.MEM_GIB (d.peerPort p))

/-- A range of one side lies in the memory that the side addresses. -/
def Dev.inSide (d : Dev) (p : Option Nat) (lo hi : Nat) : Bool := match p with | some p => d.inPeer p lo hi | none => d.inDevice lo hi

/-- The source bytes of a command come from host memory. -/
def Dev.fromHost (d : Dev) (x : Nat) (c : Cmd) : Bool := c.srcHost && (d.cpSrcPeer x).isNone

/-- The owner of a channel in force. -/
def Dev.cpOwner (d : Dev) (x : Nat) : Nat := d.fl CPE_CH_ASSIGN.OWNER x

/-- The requester of a channel's accesses (R81, R105). -/
def Dev.cpReq (d : Dev) (x : Nat) : Req := ⟨d.cpOwner x, d.chanSecure (x / 16) (x % 16)⟩

/-- Bytes per pixel of a CONVERT format. -/
def cvBytes (fmt : Nat) : Nat := if fmt = 11 then 8 else if fmt = 4 then 2 else 4

/-- Rows of a command: count, bytes of a source row and of a destination row, and the strides. -/
structure CpShape where
  rows : Nat
  sbytes : Nat
  dbytes : Nat
  sstride : Nat
  dstride : Nat
deriving DecidableEq, Repr, Inhabited

def Cmd.shape (c : Cmd) : CpShape :=
  match c.opcode with
  | 0x60 => ⟨1, c.u 56 8, c.u 56 8, 0, 0⟩
  | 0x61 => ⟨c.u 34 2, c.u 36 4, c.u 36 4, c.u 56 4, c.u 60 4⟩
  | 0x62 => ⟨1, 0, c.u 48 8, 0, 0⟩
  | 0x63 => ⟨c.u 38 2, c.u 36 2 * cvBytes (c.u 34 1), c.u 36 2 * cvBytes (c.u 35 1), c.u 56 2, c.u 58 2⟩
  | _ => ⟨1, c.u 48 8, 0, 0, 0⟩

def Cmd.cpSrc (c : Cmd) : Nat := c.u 40 8
def Cmd.cpDst (c : Cmd) : Nat := if c.opcode = 0x62 then c.u 40 8 else c.u 48 8

/-- Bytes from the first to behind the last of `n` rows. -/
def span (n stride bytes : Nat) : Nat := (n - 1) * stride + bytes

/-- Two ranges of `n` and `m` bytes share one. -/
def meets (a n b m : Nat) : Bool := decide (a < b + m ∧ b < a + n ∧ 0 < n ∧ 0 < m)

/-- Some row of the source shares a byte with some row of the destination. -/
def Cmd.overlaps (c : Cmd) : Bool :=
  let h := c.shape
  meets c.cpSrc (span h.rows h.sstride h.sbytes) c.cpDst (span h.rows h.dstride h.dbytes) &&
    (List.range h.rows).any fun i => (List.range h.rows).any fun j => meets (c.cpSrc + i * h.sstride) h.sbytes (c.cpDst + j * h.dstride) h.dbytes

/-- The checks of R378 in order. -/
def Dev.copyErr (d : Dev) (f : Fn) (c : Cmd) : Option (Nat × Nat) :=
  let x := c.cpChan
  let op := c.opcode
  let h := c.shape
  let crc := op == 0x64
  let cv := op == 0x63
  let hasSrc := op != 0x62
  let slen := span h.rows h.sstride h.sbytes
  let dlen := span h.rows h.dstride h.dbytes
  let sp := if hasSrc then d.cpSrcPeer x else none
  let dp := if crc then none else d.cpDstPeer x
  let devS := hasSrc && (sp.isSome || !c.srcHost)
  let devD := !crc && (dp.isSome || !c.dstHost)
  firstError
    [(d.cpOwner x != f.code, ST_NOT_OWNER, errByte 32), (crc && d.cvuOwner (c.u 34 1 % 8) != f.code, ST_NOT_OWNER, errByte 34),
     (c.secure != d.chanSecure (x / 16) (x % 16) && !d.chanWorldHeld (x / 16) (x % 16), ST_OWN_REFUSED, 0), (c.ext != 0, ST_BAD_FIELD, errOutside),
     (!c.conts.isEmpty, ST_BAD_FIELD, errAt 32), (decide (64 ≤ c.u 32 1), ST_BAD_FIELD, errByte 32),
     (decide (4 ≤ c.u 33 1) || (f == .sp0 && c.u 33 1 != 0), ST_BAD_FIELD, errByte 33),
     (((op == 0x60 || op == 0x62) && !c.zero 34 39) || (crc && decide (8 ≤ c.u 34 1)), ST_BAD_FIELD, errByte 34),
     (crc && !c.zero 35 39, ST_BAD_FIELD, errByte 35), (crc && !c.zero 56 63, ST_BAD_FIELD, errByte 56),
     (op == 0x61 && c.u 34 2 == 0, ST_BAD_FIELD, errByte 34), ((op == 0x61 && c.u 36 4 == 0) || (cv && c.u 36 2 == 0), ST_BAD_FIELD, errByte 36),
     (cv && c.u 38 2 == 0, ST_BAD_FIELD, errByte 38), (cv && !c.zero 60 63, ST_BAD_FIELD, errByte 60), (op == 0x60 && c.u 56 8 == 0, ST_BAD_FIELD, errByte 56),
     ((op == 0x62 || crc) && c.u 48 8 == 0, ST_BAD_FIELD, errByte 48),
     (cv && !(decide (1 ≤ c.u 34 1 ∧ c.u 34 1 ≤ 4) || c.u 34 1 == 11), ST_BAD_FORMAT, errByte 34),
     (cv && !decide (1 ≤ c.u 35 1 ∧ c.u 35 1 ≤ 4), ST_BAD_FORMAT, errByte 35),
     ((op == 0x61 || cv) && decide (h.sstride < h.sbytes), ST_BAD_GEOMETRY, errByte 56),
     ((op == 0x61 || cv) && decide (h.dstride < h.dbytes), ST_BAD_GEOMETRY, errByte (if cv then 58 else 60)),
     (devS && !d.inSide sp c.cpSrc (c.cpSrc + slen - 1), ST_BAD_GEOMETRY, errByte 40),
     (devD && !d.inSide dp c.cpDst (c.cpDst + dlen - 1), ST_BAD_GEOMETRY, errByte (if op = 0x62 then 40 else 48)),
     (devS && devD && sp == dp && c.overlaps, ST_BAD_GEOMETRY, errByte 48)]

/-! Channels. -/

/-- The check-value unit that a command feeds. -/
def Cmd.cvuUnit (c : Cmd) : Option Nat := if c.opcode = 0x64 then some (c.u 34 1 % 8) else none

/-- A feed waits until the unit's previous feed has ended (R380). -/
def Dev.cpMayRun (d : Dev) (j : CpJob) : Bool := match j.cmd.cvuUnit with | some u => !d.fb CVU_CTRL.BUSY u | none => true

/-- Queued commands whose world is not the channel's complete with OWN_REFUSED and move nothing, unless a change of the world is held (R105, R106). -/
def Dev.cpRefuseWorld (d : Dev) (x : Nat) : Dev :=
  let ok := fun (j : CpJob) => j.cmd.secure == d.chanSecure (x / 16) (x % 16)
  let q := (d.chan x).queue
  if d.chanWorldHeld (x / 16) (x % 16) || q.all ok then d
  else (d.updChan x fun ch => { ch with queue := q.filter ok }).endAll ((q.filter fun j => !ok j).map CpJob.ref) ST_OWN_REFUSED 0

/-! Where a command stands. -/

/-- Bytes of a row as its transfers count them: of the source, or of the destination of FILL. -/
def CpJob.rowBytes (j : CpJob) : Nat := if j.cmd.opcode = 0x62 then j.cmd.shape.dbytes else j.cmd.shape.sbytes

/-- Every transfer has retired. -/
def CpJob.over? (j : CpJob) : Bool := decide (j.cmd.shape.rows ≤ j.row)

/-- Bytes of the next transfer: up to the end of a 64-byte line (R375), and for CONVERT 16 pixels, or 8 of FP16. -/
def CpJob.piece (j : CpJob) : Nat :=
  let h := j.cmd.shape
  let left := j.rowBytes - j.off
  if j.cmd.opcode = 0x63 then min left (if j.cmd.u 34 1 = 11 then 64 else 16 * cvBytes (j.cmd.u 34 1))
  else min left (64 - (if j.cmd.opcode = 0x62 then j.cmd.cpDst + j.off else j.cmd.cpSrc + j.row * h.sstride + j.off) % 64)

/-- A bound on the transfers of a command. -/
def CpJob.fuel (j : CpJob) : Nat := j.cmd.shape.rows * (j.rowBytes / 32 + 2)

/-- Place in a destination row of the byte at offset `o` of a source row. -/
def CpJob.dstOff (j : CpJob) (o : Nat) : Nat := if j.cmd.opcode = 0x63 then o / cvBytes (j.cmd.u 34 1) * cvBytes (j.cmd.u 35 1) else o

/-- A transfer of `n` bytes has retired. -/
def CpJob.next (j : CpJob) (n : Nat) : CpJob :=
  let j1 := { j with moved := j.moved + max n (j.dstOff n) }
  if j.rowBytes ≤ j.off + n then { j1 with row := j.row + 1, off := 0 } else { j1 with off := j.off + n }

/-- Source bytes that a command has still to read, as (offset, bytes) by row. -/
def CpJob.toRead (j : CpJob) : List (Nat × Nat) :=
  let h := j.cmd.shape
  if j.cmd.opcode = 0x62 then []
  else ((List.range h.rows).drop j.row).map fun k => let o := if k = j.row then j.off else 0; (k * h.sstride + o, h.sbytes - o)

/-- A channel begins its next command, unless a change of its world is held (R106): host data is asked for row by row, from where the command stands. -/
def Dev.cpBegin (d0 : Dev) (x : Nat) : Dev :=
  let d := d0.cpRefuseWorld x
  let ch := d.chan x
  match ch.run, ch.queue with
  | none, j :: t =>
    if !d.cpMayRun j || d.vfHeld j.code || d.chanWorldHeld (x / 16) (x % 16) then d
    else
      let d1 := (d.updChan x fun _ => { run := some j, queue := t, host := [] }).setF CPE_CH_STAT.BUSY x 1
      let d2 := match j.cmd.cvuUnit with | some u => d1.setF CVU_CTRL.BUSY u 1 | none => d1
      match d.cpSrcPeer x, d.fromHost x j.cmd, Fn.ofCode j.code with
      | some p, _, _ => j.toRead.foldl (fun (d : Dev) r => d.emit (.peerRead p (d.cpReq x).sec (j.cmd.cpSrc + r.1) r.2)) d2
      | none, true, some f => j.toRead.foldl (fun (d : Dev) r =>
          d.hostRead (.copy (Fin.ofNat 4 (x / 16)) (Fin.ofNat 16 x)) (some j.ref) f (j.cmd.cpSrc + r.1) r.2) d2
      | _, _, _ => d2
  | _, _ => d

def Dev.cpBeginAll (d : Dev) : Dev := d.jointly fun d => (List.range 64).foldl Dev.cpBegin d

/-- A write of OWN_CE_WORLD: Secure-world only (R14, R106). -/
def ceWorldWrite (who : Fn) (e : Nat) (val : Word) (d : Dev) : Dev :=
  let d1 := d.write who .OWN_CE_WORLD e val
  if d.secure who then ((d1.setReg .OWN_CE_WORLD e (d.reg .OWN_CE_WORLD e)).setWorlds e val).cpBeginAll else d1

/-- A held change takes effect, and the channel accepts descriptors again (R106). -/
def execCeWorldChange (e : Fin 4) (ch : Fin 16) (s : State) : Host.Outcome State Fault Refusal :=
  .next (s.onDev fun d => (d.applyWorld e.val ch.val).cpBegin (cpeIdx e.val ch.val))

/-- A copy command joins its channel (R376, R378). -/
def Dev.copyStart (d : Dev) (f : Fn) (ref : CmdRef) (c : Cmd) : Dev :=
  match d.copyErr f c with
  | some (st, res) => d.endCmd ref st res
  | none => (d.updChan c.cpChan fun ch => { ch with queue := ch.queue ++ [{ ref := ref, cmd := c, code := f.code }] }).cpBegin c.cpChan

def runCopy (f : Fn) : Run := fun ref c s => s.onDev (·.copyStart f ref c)

def execCopy (f : Fn) (q : Fin 8) (s : State) : Host.Outcome State Fault Refusal := .next (s.startNext f q (· == 0x60) (runCopy f))

def execCopy2d (f : Fn) (q : Fin 8) (s : State) : Host.Outcome State Fault Refusal := .next (s.startNext f q (· == 0x61) (runCopy f))

def execFill (f : Fn) (q : Fin 8) (s : State) : Host.Outcome State Fault Refusal := .next (s.startNext f q (· == 0x62) (runCopy f))

def execConvert (f : Fn) (q : Fin 8) (s : State) : Host.Outcome State Fault Refusal := .next (s.startNext f q (· == 0x63) (runCopy f))

def execCrcFeed (f : Fn) (q : Fin 8) (s : State) : Host.Outcome State Fault Refusal := .next (s.startNext f q (· == 0x64) (runCopy f))

/-! Moving bytes. -/

/-- A write of a channel: to a peer, to device memory, or as a posted write of its owner (R381, R540). -/
def State.cpWrite (s : State) (x : Nat) (j : CpJob) (a : Nat) (bs : List Byte) : State × Option Nat :=
  if (s.dev.cpDstPeer x).isSome then
    (s.onDev fun d => (d.emit (.peerWrite ((d.cpDstPeer x).getD 0) (d.cpReq x).sec a bs)).pmcHit 0x06 (2 * d.peerPort ((d.cpDstPeer x).getD 0) + 1) j.code
      (d.cpReq x).sec (units64 bs.length), none)
  else if j.cmd.dstHost then
    match Fn.ofCode j.code with
    | some f => if s.dev.canSend f then (s.onDev (·.post f a bs), none) else (s, some ST_HOST_DMA)
    | none => (s, some ST_HOST_DMA)
  else match s.writeMem (s.dev.cpReq x) 5 a bs with
    | (s1, true) => (s1, none)
    | (s1, false) => (s1, some ST_OWN_REFUSED)

/-- The source bytes of the next transfer: from device memory, or from the data of the host or the peer that has arrived. -/
def State.cpRead (s : State) (x : Nat) (j : CpJob) (n : Nat) : State × Fetch :=
  if j.cmd.opcode = 0x62 then (s, .ok [])
  else if j.cmd.srcHost || (s.dev.cpSrcPeer x).isSome then
    (s.onDev (·.updChan x fun ch => { ch with host := ch.host.drop n }), .ok ((s.dev.chan x).host.take n))
  else s.readMem (s.dev.cpReq x) 5 (j.cmd.cpSrc + j.row * j.cmd.shape.sstride + j.off) n

/-- A component written by CONVERT, and the pixel word (R379). -/
def convertWord (fmt : Nat) (p : Px) : Nat :=
  if fmt = 4 then narrow 5 p.r * 2 ^ 11 + narrow 6 p.g * 2 ^ 5 + narrow 5 p.b
  else if fmt = 3 then narrow 2 p.a * 2 ^ 30 + narrow 10 p.r * 2 ^ 20 + narrow 10 p.g * 2 ^ 10 + narrow 10 p.b
  else (if fmt = 2 then 255 else narrow 8 p.a) * 2 ^ 24 + narrow 8 p.r * 2 ^ 16 + narrow 8 p.g * 2 ^ 8 + narrow 8 p.b

/-- What a transfer writes: the bytes read; the pattern of FILL, which repeats from DST; or converted pixels. -/
def CpJob.data (j : CpJob) (n : Nat) (bs : List Byte) : List Byte :=
  if j.cmd.opcode = 0x62 then (List.range n).map fun i => BitVec.ofNat 8 (j.cmd.u (56 + (j.off + i) % 8) 1)
  else if j.cmd.opcode = 0x63 then
    let sf := j.cmd.u 34 1
    let df := j.cmd.u 35 1
    ((List.range (n / cvBytes sf)).map fun i => toLe (convertWord df (rgbPixel sf (le bs (i * cvBytes sf) (cvBytes sf)))) (cvBytes df)).flatten
  else bs

/-- What a transfer does with its data. -/
def State.cpPut (s : State) (x : Nat) (j : CpJob) (bs : List Byte) : State × Option Nat :=
  match j.cmd.cvuUnit with
  | some u => (s.onDev (·.cvuFeed u bs), none)
  | none => s.cpWrite x j (j.cmd.cpDst + j.row * j.cmd.shape.dstride + j.dstOff j.off) bs

/-- One transfer (R375): the fault that stops the command, and where the command then stands. -/
def State.cpStep (s : State) (x : Nat) (j : CpJob) : State × Option Nat × CpJob :=
  let n := j.piece
  match s.cpRead x j n with
  | (s1, .ok bs) =>
    match s1.cpPut x j (j.data n bs) with
    | (s2, none) => (s2, none, j.next n)
    | (s2, e) => (s2, e, j)
  | (s1, e) => (s1, some e.status, j)

/-- The data of the next transfer is there: that of a host or a peer must have arrived. -/
def State.cpHas (s : State) (x : Nat) (j : CpJob) : Bool :=
  j.cmd.opcode == 0x62 || !(j.cmd.srcHost || (s.dev.cpSrcPeer x).isSome) || decide (j.piece ≤ (s.dev.chan x).host.length)

/-- Transfers in address order, at most so many as are named and as there is data for. -/
def State.cpSteps (s : State) (x : Nat) : Nat → CpJob → State × Option Nat × CpJob
  | 0, j => (s, none, j)
  | n + 1, j =>
    if j.over? || !s.cpHas x j then (s, none, j)
    else match s.cpStep x j with
      | (s1, none, j1) => s1.cpSteps x n j1
      | r => r

/-- The rest of a command. -/
def State.cpMove (s : State) (x : Nat) (j : CpJob) : State × Option Nat × CpJob := s.cpSteps x j.fuel j

/-- GIB_MOVED (R385). -/
def Dev.cpCount (d : Dev) (e n : Nat) : Dev :=
  let b := d.gpu.moved.get e + n
  { d with gpu := { d.gpu with moved := d.gpu.moved.put e b } }.setReg .CPE_ENG_BYTES e (BitVec.ofNat 32 (b / 2 ^ 30))

/-- A Secure channel of the engine runs a command (R110). -/
def Dev.cpSecureWork (d : Dev) (e : Nat) : Bool := (List.range 16).any fun ch => d.chanSecure e ch && (d.chan (16 * e + ch)).run.isSome

/-- The bytes that a command has moved are counted (R385, R494). -/
def Dev.cpTally (d : Dev) (x : Nat) (j : CpJob) : Dev :=
  (d.cpCount (x / 16) j.moved).pmcHit 0x0B (x / 16) j.code (d.chanSecure (x / 16) (x % 16) || d.cpSecureWork (x / 16)) (units64 j.moved)

/-! Transfers in flight (R375, R385). -/

/-- Requests to host memory in flight on an engine, or on one channel. -/
def Dev.cpHostFlight (d : Dev) (p : Nat → Bool) : Nat :=
  (d.hrq.reads.filter fun r => r.sent.isSome && (match r.work with | .copy e ch => p (cpeIdx e.val ch.val) | _ => false)).length

/-- A channel whose command reads device memory. -/
def Dev.cpLocal (d : Dev) (x : Nat) : Bool :=
  match (d.chan x).run with | some j => j.cmd.opcode == 0x62 || !d.fromHost x j.cmd && (d.cpSrcPeer x).isNone | none => false

/-- The places of an engine that fall to a busy channel, in turn, behind the requests to host memory. -/
def Dev.cpShare (d : Dev) (x : Nat) : Nat :=
  let e := x / 16
  let busy := (List.range 16).filter fun c => d.cpLocal (16 * e + c)
  let left := 64 - d.cpHostFlight fun y => y / 16 == e
  left / busy.length + b2n (decide ((busy.takeWhile (· != x % 16)).length < left % busy.length))

/-- IN_FLIGHT of a channel: its requests to host memory, or a free number within its share (log entry 44). -/
def Dev.cpFlight (d : Dev) (x : Nat) : Nat × Dev :=
  if d.cpLocal x then (d.free1.1 % (d.cpShare x + 1), d.free1.2) else (d.cpHostFlight fun y => y == x, d)

/-- IN_FLIGHT of an engine: the sum over its channels. -/
def Dev.engFlight (d : Dev) (e : Nat) : Nat × Dev :=
  (List.range 16).foldl (fun (a : Nat × Dev) c => let r := a.2.cpFlight (16 * e + c); (a.1 + r.1, r.2)) (0, d)

/-! The end of a command, and owner changes (R376, R381). -/

/-- A change of owner takes effect when no command runs; queued commands of the old owner complete with NOT_OWNER. -/
def Dev.cpApplyOwner (d : Dev) (x : Nat) : Dev :=
  if d.f CPE_CH_ASSIGN.OWNER x = d.cpOwner x ∨ d.fb CPE_CH_STAT.BUSY x then d
  else
    let d1 := d.endAll ((d.chan x).queue.map CpJob.ref) ST_NOT_OWNER (errByte 32)
    ((d1.updChan x fun _ => {}).latch .CPE_CH_ASSIGN x).setF CPE_CH_STAT.PENDING x 0

/-- The channel's command ends, and the next begins. -/
def Dev.cpEnd (d : Dev) (x : Nat) (j : CpJob) (fault : Option Nat) : Dev :=
  let d1 := (d.updChan x fun ch => { ch with run := none, host := [] }).setF CPE_CH_STAT.BUSY x 0
  let d2 := match j.cmd.cvuUnit with | some u => (d1.setF CVU_CTRL.BUSY u 0).cvuApply u | none => d1
  let d3 := (match fault with
    | some st => ((d2.endCmd j.ref st 0).setF CPE_CH_STAT.FAULT x 1).raise (288 + x / 16)
    | none => d2.endCmd j.ref ST_OK 0).cpTally x j
  ((d3.latch .CNV_CE_PEER x).cpApplyOwner x).cpBeginAll

/-- The status that the peers of a command's sides give it (R539, R545): a side that names no member is refused, and a request in flight on a link that went
down fails as a host access. -/
def Dev.cpPeerFault (d : Dev) (x : Nat) (c : Cmd) (r : PeerReply) : Option Nat :=
  let ps := (if c.opcode = 0x62 then [] else (d.cpSrcPeer x).toList) ++ (if c.opcode = 0x64 then [] else (d.cpDstPeer x).toList)
  if ps.any fun p => !d.peerOk p then some ST_OWN_REFUSED
  else if ps.isEmpty then none
  else if r.refused then some ST_OWN_REFUSED
  else if r.failed || ps.any (fun p => !d.peerUp? p) then some ST_HOST_DMA
  else none

/-- The data that a peer returned is the rest of the channel's source. -/
def Dev.cpPeerData (d : Dev) (x : Nat) (j : CpJob) (r : PeerReply) : Dev :=
  match d.cpSrcPeer x with
  | some p => (d.updChan x fun ch => { ch with host := r.data }).pmcHit 0x06 (2 * d.peerPort p) j.code (d.cpReq x).sec (units64 r.data.length)
  | none => d

/-- The last transfer of a channel's command retires; data of a host or a peer must have arrived. -/
def execCopyDone (e : Fin 4) (ch : Fin 16) (peer : PeerReply) (s : State) : Host.Outcome State Fault Refusal :=
  let x := cpeIdx e.val ch.val
  .next (match (s.dev.chan x).run with
  | none => s
  | some j =>
    match s.dev.cpPeerFault x j.cmd peer with
    | some st => s.onDev (·.cpEnd x j (some st))
    | none =>
      if s.dev.vfHeld j.code then s
      else
        let r := (s.onDev (·.cpPeerData x j peer)).cpMove x j
        match r.2.1 with
        | some st => r.1.onDev (·.cpEnd x r.2.2 (some st))
        | none => if r.2.2.over? then r.1.onDev (·.cpEnd x r.2.2 none) else r.1.onDev (·.updChan x fun ch => { ch with run := some r.2.2 }))

/-- The commands of a function stop where their transfers in flight retire, at an offset that is recorded (R510, R517). The device's pace decides how far that
is: the model takes a free value, and for data of a host all that has arrived. -/
def State.cpCut (s : State) (code x : Nat) : State :=
  match (s.dev.chan x).run with
  | some j =>
    if j.code = code then
      let n := s.dev.free1
      let r := ({ s with dev := n.2 } : State).cpSteps x (if s.dev.cpLocal x then n.1 % (j.fuel + 1) else j.fuel) j
      match r.2.1 with
      | some st => r.1.onDev (·.cpEnd x r.2.2 (some st))
      | none => r.1.onDev fun d => (d.cpTally x r.2.2).updChan x fun ch => { ch with run := some { r.2.2 with moved := 0 } }
    else s
  | none => s

def State.cpCuts (s : State) (code : Nat) : State := (List.range 64).foldl (State.cpCut · code) s

/-- A write of CNV_CE_PEER (R540, R545): it takes effect when the channel's transfers in flight have retired. -/
def cePeerWrite (who : Fn) (x : Nat) (val : Word) (d : Dev) : Dev :=
  if d.secure who || d.mayGive who (d.cpOwner x) && d.cpOwner x != 0 then
    let d1 := d.write who .CNV_CE_PEER x val
    if d1.fb CPE_CH_STAT.BUSY x then d1 else d1.latch .CNV_CE_PEER x
  else d.werr who .CNV_CE_PEER x

def chAssignWrite (who : Fn) (x : Nat) (val : Word) (d0 : Dev) : Dev :=
  let d := d0.demandDomain .CPE_CH_ASSIGN x
  let old := d.f CPE_CH_ASSIGN.OWNER x
  let new := CPE_CH_ASSIGN.OWNER.get val
  if old = new then d
  else if d.mayGive who old && d.mayGive who new then
    let d1 := d.setF CPE_CH_ASSIGN.OWNER x new
    (d1.setF CPE_CH_STAT.PENDING x (b2n (new != d1.cpOwner x))).cpApplyOwner x
  else d.werr who .CPE_CH_ASSIGN x

def execChannelOwnerWrite (who : Fn) (e : Fin 4) (ch : Fin 16) (val : Word) (s : State) : Host.Outcome State Fault Refusal :=
  .next (if assigner who then s.onDev (chAssignWrite who (cpeIdx e.val ch.val) val) else s)

end Sys2Proof.Machine
end

