-- ==== Sys2Proof/Machine/Raster.lean ====
section
/-! DEFINITION. Resource tables, tile lists and tile storage (R354, R362 to R373). Vertices, primitives and fragments come from the shader programs and the
rasteriser, and stand in the operands of the row: what the spec states of them begins here (log entry 144). -/

namespace Sys2Proof.Machine

/-- The requester of a context's accesses (R342, R368). -/
def Dev.gpuReq (d : Dev) (g : Nat) : Req := ⟨d.f GPU_CTX_ASSIGN.OWNER g, d.secureCode (d.f GPU_CTX_ASSIGN.OWNER g)⟩

/-- An access of a context to device memory: the status of a failure. -/
def State.gpuRead (s : State) (g a n : Nat) : State × Option Nat × List Byte :=
  match s.readMem (s.dev.gpuReq g) 4 a n with
  | (s1, .ok bs) => (s1, none, bs)
  | (s1, e) => (s1, some e.status, [])

def State.gpuWrite (s : State) (g a : Nat) (bs : List Byte) : State × Option Nat :=
  match s.writeMem (s.dev.gpuReq g) 4 a bs with
  | (s1, true) => (s1, none)
  | (s1, false) => (s1, some ST_OWN_REFUSED)

/-- Steps that each may fail, up to the first that does. -/
def State.each {α : Type} (f : State → α → State × Option Nat) (s : State) : List α → State × Option Nat
  | [] => (s, none)
  | x :: t => match f s x with
    | (s1, none) => s1.each f t
    | e => e

/-- The next `n` free values, below a bound. -/
def State.freeList (s : State) (n top : Nat) : State × List Nat :=
  (s.onDev fun d => { d with free := d.free + n }, (List.range n).map fun i => Config.freeValue (s.dev.free + i) % top)

/-! Pixel words (R171). -/

/-- Lowest bit and width of R, G, B and A. -/
def compPlaces (fmt : Nat) : List (Nat × Nat) :=
  if fmt = 11 then [(0, 16), (16, 16), (32, 16), (48, 16)]
  else if fmt = 4 then [(11, 5), (5, 6), (0, 5), (0, 0)]
  else if fmt = 3 then [(20, 10), (10, 10), (0, 10), (30, 2)]
  else [(16, 8), (8, 8), (0, 8), (24, if fmt = 2 then 0 else 8)]

/-- The components of a word: working values (R206), and binary16 for FP16. -/
def pixelComps (fmt w : Nat) : List Nat :=
  (compPlaces fmt).map fun p => let v := w / 2 ^ p.1 % 2 ^ p.2; if fmt = 11 then v else if p.2 = 0 then 65535 else rep16 p.2 v

/-- A bit field of a word replaced. -/
def putBits (w lo n v : Nat) : Nat := w - w / 2 ^ lo % 2 ^ n * 2 ^ lo + v % 2 ^ n * 2 ^ lo

/-- Components under a mask replace those of a word; a working value narrows as CONVERT narrows it (R379; DEDUCED, log entry 141). -/
def putComps (fmt w mask : Nat) (comps : List Nat) : Nat :=
  (compPlaces fmt).zipIdx.foldl (fun w p =>
    let v := comps.getD p.2 0
    if bit mask p.2 then putBits w p.1.1 p.1.2 (if fmt = 11 then v else narrow p.1.2 (min 65535 v)) else w) w

/-- A whole number where the arithmetic gives one. -/
def shadeRound (num den : Nat) : Nat := if num % den = 0 then num / den else Config.shadeRound num den

/-! Fixed functions (R354): the codes are those of Vulkan, which the manual cites (PRESUMED, log entry 143). -/

/-- VkCompareOp. -/
def cmpOp (k : Nat) (a b : Int) : Bool :=
  match k with
  | 0 => false
  | 1 => decide (a < b)
  | 2 => a == b
  | 3 => decide (a ≤ b)
  | 4 => decide (b < a)
  | 5 => a != b
  | 6 => decide (b ≤ a)
  | _ => true

/-- VkStencilOp. -/
def stencilOp (k ref v : Nat) : Nat :=
  match k with
  | 0 => v
  | 1 => 0
  | 2 => ref
  | 3 => min 255 (v + 1)
  | 4 => v - 1
  | 5 => 255 - v
  | 6 => (v + 1) % 256
  | _ => (v + 255) % 256

/-- VkBlendFactor, in 1/65535, for component `c` of source `s`, destination `d` and CONST `k`. -/
def blendFactor (f c : Nat) (s d k : List Nat) : Nat :=
  let at' := fun (l : List Nat) (i : Nat) => min 65535 (l.getD i 0)
  match f with
  | 0 => 0
  | 1 => 65535
  | 2 => at' s c
  | 3 => 65535 - at' s c
  | 4 => at' d c
  | 5 => 65535 - at' d c
  | 6 => at' s 3
  | 7 => 65535 - at' s 3
  | 8 => at' d 3
  | 9 => 65535 - at' d 3
  | 10 => at' k c
  | 11 => 65535 - at' k c
  | 12 => at' k 3
  | 13 => 65535 - at' k 3
  | _ => if c = 3 then 65535 else min (at' s 3) (65535 - at' d 3)

/-- VkBlendOp. -/
def blendOp (op s fs d fd : Nat) : Nat :=
  match op with
  | 0 => shadeRound (s * fs + d * fd) 65535
  | 1 => shadeRound (s * fs - d * fd) 65535
  | 2 => shadeRound (d * fd - s * fs) 65535
  | 3 => min s d
  | _ => max s d

/-- CONST of a blend section. -/
def blendConst (b : List Byte) : List Nat := (List.range 4).map fun i => le b (8 + 2 * i) 2

/-- A fragment's components on target `i` of a blend section, over the word that the sample holds there. -/
def blendWord (b : List Byte) (i fmt word : Nat) (src : List Nat) : Nat :=
  let e := (b.drop (16 + 16 * i)).take 16
  let dst := pixelComps fmt word
  let k := blendConst b
  let one := fun (c : Nat) =>
    let o := if c < 3 then 2 else 5
    blendOp (le e (o + 2) 1) (min 65535 (src.getD c 0)) (blendFactor (le e o 1) c src dst k) (dst.getD c 0) (blendFactor (le e (o + 1) 1) c src dst k)
  let out := if le e 1 1 = 0 then src else if fmt = 11 then Config.blendHalf e k src dst else (List.range 4).map one
  putComps fmt word (le e 8 1) out

/-- A binary32 value by its order; NaN apart. -/
def f32Order (v : Nat) : Int := if bit v 31 then -((v % 2 ^ 31 : Nat) : Int) else (v % 2 ^ 31 : Nat)

/-- A binary32 value in units of 2^-149. -/
def f32Fix (v : Nat) : Int :=
  let e := bits v 30 23
  let m : Nat := v % 2 ^ 23
  let a : Nat := if e = 0 then m else (2 ^ 23 + m) * 2 ^ (e - 1)
  if bit v 31 then -(a : Int) else (a : Int)

/-- The centre of pixel `x` lies in VIEWPORT along one axis, which may run either way (R364; PRESUMED, log entry 164). -/
def viewSpan (start size x : Nat) : Bool :=
  let a := f32Fix start
  let b := a + f32Fix size
  let c : Int := ((2 * x + 1) * 2 ^ 148 : Nat)
  decide (min a b ≤ c ∧ c < max a b)

/-- The rasteriser gives fragments only within VIEWPORT (R364). -/
def DrawSt.inView (dr : DrawSt) (fr : Frag) : Bool :=
  let v := fun i => dr.viewport.getD i 0
  viewSpan (v 0) (v 2) fr.x && viewSpan (v 1) (v 3) fr.y

/-- A depth lies from min to max depth of VIEWPORT (R364). -/
def DrawSt.viewDepth (dr : DrawSt) (z : Nat) : Nat :=
  let a := dr.viewport.getD 4 0
  let b := dr.viewport.getD 5 0
  let lo := if f32Order a ≤ f32Order b then a else b
  let hi := if f32Order a ≤ f32Order b then b else a
  if f32Order z < f32Order lo then lo else if f32Order hi < f32Order z then hi else z

/-- One fragment on one sample that it covers: stencil test, depth test and blend (R354, R363, R369). -/
def PassSt.draw (p : PassSt) (dr : DrawSt) (fr : Frag) (k : Nat) (z : SampleSt) : SampleSt :=
  let r := dr.raster
  let ref := le r 10 1
  let zd := dr.viewDepth (fr.depth.getD k 0)
  let useS := bit p.flags 1 && le r 5 1 == 1
  let useD := bit p.flags 0 && le r 2 1 == 1
  let sPass := !useS || cmpOp (le r 9 1) ((ref &&& le r 11 1 : Nat) : Int) ((z.stencil &&& le r 11 1 : Nat) : Int)
  let dPass := !useD || cmpOp (le r 4 1) (f32Order zd) (f32Order z.depth)
  let op := if !sPass then le r 6 1 else if dPass then le r 7 1 else le r 8 1
  let wm := le r 12 1
  let st := if useS then (z.stencil &&& (255 - wm)) ||| (stencilOp op ref z.stencil &&& wm) else z.stencil
  if sPass && dPass then
    { words := z.words.zipIdx.map fun w => blendWord dr.blend w.2 ((p.targets.getD w.2 default).fmt) w.1 (fr.colours.getD w.2 [])
      depth := if useD && le r 3 1 == 1 then zd else z.depth, stencil := st }
  else { z with stencil := st }

/-- CULL, SCISSOR and VIEWPORT let a fragment through (R354, R364). -/
def DrawSt.keeps (dr : DrawSt) (fr : Frag) : Bool :=
  let front := fr.cw == (le dr.raster 1 1 == 1)
  let x := dr.scissor.getD 0 0
  let y := dr.scissor.getD 1 0
  !(le dr.raster 0 1 == 1 && front) && !(le dr.raster 0 1 == 2 && !front) && dr.inView fr &&
    decide (x ≤ fr.x ∧ fr.x < x + dr.scissor.getD 2 0 ∧ y ≤ fr.y ∧ fr.y < y + dr.scissor.getD 3 0)

/-- Fragments in the order of their draws in the ring, and within a draw of their primitives (R369). -/
def orderFrags (fs : List Frag) : List Frag :=
  let before := fun (a b : Frag) => decide (a.draw < b.draw ∨ (a.draw = b.draw ∧ a.prim ≤ b.prim))
  fs.foldl (fun l f => l.takeWhile (fun x => before x f) ++ f :: l.dropWhile (fun x => before x f)) []

/-- Sample `k` of a pixel after fragments in their order. -/
def PassSt.shade (p : PassSt) (fs : List Frag) (x y k : Nat) (z : SampleSt) : SampleSt :=
  fs.foldl (fun z fr =>
    match p.drawn[fr.draw]? with
    | some dr => if fr.x = x ∧ fr.y = y ∧ bit fr.mask k ∧ dr.keeps fr then p.draw dr fr k z else z
    | none => z) z

/-! Tiles (R362, R363, R369). -/

def PassSt.samples (p : PassSt) : Nat := if bit p.flags 2 then 4 else 1

/-- Tiles of 32 × 32 pixels in a row of them, and in all. -/
def PassSt.across (p : PassSt) : Nat := (p.width + 31) / 32

def PassSt.tiles (p : PassSt) : Nat := p.across * ((p.height + 31) / 32)

/-- The pixel words of part of a target's row as a tile takes them up: from memory, cleared, or undefined. CLEAR is in working values, and the manual gives no
binary16 of one. -/
def State.rowWords (s : State) (g : Nat) (p : PassSt) (x y n : Nat) (t : GTarget) : State × Option Nat × List Nat :=
  let b := cvBytes t.fmt
  if if p.renders = 0 then t.load = 0 else p.samples = 1 then
    let r := s.gpuRead g (t.base + y * t.stride + x * b) (n * b)
    (r.1, r.2.1, (List.range n).map fun i => le r.2.2 (i * b) b)
  else if t.load = 1 ∧ t.fmt ≠ 11 then (s, none, List.replicate n (putComps t.fmt 0 15 t.clear))
  else let r := s.freeList n (2 ^ (8 * b)); (r.1, none, r.2)

/-- The same of every target. -/
def State.rowAll (s : State) (g : Nat) (p : PassSt) (x y n : Nat) : List GTarget → State × Option Nat × List (List Nat)
  | [] => (s, none, [])
  | t :: ts =>
    match s.rowWords g p x y n t with
    | (s1, none, ws) => let r := s1.rowAll g p x y n ts; (r.1, r.2.1, ws :: r.2.2)
    | (s1, e, _) => (s1, e, [])

/-- Sample `k` of pixel (x, y) as a tile takes it up: depth and stencil cleared at PASS_BEGIN, or loaded from the save area after an incremental render. -/
def PassSt.start (p : PassSt) (x y k : Nat) (ws : List Nat) : SampleSt :=
  let z := p.saved.get (4 * (y * p.width + x) + k)
  if p.renders = 0 then ⟨ws, p.depthClear, p.stencilClear⟩ else ⟨if p.samples = 4 then z.words else ws, z.depth, z.stencil⟩

/-- The word that a pixel is stored as: its sample, or the mean of its four (R362). -/
def resolveWord (fmt : Nat) (ws : List Nat) : Nat :=
  match ws with
  | [w] => w
  | _ => (compPlaces fmt).foldl (fun a p =>
    let vs := ws.map fun w => w / 2 ^ p.1 % 2 ^ p.2
    let v := if fmt ≠ 11 then shadeRound (vs.foldl (· + ·) 0) 4 else if vs.all (· == vs.headD 0) then vs.headD 0 else Config.meanHalf vs
    putBits a p.1 p.2 v) 0

/-- Store part of a row of target `i`; bits [31:24] of XRGB8888 are free. -/
def State.storeRow (s : State) (g x y : Nat) (row : List (List SampleSt)) (t : GTarget × Nat) : State × Option Nat :=
  let b := cvBytes t.1.fmt
  let r := s.freeList row.length 256
  let word := fun (z : List SampleSt) (free : Nat) =>
    let w := resolveWord t.1.fmt (z.map fun q => q.words.getD t.2 0)
    toLe (if t.1.fmt = 2 then putBits w 24 8 free else w) b
  r.1.gpuWrite g (t.1.base + y * t.1.stride + x * b) ((row.zip r.2).map fun z => word z.1 z.2).flatten

/-- One row of a tile: taken up, drawn, kept for the save area where `every` says that this is an incremental render, and stored. -/
def State.tileRow (s : State) (g : Nat) (p : PassSt) (fs : List Frag) (every : Bool) (x y n : Nat) : State × Option Nat × PassSt :=
  match s.rowAll g p x y n p.targets with
  | (s1, none, rows) =>
    let px := (List.range n).map fun i => (List.range p.samples).map fun k =>
      p.shade fs (x + i) y k (p.start (x + i) y k (rows.map fun r => r.getD i 0))
    let kept := if !every then p.saved else px.zipIdx.foldl (fun (t : Tbl SampleSt) z =>
      z.1.zipIdx.foldl (fun t q => t.put (4 * (y * p.width + x + z.2) + q.2) q.1) t) p.saved
    let r := s1.each (fun s t => s.storeRow g x y px t) (p.targets.zipIdx.filter fun t => every || t.1.store == 0)
    (r.1, r.2, { p with saved := kept })
  | (s1, e, _) => (s1, e, p)

def State.tileRows (s : State) (g : Nat) (p : PassSt) (fs : List Frag) (every : Bool) (x n : Nat) : List Nat → State × Option Nat × PassSt
  | [] => (s, none, p)
  | y :: ys => match s.tileRow g p fs every x y n with
    | (s1, none, p1) => s1.tileRows g p1 fs every x n ys
    | e => e

/-- The list of a tile is as binning wrote it: its owner's writes may have corrupted it (R370). -/
def State.listOk (s : State) (g : Nat) (e : BinEntry) : State × Option Nat :=
  let r := s.gpuRead g e.addr e.data.length
  (r.1, if r.2.1.isSome then r.2.1 else if r.2.2 = e.data then none else some ST_ENGINE_FAULT)

/-- Fragments of the primitives that stand in the tile's list: those that an earlier render has drawn have left it, and those not yet binned have not come
(R369, R371). -/
def PassSt.listed (p : PassSt) (w : TileWork) : List Frag :=
  w.frags.filter fun f => p.lists.any fun e => e.tile == w.tile && e.draw == f.draw && e.prim == f.prim

/-- Render one tile from its list (R369, R370). What an incremental render keeps stands in the pass it answers, which later renders take up. -/
def State.tile (s : State) (g : Nat) (p : PassSt) (every : Bool) (w : TileWork) : State × Option Nat × PassSt :=
  match s.each (fun s e => s.listOk g e) (p.lists.filter fun e => e.tile == w.tile) with
  | (s1, none) =>
    let x := w.tile % p.across * 32
    let y := w.tile / p.across * 32
    s1.tileRows g p (orderFrags (p.listed w)) every x (min 32 (p.width - x)) ((List.range (min 32 (p.height - y))).map (y + ·))
  | (s1, e) => (s1, e, p)

/-! Tile lists (R370 to R373). -/

/-- The save area of a pass in bytes (R372). -/
def saveArea (w h flags : Nat) (ts : List GTarget) : Nat :=
  let s4 := bit flags 2
  w * h * (if s4 then 4 else 1) * (5 * b2n (decide (flags % 4 ≠ 0)) +
    (if s4 then ts.foldl (fun a t => a + cvBytes t.fmt) 0 else 0))

def PassSt.area (p : PassSt) : Nat := saveArea p.width p.height p.flags p.targets

/-- Where an entry of `n` bytes goes: the arena, and behind a full one the Basket below the save area. -/
def GpuCtx.binPlace (x : GpuCtx) (p : PassSt) (n : Nat) : Option (Nat × PassSt) :=
  if p.basketUsed = 0 ∧ p.arenaUsed + n ≤ 1024 * x.arenaKib then some (x.arenaBase + p.arenaUsed, { p with arenaUsed := p.arenaUsed + n })
  else if p.basketUsed + n + p.area ≤ 2 ^ 20 * x.basketMib then some (x.basketBase + p.basketUsed, { p with basketUsed := p.basketUsed + n })
  else none

/-- An entry of at least 16 bytes. -/
def binBytes (bs : List Byte) : List Byte := bs ++ List.replicate (16 - bs.length) 0

/-- The entries of primitive `prim` of draw `draw` with their places, if there is room for all. -/
def GpuCtx.binPlaces (x : GpuCtx) (p : PassSt) (draw prim : Nat) : List (Nat × List Byte) → Option PassSt
  | [] => some p
  | e :: t =>
    let bs := binBytes e.2
    match x.binPlace p bs.length with
    | some (a, p1) => x.binPlaces { p1 with lists := p1.lists ++ [⟨e.1, draw, prim, a, bs⟩] } draw prim t
    | none => none

/-- Write a list entry: its pages belong to the context's owner (R370). -/
def State.binWrite (s : State) (g : Nat) (e : BinEntry) : State × Option Nat :=
  let r := s.dev.gpuReq g
  let n := (e.addr + e.data.length - 1) / 4096 - e.addr / 4096 + 1
  if (List.range n).all fun k => s.ownerOf (4096 * (e.addr / 4096 + k)) == r.mid then s.gpuWrite g e.addr e.data
  else (s.refuseAt r 4 e.addr true, some ST_OWN_REFUSED)

/-- Render tiles one after another. -/
def State.tilesOf (s : State) (g : Nat) (p : PassSt) (every : Bool) : List TileWork → State × Option Nat × PassSt
  | [] => (s, none, p)
  | w :: ws => match s.tile g p every w with
    | (s1, none, p1) => s1.tilesOf g p1 every ws
    | e => e

/-- An incremental render (R371): every tile is rendered and stored, what tile storage holds is saved, and arena and Basket are empty. The manual gives the save
area no layout, so its bytes are free; what was saved stands in the pass (log entry 145). -/
def State.incremental (s : State) (g : Nat) (x : GpuCtx) (p : PassSt) (ws : List TileWork) : State × Option Nat × PassSt :=
  let frags := fun (t : Nat) => ((ws.filter fun w => w.tile == t).map TileWork.frags).flatten
  match s.tilesOf g p true ((List.range p.tiles).map fun t => ⟨t, frags t⟩) with
  | (s1, none, p1) =>
    let v := s1.freeList p.area 256
    let r := v.1.gpuWrite g (x.basketBase + 2 ^ 20 * x.basketMib - p.area) (v.2.map (BitVec.ofNat 8))
    (r.1.onDev fun d => (d.count GPU_CTX_USE.INCR_RENDERS g 1).raise 260, r.2,
      { p1 with lists := [], arenaUsed := 0, basketUsed := 0, renders := p1.renders + 1 })
  | e => e

/-- Bin one primitive of a draw that is to count among those binned; TILE_OOM where arena and Basket, emptied, cannot hold it (R370, R371, R373). -/
def State.binPrim (s : State) (g : Nat) (x : GpuCtx) (p : PassSt) (prim : Nat) (ws : List (List TileWork)) (b : BinPrim) :
    State × Option Nat × PassSt × List (List TileWork) :=
  let put := fun (s : State) (p q : PassSt) (ws : List (List TileWork)) =>
    let r := s.each (fun s e => s.binWrite g e) (q.lists.drop p.lists.length)
    (r.1, r.2, q, ws)
  let draw := p.drawn.length - 1
  match x.binPlaces p draw prim b.entries with
  | some q => put s p q ws
  | none =>
    match s.incremental g x p (ws.headD []) with
    | (s1, none, p1) =>
      (match x.binPlaces p1 draw prim b.entries with
       | some q => put s1 p1 q ws.tail
       | none => (s1, some ST_TILE_OOM, p1, ws.tail))
    | (s1, e, p1) => (s1, e, p1, ws.tail)

/-- Bin the primitives of the latest draw, numbered from `prim`; the answer's number is the greatest arena use in bytes. -/
def State.binPrims (s : State) (g : Nat) (x : GpuCtx) (p : PassSt) (peak prim : Nat) :
    List (List TileWork) → List BinPrim → State × Option Nat × PassSt × Nat
  | _, [] => (s, none, p, peak)
  | ws, b :: bs => match s.binPrim g x p prim ws b with
    | (s1, none, p1, ws1) => s1.binPrims g x p1 (max peak p1.arenaUsed) (prim + 1) ws1 bs
    | (s1, e, p1, _) => (s1, e, p1, peak)

/-! Resource tables (R367). -/

def ResEntry.parse (b : List Byte) : ResEntry :=
  { kind := le b 0 1, fmt := le b 1 1, enc := le b 2 1, host := bit (le b 3 1) 0, base := le b 4 8, size := le b 12 4, stride := le b 16 2
    sampler := le b 18 2, levels := le b 20 1, chroma := le b 24 4 }

/-- The SET_SIZE entries of a table. -/
def State.readTable (s : State) (g a n : Nat) : State × Option Nat × List ResEntry :=
  let r := s.gpuRead g a (32 * n)
  (r.1, r.2.1, (List.range n).map fun i => ResEntry.parse (r.2.2.drop (32 * i)))

def ResEntry.levelW (e : ResEntry) (k : Nat) : Nat := max 1 (e.size % 65536 / 2 ^ k)

def ResEntry.levelH (e : ResEntry) (k : Nat) : Nat := max 1 (e.size / 65536 % 65536 / 2 ^ k)

def ResEntry.levelStride (e : ResEntry) (k : Nat) : Nat := if k = 0 then e.stride else up64 (lineBytes e.fmt (e.levelW k))

/-- A level lies directly after the one before it. -/
def ResEntry.levelBase (e : ResEntry) : Nat → Nat
  | 0 => e.base
  | k + 1 => e.levelBase k + e.levelStride k * e.levelH k

/-- An image entry that R367 allows. -/
def ResEntry.imageOk (e : ResEntry) : Bool :=
  (decide (1 ≤ e.fmt ∧ e.fmt ≤ 8) || e.fmt == 11) && decide (1 ≤ e.levels ∧ e.levels ≤ 15) && (e.levels == 1 || !twoPlane e.fmt)

/-- A level of an image as a source of pixels. -/
def ResEntry.level (e : ResEntry) (k : Nat) (peek : Nat → Byte) : Source :=
  { r := { fmt := e.fmt, enc := e.enc, base := e.levelBase k, chroma := e.chroma, stride := e.levelStride k, sw := e.levelW k, sh := e.levelH k
           dw := e.levelW k, dh := e.levelH k }, peek := peek }

/-- A coordinate under an address mode: clamp to edge, repeat, mirrored repeat, or none outside for clamp to black. -/
def addressMode (mode n : Nat) (i : Int) : Option Nat :=
  match mode with
  | 0 => some (clampI 0 ((n : Nat) - 1) i).toNat
  | 1 => some (i % (n : Nat)).toNat
  | 2 => let m := (i % (2 * n : Nat)).toNat; some (if m < n then m else 2 * n - 1 - m)
  | _ => if 0 ≤ i ∧ i < (n : Nat) then some i.toNat else none

/-- The components of a texel: of FP16 as it stands, and of every other format as working values (R206 to R208). -/
def Source.texel (src : Source) (x y : Nat) : List Nat :=
  if src.r.fmt = 11 then pixelComps 11 (src.rd (src.row y + 8 * x) 8) else let p := src.pixel x y; [p.r, p.g, p.b, p.a]

/-- An access delivers something to its shader. -/
def Dev.shaderGot (d : Dev) (g : Nat) (vs : List Nat) : Dev :=
  { d with gpu := { d.gpu with ctx := d.gpu.ctx.upd g fun x => { x with got := x.got ++ [vs] } } }

/-- The command in progress of a context. -/
def Dev.gpuCmd (d : Dev) (g : Nat) : Option CmdRef := (d.gpu.ctx.get g).cmds.head?.map (·.1)

/-- Fetch the 64-byte lines behind `as`, from device memory or from the owner's PCIe addresses, where the data comes later. -/
def State.resFetch (s : State) (g : Nat) (e : ResEntry) (as : List Nat) : State × Option Nat :=
  if e.host then
    match Fn.ofCode (s.dev.gpuReq g).mid with
    | some f => if s.dev.canSend f then
        (s.onDev fun d => as.foldl (fun (d : Dev) a => d.hostRead (.graphics (Fin.ofNat 128 g)) (d.gpuCmd g) f a 64) d, none)
      else (s, some ST_HOST_DMA)
    | none => (s, some ST_HOST_DMA)
  else s.each (fun s a => let r := s.gpuRead g a 64; (r.1, r.2.1)) as

/-- Store bytes of a resource. -/
def State.resStore (s : State) (g : Nat) (e : ResEntry) (a : Nat) (bs : List Byte) : State × Option Nat :=
  if e.host then
    match Fn.ofCode (s.dev.gpuReq g).mid with
    | some f => if s.dev.canSend f then (s.onDev (·.post f a bs), none) else (s, some ST_HOST_DMA)
    | none => (s, some ST_HOST_DMA)
  else s.gpuWrite g a bs

/-- Fetch texels of a level, and give the shader what `f` makes of the level. -/
def State.resTexels (s : State) (g : Nat) (e : ResEntry) (lv : Nat) (ts : List (Nat × Nat)) (f : Source → List Nat) : State × Option Nat :=
  let src := e.level lv s.byteAt
  let r := s.resFetch g e (sortN ((ts.map fun t => (src.touch t.1 t.2).map fun a => a / 64 * 64).flatten))
  if r.2.isNone && !e.host then (r.1.onDev (·.shaderGot g (f src)), none) else r

/-- A sample at (u, v): the texel there, or the four around it in their weights (R367). -/
def State.resSample (s : State) (g : Nat) (e smp : ResEntry) (lv : Nat) (u v : Int) (magnify : Bool) : State × Option Nat :=
  let mx := bits smp.sampler 3 2
  let my := bits smp.sampler 5 4
  let place := fun (i j : Int) => match addressMode mx (e.levelW lv) i, addressMode my (e.levelH lv) j with
    | some x, some y => some (x, y)
    | _, _ => none
  let val := fun (src : Source) (t : Option (Nat × Nat)) => match t with | some t => src.texel t.1 t.2 | none => [0, 0, 0, Config.blackAlpha]
  if bit smp.sampler (if magnify then 0 else 1) then
    let i := (u - 128) / 256
    let j := (v - 128) / 256
    let fx := ((u - 128) % 256).toNat
    let fy := ((v - 128) % 256).toNat
    let ts := [((256 - fx) * (256 - fy), place i j), (fx * (256 - fy), place (i + 1) j), ((256 - fx) * fy, place i (j + 1)), (fx * fy, place (i + 1) (j + 1))]
    s.resTexels g e lv (ts.filterMap (·.2)) fun src => Config.filterTexels (ts.map fun t => (t.1, val src t.2))
  else
    let t := place (u / 256) (v / 256)
    s.resTexels g e lv t.toList fun src => val src t

/-- One access of a shader through its table. Where an entry lies beyond SET_SIZE, is of another KIND, or does not reach so far, the manual gives no effect
beside a value: nothing is accessed, and a load gives a free value (log entry 142). -/
def State.resAccess (s : State) (g : Nat) (res : List ResEntry) (op : ResOp) : State × Option Nat :=
  let none' := fun (loads : Bool) => if loads then (let v := s.dev.free1; (({ s with dev := v.2 } : State).onDev (·.shaderGot g [v.1]), none)) else (s, none)
  let ent := fun (i : Nat) (kinds : List Nat) => match res[i]? with
    | some e => if kinds.contains e.kind && (e.kind == 1 || e.kind == 4 || e.imageOk) then some e else none
    | none => none
  let within := fun (e : ResEntry) (lv x y : Nat) => decide (lv < e.levels ∧ x < e.levelW lv ∧ y < e.levelH lv)
  match op with
  | .load i off n =>
    match ent i [1] with
    | some e => if off + n ≤ e.size ∧ 0 < n then
        let a := e.base + off
        let r := s.resFetch g e ((List.range ((a + n - 1) / 64 - a / 64 + 1)).map fun k => 64 * (a / 64 + k))
        if r.2.isNone && !e.host then (r.1.onDev (·.shaderGot g ((r.1.bytesAt a n).map BitVec.toNat)), none) else r
      else none' true
    | none => none' true
  | .store i off bs =>
    match ent i [1] with
    | some e => if off + bs.length ≤ e.size then s.resStore g e (e.base + off) bs else none' false
    | none => none' false
  | .texel i lv x y =>
    match ent i [2, 3] with
    | some e => if within e lv x y then s.resTexels g e lv [(x, y)] fun src => src.texel x y else none' true
    | none => none' true
  | .sample i k lv u v mag =>
    match ent i [2], ent k [4] with
    | some e, some smp => if lv < e.levels then s.resSample g e smp lv u v mag else none' true
    | _, _ => none' true
  | .write i lv x y c =>
    match ent i [3] with
    | some e =>
      if !within e lv x y then none' false
      else
        let b := lineBytes e.fmt 2 / 2
        let v := s.freeList 1 (2 ^ (8 * b))
        v.1.resStore g e (e.levelBase lv + y * e.levelStride lv + pixelOffset e.fmt x)
          (toLe (if isYuv e.fmt then v.2.headD 0 else putComps e.fmt (if e.fmt = 2 then v.2.headD 0 else 0) 15 c) b)
    | none => none' false

/-- The accesses of a boundary in their order: `res` gives the table of a draw. -/
def State.resAccesses (s : State) (g : Nat) (res : Nat → List ResEntry) (as : List ResAccess) : State × Option Nat :=
  s.each (fun s a => s.resAccess g (res a.draw) a.op) as

/-! Vertices (R364). -/

/-- Bytes of one component of a vertex attribute (R354). -/
def attrBytes (ty : Nat) : Nat := ([4, 2, 1, 1, 1, 2, 4, 4] : List Nat).getD ty 4

/-- What a draw draws: COUNT, INSTANCES, FIRST, VTX_OFS and FIRST_INST, from the body or from IND (R364). -/
def State.drawArgs (s : State) (g : Nat) (c : Cmd) : State × Option Nat × List Nat :=
  if bit (c.u 35 1) 2 then
    let r := s.gpuRead g (le ((c.conts.headD []).drop 2) 16 8) 20
    (r.1, r.2.1, (List.range 5).map fun i => le r.2.2 (4 * i) 4)
  else (s, none, (List.range 5).map fun i => c.u (36 + 4 * i) 4)

/-- The vertex numbers of a draw: in rising order from FIRST, or the indices from IB with VTX_OFS added; a restart index names no vertex. -/
def State.drawVertices (s : State) (g : Nat) (c : Cmd) (p : Pipe) (args : List Nat) : State × Option Nat × List Nat :=
  let n := args.getD 0 0
  let first := args.getD 2 0
  if bit (c.u 35 1) 0 then
    let w := if bit (c.u 35 1) 1 then 4 else 2
    let r := s.gpuRead g (le ((c.conts.headD []).drop 2) 8 8 + w * first) (w * n)
    let is := (List.range n).map fun i => le r.2.2 (w * i) w
    let restart := le p.vertexIn 3 1 == 1
    (r.1, r.2.1, (is.filter fun (i : Nat) => !(restart && i == 2 ^ (8 * w) - 1)).map fun (i : Nat) => ofSigned 32 ((i : Nat) + toSigned 32 (args.getD 3 0)))
  else (s, none, (List.range n).map (first + ·))

/-- The bytes of the attributes that vertex `v` of instance `i` takes from the bindings `bind`: BASE, STRIDE and SIZE by number. An attribute beyond SIZE is not
read (DESIGN CHOICE, log entry 142). -/
def attrReads (p : Pipe) (bind : Nat → Nat × Nat × Nat) (v i : Nat) : List (Nat × Nat) :=
  let nb := le p.vertexIn 0 1
  let rate := fun (b : Nat) => (List.range nb).any fun k => le p.vertexIn (4 + 4 * k) 1 == b && le p.vertexIn (5 + 4 * k) 1 == 1
  (List.range (le p.vertexIn 1 1)).filterMap fun k =>
    let o := 4 + 4 * nb + 8 * k
    let b := le p.vertexIn (o + 1) 1
    let n := attrBytes (le p.vertexIn (o + 2) 1) * le p.vertexIn (o + 3) 1
    let off := (bind b).2.1 * (if rate b then i else v) + le p.vertexIn (o + 4) 4
    if off + n ≤ (bind b).2.2 then some ((bind b).1 + off, n) else none

/-- The vertex data of a draw is read: the binding table at VB, the indices and the attributes. What shaders make of it is theirs. -/
def State.drawFetch (s : State) (g : Nat) (c : Cmd) (p : Pipe) (args : List Nat) : State × Option Nat :=
  let vb := le ((c.conts.headD []).drop 2) 0 8
  let bs := (List.range (le p.vertexIn 0 1)).map fun k => le p.vertexIn (4 + 4 * k) 1
  match s.each (fun s b => let r := s.gpuRead g (vb + 16 * b) 16; (r.1, r.2.1)) bs with
  | (s1, none) =>
    let bind := fun (b : Nat) => let e := s1.bytesAt (vb + 16 * b) 16; (le e 0 8, le e 8 4, le e 12 4)
    (match s1.drawVertices g c p args with
     | (s2, none, vs) =>
       let inst := (List.range (args.getD 1 0)).map (args.getD 4 0 + ·)
       let reads := (inst.map fun i => (vs.map fun v => attrReads p bind v i).flatten).flatten
       s2.each (fun s r => let x := s.gpuRead g r.1 r.2; (x.1, x.2.1)) reads
     | (s2, e, _) => (s2, e))
  | e => e

end Sys2Proof.Machine
end

