-- ==== Sys2Proof/Machine/Spirv.lean ====
section
/-! DEFINITION. The support profile of shader modules (R352). Numbers of SPIR-V instructions, capabilities and execution models are those of the standard
that the manual cites (PRESUMED, log entry 143). -/

namespace Sys2Proof.Machine

/-- The capabilities of the table of R352, by group: basic, memory, subgroups and fragment. -/
def spirvCapabilities : List Nat :=
  [1, 0, 6, 4, 39, 22, 11, 9, 50, 46, 47, 55, 56, 51, 4427] ++ [5345, 5347, 4442, 4441, 4448, 4433, 4434, 5302, 5301] ++
    [61, 62, 63, 64, 65, 66, 67, 68] ++ [5379, 35, 40]

/-- Vertex, Fragment, GLCompute and Kernel. -/
def spirvModels : List Nat := [0, 4, 5, 6]

/-- The bytes of a name up to its NUL. -/
def cString (bs : List Byte) : List Nat := (bs.takeWhile (· != 0)).map BitVec.toNat

def asciiOf (s : String) : List Nat := s.toList.map Char.toNat

/-- An extended instruction set that is accepted: NonSemantic sets are ignored. -/
def spirvSetOk (name : List Nat) : Bool :=
  name == asciiOf "GLSL.std.450" || name == asciiOf "OpenCL.std" || (asciiOf "NonSemantic.").isPrefixOf name

/-- The instructions behind the header, as opcode and operand bytes; none where a word count does not fit. -/
def spirvInstrs : Nat → List Byte → Option (List (Nat × List Byte))
  | 0, _ => some []
  | n + 1, bs =>
    if bs.isEmpty then some []
    else
      let len := 4 * le bs 2 2
      if len = 0 ∨ bs.length < len then none
      else (spirvInstrs n (bs.drop len)).map fun t => (le bs 0 2, (bs.take len).drop 4) :: t

/-- One instruction lies within the profile: OpCapability, OpExtInstImport and OpEntryPoint are those that the table speaks of. -/
def spirvInstrOk (i : Nat × List Byte) : Bool :=
  if i.1 = 17 then spirvCapabilities.contains (le i.2 0 4)
  else if i.1 = 11 then spirvSetOk (cString (i.2.drop 4))
  else if i.1 = 15 then spirvModels.contains (le i.2 0 4)
  else true

/-- The execution models of a module section's type (R354). -/
def sectionModels (ty : Nat) : List Nat := if ty = 1 then [0] else if ty = 2 then [4] else [5, 6]

/-- A module section's entry point exists with a model of the section's type. -/
def spirvEntryOk (ty : Nat) (name : List Nat) (i : Nat × List Byte) : Bool :=
  i.1 == 15 && (sectionModels ty).contains (le i.2 0 4) && cString (i.2.drop 8) == name

/-- A module section: entry-point name, then a module of version 1.0 to 1.6 within the profile (R352, R354). -/
def moduleOk (ty : Nat) (b : List Byte) : Bool :=
  let m := b.drop 32
  le m 0 4 == 0x07230203 && decide (20 ≤ m.length) && (List.range 7).any (fun k => le m 4 4 == 0x10000 + 0x100 * k) &&
    (match spirvInstrs (m.length / 4) (m.drop 20) with
     | some is => is.all spirvInstrOk && is.any (spirvEntryOk ty (cString (b.take 32)))
     | none => false) && Config.moduleAccepted ty b

/-! The limits of a module (R374): what its constants say, under the values that a specialisation section gives (R354). -/

/-- Word `k` behind the first of an instruction. -/
def spirvWord (i : Nat × List Byte) (k : Nat) : Nat := le i.2 (4 * k) 4

/-- The type, constant or variable with an identifier. -/
def spirvDef (m : List (Nat × List Byte)) (id : Nat) : Option (Nat × List Byte) :=
  m.find? fun i => if 19 ≤ i.1 ∧ i.1 ≤ 39 then spirvWord i 0 == id else (decide (41 ≤ i.1 ∧ i.1 ≤ 52) || i.1 == 59) && spirvWord i 1 == id

/-- An identifier has decoration `n`: its first operand. -/
def spirvDecor (m : List (Nat × List Byte)) (id n : Nat) : Option Nat :=
  (m.find? fun i => i.1 == 71 && spirvWord i 0 == id && spirvWord i 1 == n).map fun i => spirvWord i 2

/-- The value of a constant: none where an instruction computes it. -/
def spirvConst (spec : List Byte) (m : List (Nat × List Byte)) (id : Nat) : Option Nat :=
  match spirvDef m id with
  | some i =>
    if i.1 = 43 then some (spirvWord i 2)
    else if i.1 = 50 then
      match (spirvDecor m id 1).bind fun k => (List.range (spec.length / 12)).find? fun e => le spec (12 * e) 4 == k with
      | some e => some (le spec (12 * e + 4) 4)
      | none => some (spirvWord i 2)
    else none
  | none => none

/-- Bytes of a type without padding (DEDUCED, log entry 165). -/
def spirvSize (spec : List Byte) (m : List (Nat × List Byte)) : Nat → Nat → Nat
  | 0, _ => 0
  | n + 1, id =>
    match spirvDef m id with
    | some i =>
      if i.1 = 20 then 4
      else if i.1 = 21 ∨ i.1 = 22 then spirvWord i 1 / 8
      else if i.1 = 23 ∨ i.1 = 24 then spirvSize spec m n (spirvWord i 1) * spirvWord i 2
      else if i.1 = 28 then spirvSize spec m n (spirvWord i 1) * (spirvConst spec m (spirvWord i 2)).getD 1
      else if i.1 = 30 then ((List.range (i.2.length / 4 - 1)).map fun k => spirvSize spec m n (spirvWord i (k + 1))).foldl (· + ·) 0
      else if i.1 = 32 then 8
      else 0
    | none => 0

/-- Four-component vectors of a type: its locations. -/
def spirvLocs (spec : List Byte) (m : List (Nat × List Byte)) : Nat → Nat → Nat
  | 0, _ => 0
  | n + 1, id =>
    match spirvDef m id with
    | some i =>
      if i.1 = 23 then (if 16 < spirvSize spec m n (spirvWord i 1) * spirvWord i 2 then 2 else 1)
      else if i.1 = 24 then spirvLocs spec m n (spirvWord i 1) * spirvWord i 2
      else if i.1 = 28 then spirvLocs spec m n (spirvWord i 1) * (spirvConst spec m (spirvWord i 2)).getD 1
      else if i.1 = 30 then ((List.range (i.2.length / 4 - 1)).map fun k => spirvLocs spec m n (spirvWord i (k + 1))).foldl (· + ·) 0
      else 1
    | none => 0

/-- The type behind the pointer of a variable. -/
def spirvPointee (m : List (Nat × List Byte)) (v : Nat × List Byte) : Nat :=
  match spirvDef m (spirvWord v 0) with | some p => spirvWord p 2 | none => 0

/-- A variable or a block that a built-in of the standard decorates. -/
def spirvBuiltIn (m : List (Nat × List Byte)) (v : Nat × List Byte) : Bool :=
  (spirvDecor m (spirvWord v 1) 11).isSome || m.any fun i => i.1 == 72 && spirvWord i 0 == spirvPointee m v && spirvWord i 2 == 11

/-- Output vectors of the entry point whose interface names the variables. -/
def spirvOutputs (spec : List Byte) (m : List (Nat × List Byte)) (face : List Nat) : Nat :=
  ((m.filter fun i => i.1 == 59 && spirvWord i 2 == 3 && face.contains (spirvWord i 1) && !spirvBuiltIn m i).map fun v =>
    spirvLocs spec m m.length (spirvPointee m v)).foldl (· + ·) 0

/-- Shared memory of a workgroup in bytes. -/
def spirvShared (spec : List Byte) (m : List (Nat × List Byte)) : Nat :=
  ((m.filter fun i => i.1 == 59 && spirvWord i 2 == 4).map fun v => spirvSize spec m m.length (spirvPointee m v)).foldl (· + ·) 0

/-- The invocations of a workgroup in each dimension: the built-in constant, or an execution mode of entry point `e`; none where the module gives none. -/
def spirvGroup (spec : List Byte) (m : List (Nat × List Byte)) (e : Nat) : Option (List Nat) :=
  match m.find? fun i => i.1 == 71 && spirvWord i 1 == 11 && spirvWord i 2 == 25 with
  | some b => (spirvDef m (spirvWord b 0)).map fun i => (List.range 3).map fun k => (spirvConst spec m (spirvWord i (k + 2))).getD 1
  | none =>
    match m.find? fun i => (i.1 == 16 && spirvWord i 1 == 17 || i.1 == 331 && spirvWord i 1 == 38) && spirvWord i 0 == e with
    | some i => some ((List.range 3).map fun k => if i.1 = 16 then spirvWord i (k + 2) else (spirvConst spec m (spirvWord i (k + 2))).getD 1)
    | none => none

/-- A workgroup lies within the limits. -/
def groupOk (g : List Nat) : Bool :=
  let at' := fun i => g.getD i 1
  decide (at' 0 ≤ 1024 ∧ at' 1 ≤ 1024 ∧ at' 2 ≤ 64 ∧ at' 0 * at' 1 * at' 2 ≤ 1024)

/-- A module section within the limits of R374. -/
def moduleLimits (ty : Nat) (spec b : List Byte) : Bool :=
  match spirvInstrs (b.length / 4) (b.drop 52) with
  | none => true
  | some m =>
    match m.find? (spirvEntryOk ty (cString (b.take 32))) with
    | none => true
    | some e =>
      let n := (cString (e.2.drop 8)).length / 4 + 3
      let face := (List.range (e.2.length / 4 - n)).map fun k => spirvWord e (n + k)
      if ty = 1 then decide (spirvOutputs spec m face ≤ 32)
      else if ty = 3 then decide (spirvShared spec m ≤ 65536) && (match spirvGroup spec m (spirvWord e 1) with | some g => groupOk g | none => true)
      else true

end Sys2Proof.Machine
end

