-- ==== Sys2Proof/Machine/Stage.lean ====
section
/-! DEFINITION. The commands that land on one output: COLOUR_SET, SCALER_SET and WRITEBACK (R220 to R233), CANOPY_SET, OUTSTAGE_SET and
CANOPY_OWN (R245 to R255), BACKLIGHT_SET (R296). -/

namespace Sys2Proof.Machine

/-- The output that a body names (R220, R249, R296). -/
def Cmd.output (c : Cmd) : Nat := c.u 32 1 % 16

/-- OUTPUT names no output. -/
def Cmd.outputNone (c : Cmd) : Bool := decide (12 ≤ c.output)

/-- Reserved bits of byte 32, and an OUTPUT that names no output. -/
def Cmd.outputBad (c : Cmd) : Bool := decide (12 ≤ c.u 32 1)

/-- A command of one output becomes a group (R226, R233, R255, R296): TARGET_EN is bit `tb` of byte 33. -/
def Dev.openOut (d : Dev) (ref : CmdRef) (code : Nat) (c : Cmd) (kind : GKind) (tb : Nat) : Dev :=
  let n := c.output
  let en := bit (c.u 33 1) tb
  (d.newGroup
    { kind := kind, code := code, queue := ref.queue, sec := c.secure, cmds := [ref], body := c.body, ext := c.ext, mask := 2 ^ n
      anchor := n, targetEn := en, target := d.targetOf n en (c.u 36 4), phase := .waiting }).startWaiting

/-- A command starts: it completes with its first failed check, or waits for its place. -/
def Dev.startOut (d : Dev) (ref : CmdRef) (code : Nat) (c : Cmd) (kind : GKind) (tb : Nat) (checks : List (Bool × Nat × Nat)) : Dev :=
  match firstError checks with
  | some (st, res) => d.endCmd ref st res
  | none => d.openOut ref code c kind tb

/-- The colour-stage owner of output `n` or the Secure world (R221). -/
def Dev.stageAdmits (d : Dev) (n code : Nat) (sec : Bool) : Bool :=
  sec || (code == d.fl DSP_CMP_CTRL.CSTAGE_OWNER n && code != 0)

/-! COLOUR_SET and SCALER_SET. -/

def imageBytes : GKind → Nat
  | .colour => 295752
  | .scaler => 2560
  | .outstage => 4160
  | _ => 256

/-- The checks of a table load that need no memory (R221, R224, R225). -/
def Dev.tableChecks (d : Dev) (code : Nat) (c : Cmd) (kind : GKind) : List (Bool × Nat × Nat) :=
  let a := c.u 40 8
  [(c.outputBad, ST_BAD_FIELD, errByte 32),
   (!d.stageAdmits c.output code c.secure, ST_NOT_OWNER, errByte 32),
   (c.u 33 1 / 2 != 0, ST_BAD_FIELD, errByte 33),
   (!c.zero 34 35, ST_BAD_FIELD, errByte 34),
   (!c.zero 48 63, ST_BAD_FIELD, errByte 48),
   (c.ext != 0, ST_BAD_FIELD, errOutside),
   (a % 64 != 0 || !d.inDevice a (a + imageBytes kind - 1), ST_BAD_GEOMETRY, errByte 40)]

def runTable (code : Nat) (kind : GKind) : Run := fun ref c s => s.onDev fun d => d.startOut ref code c kind 0 (d.tableChecks code c kind)

def execColourSet (f : Fn) (q : Fin 8) (s : State) : Host.Outcome State Fault Refusal :=
  .next (s.startNext f q (· == 0x18) (runTable f.code .colour))

def execScalerSet (f : Fn) (q : Fin 8) (s : State) : Host.Outcome State Fault Refusal :=
  .next (s.startNext f q (· == 0x19) (runTable f.code .scaler))

/-- A reserved bit at 1, or a matrix coefficient out of range, in a colour-stage image (R224, R225). -/
def colourBad (img : List Byte) : Bool :=
  le img 0 4 / 16 != 0 || le img 10 6 != 0 || le img 52 12 != 0 ||
    ((List.range 9).any fun k => let m := toSigned 32 (le img (16 + 4 * k) 4); decide (m < -0x80000 ∨ 0x80000 < m)) ||
    ((List.range 1024).any fun k => le img (64 + 4 * k) 4 / 2 ^ 21 != 0 || le img (4160 + 4 * k) 4 / 2 ^ 16 != 0) ||
    ((List.range 35937).any fun k =>
      let v := le img (8256 + 8 * k) 8
      bits v 15 12 != 0 || bits v 31 28 != 0 || v / 2 ^ 44 != 0)

/-- The offset of the first row of a scaler table that does not sum to 16,384 (R223). -/
def scalerBad (t : List Byte) : Option Nat :=
  (([8, 6, 4, 2] : List Nat).map fun n => (List.range 64).map fun q => (n, q)).flatten.findSome? fun p =>
    if (coefRow t p.1 p.2).foldl (· + ·) 0 = 16384 then none else some (tapSet p.1 + 2 * p.1 * p.2)

/-- The error that a loaded table shows. -/
def tableErr (kind : GKind) (img : List Byte) : Option Nat :=
  if kind = .colour then (if colourBad img then some errOutside else none)
  else (scalerBad img).map fun o => errAt o

/-- A group that ends without landing. -/
def Dev.stopGroup (d : Dev) (g : Group) (st res : Nat) : Dev := d.endGroup g st (fun _ => res) d.now

/-- The load of a table ends (R225, R226): the table is read with the submitter's MID. -/
def State.tableLoadDone (s : State) (qx : Nat) : State :=
  match s.dev.validating qx [.colour, .scaler] with
  | none => s
  | some g =>
    match s.readMem ⟨g.code, g.sec⟩ 13 (le g.body 8 8) (imageBytes g.kind) with
    | (s1, .ok img) => s1.onDev fun d =>
      match tableErr g.kind img with
      | some res => d.stopGroup g ST_BAD_FIELD res
      | none => (d.passGroup g.id fun x => { x with data := img }).syncOuts
    | (s1, e) => s1.onDev fun d => d.stopGroup g e.status 0

def execTableLoadDone (f : Fn) (q : Fin 8) (s : State) : Host.Outcome State Fault Refusal := .next (s.tableLoadDone (qi f q))

/-! WRITEBACK. -/

/-- Pages that hold bytes `lo` to `hi`. -/
def pagesIn (lo hi : Nat) : List Nat := (List.range (hi / 4096 + 1 - lo / 4096)).map fun k => (lo / 4096 + k) * 4096

/-- The checks of R232 in their order. -/
def Dev.writebackChecks (d : Dev) (code : Nat) (c : Cmd) : List (Bool × Nat × Nat) :=
  let n := c.output
  let base := c.u 40 8
  let stride := c.u 48 2
  let hi := base + (d.vact n - 1) * stride + 4 * d.hact n - 1
  let tap := bit (c.u 33 1) 0
  [(c.outputBad, ST_BAD_FIELD, errByte 32),
   (c.u 33 1 / 4 != 0, ST_BAD_FIELD, errByte 33),
   (c.u 35 1 != 0, ST_BAD_FIELD, errByte 35),
   (!c.zero 50 63, ST_BAD_FIELD, errByte 50),
   (c.ext != 0, ST_BAD_FIELD, errOutside),
   (!(c.u 34 1 == 2 || c.u 34 1 == 3), ST_BAD_FORMAT, errByte 34),
   (base % 64 != 0, ST_BAD_GEOMETRY, errByte 40),
   (!strideOk 2 stride (d.hact n), ST_BAD_GEOMETRY, errByte 48),
   (!inBanks base hi, ST_BAD_GEOMETRY, errByte 40),
   (!tap && !d.stageAdmits n code c.secure, ST_NOT_OWNER, errByte 32),
   (tap && !c.secure && (pagesIn base hi).any fun a => !d.own.wbGrants.any fun g => g.covers a && bit g.funcs n,
     ST_NOT_PERMITTED, errByte 40)]

def runWriteback (code : Nat) : Run := fun ref c s => s.onDev fun d => d.startOut ref code c .writeback 1 (d.writebackChecks code c)

def execWriteback (f : Fn) (q : Fin 8) (s : State) : Host.Outcome State Fault Refusal :=
  .next (s.startNext f q (· == 0x1A) (runWriteback f.code))

/-! Canopy commands. -/

/-- A Canopy command starts: its OUTPUT names the group, whose Canopy decides who owns it, and validation follows (R254). With ENABLE 0 TARGET_SEQ is ignored (R250), and
the group has no target frame. -/
def runCanopy (code : Nat) (kind : GKind) : Run := fun ref c s =>
  s.onDev fun d => d.startOut ref code c kind (if kind = .canopy ∧ ¬ bit (c.u 33 1) 1 then 8 else 0)
    [(c.outputNone, ST_BAD_FIELD, errByte 32)]

def execCanopySet (f : Fn) (q : Fin 8) (s : State) : Host.Outcome State Fault Refusal :=
  .next (s.startNext f q (· == 0x20) (runCanopy f.code .canopy))

def execOutstageSet (f : Fn) (q : Fin 8) (s : State) : Host.Outcome State Fault Refusal :=
  .next (s.startNext f q (· == 0x21) (runCanopy f.code .outstage))

/-- CANOPY_OWN: unwrapped it has completed with AUTH_REQUIRED before it starts (R247, R253). It has no target frame. -/
def runCanopyOwn (code : Nat) : Run := fun ref c s =>
  s.onDev fun d => d.startOut ref code c .canopyOwn 8
    [(c.outputNone, ST_BAD_FIELD, errByte 32)]

def execCanopyOwn (f : Fn) (q : Fin 8) (s : State) : Host.Outcome State Fault Refusal :=
  .next (s.startIf f q (fun c => c.opcode == 0x22) (runCanopyOwn f.code))

/-- An owner code that a Canopy may have (R245). -/
def Dev.canopyOwnerOk (d : Dev) (c : Nat) : Bool := c == 1 || c == 2 || (decide (0x10 ≤ c ∧ c < 0x50) && d.secureVf (c - 0x10))

/-- The rectangle lies within the active area with both sides at least 1. -/
def Dev.inActive (d : Dev) (n x y w h : Nat) : Bool := decide (1 ≤ w ∧ 1 ≤ h ∧ x + w ≤ d.hact n ∧ y + h ≤ d.vact n)

/-- The first page of a range whose owner is not 0x01, counted from the range's start (check 4 of R254). -/
def State.foreignPage (s : State) (lo hi : Nat) : Option Nat :=
  (pagesIn lo hi).zipIdx.findSome? fun p => if s.ownerOf p.1 = 0x01 then none else some p.2

def bodyZero (b : List Byte) (lo n : Nat) : Bool := le b lo n == 0

/-- The checks of R254 on CANOPY_SET: body offsets count from byte 32. -/
def State.canopyChecks (s : State) (g : Group) : List (Bool × Nat × Nat) :=
  let d := s.dev
  let n := g.anchor
  let b := g.body
  let en := bit (le b 1 1) 1
  let base := le b 8 8
  let stride := le b 16 2
  let w := le b 22 2
  let h := le b 24 2
  let hi := base + (h - 1) * stride + 4 * w - 1
  let cwt := g.ext
  let tab := s.bytesAt cwt 256
  let ent := fun (chk : List Byte → Bool) => (List.range 16).any fun k => chk (tab.drop (16 * k))
  [(g.code != d.f DSP_CNP_STAT.OWNER n, ST_NOT_OWNER, errAt 0),
   (le b 0 1 / 16 != 0, ST_BAD_FIELD, errAt 0),
   (le b 1 1 / 4 != 0, ST_BAD_FIELD, errAt 1),
   (en && !bodyZero b 27 5, ST_BAD_FIELD, errAt 27),
   (en && !(le b 2 1 == 1 || le b 2 1 == 3), ST_BAD_FIELD, errAt 2),
   (en && decide (2 < le b 3 1), ST_BAD_FIELD, errAt 3),
   (cwt != 0 && ent (fun e => le e 12 2 / 2 ^ 13 != 0 || le e 14 2 != 0), ST_BAD_FIELD, errOutside),
   (en && base % 64 != 0, ST_BAD_GEOMETRY, errAt 8),
   (en && !strideOk 1 stride w, ST_BAD_GEOMETRY, errAt 16),
   (en && !d.inActive n (le b 18 2) (le b 20 2) w h, ST_BAD_GEOMETRY, errAt 18),
   (en && !inBanks base hi, ST_BAD_GEOMETRY, errAt 8),
   (cwt != 0 && (cwt % 64 != 0 || !inBanks cwt (cwt + 255)), ST_BAD_GEOMETRY, errOutside),
   (cwt != 0 && ent (fun e => bit (le e 12 2) 0 && !d.inActive n (le e 0 2) (le e 2 2) (le e 4 2) (le e 6 2)), ST_BAD_GEOMETRY,
     errOutside),
   (en && (s.foreignPage base hi).isSome, ST_NOT_PERMITTED, errAt 8 ((s.foreignPage base hi).getD 0)),
   (cwt != 0 && (s.foreignPage cwt (cwt + 255)).isSome, ST_NOT_PERMITTED, errAt 0xFFFF ((s.foreignPage cwt (cwt + 255)).getD 0))]

/-- The checks of R254 on OUTSTAGE_SET. -/
def State.outstageChecks (s : State) (g : Group) : List (Bool × Nat × Nat) :=
  let b := g.body
  let a := le b 8 8
  let img := s.bytesAt a 4160
  [(g.code != s.dev.f DSP_CNP_STAT.OWNER g.anchor, ST_NOT_OWNER, errAt 0),
   (le b 0 1 / 16 != 0, ST_BAD_FIELD, errAt 0),
   (le b 1 1 / 2 != 0, ST_BAD_FIELD, errAt 1),
   (!bodyZero b 2 2, ST_BAD_FIELD, errAt 2),
   (!bodyZero b 16 16, ST_BAD_FIELD, errAt 16),
   (g.ext != 0, ST_BAD_FIELD, errOutside),
   (le img 0 4 / 16 != 0 || le img 0 4 % 4 == 3 || le img 4 60 != 0 ||
     ((List.range 1024).any fun k => le img (64 + 4 * k) 4 / 2 ^ 16 != 0), ST_BAD_FIELD, errOutside),
   (a % 64 != 0 || !inBanks a (a + 4159), ST_BAD_GEOMETRY, errAt 8),
   ((s.foreignPage a (a + 4159)).isSome, ST_NOT_PERMITTED, errAt 8 ((s.foreignPage a (a + 4159)).getD 0))]

/-- The checks of R253 on CANOPY_OWN. -/
def Dev.canopyOwnChecks (d : Dev) (g : Group) : List (Bool × Nat × Nat) :=
  [(le g.body 0 1 / 16 != 0, ST_BAD_FIELD, errAt 0), (bit (le g.body 1 1) 7, ST_BAD_FIELD, errAt 1), (!bodyZero g.body 2 30, ST_BAD_FIELD, errAt 2),
   (g.ext != 0, ST_BAD_FIELD, errOutside), (!d.canopyOwnerOk (le g.body 1 1 % 128), ST_BAD_FIELD, errAt 1)]

/-- What the command reads into the pending set with MID 0x01 (R254): address and length. -/
def Group.canopyRead (g : Group) : Option (Nat × Nat) :=
  if g.kind = .canopy then (if g.ext = 0 then none else some (g.ext, 256))
  else if g.kind = .outstage then some (le g.body 8 8, 4160)
  else none

/-- Validation and read of a Canopy command end (R254, R255). -/
def State.canopyValidated (s : State) (qx : Nat) : State :=
  match s.dev.validating qx [.canopy, .outstage, .canopyOwn] with
  | none => s
  | some g =>
    let checks := if g.kind = .canopy then s.canopyChecks g else if g.kind = .outstage then s.outstageChecks g
      else s.dev.canopyOwnChecks g
    match firstError checks with
    | some (st, res) => s.onDev (·.stopGroup g st res)
    | none =>
      match g.canopyRead with
      | none => s.onDev fun d => (d.passGroup g.id id).syncOuts
      | some (a, n) =>
        match s.readMem ⟨0x01, true⟩ 1 a n with
        | (s1, .ok img) => s1.onDev fun d => (d.passGroup g.id fun x => { x with data := img }).syncOuts
        | (s1, e) => s1.onDev fun d => d.stopGroup g e.status 0

def execCanopyValidated (f : Fn) (q : Fin 8) (s : State) : Host.Outcome State Fault Refusal := .next (s.canopyValidated (qi f q))

/-! BACKLIGHT_SET. -/

/-- The BL_PWM pin of an output is Secure (R103). -/
def Dev.pwmSecure (d : Dev) (n : Nat) : Bool := bit (d.reg .OWN_PIN_WORLD 2).toNat (12 + n)

def Dev.blEnSecure (d : Dev) (n : Nat) : Bool := bit (d.reg .OWN_PIN_WORLD 2).toNat n

def Dev.backlightChecks (d : Dev) (code : Nat) (c : Cmd) : List (Bool × Nat × Nat) :=
  [(c.outputBad, ST_BAD_FIELD, errByte 32),
   (!d.stageAdmits c.output code c.secure, ST_NOT_OWNER, errByte 32),
   (c.u 33 1 / 2 != 0, ST_BAD_FIELD, errByte 33),
   (!c.zero 34 35, ST_BAD_FIELD, errByte 34),
   (!c.zero 42 63, ST_BAD_FIELD, errByte 42),
   (c.ext != 0, ST_BAD_FIELD, errOutside),
   (d.pwmSecure c.output && !c.secure, ST_NOT_PERMITTED, errByte 32)]

def runBacklight (code : Nat) : Run := fun ref c s => s.onDev fun d => d.startOut ref code c .backlight 0 (d.backlightChecks code c)

def execBacklightSet (f : Fn) (q : Fin 8) (s : State) : Host.Outcome State Fault Refusal :=
  .next (s.startNext f q (· == 0x28) (runBacklight f.code))

end Sys2Proof.Machine
end

