-- ==== Sys2Proof/Machine/Latch.lean ====
section
/-! DEFINITION. The latch instant of an output: landings, check-window results, views, and the generator's start and stop (R168, R188 to
R195, R222, R247, R255, R262 to R265, R274 to R276, R316, R321, R323). -/

namespace Sys2Proof.Machine

/-! Causes of the timing-and-port event (R298). -/

def Dev.tgCause (d : Dev) (n b : Nat) : Dev :=
  (d.setF DSP_TG_EVSTAT.CAUSE n (d.f DSP_TG_EVSTAT.CAUSE n ||| 2 ^ b)).raise (outEv n 7)

def Dev.glState (d : Dev) (n : Nat) : Nat := d.f DSP_TG_STAT.GL_STATE n

/-- GL_STATE enters HOLDOVER (R284). -/
def Dev.glHoldover (d : Dev) (n : Nat) : Dev :=
  ((d.setF DSP_TG_STAT.GL_STATE n 3).updOut n fun o => { o with refs := 0, onClock := false }).tgCause n 1

/-- A source is known stopped (R284): followers leave ACQUIRING or LOCKED. -/
def Dev.sourceStopped (d : Dev) (type idx : Nat) : Dev :=
  (List.range 12).foldl (fun (d : Dev) m =>
    if d.f DSP_TG_GL.SRC_TYPE m = type ∧ d.f DSP_TG_GL.SRC_IDX m = idx ∧ (d.glState m = 1 ∨ d.glState m = 2) then d.glHoldover m
    else d) d

/-! Check windows (R262 to R265). -/

/-- The result of a window over the frame so far (R264). -/
def Dev.cwResult (d : Dev) (n w : Nat) : Nat :=
  let i := idx2 16 n w
  let o := d.out n
  let r := d.cwNow n w
  let area := d.fl DSP_CW_WH.W i * d.fl DSP_CW_WH.H i
  if o.cwBad.get w then 3
  else if r.fed ≠ area ∨ area = 0 then 2
  else if crcFinal 1 r.crc = (d.liveReg .DSP_CW_EXP i).toNat then 0
  else 1

/-- The reaction bits of a result: bit 0 EV, bit 1 FAULT, bit 2 BLANK. -/
def Dev.cwReaction (d : Dev) (n w result : Nat) : Nat :=
  d.fl (if result = 0 then DSP_CW_CTRL.R_MATCH else if result = 1 then DSP_CW_CTRL.R_MISM
    else if result = 2 then DSP_CW_CTRL.R_INC else DSP_CW_CTRL.R_REF) (idx2 16 n w)

def Dev.cwDueOf (d : Dev) (n w : Nat) : CwDue :=
  let res := d.cwResult n w
  { w := w, result := res, crc := crcFinal 1 (d.cwNow n w).crc, react := d.cwReaction n w res, seq := d.seq n }

/-- A result is stored and its reactions apply (R264, R265). -/
def Dev.cwApply (d : Dev) (n : Nat) (r : CwDue) : Dev :=
  let i := idx2 16 n r.w
  let d1 := ((((d.setReg .DSP_CW_CRC i (BitVec.ofNat 32 r.crc)).setF DSP_CW_RES.RESULT i r.result).setF DSP_CW_RES.VALID i 1).setF
    DSP_CW_RES.SEQ_LO i (r.seq % 2 ^ 16)).count
    (if r.result = 0 then DSP_CW_CNT.MATCH_COUNT else if r.result = 1 then DSP_CW_CNT.MISM_COUNT
      else if r.result = 2 then DSP_CW_CNT.INC_COUNT else DSP_CW_CNT.REF_COUNT) i 1
  let d2 := d1.raiseIf (bit r.react 0) (outEv n 0)
  let d3 := if bit r.react 1 then (d2.setF DSP_CW_RES.FAULT_LATCH i 1).setF DSP_CNP_STAT.FAULT_OUT n 1 else d2
  if bit r.react 2 then d3.setF DSP_CNP_STAT.CBLANK n 1 else d3

/-- The window's last pixel has been sent in the current frame. -/
def Dev.cwComplete (d : Dev) (n w : Nat) : Bool :=
  let i := idx2 16 n w
  let area := d.fl DSP_CW_WH.W i * d.fl DSP_CW_WH.H i
  d.tgScans n && d.fl DSP_CW_CTRL.EN i == 1 && !((d.out n).cw.get w).decided && decide (0 < area) && (d.cwNow n w).fed == area

/-- A window's result is decided (R264): one that is due from a frame that has ended, or the current frame's. -/
def execCheckWindowResult (n : Fin 12) (w : Fin 16) (s : State) : Host.Outcome State Fault Refusal :=
  .next (s.onDev fun d =>
    match (d.out n.val).cwDue.find? fun r => r.w == w.val with
    | some r => (d.updOut n.val fun o => { o with cwDue := o.cwDue.erase r }).cwApply n.val r
    | none =>
      if d.cwComplete n.val w.val then
        (d.updOut n.val fun o => { o with cw := o.cw.upd w.val fun c => { c with decided := true } }).cwApply n.val
          (d.cwDueOf n.val w.val)
      else d)

/-- The frame ends (R264): every enabled window without a result has one due, and the windows start afresh. -/
def Dev.endFrameWindows (d : Dev) (n : Nat) : Dev :=
  let due := ((List.range 16).filter fun w =>
    d.fl DSP_CW_CTRL.EN (idx2 16 n w) == 1 && !((d.out n).cw.get w).decided).map (d.cwDueOf n)
  d.updOut n fun o => { o with cwDue := o.cwDue ++ due, cw := [] }

/-- A capture whose frame is cut short before its last line (log entry 20); lines that have been composed go on to be written (R234). -/
def Dev.abortCaptures (d : Dev) (n : Nat) : Dev :=
  ((d.out n).captures.filter fun c => c.seq == d.seq n && decide (c.lines < d.vact n)).foldl (fun d c => d.endCapture n c ST_ABORTED 0 d.now) d

/-- The frame in progress ends: windows, runway and counters; MIN_LEVEL tells of frames that ended complete (R39). -/
def Dev.endFrame (d : Dev) (n : Nat) : Dev :=
  let d1 := ((d.endFrameWindows n).abortCaptures n).dropHost n (d.slotsOf n)
  let d2 := if (d1.out n).scan = d1.vact n then d1.setF DSP_RUNWAY_STAT.MIN_LEVEL n (d1.out n).minLevel else d1
  (d2.setF DSP_RUNWAY_STAT.LEVEL n 0).updOut n fun o => { o with compose := 0, scan := 0, sending := none, runway := [], minLevel := 3, failFrame := false }

/-! Class L registers of an output (R16, R38, R222, R244, R269, R295, R299). -/

/-- The colour-stage owner changes (R222): tables return to their reset state, and waiting commands of the old owner complete with
NOT_OWNER. -/
def Dev.latchStageOwner (d : Dev) (n : Nat) : Dev :=
  let old := d.fl DSP_CMP_CTRL.CSTAGE_OWNER n
  let d1 := d.latch .DSP_CMP_CTRL n
  if d1.fl DSP_CMP_CTRL.CSTAGE_OWNER n = old then d1
  else
    let gs := d1.disp.groups.filter fun g => (g.kind == .colour || g.kind == .scaler || g.kind == .writeback) && g.anchor == n &&
      g.landed == 0 && g.code == old
    gs.foldl (fun d g => d.stopGroup g ST_NOT_OWNER (errByte 32)) (d1.updOut n fun o => { o with stage := [], coefs := [] })

/-- EN of a window becomes 1 (R269): its counts and VALID return to 0. -/
def Dev.cwRise (d : Dev) (i : Nat) : Dev := (d.setReg .DSP_CW_CNT i 0).setF DSP_CW_RES.VALID i 0

def Dev.latchWindow (d : Dev) (n w : Nat) : Dev :=
  let i := idx2 16 n w
  let was := d.fl DSP_CW_CTRL.EN i
  let d1 := (((d.latch .DSP_CW_EXP i).latch .DSP_CW_CTRL i).latch .DSP_CW_XY i).latch .DSP_CW_WH i
  if was = 0 ∧ d1.fl DSP_CW_CTRL.EN i = 1 then d1.cwRise i else d1

/-- A pending write of a remote binding takes effect at the latch of its slot's output (R545). -/
def Dev.latchBindings (d : Dev) (n : Nat) : Dev :=
  (List.range 32).foldl (fun (d : Dev) r =>
    if d.slotOut (d.f CNV_RLB.SLOT r) = some n ∨ (d.fl CNV_RLB.EN r = 1 ∧ d.slotOut (d.fl CNV_RLB.SLOT r) = some n) then
      d.latch .CNV_RLB r else d) d

def Dev.latchOut (d : Dev) (n : Nat) : Dev :=
  let d1 := (List.range 16).foldl (fun d w => d.latchWindow n w)
    (((((d.latchStageOwner n).latch .DSP_CMP_UCOL n).latch .DSP_CNP_FAILCOL n).latch .DSP_RUNWAY_CTRL n).latch .DSP_BL_PWM n)
  d1.latchBindings n

/-! Landing (R189 to R196). -/

/-- Slot `s` takes a record of a group on output `n` (R192, R196, R197, R200), with what a view gives it now (R314). -/
def Dev.landRec (d : Dev) (g : Group) (n : Nat) (r : GRec) : Dev :=
  let s := r.r.slot
  let l := d.layer s
  let o := d.out n
  let d1 := match l.cur with
    | some old => if l.round = o.round ∧ d.tgScans n then d.releaseNow g.code true old else d.releaseLater n old 0
    | none => d
  ((((d1.setLayer s { l with cur := some (d1.takenView r.r), round := o.round }).setF DSP_SLOT_STAT.VISIBLE s (b2n !r.r.hide)).setF
    DSP_SLOT_STAT.HIDE_CAUSE s (b2n r.r.hide)).setF DSP_SLOT_STAT.OFF_FRAME s 0).setReg .DSP_SLOT_SEQ s (BitVec.ofNat 32 (d.seq n))

/-- The landing registers record a COMMIT group (R203). -/
def Dev.landStat (d : Dev) (g : Group) (n : Nat) (late : Bool) : Dev :=
  let tag := match g.cmds.getLast? with
    | some r => match d.cmd? r with | some c => le c.recordHeader 2 2 | none => 0
    | none => 0
  (((((((d.setF DSP_LAND_STAT.TAG n tag).setF DSP_LAND_STAT.FUNC n g.code).setF DSP_LAND_STAT.PARTIAL n (b2n g.dropped)).setF
    DSP_LAND_STAT.LATE n (b2n late)).setF DSP_LAND_STAT.TAPS n (b2n g.tapsRed)).setReg .DSP_LAND_SEQ n (BitVec.ofNat 32 (d.seq n)))
    ).setReg64 .DSP_LAND_LTIME_LO .DSP_LAND_LTIME_HI n d.now

/-- A window of a landing check-window table (R251): in force at once. -/
def Dev.landWindow (d : Dev) (n : Nat) (tab : List Byte) (w : Nat) : Dev :=
  let i := idx2 16 n w
  let e := tab.drop (16 * w)
  let was := d.fl DSP_CW_CTRL.EN i
  let set := fun (d : Dev) (r : Reg) (v : Nat) => (d.setReg r i (BitVec.ofNat 32 v)).latch r i
  let d1 := set (set (set (set d .DSP_CW_XY (le e 0 2 % 2 ^ 14 + 2 ^ 16 * (le e 2 2 % 2 ^ 14))) .DSP_CW_WH
    (le e 4 2 % 2 ^ 14 + 2 ^ 16 * (le e 6 2 % 2 ^ 14))) .DSP_CW_EXP (le e 8 4)) .DSP_CW_CTRL (le e 12 2 % 2 ^ 13)
  let d2 := d1.updOut n fun o => { o with cwBad := o.cwBad.put w false }
  if was = 0 ∧ d2.fl DSP_CW_CTRL.EN i = 1 then d2.cwRise i else d2

/-- CANOPY_SET lands (R250, R251, R257). -/
def Dev.landCanopy (d : Dev) (g : Group) (n : Nat) : Dev :=
  let b := g.body
  let on := bit (le b 1 1) 1
  let c : CanopySt := if on then
      { on := true, fmt := le b 2 1, blend := le b 3 1, base := le b 8 8, stride := le b 16 2, x := le b 18 2, y := le b 20 2,
        w := le b 22 2, h := le b 24 2, alpha := le b 26 1 }
    else {}
  let d1 := ((d.updOut n fun o => { o with canopy := c, failHeld := false }).setF DSP_CNP_STAT.ENABLED n (b2n on)).setReg .DSP_CNP_SEQ n
    (BitVec.ofNat 32 (d.seq n))
  if g.ext = 0 then d1 else (List.range 16).foldl (fun d w => d.landWindow n g.data w) d1

/-- The output stage takes an image; the empty image is its reset state (R252, R261). -/
def Dev.setFinal (d : Dev) (n : Nat) (img : List Byte) : Dev :=
  ((((d.updOut n fun o => { o with final := img }).setF DSP_OST_CFG.DEPTH n (octrl img % 4)).setF DSP_OST_CFG.DITHER n
    (b2n (bit (octrl img) 2))).setF DSP_OST_CFG.FINAL_EN n (b2n (bit (octrl img) 3)))

/-- CANOPY_OWN lands (R247); one that names the owner in force changes nothing. -/
def Dev.landCanopyOwn (d : Dev) (g : Group) (n : Nat) : Dev :=
  let old := d.f DSP_CNP_STAT.OWNER n
  let new := le g.body 1 1 % 128
  if old = new then d
  else
    let gs := d.disp.groups.filter fun x => x.id != g.id && (x.kind == .canopy || x.kind == .outstage || x.kind == .canopyOwn) &&
      x.anchor == n && x.landed == 0 && x.code == old
    let d1 := gs.foldl (fun d x => d.stopGroup x ST_NOT_OWNER (errAt 0)) d
    let d2 := ((d1.updOut n fun o => { o with canopy := {}, failHeld := false }).setF DSP_CNP_STAT.ENABLED n 0).setF
      DSP_CNP_STAT.OWNER n new
    (List.range 16).foldl (fun (d : Dev) w => d.setBoth DSP_CW_CTRL.EN (idx2 16 n w) 0) (d2.setFinal n [])

/-- What a landing does on output `n`, by kind (R190, R226, R233, R255, R296). -/
def Dev.landEffect (d : Dev) (g : Group) (n : Nat) : Dev :=
  match g.kind with
  | .commit =>
    let stopped := match g.decided with | some x => x.2.2 | none => false
    ((g.recs.filter fun r => !r.landed && d.slotOut r.r.slot == some n).foldl (fun d r => d.landRec g n r) d).landStat g n (g.late && !stopped)
  | .colour => d.updOut n fun o => { o with stage := g.data }
  | .scaler => d.updOut n fun o => { o with coefs := g.data }
  | .writeback => d.updOut n fun o => { o with captures := o.captures ++
      [{ group := g, tap := le g.body 1 1 % 2, fmt := le g.body 2 1, base := le g.body 8 8, stride := le g.body 16 2
         seq := if d.tgScans n then d.seq n else (d.seq n + 1) % 2 ^ 32 }] }
  | .canopy => d.landCanopy g n
  | .outstage => d.setFinal n g.data
  | .canopyOwn => d.landCanopyOwn g n
  | .backlight => d.setBoth DSP_BL_PWM.DUTY n (le g.body 8 2)

/-- A group that has landed on every output completes (R193); a WRITEBACK does so after its capture (R233). -/
def Dev.finishGroup (d : Dev) (id : Nat) : Dev :=
  match d.disp.groups.find? fun g => g.id == id with
  | some g =>
    if g.landed = g.mask ∧ g.kind ≠ .writeback then
      match g.decided with
      | some (sq, lt, _) => d.endGroup g g.landStatus (fun _ => sq) lt
      | none => d
    else d.startWaiting
  | none => d

/-- A decided group lands on output `n`, whose landing event is raised (R190, R193). -/
def Dev.landOn (d : Dev) (id n : Nat) : Dev :=
  match d.disp.groups.find? fun g => g.id == id with
  | some g => ((d.landEffect g n).updGroup id fun x => { x with
      landed := x.landed + 2 ^ n
      recs := x.recs.map fun r => if d.slotOut r.r.slot = some n then { r with landed := true } else r }).raise (outEv n 1)
  | none => d

/-- Every earlier group of the same queue has landed on every output of its own OUT_MASK (R189). -/
def Dev.earlierLanded (d : Dev) (g : Group) : Bool :=
  d.disp.groups.all fun x => !(x.queue == g.queue && decide (x.id < g.id)) || x.landed == x.mask

/-- A record would land now (R189, R195). -/
def Dev.recLands (d : Dev) (r : GRec) : Bool := r.r.hide || !r.r.acqEn || decide (r.r.acqV ≤ d.fence r.r.acqFence)

/-- The fences let the group land: all of them, or with PARTIAL at least one record's; with PARTIAL and no record at all there is none to drop, and the
group lands (R189, R195; DESIGN CHOICE, log entry 161). -/
def Dev.fencesLet (d : Dev) (g : Group) : Bool :=
  if g.part then g.recs.isEmpty || g.recs.any d.recLands else g.recs.all d.recLands

/-- The group is ready to be decided (R189, R191). -/
def Dev.ready (d : Dev) (g : Group) : Bool :=
  g.phase == .validated && g.decided.isNone && !d.vfHeld g.code && (!g.targetEn || seqReached (d.seq g.anchor) g.target) && d.earlierLanded g && d.fencesLet g

/-- Outputs on which a decided group lands now: those that latch, and those whose generator is stopped (R190). -/
def Dev.landsNow (d : Dev) (lat : List Nat) (g : Group) : List Nat :=
  if g.decided.isSome then (bitsOf g.mask).filter fun n => !bit g.landed n && (lat.contains n || !d.tgScans n) else []

/-- The anchor's decision (R190, R195): with PARTIAL the records whose fences are not reached are dropped. -/
def Dev.decideGroup (d : Dev) (g : Group) (stopped : Bool) : Dev :=
  let keep := if g.part then g.recs.filter d.recLands else g.recs
  let drop := if g.part then g.recs.filter fun r => !d.recLands r else []
  (drop.foldl (fun d r => d.releaseNow g.code g.sec r.r) d).updGroup g.id fun x =>
    { x with decided := some (d.seq g.anchor, d.now, stopped), recs := keep, dropped := !drop.isEmpty }

/-- One move of the landings at a latch: the first of the groups `ids`, whose validation completed before it, that can be decided or can land now (R189, R190,
R192). -/
def Dev.landMove (d : Dev) (lat ids : List Nat) : Option Dev :=
  let gs := orderGroups (d.disp.groups.filter fun g => g.phase == .validated && ids.contains g.id)
  match gs.find? fun g => (lat.contains g.anchor && d.ready g) || !(d.landsNow lat g).isEmpty with
  | none => none
  | some g =>
    let d1 := if g.decided.isNone then d.decideGroup g false else d
    let g1 := (d1.disp.groups.find? fun x => x.id == g.id).getD g
    some (((d1.landsNow lat g1).foldl (fun d n => d.landOn g.id n) d1).finishGroup g.id)

/-- All the landings of a latch. -/
def Dev.landAll (d : Dev) (lat ids : List Nat) : Nat → Dev
  | 0 => d
  | k + 1 => match d.landMove lat ids with
    | some d1 => d1.landAll lat ids k
    | none => d

def Dev.landings (d : Dev) (lat : List Nat) : Dev :=
  d.landAll lat ((d.disp.groups.filter fun g => g.phase == .validated).map Group.id) (2 * d.disp.groups.length + 2)

/-- The group can be decided while the anchor's generator is stopped: with PARTIAL, at least one of its records would land (R191). -/
def Dev.readyStopped (d : Dev) (g : Group) : Bool := d.ready g && (!g.part || g.recs.any d.recLands)

/-- While the anchor's generator is stopped, a group is decided and lands (R191). -/
def Dev.decideStopped (d : Dev) (n : Nat) : Dev :=
  if d.tgScans n then d
  else match (orderGroups d.disp.groups).find? fun g => g.anchor == n && d.readyStopped g with
    | none => d
    | some g =>
      let d1 := d.decideGroup g true
      let g1 := (d1.disp.groups.find? fun x => x.id == g.id).getD g
      let ns := d1.landsNow [] g1
      let d2 := ns.foldl (fun (d : Dev) m => d.updOut m fun o => { o with round := o.round + 1 }) d1
      ((ns.foldl (fun d m => d.landOn g.id m) d2).finishGroup g.id).landings []

def execGroupDecideStopped (n : Fin 12) (s : State) : Host.Outcome State Fault Refusal := .next (s.onDev (·.jointly (·.decideStopped n.val)))

/-! Views (R316, R321, R323, R541). -/

/-- FRAME_AGE_MS (R317). -/
def Dev.frameAge (d : Dev) (cs : CsSt) : Nat :=
  match cs.lastEnd with
  | some t => min 65535 ((d.now - t) / 1000000)
  | none => 65535

/-- STALE_MS of STREAM_SET (R308). -/
def CsSt.staleMs (c : CsSt) : Nat := le c.cont 6 2

/-- The source kind that a view takes at a latch (R316, R323): 1 live, 2 fallback, 0 none. -/
def Dev.viewPick (d : Dev) (n c : Nat) : Nat :=
  let cs := d.vin.cs.get c
  let live := if cs.lineLocked then d.f VIN_CS_STAT.STATE c == 3 && (cs.viewKind == 1 || d.glState n == 2)
    else cs.newest.isSome && (cs.staleMs == 0 || decide (d.frameAge cs ≤ cs.staleMs))
  if live then 1 else if cs.fbEn then 2 else 0

/-- A layer without a source is off in the frame (R316, R541); one that is hidden stays so. -/
def Dev.sourceLost (d : Dev) (s : Nat) : Dev := if d.f DSP_SLOT_STAT.HIDE_CAUSE s = 0 then d.switchOff s else d

/-- A slot's view takes its source for the frame that the latch starts. -/
def Dev.viewSelect (d : Dev) (n s c : Nat) : Dev :=
  let cs := d.vin.cs.get c
  let k := d.viewPick n c
  let base := if k = 1 then (if cs.lineLocked then some cs.bufBase else cs.newest.map cs.buffer) else if k = 2 then some cs.fbBase else none
  let cs1 := { cs with viewKind := k, viewBuf := if k = 1 ∧ ¬ cs.lineLocked then cs.newest else none }
  let d1 := ((({ d with vin := { d.vin with cs := d.vin.cs.put c cs1 } }).setLayer s { d.layer s with viewBase := base }).setF
    VIN_CS_STAT.VIEW c k).raiseIf (k != cs.viewKind) (192 + 4 * c + 2)
  if k = 0 then d1.sourceLost s else d1

/-- A peer stream's source at the latch (R541). -/
def Dev.peerSelect (d : Dev) (s : Nat) (peers : List PeerView) : Dev :=
  match (peers.find? fun p => p.slot.val == s).bind fun p => p.base with
  | some b => d.setLayer s { d.layer s with viewBase := some b }
  | none => d.sourceLost s

/-- The slots of an output take their view sources. -/
def Dev.viewSources (d : Dev) (n : Nat) (peers : List PeerView) : Dev :=
  (d.slotsOf n).foldl (fun (d : Dev) s =>
    match d.viewOf s, d.remoteOf s with
    | some c, _ => d.viewSelect n s c
    | none, some k => if d.fl CNV_RLB.KIND k = 1 then d.peerSelect s peers else d
    | none, none => d) d

/-- Saturate to a signed range of `w` bits. -/
def satS (w : Nat) (x : Int) : Int := clampI (-(2 ^ (w - 1) : Nat)) ((2 ^ (w - 1) : Nat) - 1) x

/-- After a frame of a line-locked view: the slack registers, and LL_TRIM_NS moves by the mean slack minus 0.75 line times (R321). The line
time is HTOTAL × 2^24 / (38.4 MHz × M). -/
def Dev.llTrim (d : Dev) (n c : Nat) : Dev :=
  let cs := d.vin.cs.get c
  if cs.slackN = 0 then { d with vin := { d.vin with cs := d.vin.cs.put c { cs with due := [] } } }
  else
    let m : Int := (d.f DSP_TG_PCLK.M n * 384 : Nat)
    let t : Int := (d.f DSP_TG_H0.HTOTAL n * 2 ^ 24 * 10000 : Nat)
    let num : Int := 4 * cs.slackSum * m - 3 * t * (cs.slackN : Nat)
    let trim := toSigned 32 (d.reg .VIN_CS_LL_TRIM c).toNat + num / (4 * m * (cs.slackN : Nat))
    let d1 := ((d.setF VIN_CS_LL_SLACK.SLACK_MIN c (ofSigned 16 (satS 16 cs.slackMin))).setF VIN_CS_LL_SLACK.SLACK_MAX c
      (ofSigned 16 (satS 16 cs.slackMax))).setReg .VIN_CS_LL_TRIM c (BitVec.ofInt 32 (satS 32 trim))
    { d1 with vin := { d1.vin with cs := d1.vin.cs.put c { cs with slackN := 0, slackSum := 0, slackMin := 0, slackMax := 0, due := [] } } }

def Dev.llTrims (d : Dev) (n : Nat) : Dev :=
  (d.slotsOf n).foldl (fun (d : Dev) s =>
    match d.viewOf s with
    | some c => if (d.vin.cs.get c).lineLocked then d.llTrim n c else d
    | none => d) d

/-! The latch. -/

/-- LINK_UP of the routed port. -/
def Dev.outLinkUp (d : Dev) (n : Nat) : Bool := match d.portOfOut n with | some p => d.fb DSP_PORT_STAT.LINK_UP p | none => false

/-- What a latch starts before the landings: the frame in progress ends, unless the generator only starts here (`first`); the new frame's number, class L fields and assignment changes (R168, R188, R192). -/
def Dev.latchPre (d : Dev) (first : Bool) (n : Nat) : Dev :=
  let d1 := (if first then d else (((d.finishLine n).llTrims n).endFrame n)).setReg .DSP_TG_SEQ n (BitVec.ofNat 32 (d.seq n + 1))
  let l := d.vact n + d.f DSP_TG_CTRL.LATCH_OFS n
  let d2 := ((d1.updOut n fun o => { o with round := o.round + 1, lastLatch := d.now }).setF DSP_TG_STAT.LINE n l).emitRaster n l
  let d3 := (d2.slotsOf n).foldl (fun (d : Dev) s => d.setF DSP_SLOT_STAT.OFF_FRAME s 0) d2
  let d4 := d3.latchOut n
  (d4.slotsOf n).foldl (fun d s => d.applySlot s) d4

/-- Commands of WAIT_FRAME whose frame is reached complete (R182). -/
def Dev.endWaits (d : Dev) (n : Nat) : Dev :=
  let due := d.disp.waits.filter fun w => w.2.1 == n && seqReached (d.seq n) w.2.2
  let d1 := due.foldl (fun d w => d.endCmdAt w.1 ST_OK (d.seq n) d.now) d
  { d1 with disp := { d1.disp with waits := d1.disp.waits.filter fun w => !(w.2.1 == n && seqReached (d.seq n) w.2.2) } }

/-- DUTY and PERIOD are applied at the start of a PWM period (R295). -/
def Dev.pwmStart (d : Dev) (n : Nat) : Dev :=
  d.updOut n fun o => { o with pwmPeriod := d.fl DSP_BL_PWM.PERIOD n, pwmDuty := d.fl DSP_BL_PWM.DUTY n, pwmAt := d.now }

/-! Streams and side channels of ports (R277, R290, R293). -/

def isDp (p : Nat) : Bool := decide (p < 4)

def isDsi (p : Nat) : Bool := decide (p = 4 ∨ p = 5)

/-- Generators routed to a port. -/
def Dev.routed (d : Dev) (p : Nat) : List Nat := (List.range 12).filter fun n => d.f DSP_TG_ROUTE.PORT n == p

def Dev.updPort (d : Dev) (p : Nat) (g : DispPortSt → DispPortSt) : Dev := { d with disp := { d.disp with ports := d.disp.ports.upd p g } }

/-- What the stream of output `n` sends: without video a DSI link holds its lanes at LP-11, and the others send idle (R277, R290). -/
def Dev.sends (d : Dev) (n p : Nat) : PortSends :=
  if !d.fb DSP_PORT_STAT.LINK_UP p then .nothing else if (d.out n).video then .video else if isDsi p then .lp11 else .idle

/-- The stream of output `n` carries video from now on, or no longer. -/
def Dev.setVideo (d : Dev) (n : Nat) (on : Bool) : Dev :=
  let d1 := d.updOut n fun o => { o with video := on }
  match d1.portOfOut n with
  | some p => if (d.out n).video = on then d1 else d1.emit (.stream p (d1.f DSP_TG_ROUTE.STREAM n) (d1.sends n p))
  | none => d1

/-- A side-channel transaction is sent. -/
def Dev.sideSend (d : Dev) (p : Nat) (t : SideTxn) : Dev := d.emit (.sideChannel p t.kind t.addr t.bytes t.count)

/-- A DSI packet that waited for a latch, or for the last generator of its port to stop, is sent. -/
def Dev.sideGo (d : Dev) (p : Nat) : Dev :=
  match (d.disp.ports.get p).side with
  | some t => if t.waits then (d.updPort p fun x => { x with side := some { t with waits := false } }).sideSend p t else d
  | none => d

/-- What a latch does on the routed port: video begins with this frame where the link is up, and a waiting DSI packet goes out in the blanking. -/
def Dev.latchPort (d : Dev) (n : Nat) : Dev :=
  match d.portOfOut n with
  | some p =>
    let d1 := (d.updPort p fun x => { x with latched := x.latched || d.fb DSP_PORT_CFG.ENABLE p }).sideGo p
    if d1.fb DSP_PORT_STAT.LINK_UP p then d1.setVideo n true else d1
  | none => d

/-- The routed port when a generator has stopped. -/
def Dev.stopPort (d : Dev) (n : Nat) : Dev :=
  let d1 := d.setVideo n false
  match d1.portOfOut n with
  | some p => if (d1.routed p).any d1.tgScans then d1 else d1.sideGo p
  | none => d1

/-- What follows the landings: views, coverage, waiting commands, backlight and port (R182, R244, R290, R292, R294, R295). PEAK_COV is that of the frame
which a latch starts; what lands while the generator is stopped leaves it (DESIGN CHOICE, log entry 163). -/
def Dev.latchPost (d : Dev) (n : Nat) (peers : List PeerView) : Dev :=
  let d1 := (d.viewSources n peers).endWaits n
  let d2 := d1.setF DSP_CMP_COV.PEAK_COV n (peakCoverage ((d1.stack n).map fun r => ⟨r.slot, [some r]⟩) (d1.vact n))
  let d3 := d2.updOut n fun o => { o with litFrames := if d2.outLinkUp n then min 2 (o.litFrames + 1) else 0 }
  (if d3.fb DSP_BL_CTRL.SYNC n then d3.pwmStart n else d3).latchPort n

/-- The latch instants of a round: outputs that are RUNNING. -/
def Dev.latchAll (d : Dev) (first : Bool) (ns : List Nat) (peers : List PeerView) : Dev :=
  let d1 := ns.foldl (fun d n => d.latchPre first n) d
  let d2 := (d1.landings ns).syncOuts
  ns.foldl (fun d n => d.latchPost n peers) d2

/-- The generator enters OFF (R274 to R277, R284, R298), at the end of the pixel period in progress. -/
def Dev.tgStop (d : Dev) (n : Nat) : Dev :=
  let was := d.glState n
  let d1 := if d.tgScans n then (d.closeLine n (d.sentPixels n)).endFrame n else d.endFrameWindows n
  let d2 := ((((d1.setF DSP_TG_STAT.STATE n 0).setF DSP_TG_CTRL.ENABLE n 0).setF DSP_TG_STAT.LINE n 0).setF DSP_TG_STAT.GL_STATE n 0
    ).updOut n fun o => { o with refs := 0, onClock := false, litFrames := 0, lit := false, lastRef := none, refPeriod := 0, steer := 0, startAt := none }
  let d3 := if was = 2 then d2.tgCause n 1 else d2
  (((((d3.sourceStopped 1 n).tgCause n 5).stopPort n).latchOut n).landings []).syncOuts

/-- Generators that run from one pixel clock latch in one round (R281). -/
def Dev.hardWith (d : Dev) (ns : List Nat) : List Nat :=
  ns ++ (List.range 12).filter fun m => !ns.contains m && d.tgScans m && ns.any fun n => d.tgScans n && d.clockOf m == d.clockOf n

/-- The latch instant has come on the output and on every generator that runs from its pixel clock (R275, R281). -/
def Dev.mayLatch (d : Dev) (n : Nat) : Bool :=
  d.latchDue n && (List.range 12).all fun m => !d.tgScans m || d.clockOf m != d.clockOf n || d.latchDue m

/-- The outputs that latch with output `n`: those whose latch instants fall in the same arbitration round (R189, R190, R275, R281); a
STOPPING generator enters OFF without a latch (R274). -/
def Dev.latchOuts (d : Dev) (n : Nat) (also : List Nat) : List Nat :=
  ((d.hardWith (n :: also)).foldl (fun l m => if l.contains m then l else l ++ [m]) []).filter d.mayLatch

def Dev.latchRound (d : Dev) (ns : List Nat) (peers : List PeerView) : Dev :=
  let stops := ns.filter fun m => d.f DSP_TG_STAT.STATE m == 3
  let runs := ns.filter fun m => d.f DSP_TG_STAT.STATE m == 2
  (stops.foldl (fun d m => (d.finishLine m).tgStop m) d).latchAll false runs peers

/-- Ticks of a backlight PWM period that have passed (R295): 38.4 MHz / 2^PRESCALE. -/
def Dev.pwmTicks (d : Dev) (n : Nat) : Nat := (d.now - (d.out n).pwmAt) * 384 / (10000 * 2 ^ d.f DSP_BL_CTRL.PRESCALE n)

/-- A PWM period ends and the next begins (R295). -/
def execPwmPeriodStart (n : Fin 12) (s : State) : Host.Outcome State Fault Refusal :=
  .next (s.onDev fun d => if (d.out n.val).pwmPeriod ≤ d.pwmTicks n.val then d.pwmStart n.val else d)

/-! The spare compositor (R242, R243). -/

/-- The request that the swap of output `n` would serve. -/
def Dev.compositorReq (d : Dev) (n : Nat) : Option SwapReq := (d.out n).swapReq

/-- The instant of a latch of output `n`, before line 0 of the new frame is composed; a stopped generator has no latch, and the swap takes place at once
(R242; DESIGN CHOICE, log entry 162). -/
def Dev.swapInstant (d : Dev) (n : Nat) : Bool :=
  !d.tgScans n || (decide ((d.out n).compose = 0 ∧ (d.out n).scan = 0) && (d.out n).lastLatch == d.now)

/-- The spare compositor takes over at a latch, or gives the output back; one output at a time. -/
def Dev.compositorSwap (d : Dev) (n : Nat) : Dev :=
  if !d.swapInstant n then d
  else match d.compositorReq n with
    | none => d
    | some r =>
      let d1 := d.updOut n fun o => { o with swapReq := none }
      let taken := (List.range 12).any fun m => m != n && d.fb DSP_CMP_STAT.SPARE m
      if !r.back && taken then
        match r.cmd with
        | some c => d1.endCmd c ST_BENCH_EXHAUSTED errOutside
        | none => d1.benchExhausted 3 n r.trigger
      else
        let d2 := (d1.setF DSP_CMP_STAT.SPARE n (b2n !r.back)).benchDone 3 n 0 r.trigger r.back
        match r.cmd with
        | some c => d2.endCmd c ST_OK 0
        | none => d2

def execCompositorSwap (n : Fin 12) (s : State) : Host.Outcome State Fault Refusal := .next (s.onDev (·.compositorSwap n.val))

end Sys2Proof.Machine
end

