-- ==== Sys2Proof/Machine/Tg.lean ====
section
/-! DEFINITION. The timing generators, genlock and the display ports (R268, R270 to R293). -/

namespace Sys2Proof.Machine

/-! Starting and stopping. -/

/-- The limits of R271. -/
def Dev.timingOk (d : Dev) (n : Nat) : Bool :=
  let hact := d.f DSP_TG_H0.HACT n
  let htot := d.f DSP_TG_H0.HTOTAL n
  let hfp := d.f DSP_TG_H1.HFP n
  let hsw := d.f DSP_TG_H1.HSW n
  let vact := d.f DSP_TG_V0.VACT n
  let vtot := d.f DSP_TG_V0.VTOTAL n
  let vfp := d.f DSP_TG_V1.VFP n
  let vsw := d.f DSP_TG_V1.VSW n
  decide (1 ≤ hact ∧ hact ≤ 15360 ∧ hact + 32 ≤ htot ∧ htot ≤ 16383 ∧ 1 ≤ hfp ∧ 1 ≤ hsw ∧ hact + hfp + hsw + 1 ≤ htot ∧
    1 ≤ vact ∧ vact ≤ 16379 ∧ vact + 4 ≤ vtot ∧ vtot ≤ 16383 ∧ 1 ≤ vfp ∧ 1 ≤ vsw ∧ vact + vfp + vsw + 1 ≤ vtot ∧
    d.f DSP_TG_CTRL.LATCH_OFS n + vact + 4 ≤ vtot)

/-- The aggregate limit of R273. -/
def Dev.aggregateOk (d : Dev) (n : Nat) : Bool :=
  decide (((List.range 12).filter fun m => m == n || d.tgOn m).foldl (fun s m => s + d.f DSP_TG_PCLK.M m) 0 ≤ 0x8CA00000)

/-- A write that would take ENABLE from 0 to 1 in OFF passes R271 and R273: `d` holds the fields as the write would leave them. -/
def Dev.tgMayEnable (d : Dev) (n : Nat) : Bool := d.timingOk n && d.aggregateOk n

/-- The flags of a refused ENABLE (R271, R273). -/
def Dev.tgRefuse (d after : Dev) (n : Nat) : Dev :=
  let d1 := d.setF DSP_TG_STAT.WERR n 1
  let d2 := if after.timingOk n then d1 else d1.setF DSP_TG_STAT.TIMING_ERR n 1
  if after.aggregateOk n then d2 else d2.setF DSP_TG_STAT.AGG_LIMIT n 1

/-- The generator enters STARTING (R274, R26). -/
def Dev.tgEnable (d : Dev) (n : Nat) : Dev :=
  ((d.setF DSP_TG_STAT.STATE n 1).updOut n fun o => { o with enabledAt := d.now, startAt := none }).floorEnable

/-- The transitions that a change of ENABLE makes (R274). -/
def Dev.tgEnableChange (d : Dev) (n : Nat) : Dev :=
  let st := d.f DSP_TG_STAT.STATE n
  if d.fb DSP_TG_CTRL.ENABLE n then
    (if st = 0 then d.tgEnable n else if st = 3 then d.setF DSP_TG_STAT.STATE n 2 else d)
  else if st = 1 then d.tgStop n
  else if st = 2 then ((d.setF DSP_TG_STAT.STATE n 3).updOut n fun o => { o with litFrames := 0, lit := false }).sourceStopped 1 n
  else d

/-- A write of DSP_TG_CTRL (R274, R279): one whose ENABLE is refused is ignored as a whole (R271, R273, R644). -/
def tgCtrlWrite (who : Fn) (n : Nat) (val : Word) (d : Dev) : Dev :=
  let en := d.acts who DSP_TG_CTRL.ENABLE n val
  let stop := d.acts who DSP_TG_CTRL.STOP_NOW n val
  let d1 := d.write who .DSP_TG_CTRL n val
  if en && d1.fb DSP_TG_CTRL.ENABLE n && d1.f DSP_TG_STAT.STATE n == 0 && !d1.tgMayEnable n then d.tgRefuse d1 n
  else d1.jointly fun d1 =>
    let d2 := if en then d1.tgEnableChange n else d1
    if stop && d2.tgOn n then d2.tgStop n else d2

/-- Only a PF, SP0 or Acholt reaches the display registers of PF BAR0 (R9). -/
def notVf : Fn → Bool
  | .vf _ => false
  | _ => true

def execTgEnable (who : Fn) (n : Fin 12) (val : Word) (s : State) : Host.Outcome State Fault Refusal :=
  .next (if notVf who then s.onDev (tgCtrlWrite who n.val val) else s)

def execTgDisable (who : Fn) (n : Fin 12) (val : Word) (s : State) : Host.Outcome State Fault Refusal :=
  .next (if notVf who then s.onDev (tgCtrlWrite who n.val val) else s)

def execTgStopNow (who : Fn) (n : Fin 12) (val : Word) (s : State) : Host.Outcome State Fault Refusal :=
  .next (if notVf who then s.onDev (tgCtrlWrite who n.val val) else s)

/-- OFFSET_NS, and LL_TRIM_NS for a follower of a line-locked stream (R280, R321). -/
def Dev.glOffset (d : Dev) (n : Nat) : Int :=
  let c := d.f DSP_TG_GL.SRC_IDX n
  toSigned 32 (d.f DSP_TG_GL_OFS.OFFSET_NS n) +
    (if d.f DSP_TG_GL.SRC_TYPE n = 2 ∧ (d.vin.cs.get c).lineLocked then toSigned 32 (d.reg .VIN_CS_LL_TRIM c).toNat else 0)

/-- The generator enters RUNNING at a latch instant, with GL_STATE `gl` (R274, R275, R283, R284). -/
def Dev.tgRun (d : Dev) (n gl : Nat) (peers : List PeerView) : Dev :=
  let ref := (d.out n).startAt.map fun t => ((t : Int) - d.glOffset n).toNat
  let d1 := ((d.setF DSP_TG_STAT.STATE n 2).setF DSP_TG_STAT.GL_STATE n gl).updOut n fun o =>
    { o with refs := 0, refPeriod := 0, steer := 0, onClock := gl == 1 && d.hardOk n, lastRef := if gl = 1 then ref else none }
  (if gl = 3 then d1.tgCause n 1 else d1).latchAll true [n] peers

/-- The nominal frame period of a generator in ns (R272). -/
def Dev.framePeriod (d : Dev) (n : Nat) : Nat :=
  d.f DSP_TG_H0.HTOTAL n * d.f DSP_TG_V0.VTOTAL n * 2 ^ 24 * 10000 / (384 * d.f DSP_TG_PCLK.M n)

/-- The source's nominal period (R283): that of its generator, or DIV_M1 + 1 periods of the follower where the source is none of this device's generators
(DEDUCED, log entry 137). -/
def Dev.sourcePeriod (d : Dev) (n : Nat) : Nat :=
  if d.f DSP_TG_GL.SRC_TYPE n = 1 ∧ d.f DSP_TG_GL.SRC_IDX n < 12 then d.framePeriod (d.f DSP_TG_GL.SRC_IDX n)
  else (d.f DSP_TG_GL.DIV_M1 n + 1) * d.framePeriod n

/-- The start instant of a genlocked generator has come (R283). -/
def Dev.startCome (d : Dev) (n : Nat) : Bool := match (d.out n).startAt with | some t => decide (t ≤ d.now) | none => false

/-- The PLL has locked and, for a genlocked generator, its start instant has come (R274, R283). -/
def Dev.tgStart (d : Dev) (n : Nat) (peers : List PeerView) : Dev :=
  let locked := d.f DSP_TG_GL.SRC_TYPE n != 0
  if d.f DSP_TG_STAT.STATE n = 1 ∧ ¬ d.pace.enableWaits ∧ (¬ locked ∨ d.startCome n) then d.tgRun n (b2n locked) peers else d

/-- No reference has come within twice the source's nominal period, counted from 50 us after ENABLE (R283). -/
def Dev.tgStartTimeout (d : Dev) (n : Nat) (peers : List PeerView) : Dev :=
  if d.f DSP_TG_STAT.STATE n = 1 ∧ ¬ d.pace.enableWaits ∧ d.f DSP_TG_GL.SRC_TYPE n ≠ 0 ∧ (d.out n).startAt = none ∧
      (d.out n).enabledAt + 50000 + 2 * d.sourcePeriod n ≤ d.now then d.tgRun n 3 peers
  else d

/-! Routing and genlock. -/

/-- An A-PHY port strapped as a receiver (R278, R302). -/
def Dev.aphyRx (d : Dev) (p : Nat) : Bool := decide (8 ≤ p ∧ p < 16) && d.fb DSP_PORT_STAT.DIR p

/-- The port registers of code `p` exist (R278). -/
def Dev.portExists (d : Dev) (p : Nat) : Bool := decide (p < 6) || (decide (8 ≤ p ∧ p < 16) && !d.aphyRx p)

/-- A write of DSP_TG_ROUTE that R278 ignores. -/
def Dev.routeBad (d : Dev) (n port stream : Nat) : Bool :=
  d.tgOn n || (decide (port < 16) && d.fb DSP_PORT_CFG.ENABLE port) ||
    (port != 0x1F && (List.range 12).any fun m => m != n && d.f DSP_TG_ROUTE.PORT m == port && d.f DSP_TG_ROUTE.STREAM m == stream) ||
    (stream != 0 && !(decide (port < 4) && d.f DSP_PORT_CFG.MODE port == 1)) || d.aphyRx port ||
    decide (port = 6 ∨ port = 7 ∨ (0x10 ≤ port ∧ port ≤ 0x1E))

def routeWrite (who : Fn) (n : Nat) (val : Word) (d : Dev) : Dev :=
  let bad := d.routeBad n (DSP_TG_ROUTE.PORT.get val) (DSP_TG_ROUTE.STREAM.get val)
  d.writeX who .DSP_TG_ROUTE n val fun _ => bad

def execTgRouteWrite (who : Fn) (n : Fin 12) (val : Word) (s : State) : Host.Outcome State Fault Refusal :=
  .next (if notVf who then s.onDev (routeWrite who n.val val) else s)

/-- Following the generators of this device from `m`, generator `n` is met. -/
def Dev.follows (d : Dev) (n : Nat) : Nat → Nat → Bool
  | 0, _ => false
  | k + 1, m => m == n || (d.f DSP_TG_GL.SRC_TYPE m == 1 && d.follows n k (d.f DSP_TG_GL.SRC_IDX m))

/-- A write of DSP_TG_GL that R280 or R281 ignores. -/
def Dev.glBad (d : Dev) (n : Nat) (val : Word) : Bool :=
  let ty := DSP_TG_GL.SRC_TYPE.get val
  let src := DSP_TG_GL.SRC_IDX.get val
  (ty == 1 && d.follows n 12 src) ||
    (DSP_TG_GL.HARD.get val == 1 && !(ty == 1 && d.hardMatch n src (d.f DSP_TG_GL_OFS.OFFSET_NS n)))

def glWrite (who : Fn) (n : Nat) (val : Word) (d : Dev) : Dev :=
  let bad := d.glBad n val
  d.writeX who .DSP_TG_GL n val fun _ => bad

def execTgGlWrite (who : Fn) (n : Fin 12) (val : Word) (s : State) : Host.Outcome State Fault Refusal :=
  .next (if notVf who then s.onDev (glWrite who n.val val) else s)

/-- The source period lies outside the lock range (R282): it differs from DIV_M1 + 1 nominal follower periods by more than 0.1 %. -/
def Dev.outOfRange (d : Dev) (n period : Nat) : Bool :=
  let have' : Int := (period * 384 * d.f DSP_TG_PCLK.M n : Nat)
  let want : Int := ((d.f DSP_TG_GL.DIV_M1 n + 1) * d.f DSP_TG_V0.VTOTAL n * d.f DSP_TG_H0.HTOTAL n * 2 ^ 24 * 10000 : Nat)
  decide (want < 1000 * (have' - want) ∨ want < 1000 * (want - have'))

/-- |e| is below one pixel period (R284). -/
def Dev.belowPixel (d : Dev) (n : Nat) (e : Int) : Bool := decide (e.natAbs * 384 * d.f DSP_TG_PCLK.M n < 2 ^ 24 * 10000)

/-- The frame period of a generator as steered, in ns. -/
def Dev.steeredPeriod (d : Dev) (n : Nat) : Nat := d.framePeriod n * 10 ^ 9 / ((10 : Int) ^ 9 + d.steerOf n).toNat

/-- The follower's latch instant nearest to LTIME `t` (R282): its latches follow the last one at the steered period (DEDUCED, log entry 138). -/
def Dev.nearLatch (d : Dev) (n : Nat) (t : Int) : Int :=
  let p : Int := (d.steeredPeriod n : Nat)
  let l : Int := ((d.out n).lastLatch : Nat)
  l + p * ((2 * (t - l) + p) / (2 * p))

/-- The steering that the clock takes after a phase error `e` (R282), with the source at `period` where it has been measured: the frame period lies between
the source's, at which e stays, and the one that makes e 0 by the next reference, at a point that is a free value, and then within 0.1 % of the nominal one (log
entry 138). -/
def Dev.steerFor (d : Dev) (n : Nat) (e : Int) (period : Nat) : Int :=
  let part : Int := ((Config.genlockSteer e (d.out n).steer).natAbs % 1000 + 1 : Nat)
  let s : Int := (if period = 0 then d.sourcePeriod n else period : Nat)
  let p := (1000 * s + part * e) / (1000 * (d.f DSP_TG_GL.DIV_M1 n + 1 : Nat))
  clampI (-999000) 1001001 (if p ≤ 0 then 1001001 else (d.framePeriod n * 10 ^ 9 : Nat) / p - 10 ^ 9)

/-- A source reference reaches follower `n` (R282, R284). -/
def Dev.genlockRef (d : Dev) (n ref : Nat) : Dev :=
  let o := d.out n
  let gl := d.glState n
  let t : Int := (ref : Int) + d.glOffset n
  let e : Int := t - d.nearLatch n t
  let small := decide (e.natAbs ≤ 2000)
  let k := if small then min 4 (o.refs + 1) else 0
  let period := match o.lastRef with | some t => ref - t | none => 0
  let d1 := (d.setReg .DSP_TG_PHASE n (BitVec.ofInt 32 (satS 32 e))).updOut n fun o =>
    { o with refs := k, lastRef := some ref, refPeriod := if gl = 3 then o.refPeriod else period, steer := d.steerFor n e period
             onClock := o.onClock || (d.hardOk n && d.belowPixel n e) }
  let d2 := if gl ≠ 3 ∧ period ≠ 0 ∧ d.outOfRange n period then d1.setF DSP_TG_STAT.LOCK_RANGE n 1 else d1
  if gl = 2 ∧ 10000 < e.natAbs then
    ((d2.setF DSP_TG_STAT.GL_STATE n 1).updOut n fun o => { o with refs := 0, onClock := false }).tgCause n 1
  else if gl = 1 ∧ k = 4 then (d2.setF DSP_TG_STAT.GL_STATE n 2).tgCause n 0
  else if gl = 3 then d2.setF DSP_TG_STAT.GL_STATE n 1
  else d2

/-- A reference reaches a generator in STARTING: with OFFSET_NS it gives the start instant, if that lies at least 50 us after ENABLE (R283). -/
def Dev.startRef (d : Dev) (n ref : Nat) : Dev :=
  let o := d.out n
  let t : Int := (ref : Int) + d.glOffset n
  if o.startAt.isNone && decide ((o.enabledAt + 50000 : Nat) ≤ t) then d.updOut n fun o => { o with startAt := some t.toNat } else d

/-- A reference of the source at LTIME `ref`, if it is a new one. -/
def Dev.genlockRefIf (d : Dev) (n ref : Nat) : Dev :=
  if d.f DSP_TG_GL.SRC_TYPE n = 0 ∨ (d.out n).lastRef = some ref then d
  else if d.f DSP_TG_STAT.STATE n = 1 then d.startRef n ref
  else if d.tgScans n ∧ d.glState n ≠ 0 then d.genlockRef n ref
  else d

/-- The newest reference instant of a follower's source (R280, R313): the latch of a generator that is RUNNING, or the frame start that a stream context
accepted; those of a Convoy peer arrive with their stamps (R538). -/
def Dev.sourceRef (d : Dev) (n : Nat) : Option Nat :=
  let i := d.f DSP_TG_GL.SRC_IDX n
  match d.f DSP_TG_GL.SRC_TYPE n with
  | 1 => if i < 12 ∧ d.f DSP_TG_STAT.STATE i = 2 then some (d.out i).lastLatch else none
  | 2 => if d.f VIN_CS_STAT.STATE i = 0 then none else (d.vin.cs.get i).lastStart
  | _ => none

def execGenlockReference (n : Fin 12) (s : State) : Host.Outcome State Fault Refusal :=
  .next (s.onDev fun d => match d.sourceRef n.val with | some t => d.genlockRefIf n.val t | none => d)

/-- No reference for twice the last source period, or while there is none for twice the nominal one (R284). -/
def Dev.genlockSilent (d : Dev) (n : Nat) : Bool :=
  let o := d.out n
  match o.lastRef with
  | some t => (d.glState n == 1 || d.glState n == 2) && decide (t + 2 * (if o.refPeriod = 0 then d.sourcePeriod n else o.refPeriod) ≤ d.now)
  | none => false

def execGenlockHoldover (n : Fin 12) (s : State) : Host.Outcome State Fault Refusal :=
  .next (s.onDev fun d => if d.genlockSilent n.val then d.glHoldover n.val else d)

/-! Ports. -/

/-- Bits per pixel of a port (R288): 0 for an invalid BPC. -/
def Dev.portBpp (d : Dev) (p : Nat) : Nat := [18, 24, 30, 0].getD (d.f DSP_PORT_CFG.BPC p) 0

/-- The check of R288 in bits per second, with the settings of R285 to R287 (log entry 23). -/
def Dev.bandwidthOk (d : Dev) (p : Nat) : Bool :=
  let bpp := d.portBpp p
  let mode := d.f DSP_PORT_CFG.MODE p
  let rate := d.f DSP_PORT_CFG.RATE p
  let lanes := d.f DSP_PORT_CFG.LANES p
  let lanesOk := decide (lanes = 1 ∨ lanes = 2 ∨ lanes = 4)
  let load := (d.routed p).foldl (fun s n => s + 38400000 * d.f DSP_TG_PCLK.M n * bpp) 0
  bpp != 0 && (if p < 4 then
      let pay := [4320000000, 6480000000, 9697000000, 13091000000].getD rate 0
      lanesOk && decide (rate < 4) && decide (mode < 3) && !(mode == 2 && (decide (2 ≤ p) || decide (2 ≤ rate))) &&
        (if mode = 1 then decide (64 * load ≤ 63 * lanes * pay * 2 ^ 24) else decide (load ≤ lanes * pay * 2 ^ 24))
    else if p < 6 then
      lanesOk && decide (mode < 2) && decide (11 * load ≤ 10 * lanes * d.f DSP_PORT_CFG.DSI_MBPS p * 1000000 * 2 ^ 24)
    else
      let gear := [0, 2000000000, 4000000000, 8000000000, 12000000000, 16000000000].getD rate 0
      decide (1 ≤ rate ∧ rate ≤ 5) && decide (mode < 2) && decide (100 * load ≤ 85 * gear * 2 ^ 24))

/-- A cause of R298 on every generator routed to the port. -/
def Dev.portCause (d : Dev) (p b : Nat) : Dev := (d.routed p).foldl (fun d n => d.tgCause n b) d

/-- The generators of a port in the order of their streams, in which an MST port allocates time slots (R290). -/
def Dev.mstOrder (d : Dev) (p : Nat) : List Nat :=
  ((List.range 4).map fun k => (d.routed p).filter fun n => d.f DSP_TG_ROUTE.STREAM n == k).flatten

/-- What each routed stream sends is told, after LINK_UP has changed (R277, R290). -/
def Dev.tellStreams (d : Dev) (p : Nat) : Dev :=
  (d.mstOrder p).foldl (fun d n => d.emit (.stream p (d.f DSP_TG_ROUTE.STREAM n) (d.sends n p))) d

/-- LINK_UP rises (R290, R298); an MST port has allocated its time slots. -/
def Dev.portUp (d : Dev) (p : Nat) : Dev :=
  let d1 := ((d.setF DSP_PORT_STAT.LINK_UP p 1).setF DSP_PORT_STAT.TRAINING p 0).updPort p fun x => { x with retriesLeft := 0, lost := false }
  let d2 := if isDp p ∧ d1.f DSP_PORT_CFG.MODE p = 1 then d1.emit (.mstSlots p (d1.mstOrder p)) else d1
  (d2.tellStreams p).portCause p 2

/-- LINK_UP falls, with what follows at once (R291, R292, R294, R298). -/
def Dev.portDown (d : Dev) (p : Nat) : Dev :=
  if d.fb DSP_PORT_STAT.LINK_UP p then
    let d1 := (d.setF DSP_PORT_STAT.LINK_UP p 0).updPort p fun x => { x with latched := true }
    let d2 := (d.routed p).foldl (fun (d : Dev) n => d.updOut n fun o => { o with litFrames := 0, lit := false, video := false }) d1
    (d2.tellStreams p).portCause p 3
  else d

/-- Link bring-up starts (R290). -/
def Dev.portBringUp (d : Dev) (p : Nat) : Dev :=
  let d1 := d.updPort p fun x => { x with latched := false, retriesLeft := 0, lost := false, dead := false }
  if isDsi p then d1.portUp p
  else if isDp p && d.fb DSP_PORT_STAT.HPD p then d1.setF DSP_PORT_STAT.TRAINING p 1
  else d1

/-- A link that was up is lost (R291). -/
def Dev.portLost (d : Dev) (p : Nat) : Dev :=
  if d.fb DSP_PORT_STAT.LINK_UP p then (d.portDown p).updPort p fun x => { x with lost := true } else d

/-- A retrain starts, and counts (R291). -/
def Dev.retrain (d : Dev) (p : Nat) : Dev := d.count DSP_PORT_STAT.RETRAINS p 1

/-- A write of DSP_PORT_CFG (R279, R288, R290). -/
def portCfgWrite (who : Fn) (p : Nat) (val : Word) (d : Dev) : Dev :=
  if !d.portExists p then d
  else
    let en := d.acts who DSP_PORT_CFG.ENABLE p val
    let d1 := d.write who .DSP_PORT_CFG p val
    if !en then d1
    else if d1.fb DSP_PORT_CFG.ENABLE p then
      (if d1.bandwidthOk p then d1.portBringUp p else (d1.setF DSP_PORT_CFG.ENABLE p 0).setF DSP_PORT_STAT.BW_LIMIT p 1)
    else (d1.portDown p).setF DSP_PORT_STAT.TRAINING p 0

def execPortEnable (who : Fn) (p : Fin 16) (val : Word) (s : State) : Host.Outcome State Fault Refusal :=
  .next (if notVf who then s.onDev (portCfgWrite who p.val val) else s)

/-- HPD rises: the port trains, and a link that was lost retrains (R290, R291); after three failed retrains it waits for ENABLE. -/
def Dev.hpdRise (d : Dev) (p : Nat) : Dev :=
  let x := d.disp.ports.get p
  let d1 := (d.setF DSP_PORT_STAT.HPD p 1).updPort p fun x => { x with retriesLeft := 0 }
  if d1.fb DSP_PORT_CFG.ENABLE p ∧ ¬ d1.fb DSP_PORT_STAT.LINK_UP p ∧ ¬ x.dead then
    (if x.lost then d1.retrain p else d1).setF DSP_PORT_STAT.TRAINING p 1
  else d1

def execHpdRise (p : Fin 4) (s : State) : Host.Outcome State Fault Refusal := .next (s.onDev (·.hpdRise p.val))

/-- Training ends without the link (R290, R291): a failed retrain after an HPD IRQ is repeated while attempts are left. -/
def Dev.trainingFails (d : Dev) (p : Nat) : Dev :=
  let x := d.disp.ports.get p
  if 1 < x.retriesLeft then (d.retrain p).updPort p fun x => { x with retriesLeft := x.retriesLeft - 1 }
  else (((d.setF DSP_PORT_STAT.TRAINING p 0).setF DSP_PORT_STAT.TRAIN_FAIL p 1).updPort p fun x =>
    { x with dead := x.dead || x.retriesLeft == 1, retriesLeft := 0 }).portCause p 4

def execPortTrainingDone (p : Fin 4) (ok : Bool) (s : State) : Host.Outcome State Fault Refusal :=
  .next (s.onDev fun d => if !d.fb DSP_PORT_STAT.TRAINING p.val then d else if ok then d.portUp p.val else d.trainingFails p.val)

def execHpdUnplug (p : Fin 4) (s : State) : Host.Outcome State Fault Refusal :=
  .next (s.onDev fun d =>
    let d1 := (d.setF DSP_PORT_STAT.HPD p.val 0).setF DSP_PORT_STAT.TRAINING p.val 0
    if d1.fb DSP_PORT_CFG.ENABLE p.val then (d1.portLost p.val).setF DSP_PORT_STAT.LINK_LOST p.val 1 else d1)

/-- An HPD IRQ: `lost` is what the sink's link status tells; the first of up to three retrains starts (R291). -/
def execHpdIrq (p : Fin 4) (lost : Bool) (s : State) : Host.Outcome State Fault Refusal :=
  .next (s.onDev fun d =>
    if lost ∧ d.fb DSP_PORT_STAT.LINK_UP p.val then
      (((d.portLost p.val).setF DSP_PORT_STAT.TRAINING p.val 1).retrain p.val).updPort p.val fun x => { x with retriesLeft := 3 }
    else d)

def execAphyLinkUp (k : Fin 8) (s : State) : Host.Outcome State Fault Refusal :=
  .next (s.onDev fun d =>
    let p := 8 + k.val
    if d.aphyRx p then (if d.fb VIN_RX_CFG.ENABLE p then d.setF VIN_RX_STAT.LINK_UP p 1 else d)
    else if d.fb DSP_PORT_CFG.ENABLE p && !d.fb DSP_PORT_STAT.LINK_UP p then d.portUp p else d)

/-- An A-PHY link loses lock: a transmitter repeats its start-up, which counts as a retrain (R291). -/
def execAphyLossOfLock (k : Fin 8) (s : State) : Host.Outcome State Fault Refusal :=
  .next (s.onDev fun d =>
    let p := 8 + k.val
    if d.aphyRx p then d.setF VIN_RX_STAT.LINK_UP p 0
    else if d.fb DSP_PORT_STAT.LINK_UP p then (d.portLost p).retrain p
    else d)

/-! The side channel (R293). -/

/-- The bytes of DSP_PORT_SC_DATA. -/
def Dev.scBytes (d : Dev) (p n : Nat) : List Byte :=
  (List.range n).map fun j => BitVec.ofNat 8 ((d.reg .DSP_PORT_SC_DATA (idx2 4 p (j / 4))).toNat / 2 ^ (8 * (j % 4)))

def Dev.scPut (d : Dev) (p : Nat) (bs : List Byte) : Dev :=
  (List.range bs.length).foldl (fun (d : Dev) j =>
    let F : Fld := ⟨.DSP_PORT_SC_DATA, 8 * (j % 4), 8⟩
    d.setF F (idx2 4 p (j / 4)) (bs.getD j 0).toNat) d

/-- The transaction ends. -/
def Dev.scEnd (d : Dev) (p result : Nat) : Dev :=
  ((d.setF DSP_PORT_SC_STAT.BUSY p 0).setF DSP_PORT_SC_STAT.DONE p 1).setF DSP_PORT_SC_STAT.RESULT p result

/-- A transaction starts, or ends at once with RESULT 3; a DSI packet waits for the next latch while a routed generator runs (R293). -/
def Dev.scGo (d : Dev) (p : Nat) : Dev :=
  let kind := d.f DSP_PORT_SC_CMD.KIND p
  let n := d.f DSP_PORT_SC_CMD.LEN_M1 p + 1
  if d.fb DSP_PORT_STAT.TRAINING p || !((isDp p && decide (kind ≤ 3)) || (isDsi p && kind == 4)) then d.scEnd p 3
  else
    let read := kind == 0 || kind == 2
    let t : SideTxn := { kind := kind, addr := d.f DSP_PORT_SC_CMD.ADDR p, bytes := if read then [] else d.scBytes p n
                         count := if read then n else 0, waits := isDsi p && (d.routed p).any d.tgScans }
    let d1 := (d.setF DSP_PORT_SC_STAT.BUSY p 1).updPort p fun x => { x with side := some t }
    if t.waits then d1 else d1.sideSend p t

def scCmdWrite (who : Fn) (p : Nat) (val : Word) (d : Dev) : Dev :=
  if !d.portExists p then d
  else
    let go := d.acts who DSP_PORT_SC_CMD.GO p val
    let d1 := d.write who .DSP_PORT_SC_CMD p val
    if !go then d1 else if d1.fb DSP_PORT_SC_STAT.BUSY p then d1.setF DSP_PORT_STAT.WERR p 1 else d1.scGo p

def execSideChannelGo (who : Fn) (p : Fin 16) (val : Word) (s : State) : Host.Outcome State Fault Refusal :=
  .next (if notVf who then s.onDev (scCmdWrite who p.val val) else s)

/-- The transaction in progress is answered: a DEFER is retried up to seven times, and a read that the sink acknowledged has placed its data. -/
def Dev.scReply (d : Dev) (p : Nat) (reply : SideReply) (t : SideTxn) : Dev :=
  let d1 := d.updPort p fun x => { x with side := none }
  match reply with
  | .ack data => (if t.count = 0 then d1 else d1.scPut p (data.take t.count)).scEnd p 0
  | .nack => d1.scEnd p 1
  | .timeout => d1.scEnd p 2
  | .defer =>
    if t.defers < 7 then (d.updPort p fun x => { x with side := some { t with defers := t.defers + 1 } }).sideSend p t else d1.scEnd p 2

def execSideChannelDone (p : Fin 16) (reply : SideReply) (s : State) : Host.Outcome State Fault Refusal :=
  .next (s.onDev fun d =>
    match (d.disp.ports.get p.val).side with
    | some t => if t.waits then d else d.scReply p.val reply t
    | none => d)

/-! Check-window injection (R268, R269). -/

/-- A write of DSP_CW_CTRL: INJ_REF inverts a check bit of the stored EXPECT; while the output does not scan, class L fields act at once. -/
def cwCtrlWrite (who : Fn) (n w : Nat) (val : Word) (d : Dev) : Dev :=
  let i := idx2 16 n w
  let inj := d.acts who DSP_CW_CTRL.INJ_REF i val
  let d1 := d.write who .DSP_CW_CTRL i val
  let d2 := if inj then d1.updOut n fun o => { o with cwBad := o.cwBad.put w true } else d1
  if d2.tgScans n then d2 else d2.latchWindow n w

def execCwInjectRef (who : Fn) (n : Fin 12) (w : Fin 16) (val : Word) (s : State) : Host.Outcome State Fault Refusal :=
  .next (if notVf who then s.onDev (cwCtrlWrite who n.val w.val val) else s)

end Sys2Proof.Machine
end

