-- ==== Sys2Proof/Machine/Vin.lean ====
section
/-! DEFINITION. Stream contexts: ownership, video-in commands and reception (R301 to R318, R336). -/

namespace Sys2Proof.Machine

def Dev.cs (d : Dev) (c : Nat) : CsSt := d.vin.cs.get c

def Dev.setCs (d : Dev) (c : Nat) (x : CsSt) : Dev := { d with vin := { d.vin with cs := d.vin.cs.put c x } }

def Dev.updCs (d : Dev) (c : Nat) (g : CsSt → CsSt) : Dev := d.setCs c (g (d.cs c))

def Dev.csState (d : Dev) (c : Nat) : Nat := d.f VIN_CS_STAT.STATE c

def Dev.csOwner (d : Dev) (c : Nat) : Nat := d.f VIN_CS_ASSIGN.OWNER c

/-- The requester of a context's ingest writes (R303). -/
def Dev.csReq (d : Dev) (c : Nat) : Req := ⟨d.csOwner c, d.secureCode (d.csOwner c)⟩

def csEv (c k : Nat) : Nat := 192 + 4 * c + k

def CsSt.source (c : CsSt) : Nat := le c.cfg 2 1
def CsSt.vc (c : CsSt) : Nat := le c.cfg 3 1
def CsSt.dt (c : CsSt) : Nat := le c.cfg 4 1
def CsSt.lineToUs (c : CsSt) : Nat := le c.cont 2 2
def CsSt.frameToMs (c : CsSt) : Nat := le c.cont 4 2

/-! States (R311, R313, R334). -/

/-- A context enters a state, with its event; STALLED and OFF stop the source that it is (R313). -/
def Dev.csEnter (d : Dev) (c st : Nat) : Dev :=
  let d1 := d.setF VIN_CS_STAT.STATE c st
  if st = 3 then d1.raise (csEv c 1)
  else if st = 1 then (d1.raise (csEv c 0)).sourceStopped 2 c
  else if st = 0 then d1.sourceStopped 2 c
  else d1

/-- The frame in progress is dropped: its buffer becomes free again, as the newest to have been used. -/
def Dev.csDrop (d : Dev) (c : Nat) : Dev :=
  d.updCs c fun x => { x with
    inFrame := false, buf := none, held := [], nextStamp := x.nextStamp + 1
    stamps := match x.buf with | some k => x.stamps.put k (x.nextStamp + 1) | none => x.stamps }

/-- A context stops: no frame is in progress, and no frame start is a reference any more (R313). -/
def Dev.csQuiet (d : Dev) (c : Nat) : Dev := (d.csDrop c).updCs c fun x => { x with awaits := false, lastStart := none }

/-- A frame is discarded under R312: counted, with the fault event. A frame that has no buffer was counted already (R315). -/
def Dev.csDiscard (d : Dev) (c : Nat) : Dev :=
  let x := d.cs c
  if !x.inFrame then d
  else if x.buf.isNone then d.csDrop c
  else ((d.csDrop c).count VIN_CS_CNT.INC_COUNT c 1).raise (csEv c 3)

/-- Waiting FRAME_HOLD commands complete with ABORTED (R310). -/
def Dev.csAbortHolds (d : Dev) (c : Nat) : Dev :=
  (d.endAll ((d.cs c).holds.map (·.1)) ST_ABORTED 0).updCs c fun x => { x with holds := [] }

/-- What STREAM_STOP does to a context (R310). -/
def Dev.csStop (d : Dev) (c : Nat) : Dev :=
  let d1 := ((d.csQuiet c).csAbortHolds c).updCs c fun x => { x with frozen := false }
  if d1.csState c = 0 then d1 else d1.csEnter c 0

/-- The view binding ends (R314). -/
def Dev.csUnbind (d : Dev) (c : Nat) : Dev :=
  let x := d.cs c
  if x.viewOn then
    let s := le x.cfg 6 2 % 512
    ((d.setCs c { x with viewOn := false, viewKind := 0, viewBuf := none }).setF VIN_CS_STAT.VIEW c 0).setLayer s
      { d.layer s with viewBase := none }
  else d

def Dev.csUnpin (d : Dev) (c : Nat) : Dev :=
  (d.updCs c fun x => { x with pinned := none }).setF VIN_CS_STAT.PINNED c 0

/-- A run of some standing job of context `o` is in progress: of the one installed, or of one that it has replaced. -/
def Dev.standingRuns (d : Dev) (o : Nat) : Bool :=
  [0, 1].any fun e => match (d.vin.we.get e).job with
    | some j => j.standing && le j.body 3 1 % 16 == o
    | none => false

/-- A run of standing job `st` is in progress (R331). -/
def Dev.jobRuns (d : Dev) (st : Standing) : Bool :=
  [0, 1].any fun e => match (d.vin.we.get e).job with
    | some j => j.standing && j.serial == st.job.serial
    | none => false

/-- A run of the job waits. -/
def Dev.standingWaits (d : Dev) (o : Nat) : Bool := [0, 1].any fun e => (d.vin.we.get e).runs.any fun r => r.1 == o

/-- The runs of a context that wait are dropped. -/
def Dev.dropRuns (d : Dev) (o : Nat) : Dev :=
  ([0, 1] : List Nat).foldl (fun (d : Dev) e =>
    { d with vin := { d.vin with we := d.vin.we.upd e fun w => { w with runs := w.runs.filter fun r => r.1 != o } } }) d

/-- WARP_CANCEL commands of a context complete (R331). -/
def Dev.endCancels (d : Dev) (o : Nat) : Dev :=
  let x := d.cs o
  let rs := x.cancels ++ (match x.standing with | some st => st.cancel | none => [])
  (d.endAll rs ST_OK 0).updCs o fun x => { x with cancels := [], standing := x.standing.map fun s => { s with cancel := [] } }

/-- The standing job of a context is removed (R304, R331, R333). -/
def Dev.removeStanding (d : Dev) (o : Nat) : Dev :=
  (((d.endCancels o).dropRuns o).updCs o fun x => { x with standing := none }).setF VIN_CS_STAT.STANDING o 0

/-- A run in progress of a context's standing job stops with the change of the context's owner, before a further line (R304; log entry 139). -/
def Dev.stopRun (d : Dev) (o : Nat) : Dev :=
  ([0, 1] : List Nat).foldl (fun (d : Dev) e =>
    match (d.vin.we.get e).job with
    | some j => if j.standing && le j.body 3 1 % 16 == o then
        ({ d with vin := { d.vin with we := d.vin.we.upd e fun w => { w with job := w.preempted, preempted := none } } }.setF VIN_WE_STAT.BUSY e
          (b2n (d.vin.we.get e).preempted.isSome)).setF VIN_WE_STAT.PREEMPTED e 0 else d
    | none => d) d

/-- The context is marked unconfigured. -/
def Dev.csUnconfigure (d : Dev) (c : Nat) : Dev :=
  (((d.updCs c fun x => { x with cfg := [], cont := [], newest := none, lastEnd := none }).setF VIN_CS_STAT.CONFIGURED c 0).setF
    VIN_CS_STAT.MODE c 0)

/-- A change of a context's owner (R304). -/
def Dev.csChangeOwner (d : Dev) (c new : Nat) : Dev :=
  let d1 := (((((d.csStop c).stopRun c).removeStanding c).csUnbind c).csUnpin c).csUnconfigure c
  (d1.setF VIN_CS_ASSIGN.OWNER c new).evSync d ((List.range 4).map (csEv c))

def csAssignWrite (who : Fn) (c : Nat) (val : Word) (d0 : Dev) : Dev :=
  let d := d0.demandDomain .VIN_CS_ASSIGN c
  let old := d.csOwner c
  let new := VIN_CS_ASSIGN.OWNER.get val
  if old = new then d
  else if d.mayGive who old && d.mayGive who new then d.csChangeOwner c new
  else d.setF VIN_CS_STAT.WERR c 1

def execCsAssignWrite (who : Fn) (c : Fin 16) (val : Word) (s : State) : Host.Outcome State Fault Refusal :=
  .next (if notVf who then s.onDev (csAssignWrite who c.val val) else s)

/-! STREAM_SET (R308, R309). -/

/-- DT and FORMAT form a pair under R305. -/
def dtPair (dt fmt : Nat) : Bool :=
  match dt with
  | 0x18 => fmt == 5
  | 0x1E => fmt == 8 || fmt == 6 || fmt == 5
  | 0x1F => fmt == 7
  | 0x22 => fmt == 4
  | 0x24 => fmt == 2
  | 0x2B => fmt == 9
  | 0x2C => fmt == 10
  | _ => false

/-- SOURCE is a receive port or the warp output. -/
def Dev.sourceOk (d : Dev) (p : Nat) : Bool := decide (0x10 ≤ p ∧ p < 0x14) || d.aphyRx p || p == 0x1E

/-- The places of a stream's buffers, ring and fallback (R309 check 6): offset of the first that lies elsewhere. -/
def Dev.csPlaces (d : Dev) (x : CsSt) : Option Nat :=
  let size := frameSize x.fmt x.stride x.height x.chroma
  let dev := fun lo n => d.inDevice lo (lo + n - 1)
  if x.lineLocked then
    let n := x.ring * x.stride * (if x.fmt = 6 then 2 else 1)
    if !inBanks x.bufBase (x.bufBase + n - 1) then some 16 else if x.fbEn && !dev x.fbBase size then some 40 else none
  else if (List.range x.nbuf).any fun k => !dev (x.buffer k) size then some 16
  else if x.fbEn && !dev x.fbBase size then some 40
  else none

/-- The checks of R309 in order: status and RESULT. -/
def Dev.streamSetErr (d : Dev) (c : Cmd) (code : Nat) : Option (Nat × Nat) :=
  let n := c.u 32 1 % 16
  let x : CsSt := { cfg := (c.lead.drop 32).take 32, cont := (c.conts.headD []).drop 2 }
  let er := fun (bad : Bool) (st off : Nat) => (bad, st, errAt off n)
  let slot := c.u 38 2 % 512
  let viewEn := bit (c.u 38 2) 15
  let one := !twoPlane x.fmt
  let place := d.csPlaces x
  firstError
    [er (d.csOwner n != code || code == 0) ST_NOT_OWNER 0,
     er (viewEn && (decide (384 ≤ slot) || d.slotOwner slot != code)) ST_NOT_OWNER 6,
     er (d.csState n != 0) ST_BUSY 0,
     er (viewEn && (match d.viewOf slot with | some m => m != n | none => false)) ST_BUSY 6,
     er (c.ext != 0 || c.conts.length != 1) ST_BAD_FIELD 0xFFFF,
     er (c.u 32 1 != n) ST_BAD_FIELD 0,
     er (decide (8 ≤ c.u 33 1)) ST_BAD_FIELD 1,
     er (!d.sourceOk x.source) ST_BAD_FIELD 2,
     er (decide (16 ≤ x.vc)) ST_BAD_FIELD 3,
     er (bits (c.u 38 2) 14 9 != 0) ST_BAD_FIELD 6,
     er (c.u 46 2 != 0) ST_BAD_FIELD 14,
     er (x.pitch % 4096 != 0) ST_BAD_FIELD 24,
     er (one && x.chroma != 0) ST_BAD_FIELD 28,
     er (x.lineLocked && !(decide (8 ≤ x.ring ∧ x.ring ≤ 256) && x.ring % 8 == 0)) ST_BAD_FIELD 32,
     er (decide (x.lineToUs < 10)) ST_BAD_FIELD 34,
     er (!decide (1 ≤ x.frameToMs ∧ x.frameToMs ≤ 1000)) ST_BAD_FIELD 36,
     er ((List.range 46).any fun k => le x.cont (16 + k) 1 != 0) ST_BAD_FIELD 48,
     er (x.source == 0x1E && x.lineLocked) ST_BAD_FORMAT 1,
     er (x.source != 0x1E && !dtPair x.dt x.fmt) ST_BAD_FORMAT 4,
     er (x.source == 0x1E && !(x.fmt == 2 || x.fmt == 3 || x.fmt == 5 || x.fmt == 7)) ST_BAD_FORMAT 5,
     er (x.lineLocked && !(x.fmt == 8 || x.fmt == 6 || x.fmt == 4 || x.fmt == 2)) ST_BAD_FORMAT 5,
     er (viewEn && (x.fmt == 9 || x.fmt == 10)) ST_BAD_FORMAT 6,
     er (!decide (2 ≤ x.width ∧ x.width ≤ 8192) || (isYuv x.fmt && x.width % 2 != 0)) ST_BAD_GEOMETRY 8,
     er (!decide (2 ≤ x.height ∧ x.height ≤ 8192) || (isYuv x.fmt && x.height % 2 != 0)) ST_BAD_GEOMETRY 10,
     er (!strideOk x.fmt x.stride x.width) ST_BAD_GEOMETRY 12,
     er (!one && (x.chroma % 64 != 0 || decide (x.chroma < x.stride * x.height))) ST_BAD_GEOMETRY 28,
     er (decide (x.pitch < frameSize x.fmt x.stride x.height x.chroma)) ST_BAD_GEOMETRY 24,
     er place.isSome ST_BAD_GEOMETRY (place.getD 0)]

/-- A command that passes replaces the whole configuration (R309, R321). -/
def Dev.streamSet (d : Dev) (ref : CmdRef) (code : Nat) (c : Cmd) : Dev :=
  match d.streamSetErr c code with
  | some (st, res) => d.endCmd ref st res
  | none =>
    let n := c.u 32 1 % 16
    let on := bit (c.u 38 2) 15
    let same := on && (d.cs n).viewOn && le (d.cs n).cfg 6 2 % 512 == c.u 38 2 % 512
    let d1 := if same then d else d.csUnbind n
    let d2 := d1.updCs n fun x => { x with
      cfg := (c.lead.drop 32).take 32, cont := (c.conts.headD []).drop 2, viewOn := on, newest := none, lastEnd := none
      stamps := [], nextStamp := 0, tags := [], arrivals := [], frozen := false }
    let d3 := ((((d2.setF VIN_CS_STAT.CONFIGURED n 1).setF VIN_CS_STAT.MODE n (c.u 33 1 % 2)).setReg .VIN_CS_FRAMES n 0).setReg
      .VIN_CS_LL_TRIM n 0).setF VIN_CS_STAT.NEWEST n 0
    d3.endCmd ref ST_OK (errAt 0 n)

def runStreamSet (code : Nat) : Run := fun ref c s => s.onDev (·.streamSet ref code c)

def execVinStreamSet (f : Fn) (q : Fin 8) (s : State) : Host.Outcome State Fault Refusal :=
  .next (s.startNext f q (· == 0x50) (runStreamSet f.code))

/-! The other stream commands (R310). -/

/-- The checks that the four commands share: owner, then reserved fields; SEQ stands in bytes 36 to 39 of FRAME_HOLD. -/
def Dev.csCmdErr (d : Dev) (c : Cmd) (code : Nat) (seq : Bool) : Option (Nat × Nat) :=
  let n := c.u 32 1 % 16
  firstError
    [(d.csOwner n != code || code == 0, ST_NOT_OWNER, errByte 32), (c.ext != 0, ST_BAD_FIELD, errOutside),
     (!c.conts.isEmpty, ST_BAD_FIELD, errAt 32), (decide (16 ≤ c.u 32 1), ST_BAD_FIELD, errByte 32),
     (!c.zero 33 35, ST_BAD_FIELD, errByte 33), (!seq && !c.zero 36 39, ST_BAD_FIELD, errByte 36), (!c.zero 40 63, ST_BAD_FIELD, errByte 40)]

/-- Another context that is not OFF uses the same SOURCE and VC. -/
def Dev.csClash (d : Dev) (n : Nat) : Bool :=
  (List.range 16).any fun m => m != n && d.csState m != 0 && (d.cs m).source == (d.cs n).source && (d.cs m).vc == (d.cs n).vc

/-- A context leaves OFF for STALLED (R311), which binds the ingest front ends to the floor (R24, R26). -/
def Dev.csBegin (d : Dev) (n : Nat) : Dev := (d.csEnter n 1).floorEnable

/-- A context starts with no frame (R310). -/
def CsSt.restart (x : CsSt) : CsSt :=
  { x with newest := none, lastEnd := none, frozen := false, inFrame := false, buf := none, awaits := false, lastStart := none }

def Dev.streamStart (d : Dev) (ref : CmdRef) (code : Nat) (c : Cmd) : Dev :=
  let n := c.u 32 1 % 16
  match d.csCmdErr c code false with
  | some (st, res) => d.endCmd ref st res
  | none =>
    if !d.fb VIN_CS_STAT.CONFIGURED n then d.endCmd ref ST_BAD_FIELD (errByte 32)
    else if d.csState n ≠ 0 ∨ d.csClash n then d.endCmd ref ST_BUSY (errByte 32)
    else
      let d1 := (d.updCs n CsSt.restart).setReg .VIN_CS_FRAMES n 0
      let d2 := d1.csBegin n
      if d2.pace.enableWaits then { d2 with pace := { d2.pace with starts := d2.pace.starts ++ [ref] } } else d2.endCmd ref ST_OK 0

def Dev.streamStop (d : Dev) (ref : CmdRef) (code : Nat) (c : Cmd) : Dev :=
  match d.csCmdErr c code false with
  | some (st, res) => d.endCmd ref st res
  | none => (d.csStop (c.u 32 1 % 16)).endCmd ref ST_OK 0

/-- The hold is reached and pins the newest complete frame (R310); it fails while another is pinned. -/
def Dev.holdPin (d : Dev) (ref : CmdRef) (n k : Nat) : Dev :=
  if (d.cs n).pinned.isSome then d.endCmd ref ST_BUSY (errByte 32)
  else ((d.updCs n fun x => { x with pinned := some k }).setF VIN_CS_STAT.PINNED n 1).endCmd ref ST_OK
    (k % 4 + 4 * ((d.reg .VIN_CS_FRAMES n).toNat % 2 ^ 30))

/-- The newest frame, once FRAMES has reached SEQ. -/
def Dev.holdReady (d : Dev) (n seq : Nat) : Option Nat :=
  if seqReached (d.reg .VIN_CS_FRAMES n).toNat seq then (d.cs n).newest else none

def Dev.frameHold (d : Dev) (ref : CmdRef) (code : Nat) (c : Cmd) : Dev :=
  let n := c.u 32 1 % 16
  match d.csCmdErr c code true with
  | some (st, res) => d.endCmd ref st res
  | none =>
    if (d.cs n).lineLocked then d.endCmd ref ST_BAD_FIELD (errByte 32)
    else if (d.cs n).pinned.isSome then d.endCmd ref ST_BUSY (errByte 32)
    else match d.holdReady n (c.u 36 4) with
      | some k => d.holdPin ref n k
      | none => d.updCs n fun x => { x with holds := x.holds ++ [(ref, c.u 36 4)] }

def Dev.frameRelease (d : Dev) (ref : CmdRef) (code : Nat) (c : Cmd) : Dev :=
  match d.csCmdErr c code false with
  | some (st, res) => d.endCmd ref st res
  | none => (d.csUnpin (c.u 32 1 % 16)).endCmd ref ST_OK 0

def runStreamStart (code : Nat) : Run := fun ref c s => s.onDev (·.streamStart ref code c)
def runStreamStop (code : Nat) : Run := fun ref c s => s.onDev (·.streamStop ref code c)
def runFrameHold (code : Nat) : Run := fun ref c s => s.onDev (·.frameHold ref code c)
def runFrameRelease (code : Nat) : Run := fun ref c s => s.onDev (·.frameRelease ref code c)

def execStreamStart (f : Fn) (q : Fin 8) (s : State) : Host.Outcome State Fault Refusal :=
  .next (s.startNext f q (· == 0x51) (runStreamStart f.code))

def execStreamStop (f : Fn) (q : Fin 8) (s : State) : Host.Outcome State Fault Refusal :=
  .next (s.startNext f q (· == 0x52) (runStreamStop f.code))

def execFrameHold (f : Fn) (q : Fin 8) (s : State) : Host.Outcome State Fault Refusal :=
  .next (s.startNext f q (· == 0x53) (runFrameHold f.code))

def execFrameRelease (f : Fn) (q : Fin 8) (s : State) : Host.Outcome State Fault Refusal :=
  .next (s.startNext f q (· == 0x54) (runFrameRelease f.code))

/-- FRAMES reaches SEQ: the first waiting hold that is reached completes. -/
def execFrameHoldSatisfied (c : Fin 16) (s : State) : Host.Outcome State Fault Refusal :=
  .next (s.onDev fun d =>
    match (d.cs c.val).holds.find? fun h => (d.holdReady c.val h.2).isSome with
    | some h =>
      match d.holdReady c.val h.2 with
      | some k => (d.updCs c.val fun x => { x with holds := x.holds.erase h }).holdPin h.1 c.val k
      | none => d
    | none => d)

/-! Frames (R311 to R318). -/

/-- Some reader holds buffer `k` of context `c`: the newest frame, a view, a warp job or a pin (R315). -/
def Dev.bufferHeld (d : Dev) (c k : Nat) : Bool :=
  let x := d.cs c
  let job := fun (j : Option WarpJob) => match j with | some j => j.inBufs.contains (c, k) | none => false
  x.newest == some k || x.viewBuf == some k || x.peerViews.any (fun p => p.2 == some k) || x.pinned == some k ||
    [0, 1].any fun e => job (d.vin.we.get e).job || job (d.vin.we.get e).preempted ||
      (d.vin.we.get e).parked.any fun j => j.inBufs.contains (c, k)

/-- The oldest buffer that no reader holds. -/
def Dev.chooseBuffer (d : Dev) (c : Nat) : Option Nat :=
  let x := d.cs c
  ((List.range x.nbuf).filter fun k => !d.bufferHeld c k).foldl (fun best k => match best with
    | none => some k
    | some b => if x.stamps.get k < x.stamps.get b then some k else best) none

/-- A frame begins on a context that is not OFF (R311, R315): a buffer is chosen, and STALLED moves to FILL. A frame for which none qualifies is counted
and leaves the state as it is. -/
def Dev.frameBegin (d : Dev) (c : Nat) : Dev :=
  let d1 := d.csDiscard c
  let buf := if (d1.cs c).lineLocked then some 0 else d1.chooseBuffer c
  let d2 := d1.updCs c fun x => { x with
    inFrame := true, buf := buf, lines := 0, awaits := true, held := [], begun := x.begun + 1
    arrivals := x.arrivals.filter fun a => a.1 == x.begun, lastStart := some d1.now, lastLine := d1.now }
  if buf.isNone then d2.count VIN_CS_CNT.DROP_COUNT c 1 else if d2.csState c = 1 then d2.csEnter c 2 else d2

/-- Port `p` is a receive port with reception enabled (R336). -/
def Dev.receives (d : Dev) (p : Nat) : Bool := decide (8 ≤ p) && d.fb VIN_RX_CFG.ENABLE p

/-- The context takes what arrives at port `p`: it is not OFF, and its SOURCE names the port, where reception is enabled (R301, R311). -/
def Dev.csReceives (d : Dev) (p c : Nat) : Bool := d.csState c != 0 && (d.cs c).source == p && d.receives p

/-- A packet arrives at a port, whether or not a context takes it: the link is receiving, and the port counts a corrected header, and a failed CRC or a header
that cannot be corrected (R301, R336). -/
def Dev.packet (d : Dev) (p : Nat) (corrected good : Bool) : Dev :=
  if d.receives p then
    let d1 := d.setF VIN_RX_STAT.LINK_UP p 1
    let d2 := if corrected then d1.count VIN_RX_STAT.ECC_CORR p 1 else d1
    if good then d2 else d2.count VIN_RX_STAT.CRC_ERR p 1
  else d

/-- A frame-start packet (R311, R313). -/
def Dev.frameStart (d : Dev) (p c : Nat) (corrected headerOk : Bool) : Dev :=
  let d1 := d.packet p corrected headerOk
  if headerOk && d1.csReceives p c then d1.frameBegin c else d1

def execFrameStart (port : Fin 20) (c : Fin 16) (corrected headerOk : Bool) (s : State) : Host.Outcome State Fault Refusal :=
  .next (s.onDev (·.frameStart port.val c.val corrected headerOk))

/-- The bits of RAW samples, packed in groups under R171. -/
def rawGroup (fmt : Nat) (p : List Nat) : List Byte :=
  if fmt = 9 then
    ((List.range 4).map fun k => BitVec.ofNat 8 (p.getD k 0 / 4)) ++
      [BitVec.ofNat 8 ((List.range 4).foldl (fun a k => a + p.getD k 0 % 4 * 4 ^ k) 0)]
  else ((List.range 2).map fun k => BitVec.ofNat 8 (p.getD k 0 / 16)) ++ [BitVec.ofNat 8 (p.getD 0 0 % 16 + 16 * (p.getD 1 0 % 16))]

/-- Plane 0 bytes of a line (R171, R305); `x` supplies the bits that no rule gives: unused bits of a word or of a last group. -/
def lineData (fmt w : Nat) (l : VideoLine) (x : Nat → Nat) : List Byte :=
  let p := fun k => if k < w then l.pixels.getD k 0 else x k
  let each := fun (g : Nat → List Byte) => ((List.range w).map g).flatten
  if fmt = 2 then each fun k => toLe (p k % 2 ^ 24 + x k % 256 * 2 ^ 24) 4
  else if fmt = 4 then each fun k => toLe (p k) 2
  else if fmt = 7 then each fun k => toLe (p k % 1024 * 64 + x k % 64) 2
  else if fmt = 8 then ((List.range (w / 2)).map fun k => toLe (p (2 * k)) 1 ++ toLe (l.chroma.getD k (0, 0)).1 1 ++
    toLe (p (2 * k + 1)) 1 ++ toLe (l.chroma.getD k (0, 0)).2 1).flatten
  else if fmt = 9 then (((List.range ((w + 3) / 4)).map fun g => rawGroup 9 ((List.range 4).map fun k => p (4 * g + k))).flatten).take
    (lineBytes 9 w)
  else if fmt = 10 then (((List.range ((w + 1) / 2)).map fun g => rawGroup 10 ((List.range 2).map fun k => p (2 * g + k))).flatten).take
    (lineBytes 10 w)
  else each fun k => toLe (p k) 1

/-- A chroma row as bytes. -/
def chromaData (fmt : Nat) (cs : List (Nat × Nat)) (x : Nat → Nat) : List Byte :=
  (cs.zipIdx.map fun c =>
    if fmt = 7 then toLe (c.1.1 % 1024 * 64 + x (2 * c.2) % 64) 2 ++ toLe (c.1.2 % 1024 * 64 + x (2 * c.2 + 1) % 64) 2
    else toLe c.1.1 1 ++ toLe c.1.2 1).flatten

/-- The average of two chroma rows (R305). -/
def averageRows (a b : List (Nat × Nat)) : List (Nat × Nat) :=
  (a.zip b).map fun p => ((p.1.1 + p.2.1 + 1) / 2, (p.1.2 + p.2.2 + 1) / 2)

/-- A held chroma row, as stored in the context. -/
def packPairs (cs : List (Nat × Nat)) : List Byte := (cs.map fun c => toLe c.1 2 ++ toLe c.2 2).flatten

def unpackPairs (bs : List Byte) : List (Nat × Nat) := (List.range (bs.length / 4)).map fun k => (le bs (4 * k) 2, le bs (4 * k + 2) 2)

/-- The writes of line `j`: address and bytes of plane 0, and of a chroma row where one is complete (R173, R305, R318). -/
def CsSt.lineWrites (c : CsSt) (base j : Nat) (l : VideoLine) (x : Nat → Nat) : List (Nat × List Byte) :=
  let row := if c.lineLocked then j % c.ring else j
  let luma := (base + row * c.stride, lineData c.fmt c.width l x)
  let y := fun k => x (c.width + k)
  if c.fmt = 6 then
    [luma, (base + (if c.lineLocked then c.ring * c.stride else c.chroma) + row * c.stride, chromaData 6 l.chroma y)]
  else if c.fmt = 5 ∨ c.fmt = 7 then
    let at' := base + c.chroma + j / 2 * c.stride
    if c.dt = 0x18 then (if l.chroma.isEmpty then [luma] else [luma, (at', chromaData c.fmt l.chroma y)])
    else if j % 2 = 0 then [luma]
    else [luma, (at', chromaData c.fmt (averageRows (unpackPairs c.held) l.chroma) y)]
  else [luma]

/-- Writes of one engine until one is refused. -/
def State.writeAll (s : State) (r : Req) (path : Nat) : List (Nat × List Byte) → State × Bool
  | [] => (s, true)
  | (a, bs) :: t => match s.writeMem r path a bs with
    | (s1, true) => s1.writeAll r path t
    | (s1, false) => (s1, false)

/-- A refused ingest write (R306). -/
def Dev.ingestRefused (d : Dev) (c : Nat) : Dev :=
  (((d.csDrop c).csEnter c 0).raise (csEv c 3)).notice (d.csOwner c) 2 c ST_OWN_REFUSED 0

/-- The last byte of a line-locked line is written: its slot's tag is set (R318), and a line whose layer deadline has passed shows its slack (R321). -/
def CsSt.ringLine (x : CsSt) (j now : Nat) : CsSt :=
  let y := { x with tags := x.tags.put (j % x.ring) (some (x.begun, j)), arrivals := (x.begun, j, now) :: x.arrivals }
  match y.due.find? fun p => p.1 == j && y.viewFrame == y.begun with
  | some p => { y with due := y.due.erase p }.measure ((p.2 : Int) - (now : Int))
  | none => y

/-- A good line of the frame in progress. -/
def State.lineGood (s : State) (c : Nat) (l : VideoLine) : State :=
  let x := s.dev.cs c
  let j := x.lines
  let s1 := s.onDev fun d =>
    (if j = 0 then d else d.setF VIN_CS_LINE.LINE_PERIOD c (min (2 ^ 24 - 1) (16 * (d.now - x.lastLine)))).updCs c fun x =>
      { x with lines := j + 1, held := if j % 2 = 0 then packPairs l.chroma else [] }
  match x.buf with
  | none => s1
  | some k =>
    let k0 := s1.dev.free
    let ws := x.lineWrites (x.buffer k) j l fun i => Config.freeValue (k0 + i)
    match (s1.onDev fun d => { d with free := k0 + 4 * x.width }).writeAll (s1.dev.csReq c) 2 ws with
    | (s2, true) => if x.lineLocked then s2.onDev fun d => d.updCs c fun y => y.ringLine j d.now else s2
    | (s2, false) => s2.onDev (·.ingestRefused c)

/-- The line belongs to the frame of a receiving context: its virtual channel and its data type (R301). -/
def CsSt.takes (x : CsSt) (l : VideoLine) : Bool := l.vc == x.vc && l.dt == x.dt

/-- A line arrives (R301, R312): packets of another type or channel are discarded, and a line of a frame that has been discarded only restarts the line
timeout. -/
def State.lineReceived (s : State) (p c : Nat) (l : VideoLine) : State :=
  let s1 := s.onDev (·.packet p l.corrected (l.headerOk && l.crcOk))
  let x := s1.dev.cs c
  if !s1.dev.csReceives p c || !x.awaits || !x.takes l then s1
  else
    let tick := fun (s : State) => s.onDev fun d => d.updCs c fun y => { y with lastLine := d.now }
    if !x.inFrame then tick s1
    else if !l.headerOk || !l.crcOk || l.pixels.length != x.width || decide (x.height ≤ x.lines) then (tick s1).onDev (·.csDiscard c)
    else tick ((s1.lineGood c l).onDev fun d => d.pmcPixels 0x0C c (d.csReq c).mid (d.csReq c).sec x.width)

def execLineReceived (port : Fin 20) (c : Fin 16) (l : VideoLine) (s : State) : Host.Outcome State Fault Refusal :=
  .next (s.lineReceived port.val c.val l)

/-- The context completes a frame, so standing jobs that it triggers are requested or skipped (R331). -/
def Dev.triggerRuns (d : Dev) (c : Nat) : Dev :=
  (List.range 16).foldl (fun (d : Dev) o =>
    match (d.cs o).standing with
    | some st =>
      if st.trigger ≠ c then d
      else if d.jobRuns st || d.standingWaits o then d.count VIN_CS_CNT.SKIP_COUNT o 1
      else { d with vin := { d.vin with triggers := d.vin.triggers + 1, we := d.vin.we.upd st.engine fun w => { w with runs := w.runs ++ [(o, d.vin.triggers)] } } }
    | none => d) d

/-- The frame in progress is complete: it becomes the newest (R311, R312, R316, R331). -/
def Dev.frameComplete (d : Dev) (c : Nat) : Dev :=
  let x := d.cs c
  let newest := if x.lineLocked then none else x.buf
  let d1 := (d.updCs c fun y => { y with
    inFrame := false, buf := none, held := [], newest := newest, lastEnd := some d.now, nextStamp := y.nextStamp + 1
    stamps := match x.buf with | some k => y.stamps.put k (y.nextStamp + 1) | none => y.stamps }).setReg .VIN_CS_FRAMES c
      (d.reg .VIN_CS_FRAMES c + 1)
  let d2 := (d1.setF VIN_CS_STAT.NEWEST c (newest.getD 0)).setReg64 .VIN_CS_FE_LO .VIN_CS_FE_HI c d.now
  let d3 := if d2.csState c = 2 then d2.csEnter c 3 else d2
  d3.triggerRuns c

/-- A frame-end packet (R312). -/
def Dev.frameEnd (d : Dev) (p c : Nat) (corrected headerOk : Bool) : Dev :=
  let d1 := d.packet p corrected headerOk
  let x := d1.cs c
  if !headerOk || !d1.csReceives p c || !x.awaits then d1
  else
    let d2 := d1.updCs c fun y => { y with awaits := false }
    if !x.inFrame then d2
    else if x.buf.isNone then d2.csDrop c
    else if x.lines = x.height then d2.frameComplete c
    else d2.csDiscard c

def execFrameEnd (port : Fin 20) (c : Fin 16) (corrected headerOk : Bool) (s : State) : Host.Outcome State Fault Refusal :=
  .next (s.onDev (·.frameEnd port.val c.val corrected headerOk))

/-- The line timeout (R311, R312): the frame in progress is discarded, and FILL and LIVE move to STALLED. -/
def Dev.lineTimeout (d : Dev) (c : Nat) : Dev :=
  let x := d.cs c
  if d.csState c ≠ 0 ∧ x.source ≠ 0x1E ∧ x.awaits ∧ x.lastLine + 1000 * x.lineToUs ≤ d.now then
    let d1 := (d.csDiscard c).updCs c fun y => { y with awaits := false }
    if d1.csState c = 1 then d1 else d1.csEnter c 1
  else d

def execLineTimeout (c : Fin 16) (s : State) : Host.Outcome State Fault Refusal := .next (s.onDev (·.lineTimeout c.val))

/-- FRAME_TO_MS has passed since the last frame start (R311). -/
def CsSt.frameLate (x : CsSt) (now : Nat) : Bool := match x.lastStart with | some t => decide (t + 1000000 * x.frameToMs ≤ now) | none => false

/-- The frame timeout (R311). -/
def Dev.frameTimeout (d : Dev) (c : Nat) : Dev := if d.csState c = 3 ∧ (d.cs c).frameLate d.now then d.csEnter c 1 else d

def execFrameTimeout (c : Fin 16) (s : State) : Host.Outcome State Fault Refusal := .next (s.onDev (·.frameTimeout c.val))

/-- A write of VIN_RX_CFG (R336): an APH port strapped as a transmitter has no receiver. -/
def rxCfgWrite (who : Fn) (p : Nat) (val : Word) (d : Dev) : Dev :=
  if p < 8 ∨ 0x13 < p then d
  else if p < 16 ∧ ¬ d.aphyRx p then d.setF VIN_RX_STAT.WERR p 1
  else
    let d1 := d.write who .VIN_RX_CFG p val
    if d1.fb VIN_RX_CFG.ENABLE p then d1 else d1.setF VIN_RX_STAT.LINK_UP p 0

end Sys2Proof.Machine
end

