-- ==== Sys2Proof/Machine/Gpu.lean ====
section
/-! DEFINITION. Graphics and compute: contexts, the scheduler and its guard, pipelines, passes and dispatches (R338 to R374, R383, R384).
What shader programs do arrives in the operands of a boundary, and as memory accesses of the context (log entry 144). -/

namespace Sys2Proof.Machine

def Dev.gctx (d : Dev) (g : Nat) : GpuCtx := d.gpu.ctx.get g

def Dev.cluster (d : Dev) (k : Nat) : ClusterSt := d.gpu.clusters.get k

def Dev.ctxOwner (d : Dev) (g : Nat) : Nat := d.f GPU_CTX_ASSIGN.OWNER g

def Dev.stopped (d : Dev) (g : Nat) : Bool := d.f GPU_CTX_STAT.STATE g == 3

/-- Logical clusters that a context holds. -/
def Dev.holdsClusters (d : Dev) (g : Nat) : List Nat := (List.range 8).filter fun k => (d.cluster k).run == some g

/-- The physical cluster that serves logical cluster `k` (R339). -/
def Dev.physOf (d : Dev) (k : Nat) : Nat :=
  ((List.range 10).find? fun p => d.f GPU_SC_STAT.ROLE p == 0 && d.f GPU_SC_STAT.LOGICAL p == k).getD k

/-- STATE, PASS_OPEN and PIPES follow the context (R384). -/
def Dev.syncCtx (d : Dev) (g : Nat) : Dev :=
  let x := d.gctx g
  let st := if d.stopped g then 3 else if !(d.holdsClusters g).isEmpty then 1 else if x.begun then 2 else 0
  ((d.setF GPU_CTX_STAT.STATE g st).setF GPU_CTX_STAT.PASS_OPEN g (b2n x.pass.isSome)).setF GPU_CTX_PIPES.PIPES g
    (x.pipes.filter fun p => p.2.isSome).length

def Dev.updCtx (d : Dev) (g : Nat) (h : GpuCtx → GpuCtx) : Dev := { d with gpu := { d.gpu with ctx := d.gpu.ctx.upd g h } }.syncCtx g

/-- BUSY and CTX follow the cluster (R383). -/
def Dev.setCluster (d : Dev) (k : Nat) (c : ClusterSt) : Dev :=
  let p := d.physOf k
  (({ d with gpu := { d.gpu with clusters := d.gpu.clusters.put k c } }.setF GPU_SC_STAT.BUSY p (b2n c.run.isSome)).setF GPU_SC_STAT.CTX p
    (c.run.getD 0))

/-! The scheduler (R344 to R346). -/

/-- A change of MAX_PRIO or CLUSTER_MASK takes effect (R346), and PRIORITY is clamped (R344). -/
def Dev.ctxLatch (d : Dev) (g : Nat) : Dev :=
  let d1 := d.latch .GPU_CTX_ASSIGN g
  d1.setF GPU_CTX_STAT.PRIORITY g (min (d1.gctx g).prioReq (d1.fl GPU_CTX_ASSIGN.MAX_PRIO g))

def Dev.ctxPrio (d : Dev) (g : Nat) : Nat := d.f GPU_CTX_STAT.PRIORITY g

def Dev.ctxMask (d : Dev) (g : Nat) : Nat := d.fl GPU_CTX_ASSIGN.CLUSTER_MASK g

def Dev.ctxReady (d : Dev) (g : Nat) : Bool := (d.gctx g).active && !d.stopped g && !d.vfHeld (d.ctxOwner g)

/-- A cluster reserved for level 7 (R345). -/
def Dev.reserved (d : Dev) (k : Nat) : Bool := decide (8 ≤ k + min 2 (d.f GPU_SCHED_CTRL.RESERVE 0))

/-- A reserved cluster is for level 7 alone (R345), and the guard asks only for clusters that its context may take (R349; DEDUCED, log entry 169). -/
def Dev.levelFits (d : Dev) (k g : Nat) : Bool := !d.reserved k || d.ctxPrio g == 7

/-- The pick of R344. -/
def Dev.pick (d : Dev) (k : Nat) : Option Nat :=
  (List.range 128).foldl (fun best g =>
    if !d.ctxReady g || !bit (d.ctxMask g) k || !d.levelFits k g then best
    else match best with
      | none => some g
      | some b =>
        if d.ctxPrio b < d.ctxPrio g then some g
        else
          let rr := (d.cluster k).rr.get (d.ctxPrio g)
          if d.ctxPrio b = d.ctxPrio g ∧ (g + 128 - rr) % 128 < (b + 128 - rr) % 128 then some g else best) none

/-- A command begins to run: late, after its START_DEADLINE, unless an eviction freed its cluster (R349, R351). -/
def Dev.ctxBegin (d : Dev) (g : Nat) (evicting : Bool) : Dev :=
  let x := d.gctx g
  if x.begun then d
  else
    let d1 := d.updCtx g fun x => { x with begun := true }
    if x.deadline ≠ 0 ∧ x.deadline < d.now ∧ ¬ evicting then (d1.setF GPU_CTX_STAT.LATE g 1).raise 258 else d1

/-- A command for which the guard asked may take cluster `k`: its mask still has the cluster, which is not reserved for a higher level, and the work there has
not come to level 7 (R345, R346, R349). -/
def Dev.mayTake (d : Dev) (k g : Nat) : Bool :=
  d.ctxReady g && bit (d.ctxMask g) k && d.levelFits k g && (match (d.cluster k).run with | some h => h == g || !d.ctxReady h || decide (d.ctxPrio h < 7) | none => true)

/-- Cluster `k` takes its next work: that of the guard's request, or the scheduler's pick. A context that takes the cluster again at once has held it on. -/
def Dev.clusterTake (d : Dev) (k : Nat) (evicting : Bool) : Dev :=
  let c := d.cluster k
  let next := match c.req with
    | some g => if d.mayTake k g then some g else d.pick k
    | none => d.pick k
  let d0 := if 6 ≤ k then d.latch .GPU_SCHED_CTRL 0 else d
  match next with
  | none => d0.setCluster k { c with run := none, last := none, req := none, expired := false }
  | some g =>
    let same := c.last == some g
    ((d0.setCluster k { c with run := some g, last := some g, req := none, rr := c.rr.put (d0.ctxPrio g) g, since := if same then c.since else d.now
                               expired := same && c.expired }).ctxBegin g evicting).syncCtx g

/-- The work on a cluster reaches its boundary: a context whose slice has passed gives up its place in the round-robin order of its level (R344). -/
def Dev.slice (d : Dev) (c : ClusterSt) : ClusterSt :=
  match c.run with
  | some g => if c.expired then { c with rr := c.rr.put (d.ctxPrio g) ((g + 1) % 128), last := none, expired := false } else c
  | none => c

/-- Idle clusters take work. -/
def Dev.schedIdle (d : Dev) : Dev :=
  (List.range 8).foldl (fun (d : Dev) k => if (d.cluster k).run.isNone then d.clusterTake k false else d) d

/-- Every cluster that runs a context is free, and requests for it fall. -/
def Dev.freeClusters (d : Dev) (g : Nat) : Dev :=
  (List.range 8).foldl (fun (d : Dev) k =>
    let c := d.cluster k
    let c1 := if c.run = some g then { d.slice c with run := none } else c
    d.setCluster k { c1 with req := if c.req = some g then none else c.req }) d

/-- The first command of a context ends, and no work of it is in progress. -/
def Dev.headEnd (d : Dev) (g status result : Nat) : Dev :=
  match (d.gctx g).cmds with
  | [] => d
  | (ref, _) :: t => (((d.endCmd ref status result).pmcHit 0x0A g (d.gpuReq g).mid (d.gpuReq g).sec 1).freeClusters g).updCtx g fun x => { x with
      cmds := t, active := false, begun := false, deadline := 0, fired := false, loading := none, res := [], todo := 0, got := [] }

/-! Pipeline objects (R353, R354). -/

def renderFmt (f : Nat) : Bool := decide (1 ≤ f ∧ f ≤ 4) || f == 11

/-- A section is well formed (R354): 0, or the status with which PIPE_LOAD fails. -/
def sectionErr (ty : Nat) (b : List Byte) : Nat :=
  let n := b.length
  let ok := fun (c : Bool) => if c then 0 else ST_BAD_FIELD
  match ty with
  | 1 | 2 | 3 => ok (decide (32 < n ∧ n ≤ 32 + 4 * 1048576) && n % 4 == 0 && moduleOk ty b)
  | 4 => ok (n % 12 == 0)
  | 5 =>
    let nb := le b 0 1
    let na := le b 1 1
    ok (decide (nb ≤ 16 ∧ na ≤ 32 ∧ le b 2 1 ≤ 5 ∧ le b 3 1 ≤ 1) && n == 4 + 4 * nb + 8 * na &&
      ((List.range nb).all fun i => let o := 4 + 4 * i; decide (le b o 1 < 16 ∧ le b (o + 1) 1 ≤ 1) && le b (o + 2) 2 == 0) &&
      ((List.range na).all fun i =>
        let o := 4 + 4 * nb + 8 * i
        decide (le b o 1 < 32 ∧ le b (o + 1) 1 < 16 ∧ le b (o + 2) 1 ≤ 7 ∧ 1 ≤ le b (o + 3) 1 ∧ le b (o + 3) 1 ≤ 4)))
  | 6 =>
    ok (n == 16 && decide (le b 0 1 ≤ 2 ∧ le b 1 1 ≤ 1 ∧ le b 2 1 ≤ 1 ∧ le b 3 1 ≤ 1 ∧ le b 4 1 ≤ 7 ∧ le b 5 1 ≤ 1) &&
      ((List.range 4).all fun i => decide (le b (6 + i) 1 ≤ 7)) && (le b 13 1 == 1 || le b 13 1 == 4) && le b 14 2 == 0)
  | 7 =>
    let nt := le b 0 1
    if !(decide (nt ≤ 4) && n == 16 + 16 * nt && le b 1 7 == 0) then ST_BAD_FIELD
    else if (List.range nt).any fun i => !renderFmt (le b (16 + 16 * i) 1) then ST_BAD_FORMAT
    else ok ((List.range nt).all fun i =>
      let o := 16 + 16 * i
      decide (le b (o + 1) 1 ≤ 1 ∧ le b (o + 2) 1 ≤ 14 ∧ le b (o + 3) 1 ≤ 14 ∧ le b (o + 4) 1 ≤ 4 ∧ le b (o + 5) 1 ≤ 14 ∧
        le b (o + 6) 1 ≤ 14 ∧ le b (o + 7) 1 ≤ 4 ∧ le b (o + 8) 1 ≤ 15) && le b (o + 9) 7 == 0)
  | _ => ST_BAD_FIELD

/-- Section `i`: type, and its content where it lies within the object. -/
def objSection (obj : List Byte) (i : Nat) : Nat × Option (List Byte) :=
  let o := 32 + 16 * i
  let off := le obj (o + 4) 4
  let size := le obj (o + 8) 4
  (le obj o 2, if le obj (o + 2) 2 = 0 ∧ le obj (o + 12) 4 = 0 ∧ off + size ≤ obj.length then some ((obj.drop off).take size) else none)

/-- The header is well formed (R353). -/
def objHeaderOk (h : List Byte) : Bool :=
  le h 0 4 == 0x4C504F42 && le h 4 2 == 1 && decide (le h 6 1 ≤ 1 ∧ 1 ≤ le h 7 1 ∧ le h 7 1 ≤ 12) &&
    decide (32 + 16 * le h 7 1 ≤ le h 8 4 ∧ le h 8 4 ≤ 4198400) && decide (le h 12 2 ≤ 256) && le h 12 2 % 4 == 0 &&
    decide (le h 14 2 ≤ 4096) && le h 16 16 == 0

/-- The sections of an object: the first failure as status and section index, 0xFFFF for a section that is missing. -/
def objErr (obj : List Byte) : Option (Nat × Nat) :=
  let secs := (List.range (le obj 7 1)).map (objSection obj)
  let compute := le obj 6 1 == 1
  let allowed := if compute then [3, 4] else [1, 2, 4, 5, 6, 7]
  let needed := if compute then [3] else [1, 2, 5, 6, 7]
  let types := secs.map (·.1)
  let spec := match secs.find? fun s => s.1 == 4 with | some (_, some b) => b | _ => []
  match secs.zipIdx.findSome? fun s =>
    if !allowed.contains s.1.1 || (types.take s.2).contains s.1.1 then some (ST_BAD_FIELD, s.2)
    else match s.1.2 with
      | none => some (ST_BAD_FIELD, s.2)
      | some b =>
        let e := sectionErr s.1.1 b
        if e ≠ 0 then some (e, s.2)
        else if s.1.1 ≤ 3 && !moduleLimits s.1.1 spec b then some (ST_BAD_FIELD, s.2)
        else none with
  | some e => some e
  | none => if needed.all types.contains then none else some (ST_BAD_FIELD, 0xFFFF)

/-- The first section of a type. -/
def objPart (obj : List Byte) (ty : Nat) : List Byte :=
  match ((List.range (le obj 7 1)).map (objSection obj)).find? fun s => s.1 == ty with
  | some (_, some b) => b
  | _ => []

/-- The pipeline of an object at `a` (R353, R354). -/
def pipeOf (a : Nat) (obj : List Byte) (pin : Bool) : Pipe :=
  let blend := objPart obj 7
  { hash := Sha256.hash obj, obj := a, len := obj.length, compute := le obj 6 1 == 1, push := le obj 12 2, setSize := le obj 14 2
    targets := (List.range (le blend 0 1)).map fun i => le blend (16 + 16 * i) 1
    vertexIn := objPart obj 5, raster := objPart obj 6, blend := blend, kib := Config.nativeKib obj, pin := pin }

/-! The translation cache (R357, R358). -/

def cacheKib (c : List XltEntry) : Nat := c.foldl (fun a e => a + e.kib) 0

def Dev.setCache (d : Dev) (c : List XltEntry) : Dev :=
  ({ d with gpu := { d.gpu with cache := c } }.setF GPU_XLT_STAT.USED_KIB 0 (cacheKib c)).setF GPU_XLT_STAT.PINNED_KIB 0
    (cacheKib (c.filter (·.pin)))

/-- Drop the last entry that satisfies `p`. -/
def dropLast (p : XltEntry → Bool) (c : List XltEntry) : List XltEntry :=
  let r := c.reverse
  (r.takeWhile (fun e => !p e) ++ (r.dropWhile (fun e => !p e)).drop 1).reverse

/-- Least recently used unpinned pipelines go until `kib` more fit in 8 MiB. -/
def Dev.cacheRoom (d : Dev) (kib : Nat) : Nat → Dev
  | 0 => d
  | n + 1 =>
    if cacheKib d.gpu.cache + kib ≤ 8192 ∨ ¬ d.gpu.cache.any fun e => !e.pin then d
    else ((d.setCache (dropLast (fun e => !e.pin) d.gpu.cache)).count GPU_XLT_CNT.EVICTIONS 0 1).cacheRoom kib n

/-- A pipeline becomes the most recently used entry. -/
def Dev.cachePut (d : Dev) (owner : Nat) (p : Pipe) : Dev :=
  let mine := fun (e : XltEntry) => e.owner == owner && e.hash == p.hash
  let old := d.gpu.cache.find? mine
  let pin := p.pin || (match old with | some e => e.pin | none => false)
  let d1 := (d.setCache (d.gpu.cache.filter fun e => !mine e)).cacheRoom p.kib (d.gpu.cache.length + 1)
  d1.setCache (⟨owner, p.hash, p.kib, pin⟩ :: d1.gpu.cache)

def Dev.cached (d : Dev) (owner : Nat) (p : Pipe) : Bool := d.gpu.cache.any fun e => e.owner == owner && e.hash == p.hash

/-- Some handle of the owner uses the digest. -/
def Dev.hashUsed (d : Dev) (owner : Nat) (hash : List Byte) : Bool :=
  (List.range 128).any fun g => d.ctxOwner g == owner && (d.gctx g).pipes.any fun e => match e.2 with | some p => p.hash == hash | none => false

/-- A handle becomes free; code that no handle of the owner uses leaves the cache. -/
def Dev.freeHandle (d : Dev) (g h : Nat) : Dev :=
  match (d.gctx g).pipes.get h with
  | none => d
  | some p =>
    let d1 := d.updCtx g fun x => { x with pipes := x.pipes.put h none }
    if d1.hashUsed (d1.ctxOwner g) p.hash then d1
    else d1.setCache (d1.gpu.cache.filter fun e => !(e.owner == d1.ctxOwner g && e.hash == p.hash))

/-! Commands that need no cluster (R359 to R363). -/

/-- EXT is 0 but for START_DEADLINE of PASS_BEGIN and DISPATCH at level 7 (R348). -/
def Dev.extOk (d : Dev) (g : Nat) (c : Cmd) : Bool := c.ext == 0 || (d.ctxPrio g == 7 && (c.opcode == 0x33 || c.opcode == 0x36))

/-- Reserved bits of CTX and EXT. -/
def Dev.gpuHead (d : Dev) (g : Nat) (c : Cmd) : List (Bool × Nat × Nat) :=
  [(!d.extOk g c, ST_BAD_FIELD, errOutside), (c.u 32 2 / 128 != 0, ST_BAD_FIELD, errByte 32)]

def popcount (m : Nat) : Nat := ((List.range 8).filter fun k => bit m k).length

def Dev.ctxSetErr (d : Dev) (g : Nat) (c : Cmd) : Option (Nat × Nat) :=
  let base := c.u 40 8
  let kib := c.u 48 4
  let mib := c.u 52 4
  firstError ((if (d.gctx g).pass.isSome then [(true, ST_BUSY, errByte 32)] else []) ++ d.gpuHead g c ++
    [(!c.conts.isEmpty, ST_BAD_FIELD, errAt 32), (decide (8 ≤ c.u 34 1), ST_BAD_FIELD, errByte 34), (c.u 35 1 != 0, ST_BAD_FIELD, errByte 35),
     (!decide (1 ≤ c.u 38 1 ∧ c.u 38 1 ≤ 8), ST_BAD_FIELD, errByte 38), (c.u 39 1 != 0, ST_BAD_FIELD, errByte 39),
     (!decide (64 ≤ kib ∧ kib ≤ 8192) || kib % 64 != 0, ST_BAD_FIELD, errByte 48), (decide (4096 < mib), ST_BAD_FIELD, errByte 52),
     (base % 65536 != 0 || !inBanks base (base + 1024 * kib - 1), ST_BAD_GEOMETRY, errByte 40),
     (mib != 0 && (c.u 56 8 % 4096 != 0 || !d.inDdr (c.u 56 8) (c.u 56 8 + 2 ^ 20 * mib - 1)), ST_BAD_GEOMETRY, errByte 56)])

/-- Clusters that the guard is to reach: NEED clamped, at each use, to those of the mask in force (R360, R643). -/
def Dev.ctxNeed (d : Dev) (g : Nat) : Nat := min (d.gctx g).need (popcount (d.ctxMask g))

/-- CTX_SET (R360). -/
def Dev.ctxSet (d : Dev) (g : Nat) (c : Cmd) : Dev × Nat × Nat :=
  match d.ctxSetErr g c with
  | some (st, res) => (d, st, res)
  | none =>
    let p := c.u 34 1
    let us := c.u 36 2
    let d0 := (((((d.setF GPU_CTX_STAT.STATE g 0).setF GPU_CTX_STAT.EVICTED g 0).setF GPU_CTX_STAT.GUILTY g 0).setF GPU_CTX_STAT.TILE_OOM g 0
      ).setF GPU_CTX_STAT.LATE g 0).setF GPU_CTX_USE.ARENA_PEAK_KIB g 0
    let d1 := (d0.updCtx g fun x => { x with
      prioReq := p, guard := clampN 10 10000 us, need := c.u 38 1, arenaBase := c.u 40 8, arenaKib := c.u 48 4
      basketMib := c.u 52 4, basketBase := c.u 56 8 }).ctxLatch g
    let clamped := decide (d1.ctxPrio g < p ∨ us < 10 ∨ 10000 < us ∨ popcount (d.ctxMask g) < c.u 38 1)
    (d1, if clamped then ST_CLAMPED else ST_OK, 0)

/-- PIPE_FREE (R361). -/
def Dev.pipeFree (d : Dev) (g : Nat) (c : Cmd) : Dev × Nat × Nat :=
  match firstError (d.gpuHead g c ++ [(!c.conts.isEmpty, ST_BAD_FIELD, errAt 32), (!c.zero 35 63, ST_BAD_FIELD, errByte 35),
      (((d.gctx g).pipes.get (c.u 34 1)).isNone, ST_BAD_FIELD, errByte 34)]) with
  | some (st, res) => (d, st, res)
  | none => (d.freeHandle g (c.u 34 1), ST_OK, 0)

/-- A target entry (R362). -/
def GTarget.parse (b : List Byte) : GTarget :=
  { base := le b 0 8, stride := le b 8 2, fmt := le b 10 1, load := le b 11 1, store := le b 12 1
    clear := (List.range 4).map fun i => le b (16 + 2 * i) 2 }

/-- A binary32 value lies in 0.0 to 1.0. -/
def unitFloat (v : Nat) : Bool := decide (v ≤ 0x3F800000) || v == 0x80000000

def Dev.passFieldErr (d : Dev) (g : Nat) (c : Cmd) : Option (Nat × Nat) :=
  firstError (d.gpuHead g c ++
    [((d.gctx g).pass.isSome, ST_BAD_FIELD, errByte 32), (!c.conts.isEmpty, ST_BAD_FIELD, errAt 32), (decide (4 < c.u 34 1), ST_BAD_FIELD, errByte 34),
     (decide (8 ≤ c.u 35 1), ST_BAD_FIELD, errByte 35), (!decide (1 ≤ c.u 36 2 ∧ c.u 36 2 ≤ 16384), ST_BAD_FIELD, errByte 36),
     (!decide (1 ≤ c.u 38 2 ∧ c.u 38 2 ≤ 16384), ST_BAD_FIELD, errByte 38), (c.u 40 8 % 64 != 0, ST_BAD_FIELD, errByte 40),
     (!unitFloat (c.u 48 4), ST_BAD_FIELD, errByte 48), (!c.zero 53 63, ST_BAD_FIELD, errByte 53)])

/-- The targets of a pass follow their rules (R174, R362, R372). -/
def Dev.targetErr (d : Dev) (g : Nat) (c : Cmd) (raw : List Byte) : Option (Nat × Nat) :=
  let w := c.u 36 2
  let h := c.u 38 2
  let ts := (List.range (c.u 34 1)).map fun i => GTarget.parse (raw.drop (32 * i))
  firstError (((ts.zipIdx.map fun t =>
      let b := raw.drop (32 * t.2)
      [(decide (2 < t.1.load) || decide (1 < t.1.store) || le b 13 3 != 0 || le b 24 8 != 0, ST_BAD_FIELD, errByte 40 t.2),
       (!renderFmt t.1.fmt, ST_BAD_FORMAT, errByte 40 t.2),
       (t.1.base % 64 != 0 || !strideOk t.1.fmt t.1.stride w ||
         !d.inDevice t.1.base (t.1.base + (h - 1) * t.1.stride + w * cvBytes t.1.fmt - 1), ST_BAD_GEOMETRY, errByte 40 t.2)]).flatten) ++
    [(let a := saveArea w h (c.u 35 1) ts; a != 0 && decide ((d.gctx g).basketMib * 2 ^ 20 < a + 2 ^ 20), ST_BAD_GEOMETRY, errByte 36)])

/-- PASS_BEGIN (R362). -/
def State.passBegin (s : State) (g : Nat) (c : Cmd) : State × Nat × Nat :=
  match s.dev.passFieldErr g c with
  | some (st, res) => (s, st, res)
  | none =>
    match s.readMem (s.dev.gpuReq g) 4 (c.u 40 8) (32 * c.u 34 1) with
    | (s1, .ok raw) =>
      match s1.dev.targetErr g c raw with
      | some (st, res) => (s1, st, res)
      | none =>
        let p : PassSt := { targets := (List.range (c.u 34 1)).map fun i => GTarget.parse (raw.drop (32 * i)), width := c.u 36 2, height := c.u 38 2
                            flags := c.u 35 1, depthClear := c.u 48 4, stencilClear := c.u 52 1, deadline := c.ext }
        (s1.onDev (·.updCtx g fun x => { x with pass := some p }), ST_OK, 0)
    | (s1, e) => (s1, e.status, 0)

/-- PIPE_LOAD up to its translation (R355, R357, R361): the pipeline, or status and RESULT. -/
def State.pipeLoad (s : State) (g : Nat) (c : Cmd) : State × (Pipe ⊕ (Nat × Nat)) :=
  let obj := c.u 40 8
  let bad := fun (s : State) (st res : Nat) => (s, (.inr (st, res) : Pipe ⊕ (Nat × Nat)))
  match firstError (s.dev.gpuHead g c ++
      [(!c.conts.isEmpty, ST_BAD_FIELD, errAt 32), (decide (2 ≤ c.u 34 1) || (c.u 34 1 == 1 && s.dev.f GPU_CTX_ASSIGN.MAX_PRIO g != 7), ST_BAD_FIELD,
        errByte 34), (!c.zero 35 39, ST_BAD_FIELD, errByte 35), (obj % 64 != 0, ST_BAD_FIELD, errByte 40), (!c.zero 48 63, ST_BAD_FIELD, errByte 48)]) with
  | some (st, res) => bad s st res
  | none =>
    match s.readMem (s.dev.gpuReq g) 4 obj 32 with
    | (s1, .ok h) =>
      if !objHeaderOk h then bad s1 ST_BAD_FIELD (errAt 0xFFFF)
      else match s1.readMem (s1.dev.gpuReq g) 4 obj (le h 8 4) with
        | (s2, .ok o) =>
          match objErr o with
          | some (st, i) => bad s2 st (errAt 0xFFFF i)
          | none =>
            if 256 ≤ ((s2.dev.gctx g).pipes.filter fun p => p.2.isSome).length then bad s2 ST_RESOURCE_LIMIT 0
            else
              (s2, .inl (pipeOf obj o (c.u 34 1 == 1)))
        | (s2, e) => bad s2 e.status 0
    | (s1, e) => bad s1 e.status 0

/-- A translation ends (R355 to R357). -/
def Dev.pipeTranslated (d : Dev) (g : Nat) (p : Pipe) : Dev :=
  let pinned := cacheKib (d.gpu.cache.filter fun e => e.pin && !(e.owner == d.ctxOwner g && e.hash == p.hash))
  if 1024 < p.kib ∨ (p.pin ∧ 4096 < pinned + p.kib) then d.headEnd g ST_RESOURCE_LIMIT 0
  else match (List.range 256).find? fun h => ((d.gctx g).pipes.get h).isNone with
    | none => d.headEnd g ST_RESOURCE_LIMIT 0
    | some h => (((d.cachePut (d.ctxOwner g) p).updCtx g fun x => { x with pipes := x.pipes.put h (some p) })).headEnd g ST_OK h

/-! Work for the clusters (R358, R364 to R367). -/

/-- A command's pipeline is in the cache; an evicted one is read and translated again (R358). -/
def State.pipeReady (s : State) (g h : Nat) : State × Option (Nat × Nat) :=
  match (s.dev.gctx g).pipes.get h with
  | none => (s, some (ST_BAD_FIELD, errByte 34))
  | some p =>
    let owner := s.dev.ctxOwner g
    if s.dev.cached owner p then (s.onDev (·.cachePut owner p), none)
    else match s.readMem (s.dev.gpuReq g) 4 p.obj p.len with
      | (s1, .ok o) =>
        if Sha256.hash o = p.hash then (s1.onDev fun d => (d.cachePut owner p).count GPU_XLT_CNT.MISSES 0 1, none)
        else (s1.onDev (·.freeHandle g h), some (ST_VERSION, 0))
      | (s1, e) => (s1, some (e.status, 0))

/-- Push-constant bytes that the continuations from number `k` on carry (R364 to R366). -/
def Cmd.pushBytes (c : Cmd) (k : Nat) : Nat := 62 * (c.conts.length - k)

def Dev.drawErr (d : Dev) (g : Nat) (c : Cmd) : Option (Nat × Nat) :=
  let x := d.gctx g
  let p := x.pipes.get (c.u 34 1)
  let first := (c.conts.headD []).drop 2
  let fits := match p, x.pass with
    | some p, some ps => !p.compute && p.targets == ps.targets.map (·.fmt)
    | _, _ => true
  firstError (d.gpuHead g c ++
    [(x.pass.isNone, ST_BAD_FIELD, errByte 32), (p.isNone, ST_BAD_FIELD, errByte 34), (decide (8 ≤ c.u 35 1), ST_BAD_FIELD, errByte 35),
     (!bit (c.u 35 1) 2 && c.u 40 4 == 0, ST_BAD_FIELD, errByte 40), (c.conts.isEmpty, ST_BAD_FIELD, errAt 32), (le first 56 6 != 0, ST_BAD_FIELD,
       errAt 88),
     (!fits, ST_BAD_FORMAT, errByte 34),
     ((match p with | some p => decide (c.pushBytes 1 < p.push) | none => false), ST_BAD_FIELD, errByte 34)])

def Dev.dispatchErr (d : Dev) (g : Nat) (c : Cmd) : Option (Nat × Nat) :=
  let x := d.gctx g
  let p := x.pipes.get (c.u 34 1)
  let ind := bit (c.u 35 1) 2
  let dim := fun o => !ind && !decide (1 ≤ c.u o 4 ∧ c.u o 4 ≤ 65535)
  firstError (d.gpuHead g c ++
    [(x.pass.isSome, ST_BAD_FIELD, errByte 32), (p.isNone, ST_BAD_FIELD, errByte 34), (c.u 35 1 != 0 && c.u 35 1 != 4, ST_BAD_FIELD, errByte 35),
     (dim 36, ST_BAD_FIELD, errByte 36), (dim 40, ST_BAD_FIELD, errByte 40), (dim 44, ST_BAD_FIELD, errByte 44),
     ((match p with | some p => !p.compute | none => false), ST_BAD_FORMAT, errByte 34),
     ((match p with | some p => decide (c.pushBytes 0 < p.push) | none => false), ST_BAD_FIELD, errByte 34)])

def Dev.passEndErr (d : Dev) (g : Nat) (c : Cmd) : Option (Nat × Nat) :=
  firstError (d.gpuHead g c ++ [((d.gctx g).pass.isNone, ST_BAD_FIELD, errByte 32), (!c.conts.isEmpty, ST_BAD_FIELD, errAt 32),
    (!c.zero 34 63, ST_BAD_FIELD, errByte 34)])

/-- The first command of a context becomes work for the clusters; the first work of a pass takes the pass's START_DEADLINE (R348). -/
def Dev.workReady (d : Dev) (g : Nat) (c : Cmd) : Dev :=
  let x := d.gctx g
  let dl := if c.opcode = 0x36 then c.ext else match x.pass with | some p => p.deadline | none => 0
  (d.updCtx g fun x => { x with active := true, begun := false, fired := false, deadline := dl, pass := x.pass.map fun p => { p with deadline := 0 } }
    ).schedIdle

/-- The first command of a context starts, as far as it can without a cluster: what is left to do. -/
inductive GpuMove where
  | ended (status result : Nat)
  | waits
deriving DecidableEq, Repr

/-- The first command of a context is work, unless a check failed. -/
def State.gpuWork (s : State) (g : Nat) (c : Cmd) (e : Option (Nat × Nat)) : State × GpuMove :=
  match e with
  | some (st, res) => (s, .ended st res)
  | none => (s.onDev (·.workReady g c), .waits)

/-- Work that needs a pipeline of the cache. -/
def State.gpuPiped (s : State) (g : Nat) (c : Cmd) (e : Option (Nat × Nat)) : State × GpuMove :=
  match e with
  | some (st, res) => (s, .ended st res)
  | none => let r := s.pipeReady g (c.u 34 1); r.1.gpuWork g c r.2

/-- The workgroups of a dispatch in each dimension: from the body, or from IND (R365). -/
def State.dispatchDims (s : State) (g : Nat) (c : Cmd) : State × Option Nat × List Nat :=
  if bit (c.u 35 1) 2 then
    let r := s.gpuRead g (c.u 56 8) 12
    (r.1, r.2.1, (List.range 3).map fun i => le r.2.2 (4 * i) 4)
  else (s, none, (List.range 3).map fun i => c.u (36 + 4 * i) 4)

/-- A dispatch starts: its workgroups are counted, and its resource table is read (R365, R367). A dimension of IND outside 1 to 65,535 fails as one of the body
would (DEDUCED, log entry 142). -/
def State.gpuDispatch (s : State) (g : Nat) (c : Cmd) : State × GpuMove :=
  match s.dev.dispatchErr g c with
  | some (st, res) => (s, .ended st res)
  | none =>
    match s.pipeReady g (c.u 34 1) with
    | (s1, some (st, res)) => (s1, .ended st res)
    | (s1, none) =>
      match s1.dispatchDims g c with
      | (s2, some st, _) => (s2, .ended st 0)
      | (s2, none, ds) =>
        if ds.any fun n => !decide (1 ≤ n ∧ n ≤ 65535) then (s2, .ended ST_BAD_FIELD (errByte 56))
        else
          let n := match (s2.dev.gctx g).pipes.get (c.u 34 1) with | some p => p.setSize | none => 0
          match s2.readTable g (c.u 48 8) n with
          | (s3, some st, _) => (s3, .ended st 0)
          | (s3, none, res) => ((s3.onDev fun d => (d.updCtx g fun x => { x with todo := ds.foldl (· * ·) 1, res := res }).workReady g c), .waits)

def State.gpuLoad (s : State) (g : Nat) (c : Cmd) : State × GpuMove :=
  match s.pipeLoad g c with
  | (s1, .inl p) => (s1.onDev (·.updCtx g fun x => { x with loading := some p }), .waits)
  | (s1, .inr (st, res)) => (s1, .ended st res)

/-- A command that changes the block's own registers only. -/
def State.gpuDev (s : State) (r : Dev × Nat × Nat) : State × GpuMove := ({ s with dev := r.1 }, .ended r.2.1 r.2.2)

def State.gpuPass (s : State) (g : Nat) (c : Cmd) : State × GpuMove :=
  let r := s.passBegin g c
  (r.1, .ended r.2.1 r.2.2)

/-- Take the first command of a context (R343, R350, R359); one whose header failed while earlier commands were at work has its status. -/
def State.gpuTake (s : State) (g : Nat) (c : Cmd) : State × GpuMove :=
  if c.status ≠ 0 then (s, .ended c.status c.result)
  else if s.dev.stopped g ∧ c.opcode ≠ 0x30 then (s, .ended ST_ABORTED 0)
  else if c.opcode = 0x30 then s.gpuDev (s.dev.ctxSet g c)
  else if c.opcode = 0x31 then s.gpuLoad g c
  else if c.opcode = 0x32 then s.gpuDev (s.dev.pipeFree g c)
  else if c.opcode = 0x33 then s.gpuPass g c
  else if c.opcode = 0x34 then s.gpuPiped g c (s.dev.drawErr g c)
  else if c.opcode = 0x35 then s.gpuWork g c (s.dev.passEndErr g c)
  else s.gpuDispatch g c

/-- A refused, poisoned or failed access closes the open pass (R368). -/
def Dev.closeOn (d : Dev) (g status : Nat) : Dev :=
  if status = ST_OWN_REFUSED ∨ status = ST_POISONED ∨ status = ST_HOST_DMA then d.updCtx g fun x => { x with pass := none } else d

/-- The commands of a context are taken in order until one waits. -/
def State.gpuAdvance (s : State) (g : Nat) : Nat → State
  | 0 => s
  | n + 1 =>
    let x := s.dev.gctx g
    if x.active || x.loading.isSome then s
    else if s.dev.vfHeld (s.dev.ctxOwner g) then s.onDev Dev.schedIdle
    else match x.cmds with
      | [] => s.onDev Dev.schedIdle
      | (_, c) :: _ =>
        match s.gpuTake g c with
        | (s1, .ended st res) => (s1.onDev fun d => (d.closeOn g st).headEnd g st res).gpuAdvance g n
        | (s1, .waits) => s1.onDev Dev.schedIdle

def State.gpuRun (s : State) (g : Nat) : State := s.gpuAdvance g ((s.dev.gctx g).cmds.length + 1)

/-- A graphics command starts: it joins its context, if it comes from the queue that feeds it (R341, R359). -/
def State.gpuStart (s : State) (f : Fn) (q : Fin 8) (ref : CmdRef) (c : Cmd) : State :=
  let g := c.u 32 2 % 128
  if s.dev.ctxOwner g ≠ f.code ∨ s.dev.f GPU_CTX_ASSIGN.QUEUE g ≠ q.val then s.onDev (·.endCmd ref ST_NOT_OWNER (errByte 32))
  else (s.onDev (·.updCtx g fun x => { x with cmds := x.cmds ++ [(ref, c)] })).gpuRun g

def runGpu (f : Fn) (q : Fin 8) : Run := fun ref c s => s.gpuStart f q ref c

def execCtxSet (f : Fn) (q : Fin 8) (s : State) : Host.Outcome State Fault Refusal := .next (s.startNext f q (· == 0x30) (runGpu f q))
def execPipeLoad (f : Fn) (q : Fin 8) (s : State) : Host.Outcome State Fault Refusal := .next (s.startNext f q (· == 0x31) (runGpu f q))
def execPipeFree (f : Fn) (q : Fin 8) (s : State) : Host.Outcome State Fault Refusal := .next (s.startNext f q (· == 0x32) (runGpu f q))
def execPassBegin (f : Fn) (q : Fin 8) (s : State) : Host.Outcome State Fault Refusal := .next (s.startNext f q (· == 0x33) (runGpu f q))
def execDraw (f : Fn) (q : Fin 8) (s : State) : Host.Outcome State Fault Refusal := .next (s.startNext f q (· == 0x34) (runGpu f q))
def execPassEnd (f : Fn) (q : Fin 8) (s : State) : Host.Outcome State Fault Refusal := .next (s.startNext f q (· == 0x35) (runGpu f q))
def execDispatch (f : Fn) (q : Fin 8) (s : State) : Host.Outcome State Fault Refusal := .next (s.startNext f q (· == 0x36) (runGpu f q))

def execPipeTranslated (g : Fin 128) (s : State) : Host.Outcome State Fault Refusal :=
  .next (match (s.dev.gctx g.val).loading with
    | some p => (s.onDev (·.pipeTranslated g.val p)).gpuRun g.val
    | none => s)

/-! Stops (R350, R368, R373). -/

/-- The command in progress stops with a status; an open pass closes unstored, and the context goes on (R368). -/
def State.gpuFault (s : State) (g status : Nat) : State :=
  if (s.dev.gctx g).active then
    (s.onDev fun d => (d.updCtx g fun x => { x with pass := none }).headEnd g status 0).gpuRun g
  else s

/-- A context becomes STOPPED with its command completed; later commands complete with ABORTED (R350, R373). -/
def State.gpuStop (s : State) (g status : Nat) (flags : Dev → Dev) : State :=
  (s.onDev fun d => flags (((d.updCtx g fun x => { x with pass := none }).headEnd g status 0).setF GPU_CTX_STAT.STATE g 3)).gpuRun g

/-- Eviction (R350). -/
def State.evict (s : State) (g : Nat) : State :=
  s.gpuStop g ST_EVICTED fun d => ((d.setF GPU_CTX_STAT.EVICTED g 1).setF GPU_CTX_STAT.GUILTY g 1).raise 257

/-! Boundaries (R347). -/

/-- An ENGINE_FAULT completion: the third of a physical cluster within 24 h asks for a spare (R340). -/
def Dev.clusterFault (d : Dev) (k : Nat) : Dev :=
  let p := d.physOf k
  let day := 86400000000000
  let ts := d.now :: ((d.gpu.faults.get p).filter fun t => decide (d.now < t + day))
  let d1 := { d with gpu := { d.gpu with faults := d.gpu.faults.put p ts } }.raise 261
  if 3 ≤ ts.length ∧ (d1.cluster k).swap.isNone ∧ d1.autoBench 2 then d1.setCluster k { d1.cluster k with swap := some ⟨1, none, false⟩ } else d1

/-- A draw is binned (R364, R367, R370): its arguments, resource table and vertex data are read, its shaders run, and its primitives enter the tile lists. -/
def State.drawBin (s : State) (g : Nat) (c : Cmd) (st : GpuStep) : State × Option Nat :=
  let x := s.dev.gctx g
  match x.pass, x.pipes.get (c.u 34 1) with
  | some p, some pipe =>
    match s.drawArgs g c with
    | (s1, some e, _) => (s1, some e)
    | (s1, none, args) =>
      match s1.readTable g (c.u 56 8) pipe.setSize with
      | (s2, some e, _) => (s2, some e)
      | (s2, none, res) =>
        match s2.drawFetch g c pipe args with
        | (s3, some e) => (s3, some e)
        | (s3, none) =>
          let cont := (c.conts.headD []).drop 2
          let p1 := { p with drawn := p.drawn ++ [⟨pipe.raster, pipe.blend, (List.range 4).map fun i => le cont (24 + 2 * i) 2,
            (List.range 6).map fun i => le cont (32 + 4 * i) 4, res⟩] }
          match s3.resAccesses g (fun k => (p1.drawn.getD k default).res) st.accs with
          | (s4, some e) => (s4, some e)
          | (s4, none) =>
            let none' := args.getD 0 0 == 0 || args.getD 1 0 == 0
            let r := s4.binPrims g x p1 0 0 st.renders (if none' then [] else st.prims)
            (r.1.onDev fun d => (d.updCtx g fun x => { x with pass := some r.2.2.1 }).setF GPU_CTX_USE.ARENA_PEAK_KIB g
              (max (d.f GPU_CTX_USE.ARENA_PEAK_KIB g) ((r.2.2.2 + 1023) / 1024)), r.2.1)
  | _, _ => (s, none)

/-- Tiles of an ending pass are rendered and stored, each once; the Boolean says that none is left (R359, R369). -/
def State.passTiles (s : State) (g : Nat) (st : GpuStep) : State × Option Nat × Bool :=
  match (s.dev.gctx g).pass with
  | none => (s, none, true)
  | some p =>
    let ws := (st.tiles.filter fun w => decide (w.tile < p.tiles) && !p.done.contains w.tile).foldl (fun (l : List TileWork) w =>
      if l.any fun v => v.tile == w.tile then l else l ++ [w]) []
    match s.resAccesses g (fun k => (p.drawn.getD k default).res) st.accs with
    | (s1, some e) => (s1, some e, false)
    | (s1, none) =>
      let r := s1.tilesOf g p false ws
      let p1 := { r.2.2 with done := p.done ++ ws.map TileWork.tile }
      (r.1.onDev (·.updCtx g fun x => { x with pass := some p1 }), r.2.1, p1.done.length == p1.tiles)

/-- Workgroups of a dispatch have ended; the Boolean says that none is left. -/
def State.dispatchGroups (s : State) (g : Nat) (st : GpuStep) : State × Option Nat × Bool :=
  let x := s.dev.gctx g
  let r := s.resAccesses g (fun _ => x.res) st.accs
  (r.1.onDev (·.updCtx g fun x => { x with todo := x.todo - st.groups }), r.2, decide (x.todo ≤ st.groups))

/-- The work of a command goes on up to a boundary: the status of a failure, and whether it has ended. -/
def State.gpuWorks (s : State) (g : Nat) (c : Cmd) (st : GpuStep) : State × Option Nat × Bool :=
  let s0 := s.onDev (·.updCtx g fun x => { x with got := [] })
  if c.opcode = 0x34 then let r := s0.drawBin g c st; (r.1, r.2, true)
  else if c.opcode = 0x35 then s0.passTiles g st
  else s0.dispatchGroups g st

/-- After TILE_OOM the targets are undefined within their extent (R373). -/
def State.oomTargets (s : State) (g : Nat) : State :=
  match (s.dev.gctx g).pass with
  | none => s
  | some p => p.targets.foldl (fun (s : State) t => (List.range p.height).foldl (fun (s : State) y =>
      let r := s.freeList (p.width * cvBytes t.fmt) 256
      (r.1.gpuWrite g (t.base + y * t.stride) (r.2.map (BitVec.ofNat 8))).1) s) s

/-- JTAG halts the contexts of the Normal world, and lets them go on a boundary at a time (R108; log entry 126). -/
def Dev.ctxHalted (d : Dev) (g : Nat) : Bool := d.own.normalHalted && d.own.normalSteps == 0 && !(d.gpuReq g).sec

/-- A step of the halted Normal world is used up. -/
def Dev.ctxStep (d : Dev) (g : Nat) : Dev :=
  if d.own.normalHalted && !(d.gpuReq g).sec then { d with own := { d.own with normalSteps := d.own.normalSteps - 1 } } else d

/-- The work of a context's first command has ended, or goes on behind this boundary of cluster `k`. -/
def State.workStep (s : State) (k g : Nat) (c : Cmd) (failed : Option Nat) (done : Bool) : State :=
  match failed with
  | some st =>
    if st = ST_TILE_OOM then (s.oomTargets g).gpuStop g ST_TILE_OOM fun d => (d.setF GPU_CTX_STAT.TILE_OOM g 1).raise 259
    else (s.onDev (·.raiseIf (st == ST_ENGINE_FAULT) 261)).gpuFault g st
  | none =>
    if done then
      (s.onDev fun d => (d.updCtx g fun x => { x with pass := if c.opcode = 0x35 then none else x.pass }).headEnd g ST_OK 0).gpuRun g
    else s.onDev fun d => ((d.setCluster k (d.slice (d.cluster k))).clusterTake k false).syncCtx g

/-- Work on logical cluster `k` reaches a boundary (R344, R347). -/
def State.boundary (s : State) (k : Nat) (st : GpuStep) : State :=
  match (s.dev.cluster k).run with
  | none => s.onDev (·.clusterTake k false)
  | some g =>
    match (s.dev.gctx g).cmds with
    | [] => s.onDev fun d => (d.freeClusters g).clusterTake k false
    | (_, c) :: _ =>
      if s.dev.ctxHalted g then s
      else
        let s1 := s.onDev fun d => (d.ctxStep g).ctxLatch g
        if st.fault then (s1.onDev (·.clusterFault k)).gpuFault g ST_ENGINE_FAULT
        else let r := s1.gpuWorks g c st; r.1.workStep k g c r.2.1 r.2.2

def execPreemptionBoundary (k : Fin 8) (st : GpuStep) (s : State) : Host.Outcome State Fault Refusal := .next (s.boundary k.val st)

/-- TIMESLICE_US, at least 100 (R383). -/
def Dev.timeslice (d : Dev) : Nat := max 100 (d.f GPU_SCHED_CTRL.TIMESLICE_US 0)

def execTimesliceExpire (k : Fin 8) (s : State) : Host.Outcome State Fault Refusal :=
  .next (s.onDev fun d =>
    let c := d.cluster k.val
    if c.run.isSome ∧ c.since + 1000 * d.timeslice ≤ d.now then d.setCluster k.val { c with expired := true } else d)

/-! The guard (R349 to R351). -/

/-- Clusters on which the guard may request pre-emption for context `g`: lowest level first, then the highest cluster. -/
def Dev.guardOrder (d : Dev) (g : Nat) : List Nat :=
  let cand := (List.range 8).reverse.filter fun k => bit (d.ctxMask g) k && d.levelFits k g && (match (d.cluster k).run with
    | some h => h != g && decide (d.ctxPrio h < 7) && (d.cluster k).req.isNone
    | none => false)
  ((List.range 7).map fun p => cand.filter fun k => match (d.cluster k).run with | some h => d.ctxPrio h == p | none => false).flatten

def execDeadlineGuard (g : Fin 128) (s : State) : Host.Outcome State Fault Refusal :=
  .next (s.onDev fun d =>
    let x := d.gctx g.val
    let held := (d.holdsClusters g.val).length
    if d.ctxReady g.val && x.deadline != 0 && !x.fired && decide (x.deadline ≤ d.now + 1000 * x.guard) then
      let d1 := d.updCtx g.val fun x => { x with fired := true }
      if held < d1.ctxNeed g.val then
        ((d1.guardOrder g.val).take (d1.ctxNeed g.val - held)).foldl (fun (d : Dev) k => d.setCluster k { d.cluster k with req := some g.val }) (d1.raise 256)
      else d1
    else d)

/-- A Secure context: its owner is 0x01, or a VF marked secure (R342). -/
def Dev.secureCtx (d : Dev) (c : Nat) : Bool := c == 1 || (decide (0x10 ≤ c ∧ c < 0x50) && d.secureVf (c - 0x10))

/-- The context's work may not be evicted: NO_EVICT is honoured for a Secure context (R351), and level-7 work is never evicted (R349). -/
def Dev.noEvict (d : Dev) (g : Nat) : Bool := (d.fb GPU_CTX_ASSIGN.NO_EVICT g && d.secureCtx (d.ctxOwner g)) || d.ctxPrio g == 7

/-- At START_DEADLINE the work on the requested clusters is evicted, and the command starts there (R349, R350). -/
def State.deadline (s : State) (g : Nat) : State :=
  let d := s.dev
  let x := d.gctx g
  if d.ctxReady g && x.deadline != 0 && decide (x.deadline ≤ d.now) && (d.holdsClusters g).isEmpty then
    let ks := (List.range 8).filter fun k => (d.cluster k).req == some g && bit (d.ctxMask g) k && d.levelFits k g &&
      (match (d.cluster k).run with | some h => !d.noEvict h | none => true)
    let s1 := ks.foldl (fun (s : State) k => s.onDev fun d => (d.updCtx g fun x => { x with begun := true }).setCluster k (d.cluster k)) s
    let victims := ks.filterMap fun k => (d.cluster k).run
    let s2 := victims.foldl (fun (s : State) h => if s.dev.stopped h then s else s.evict h) s1
    s2.onDev fun d => (ks.foldl (fun (d : Dev) k => if (d.cluster k).run.isNone then d.clusterTake k true else d) d).syncCtx g
  else s

def execStartDeadlineExpire (g : Fin 128) (s : State) : Host.Outcome State Fault Refusal := .next (s.deadline g.val)

/-! The Bench (R340). -/

/-- The request that a swap of logical cluster `k` would serve. -/
def Dev.clusterReq (d : Dev) (k : Nat) : Option SwapReq := (d.cluster k).swap

/-- Logical cluster `k` moves to a spare, or back to the cluster that its latest spare replaced, and that spare to the Bench (R340, R566). -/
def Dev.clusterSwap (d : Dev) (k : Nat) : Dev :=
  match d.clusterReq k with
  | none => d
  | some r =>
    let d1 := d.setCluster k { d.cluster k with swap := none }
    let fin := fun (d : Dev) (p q : Nat) => match r.cmd with
      | some c => (d.benchDone 2 p q r.trigger r.back).endCmd c ST_OK 0
      | none => d.benchDone 2 p q r.trigger r.back
    if r.back then
      match d1.mgt.bench.filter fun u => u.kind == 2 && u.resource == k with
      | u :: us =>
        let old := match us with | v :: _ => v.spare | [] => k
        let cur := d1.physOf k
        let c := d1.cluster k
        let d2 := ((d1.setF GPU_SC_STAT.ROLE cur 1).setF GPU_SC_STAT.BUSY cur 0).setF GPU_SC_STAT.CTX cur 0
        fin (((d2.setF GPU_SC_STAT.ROLE old 0).setF GPU_SC_STAT.LOGICAL old k).setCluster k c) k u.spare
      | [] => match r.cmd with | some c => d1.endCmd c ST_BAD_FIELD errOutside | none => d1
    else match (List.range 10).find? fun p => d1.f GPU_SC_STAT.ROLE p == 1 with
      | some p =>
        let old := d1.physOf k
        let c := d1.cluster k
        let d2 := ((d1.setF GPU_SC_STAT.ROLE old 2).setF GPU_SC_STAT.BUSY old 0).setF GPU_SC_STAT.CTX old 0
        fin (((d2.setF GPU_SC_STAT.ROLE p 0).setF GPU_SC_STAT.LOGICAL p k).setCluster k c) k p
      | none => match r.cmd with
        | some c => d1.endCmd c ST_BENCH_EXHAUSTED errOutside
        | none => d1.benchExhausted 2 k r.trigger

def execClusterSwap (k : Fin 8) (s : State) : Host.Outcome State Fault Refusal := .next (s.onDev (·.clusterSwap k.val))

/-! Assignment (R341, R342, R384). -/

/-- The owner of a context changes (R342). -/
def Dev.ctxNewOwner (d : Dev) (g old : Nat) : Dev :=
  let d1 := (d.updCtx g fun _ => {}).setCache d.gpu.cache
  let d2 := d1.setCache (d1.gpu.cache.filter fun e => e.owner != old || d1.hashUsed old e.hash)
  (((((d2.setF GPU_CTX_STAT.STATE g 0).setF GPU_CTX_STAT.EVICTED g 0).setF GPU_CTX_STAT.GUILTY g 0).setF GPU_CTX_STAT.TILE_OOM g 0).setF
    GPU_CTX_STAT.LATE g 0).setF GPU_CTX_STAT.PRIORITY g 0

/-- What R341 and R384 refuse of a write of GPU_CTX_ASSIGN, with owner `o` in force: class S fields, OWNER among them, take effect before NO_EVICT (R644). -/
def Dev.ctxRefuses (d : Dev) (who : Fn) (old o : Nat) (val : Word) (fd : FieldDesc) : Bool :=
  (fd.lo == 0 && !(d.mayGive who old && d.mayGive who (GPU_CTX_ASSIGN.OWNER.get val))) || (fd.lo == 21 && bit val.toNat 21 && !d.secureCtx o)

def ctxAssignWrite (who : Fn) (g : Nat) (val : Word) (d : Dev) : Dev :=
  let old := d.ctxOwner g
  let d1 := d.writeX who .GPU_CTX_ASSIGN g val (d.ctxRefuses who old old val)
  let o := d1.ctxOwner g
  let d2 := if o = old then d1
    else ((d.setF GPU_CTX_STAT.WERR g 0).writeX who .GPU_CTX_ASSIGN g val (d.ctxRefuses who old o val)).ctxNewOwner g old
  if (d2.holdsClusters g).isEmpty then d2.ctxLatch g else d2

def execCtxAssignWrite (who : Fn) (g : Fin 128) (val : Word) (s : State) : Host.Outcome State Fault Refusal :=
  .next (if assigner who then s.onDev (ctxAssignWrite who g.val val) else s)

end Sys2Proof.Machine
end

