-- ==== Sys2Proof/Machine/Pmc.lean ====
section
/-! DEFINITION. Performance counters as registers (R494 to R504), and the step of LTIME (R41), which counts microseconds. -/

namespace Sys2Proof.Machine

/-- The group counts in windows (R500, R501). -/
def Dev.windowed (d : Dev) (g : Nat) : Bool := d.pmcMode g == 1 || (d.pmcMode g == 2 && d.f PMC_GRP_CTRL.WIN_US g != 0)

/-- What a read of a counter returns: the last window's value in a windowed group. -/
def Dev.pmcRead (d : Dev) (i : Nat) : Word := if d.windowed (i / 8) then d.pmc.shown.get i else d.reg .PMC_CNT i

/-- Who writes a group's registers (R503). -/
def Dev.pmcMayWrite (d : Dev) (who : Fn) (g : Nat) : Bool :=
  let o := d.f PMC_GRP_CTRL.OWNER g
  d.secure who || (if o = 0 then (match who with | .pf _ => true | _ => false) else o == who.code)

/-- A counter of the group is enabled. -/
def Dev.pmcRuns (d : Dev) (g : Nat) : Bool := (List.range 8).any fun k => d.fb PMC_SEL.EN (8 * g + k)

/-- The counters of a group restart at 0. -/
def Dev.pmcZero (d : Dev) (g : Nat) : Dev := (List.range 8).foldl (fun (d : Dev) k => d.setReg .PMC_CNT (8 * g + k) 0) d

def Dev.pmcBegan (d : Dev) (g : Nat) (t : Option Nat) : Dev := { d with pmc := { d.pmc with began := d.pmc.began.put g t } }

/-- The length of a window in ns; WIN_US 0 acts as 1 in mode 1 (DESIGN CHOICE, log entry 128). -/
def Dev.pmcPeriod (d : Dev) (g : Nat) : Nat := 1000 * max 1 (d.f PMC_GRP_CTRL.WIN_US g)

/-- A window of a group ends once WIN_US has passed, and the next begins at its end (R500). -/
def Dev.pmcWindow (d : Dev) (g : Nat) : Dev :=
  match d.pmc.began.get g with
  | none => d
  | some t =>
    if !d.windowed g || decide (d.now < t + d.pmcPeriod g) then d
    else
      let is := (List.range 8).map (8 * g + ·)
      let d1 := { d with pmc := { d.pmc with shown := is.foldl (fun t i => t.put i (d.reg .PMC_CNT i)) d.pmc.shown, frozen := d.pmc.frozen.put g false } }
      let d2 := (d1.pmcZero g).pmcBegan g (some (t + d.pmcPeriod g))
      ((d2.setF PMC_GRP_STAT.WSEQ g (d.f PMC_GRP_STAT.WSEQ g + 1)).setF PMC_GRP_STAT.FROZEN g (b2n (d.pmc.frozen.get g))).raiseIf
        (d.fb PMC_GRP_CTRL.WIN_EV g) 458

def execPmcWindowEnd (g : Fin 8) (s : State) : Host.Outcome State Fault Refusal := .next (s.onDev (·.pmcWindow g.val))

/-- A software write to a counter takes effect; a coincident carry into it is dropped, and a coincident increment is lost but for the
carry it would have produced (R498). -/
def pmcCntWrite (who : Fn) (i : Nat) (val : Word) (inc carry : Bool) (d : Dev) : Dev :=
  let g := i / 8
  if !d.pmcMayWrite who g || d.windowed g then d.werr who .PMC_CNT i
  else
    let d1 := if inc && d.reg .PMC_CNT i == 0xFFFFFFFF && i % 2 == 0 && d.pmcChained (i + 1) then d.pmcWrap i 1 else d
    let d2 := if carry && d.pmcChained i then (d1.setFlag64 .PMC_LC_LO .PMC_LC_HI i).raiseIf (d.fb PMC_GRP_CTRL.OVF_EV g) 457 else d1
    d2.setReg .PMC_CNT i val

def execPmcCounterWrite (who : Fn) (i : Fin 64) (val : Word) (inc carry : Bool) (s : State) : Host.Outcome State Fault Refusal :=
  .next (match who with
    | .vf _ => s
    | _ => s.onDev (pmcCntWrite who i.val val inc carry))

/-- A write of a selector, whose CHAIN is Reserved for an even counter (R497): the first window of a windowed group begins when the first of its counters is enabled, with every counter at 0, and the last
one is given up when none is (DESIGN CHOICE, log entry 128). -/
def pmcSelWrite (who : Fn) (i : Nat) (val : Word) (d : Dev) : Dev :=
  let g := i / 8
  if !d.pmcMayWrite who g then d.werr who .PMC_SEL i
  else
    let d1 := d.write who .PMC_SEL i (if i % 2 = 0 then val &&& ~~~0x800000 else val)
    if !d1.pmcRuns g then d1.pmcBegan g none
    else if !d.pmcRuns g && d.windowed g then
      ({ d1 with pmc := { d1.pmc with frozen := d1.pmc.frozen.put g false } }.pmcZero g).pmcBegan g (some d.now)
    else d1

def pmcCtrlWrite (who : Fn) (g : Nat) (val : Word) (d : Dev) : Dev :=
  if d.pmcMayWrite who g then d.write who .PMC_GRP_CTRL g val else d.werr who .PMC_GRP_CTRL g

/-- A PF gives VF_READ only 0x00 or the code of one of its own VFs that is not marked secure (R502). -/
def pmcCfg2Write (who : Fn) (g : Nat) (val : Word) (d : Dev) : Dev :=
  let v := PMC_GRP_CFG2.VF_READ.get val
  let bad := match who with
    | .pf p => v != 0 && !(inFamily p.val v && decide (0x10 ≤ v) && !d.secureVf (v - 0x10))
    | _ => false
  if d.pmcMayWrite who g then d.writeX who .PMC_GRP_CFG2 g val fun fd => fd.lo == 0 && bad else d.werr who .PMC_GRP_CFG2 g

def pmcStatWrite (who : Fn) (g : Nat) (val : Word) (d : Dev) : Dev :=
  if d.pmcMayWrite who g then d.write who .PMC_GRP_STAT g val else d.werr who .PMC_GRP_STAT g

/-- A W1C write of OVF or LOST_CARRY acts on the bits of the groups that the writer may write. -/
def pmcFlagWrite (who : Fn) (r : Reg) (base : Nat) (val : Word) (d : Dev) : Dev :=
  (List.range 4).foldl (fun (d : Dev) k =>
    let g := base + k
    let m := val &&& BitVec.ofNat 32 (0xFF * 2 ^ (8 * k))
    if m = 0 then d
    else if d.pmcMayWrite who g then d.setReg r 0 (d.reg r 0 &&& ~~~m)
    else d.werr who .PMC_GRP_STAT g) d

/-- What a VF reads in its windows onto the counters (R502). -/
def Dev.pmcVfReads (d : Dev) (v g : Nat) : Bool := v != 0 && d.f PMC_GRP_CFG2.VF_READ g == v

/-! LTIME. -/

/-- One 38.4 MHz reference period: LTIME advances, and microseconds that pass are counted (R41, R494). -/
def execLtimeStep (s : State) : Host.Outcome State Fault Refusal :=
  .next (if !s.dev.time.refRunning then s
  else s.onDev fun d =>
    let d1 := { d with time := d.time.step }
    let us := d1.time.ltime / 1000 - d.time.ltime / 1000
    let d2 := d1.pmcHit 0x01 0 noFunction false us
    (List.range 8).foldl (fun (d : Dev) k =>
      match (d.cluster k).run with
      | some g => d.pmcHit 0x09 k (d.gpuReq g).mid (d.gpuReq g).sec us
      | none => d) d2)

end Sys2Proof.Machine
end

