-- ==== Sys2Proof/Machine/Hap.lean ====
section
/-! DEFINITION. Voice-coil haptics (R415 to R435). -/

namespace Sys2Proof.Machine

def Dev.hapCh (d : Dev) (c : Nat) : HapCh := d.hap.chans.get c

def Dev.updHap (d : Dev) (c : Nat) (g : HapCh → HapCh) : Dev := { d with hap := { d.hap with chans := d.hap.chans.upd c g } }

/-- A field of the HAP_SET in force, by its byte in the descriptor (R427). -/
def HapCh.u (h : HapCh) (b n : Nat) : Nat := le h.cfg (b - 32) n

def Dev.hapState (d : Dev) (c : Nat) : Nat := d.f HAP_CH_STAT.STATE c

def Dev.hapOwner (d : Dev) (c : Nat) : Nat := d.fl HAP_CH_ASSIGN.OWNER c

/-! Limits (R429). -/

/-- Time in DRIVE within the last second, in ns. -/
def Dev.driveTime (d : Dev) (c : Nat) : Nat :=
  let h := d.hapCh c
  let now := d.now
  let all := if d.hapState c = 2 then (h.driveFrom, now) :: h.drives else h.drives
  (all.map fun iv => iv.2 - max iv.1 (now - 1000000000)).foldl (· + ·) 0

/-- The RMS current over the last 100 ms, 25,000 samples, squared and times their number. -/
def HapCh.squareSum (h : HapCh) : Nat := h.squares.foldl (· + ·) 0

/-- The same for a current of I_RMS_MA. -/
def HapCh.squareLimit (h : HapCh) : Nat := 25000 * (h.u 48 2) ^ 2

/-- The limit that holds, as a CAUSE: temperature, RMS current or duty; 0 for none. -/
def Dev.hapLimit (d : Dev) (c : Nat) : Nat :=
  let h := d.hapCh c
  if (h.u 59 1 : Int) < h.temp then 1
  else if h.squareLimit < h.squareSum then 2
  else if h.u 58 1 * 10000000 < d.driveTime c then 3
  else 0

/-! States (R425, R432). -/

/-- The effect is played or queued by some channel. -/
def Dev.effectUsed (d : Dev) (e : Nat) : Bool :=
  (List.range 8).any fun c => (d.hapState c == 2 && d.f HAP_CH_STAT.EFFECT c == e) ||
    (d.fb HAP_CH_STAT.QUEUED c && d.f HAP_CH_STAT.QEFFECT c == e)

/-- A new owner of RAM effect E128 + k takes effect once nothing uses it (R432). -/
def Dev.effApply (d : Dev) (k : Nat) : Dev := if d.effectUsed (128 + k) then d else d.latch .HAP_EFF_ASSIGN k

def Dev.hapSetStat (d : Dev) (c n : Nat) : Dev := d.setF HAP_CH_STAT.STATE c n

/-- A new owner of a channel takes effect at the first instant at which it is IDLE, OFF or FAULT; it is then OFF (R432). -/
def Dev.hapApply (d : Dev) (c : Nat) : Dev :=
  if d.f HAP_CH_ASSIGN.OWNER c = d.hapOwner c ∨ ¬(d.hapState c = 0 ∨ d.hapState c = 1 ∨ d.hapState c = 5) then d
  else (((d.latch .HAP_CH_ASSIGN c).hapSetStat c 0).setF HAP_CH_STAT.CAUSE c 0).evSync d [336 + 2 * c, 337 + 2 * c]

/-- Owner changes of effects that have waited until no channel plays or queues the effect. -/
def Dev.effSettle (d : Dev) : Dev := (List.range 32).foldl Dev.effApply d

/-- Owner changes that have waited for the channels. -/
def Dev.hapSettle (d : Dev) (c : Nat) : Dev := (d.hapApply c).effSettle

/-- Every gate goes low (R415). -/
def HapCh.turnOff (h : HapCh) : HapCh :=
  { h with last := if h.bridge = .off then h.last else h.bridge, rest := if h.bridge = .off then h.rest else 0, bridge := .off, width := 0, dead := 0 }

/-- The dead time that the turn-on of a bridge state still has to wait for, from a bridge that is OFF (R415). -/
def HapCh.deadFor (h : HapCh) (b : Bridge) : Nat := if h.last.crosses b then h.u 34 1 - h.rest else 0

/-- A bridge state is turned on, after the dead time; a width of 0 leaves the bridge OFF (R415, R416). -/
def HapCh.turnOn (h : HapCh) (b : Bridge) (width : Nat) : HapCh :=
  let o := h.turnOff
  if width = 0 ∨ b = .off then o else { o with bridge := b, width := width, dead := o.deadFor b }

/-- The gates `t` clock periods into the present bridge state (R415, R416). -/
def HapCh.gatesAt (h : HapCh) (t : Nat) : Bool × Bool × Bool × Bool :=
  if t < h.dead then Bridge.off.gates
  else if (h.bridge = .push ∨ h.bridge = .pull) ∧ h.dead + h.width ≤ t then Bridge.off.gates
  else h.bridge.gates

/-- A PWM period of 3,072 clock periods has passed: a pulse has ended, and the gates have been low since (R416). -/
def HapCh.pulseEnd (h : HapCh) : HapCh :=
  match h.bridge with
  | .off => { h with rest := min 3072 (h.rest + 3072) }
  | .short => { h with dead := 0 }
  | b => { h with last := b, rest := 3072 - (h.dead + h.width), bridge := .off, width := 0, dead := 0 }

/-- A channel in a new state, BRAKE or another. -/
def HapCh.moved (h : HapCh) (brake : Bool) : HapCh :=
  { h.turnOff with shorting := false, gapping := false, ticks := 0, slow := 0, weak := 0, stops := if brake then h.stops else [] }

/-- The channel moves to state `n`: the bridge is OFF until its next width, DRIVE intervals are kept for the duty limit, and HAP_STOP completes when
the channel leaves BRAKE. -/
def Dev.hapMove (d : Dev) (c n : Nat) : Dev :=
  let old := d.hapState c
  let now := d.now
  let h := d.hapCh c
  let h1 := if old = 2 ∧ n ≠ 2 then { h with drives := ((h.driveFrom, now) :: h.drives).filter fun iv => decide (now - 1000000000 < iv.2) }
    else if old ≠ 2 ∧ n = 2 then { h with driveFrom := now } else h
  let d1 := (d.updHap c fun _ => h1.moved (n == 3)).hapSetStat c n
  let d2 := if n = 3 then d1 else d1.endAll h.stops ST_OK 0
  d2.hapSettle c

/-- The queue is emptied; an effect that nothing uses any more can change hands (R432). -/
def Dev.hapUnqueue (d : Dev) (c : Nat) : Dev := (d.setF HAP_CH_STAT.QUEUED c 0).effSettle

/-- An effect starts. -/
def Dev.hapPlay (d : Dev) (c e : Nat) : Dev :=
  (((d.setF HAP_CH_STAT.EFFECT c e).setF HAP_CH_STAT.CAUSE c 0).hapMove c 2).updHap c fun h => { h with pos := 0, gapAt := 0, cross := none }

def Dev.hapHold (d : Dev) (c cause : Nat) : Dev := ((d.setF HAP_CH_STAT.CAUSE c cause).hapMove c 4).raise (337 + 2 * c)

/-- HAP_STOP, E120, an owner change and function-level reset: the queue is emptied and DRIVE brakes. -/
def Dev.hapBrake (d : Dev) (c : Nat) : Dev :=
  let d1 := d.hapUnqueue c
  if d1.hapState c = 2 then d1.hapMove c 3 else d1

/-- The queued effect starts, or the channel is IDLE. -/
def Dev.hapNext (d : Dev) (c : Nat) : Dev :=
  if d.fb HAP_CH_STAT.QUEUED c then (d.setF HAP_CH_STAT.QUEUED c 0).hapPlay c (d.f HAP_CH_STAT.QEFFECT c)
  else (d.setF HAP_CH_STAT.CAUSE c 0).hapMove c 1

/-- A fault of R428. -/
def Dev.hapFault (d : Dev) (c cause : Nat) : Dev :=
  if d.hapState c = 0 ∨ d.hapState c = 5 then d
  else (((d.hapUnqueue c).setF HAP_CH_STAT.CAUSE c cause).hapMove c 5).raise (336 + 2 * c)

/-! Triggers (R424 to R426). -/

/-- What became of a trigger. -/
inductive HapTake where
  | started | queued | replaced | dropped | denied
deriving DecidableEq, Repr

def Dev.hapQueue (d : Dev) (c e : Nat) : Dev × HapTake :=
  if d.fb HAP_CH_STAT.QUEUED c then (((d.count HAP_CH_CNT.REPL_COUNT c 1).setF HAP_CH_STAT.QEFFECT c e).effSettle, .replaced)
  else ((d.setF HAP_CH_STAT.QUEUED c 1).setF HAP_CH_STAT.QEFFECT c e, .queued)

/-- A trigger meets HOLD: INTERRUPT starts it unless the cause is temperature, where it is queued (the table of R425 has no row for it; DEDUCED, log entry
147). -/
def Dev.hapInHold (d : Dev) (c e : Nat) (intr : Bool) : Dev × HapTake :=
  if intr ∧ d.f HAP_CH_STAT.CAUSE c ≠ 1 then (d.hapPlay c e, .started) else d.hapQueue c e

/-- The channel leaves IDLE or BRAKE for an effect, or for HOLD where a limit holds. -/
def Dev.hapLeave (d : Dev) (c e : Nat) (intr : Bool) : Dev × HapTake :=
  if d.hapLimit c = 0 then (d.hapPlay c e, .started) else (d.hapHold c (d.hapLimit c)).hapInHold c e intr

/-- The effect is in ROM, or in RAM and owned by the channel's owner. -/
def Dev.effectOk (d : Dev) (c e : Nat) : Bool :=
  decide (e < 128) || (decide (e < 160) && d.fl HAP_EFF_ASSIGN.OWNER (e - 128) == d.hapOwner c)

/-- A trigger of effect `e` (R424, R425). E120 brakes the channel and empties its queue (R422), in IDLE and HOLD too, where nothing is driven (DEDUCED, log
entry 147). The channel of a VF that a freeze holds drops its triggers (R517). -/
def Dev.hapTrigger (d : Dev) (c e : Nat) (int : Bool) : Dev × HapTake :=
  let st := d.hapState c
  if !d.effectOk c e then (d, .denied)
  else if st = 0 ∨ st = 5 ∨ d.vfHeld (d.hapOwner c) then (d.count HAP_CH_CNT.DROP_COUNT c 1, .dropped)
  else if e = 120 then (d.hapBrake c, .started)
  else if st = 1 ∨ (st = 3 ∧ int) then d.hapLeave c e int
  else if st = 4 then d.hapInHold c e int
  else if int then (d.hapPlay c e, .started)
  else d.hapQueue c e

/-- A trigger of a pin or of the touch map: one that is denied sets EFF_DENIED (R424). -/
def Dev.hapFire (d : Dev) (c e : Nat) (int : Bool) : Dev :=
  match d.hapTrigger c e int with
  | (d1, .denied) => (d1.setF HAP_CH_STAT.EFF_DENIED c 1).raise (337 + 2 * c)
  | (d1, _) => d1

/-- An edge of HTRIGn (R430, R431); `held` tells that the pin held its new level for 16 clock periods. -/
def execHtrigEdge (n : Fin 8) (rising held : Bool) (s : State) : Host.Outcome State Fault Refusal :=
  .next (s.onDev fun d =>
    let i := n.val
    let edge := d.f HAP_TRIG_CFG.EDGE i
    let c := d.f HAP_TRIG_CFG.CH i
    let int := d.fb HAP_TRIG_CFG.INT i
    if !d.fb HAP_TRIG_CFG.EN i ∨ (d.fb HAP_TRIG_CFG.FILT i ∧ held = false) then d
    else if rising ∧ edge ≠ 1 then d.hapFire c (d.f HAP_TRIG_CFG.EFFECT i) int
    else if ¬rising ∧ edge = 1 then d.hapFire c (d.f HAP_TRIG_CFG.EFFECT i) int
    else if ¬rising ∧ edge = 2 then d.hapFire c (d.f HAP_TRIG_CFG.REL_EFFECT i) int
    else d)

/-! Closed-loop control (R416 to R421). -/

/-- A segment of a RAM effect (R423). -/
structure HapSeg where
  kind : Nat
  invert : Bool
  l0 : Nat
  l1 : Nat
  freq : Nat
  dur : Nat
deriving DecidableEq, Repr, Inhabited

def hapSegs (bs : List Byte) : List HapSeg :=
  (List.range (le bs 0 1)).map fun i =>
    let o := 8 + 8 * i
    ⟨le bs o 1, bit (le bs (o + 1) 1) 0, le bs (o + 2) 1, le bs (o + 3) 1, le bs (o + 4) 2, le bs (o + 6) 2⟩

/-- The length of a segment in us, with the resonance at `f0` Hz. -/
def HapSeg.us (g : HapSeg) (f0 : Nat) : Nat := if g.kind = 2 then 500000 / max 1 f0 else if g.kind = 4 then 0 else 100 * g.dur

/-- The segment that plays `t` us into a RAM effect, with its time into it: segments in order, each loop taken as often as it says. The second result is
what remains of `t` at the effect's end. -/
def hapAt (gs : List HapSeg) (f0 : Nat) : Nat → Nat → Nat → Nat → Option (HapSeg × Nat)
  | 0, _, _, _ => none
  | fuel + 1, i, loops, t =>
    match gs[i]? with
    | none => none
    | some g =>
      if g.kind = 4 then
        (if loops < g.dur then hapAt gs f0 fuel g.freq (loops + 1) t else hapAt gs f0 fuel (i + 1) 0 t)
      else if t < g.us f0 then some (g, t)
      else hapAt gs f0 fuel (i + 1) loops (t - g.us f0)

/-- Steps that suffice for every RAM effect: 63 segments, each played at most 256 times, and as many loops. -/
def hapFuel : Nat := 20000

/-- The level of a segment `t` us into it: a linear ramp. -/
def HapSeg.level (g : HapSeg) (f0 t : Nat) : Nat := if g.kind = 3 then 0 else (g.l0 * (g.us f0 - t) + g.l1 * t) / g.us f0

/-- The frequency at which a segment is driven: that of a sine, none in a pause, else the tracked resonance (R419, R423). -/
def HapSeg.drive (g : HapSeg) (f0 : Nat) : Nat := if g.kind = 1 then g.freq else if g.kind = 3 then 0 else f0

/-- What a channel plays at one instant: level, frequency in Hz, whether it starts negative, whether it pushes one way only, and the time in us that its
wave has run. -/
structure HapWave where
  level : Nat
  freq : Nat
  inverted : Bool := false
  oneWay : Bool := false
  t : Nat := 0
deriving DecidableEq, Repr, Inhabited

/-- The target of R418 in 0.01 g: level × ACC_MAX / 255 applied to the wave, a sine at its frequency; the second half of each cycle has the other sign (R423;
DEDUCED, log entry 166). -/
def HapWave.target (w : HapWave) (accMax : Nat) : Int :=
  let ph := w.freq * w.t % 1000000
  let a : Int := (w.level * accMax * (Config.halfSine (ph % 500000) % 32768) / (255 * 32767) : Nat)
  if (decide (500000 ≤ ph) && !w.oneWay) != w.inverted then -a else a

/-- The peak level of a ROM effect where R422 states one. -/
def romPeak (e : Nat) : Option Nat :=
  if e < 120 then some ((8 - e % 8) * 32 - 1) else if e = 120 then some 0 else if e = 121 then some 128 else if e = 123 then some 160 else none

/-- The drive duration of a ROM effect in us (R422). -/
def romUs (e : Nat) : Nat :=
  1000 * ([8, 40, 4, 20, 12, 6, 10, 8, 100, 500, 300, 250, 250, 650, 2000].getD (e / 8)
    ([0, 400, 700, 1000, 120, 180, 15, 25].getD (e % 8) 0))

/-- A train of pulses of `on` us, `off` us apart. -/
def pulsed (peak on off t : Nat) : Nat := if t % (on + off) < on then peak else 0

/-- The greatest level `t` us into a ROM effect. "Apart" is read from the end of one pulse to the start of the next: the durations of R422 are the sums of such
pulses and pauses, 2 × 5 + 30 ms, 3 × 60 + 2 × 60 ms, 3 × 150 + 2 × 100 ms and 2 × 225 + 250 ms (DEDUCED, log entry 147). -/
def romTop (e t : Nat) : Nat :=
  let p := (romPeak e).getD 255
  if 8 ≤ e ∧ e < 16 then pulsed p 5000 30000 t
  else if 80 ≤ e ∧ e < 88 then pulsed p 60000 60000 t
  else if 88 ≤ e ∧ e < 96 then p * min t 250000 / 250000
  else if 96 ≤ e ∧ e < 104 then p * (250000 - t) / 250000
  else if 104 ≤ e ∧ e < 112 then pulsed p 150000 100000 t
  else if 112 ≤ e ∧ e < 120 then pulsed p (Config.alarmOn % 250000) (250000 - Config.alarmOn % 250000) t
  else if e = 122 then pulsed p 225000 250000 t
  else p

/-- The ROM effects whose level is the greatest at every instant: the steady, pulsed and ramped buzzes and RES_SWEEP (R422). -/
def romSteady (e : Nat) : Bool := decide (64 ≤ e ∧ e < 120) || e == 121

/-- The level `t` us into a ROM effect where R422 states it: that of a buzz or of a pause. Of a click, thud, bump and the like it states a peak alone. -/
def romLevel (e t : Nat) : Option Nat := if romSteady e ∨ romTop e t = 0 then some (romTop e t) else none

/-- The ROM effects of one push: TICK, BUMP and EDGE (R422). -/
def romOneWay (e : Nat) : Bool := decide (16 ≤ e ∧ e < 24) || decide (32 ≤ e ∧ e < 40) || e == 126

/-- PRESS clicks downward and RELEASE upward (R422). -/
def romInverted (e : Nat) : Bool :=
  (decide (48 ≤ e ∧ e < 56) && Config.pressNegative) || (decide (56 ≤ e ∧ e < 64) && !Config.pressNegative)

/-- The frequency `t` us into a ROM effect, with the resonance at `f0` and F0_HZ at `nom`: 0.6 of the resonance for THUD and the thuds of HEARTBEAT, 0.4 for
RUMBLE, the sweep of RES_SWEEP, taken as linear, and the resonance otherwise (R422; DEDUCED, log entry 147). -/
def romFreq (e f0 nom t : Nat) : Nat :=
  if 24 ≤ e ∧ e < 32 ∨ e = 122 then 6 * f0 / 10 else if e = 123 then 4 * f0 / 10
  else if e = 121 then nom / 2 + 3 * nom * min t 400000 / 800000 else f0

/-- The resonance that drives resonant segments: F0_MEAS within 0.5 to 2 × F0_HZ (R419). -/
def Dev.hapF0 (d : Dev) (c : Nat) : Nat :=
  let nom := (d.hapCh c).u 36 2
  clampN (nom / 2) (2 * nom) (d.f HAP_CH_MEAS.F0_MEAS c)

/-- us since the effect started (R416). -/
def HapCh.us (h : HapCh) : Nat := 16 * h.pos

/-- The segments of RAM effect `e`. -/
def Dev.ramSegs (d : Dev) (e : Nat) : List HapSeg := hapSegs (d.hap.effects.get (e - 128))

/-- What the channel plays now; a level that R422 does not state is a free value up to the greatest that it states. -/
def Dev.hapWave (d : Dev) (c : Nat) : HapWave × Dev :=
  let h := d.hapCh c
  let e := d.f HAP_CH_STAT.EFFECT c
  let f0 := d.hapF0 c
  if e < 128 then
    let w (lv : Nat) : HapWave := ⟨lv, romFreq e f0 (h.u 36 2) h.us, romInverted e, romOneWay e, h.us⟩
    match romLevel e h.us with
    | some lv => (w lv, d)
    | none => (w (d.free1.1 % (romTop e h.us + 1)), d.free1.2)
  else match hapAt (d.ramSegs e) f0 hapFuel 0 0 h.us with
    | some (g, t) => (⟨g.level f0 t, g.drive f0, g.invert, false, t⟩, d)
    | none => (⟨0, 0, false, false, 0⟩, d)

/-- The effect of the channel has been driven to its end: its duration has passed. -/
def Dev.effectOver (d : Dev) (c : Nat) : Bool :=
  let e := d.f HAP_CH_STAT.EFFECT c
  if e < 128 then decide (romUs e ≤ (d.hapCh c).us) else (hapAt (d.ramSegs e) (d.hapF0 c) hapFuel 0 0 (d.hapCh c).us).isNone

/-- The target of the next PWM period (R418). -/
def Dev.hapTarget (d : Dev) (c : Nat) : Dev :=
  let w := d.hapWave c
  w.2.updHap c fun h => { h with target := w.1.target (h.u 44 2), freq := w.1.freq, inverted := w.1.inverted, pos := h.pos + 1 }

/-- The greatest width of a pulse: with its dead time inside the period, and the current that VBRIDGE_MV adds over L_UH within I_PEAK_MA (R416, R418; DEDUCED,
log entry 147). -/
def HapCh.widest (h : HapCh) (b : Bridge) : Nat :=
  min (3072 - h.deadFor b) ((h.u 46 2 - h.ma.natAbs) * 192 * h.u 40 2 / max 1 (h.u 54 2))

/-- The next period drives one way; the width that the control law chooses is a free value up to the widest (R418). -/
def Dev.hapDrive (d : Dev) (c : Nat) (b : Bridge) : Dev :=
  let w := d.free1
  w.2.updHap c fun h => h.turnOn b (w.1 % (h.turnOff.widest b + 1))

/-- A push for a positive difference and a pull for a negative one. -/
def Bridge.toward (x : Int) : Bridge := if 0 < x then .push else if x < 0 then .pull else .off

/-- |I| below 5 % of VBRIDGE_MV / RDC_MOHM, with the current in mA (R428). -/
def HapCh.weakAt (h : HapCh) (ma : Int) : Bool := decide (ma.natAbs * h.u 38 2 < 50 * h.u 54 2)

/-- A sample in mV and mA: a code of 16 bits with full scale at VS_FS_MV and IS_FS_MA (R417). -/
def HapCh.scaled (h : HapCh) (x : HapSample) : Int × Int :=
  ((x.volts.toInt * (h.u 52 2 : Nat)).tdiv 32768, (x.amps.toInt * (h.u 50 2 : Nat)).tdiv 32768)

/-- The velocity estimate of R418 in um/s: (V - I × R - L × dI/dt) / KE, with V in mV, I in mA and dI/dt in A/s. -/
def HapCh.velocity (h : HapCh) (mv ma slope : Int) : Int :=
  1000 * (1000 * mv - ma * h.res - slope * h.u 40 2) / (max 1 (h.u 42 2) : Nat)

/-- A sample, 4 us after the one before (R417, R418, R425, R428). -/
def HapCh.sample (h : HapCh) (x : Int × Int) : HapCh :=
  let slope := 250 * (x.2 - h.ma)
  let v := h.velocity x.1 x.2 slope
  { h with mv := x.1, ma := x.2, slope := slope, vel := v
           slow := if v.natAbs < h.u 56 2 then h.slow + 1 else 0, weak := if h.weakAt x.2 then h.weak + 1 else 0 }

/-- The channel takes its acceleration from the accelerometer (R418, R421). -/
def HapCh.external (h : HapCh) : Bool := bit (h.u 33 1) 1 && !h.fallback

/-- A PWM period of 16 us counts, with its samples: the RMS window, the times of R421 and R425, and the acceleration, which without the accelerometer is the rate
of change of the velocity, scaled (R418). -/
def HapCh.period (h : HapCh) (c : Nat) (xs : List (Int × Int)) : HapCh :=
  let h1 := xs.foldl HapCh.sample h
  { h1.pulseEnd with
    squares := ((xs.foldl (fun n x => n + x.2.natAbs ^ 2) 0) :: h.squares).take 6250, ticks := h.ticks + 1, accUs := h.accUs + 16
    acc := if h.external then h.acc else Config.panelAcc c (h1.vel - h.vel) }

/-- The current exceeds 1.5 × I_PEAK_MA (R428). -/
def HapCh.overcurrent (h : HapCh) (ma : Int) : Bool := decide (3 * h.u 46 2 < 2 * ma.natAbs)

/-- |I| reaches I_PEAK_MA in a pulse (R429). -/
def HapCh.cutBy (h : HapCh) (ma : Int) : Bool := (h.bridge == .push || h.bridge == .pull) && decide (h.u 46 2 ≤ ma.natAbs)

/-- GAP_EVERY drive cycles have passed since the effect's start or its last gap. -/
def HapCh.gapDue (h : HapCh) : Bool := decide (1000000 * h.u 61 1 ≤ 16 * (h.pos - h.gapAt) * h.freq)

/-- A tracking gap is due (R419). -/
def HapCh.gapNow (h : HapCh) : Bool := bit (h.u 33 1) 0 && h.gapDue

/-- The next period's width in DRIVE, toward the target (R418); a pause keeps the bridge OFF (R423). -/
def Dev.hapControl (d : Dev) (k : Nat) : Dev :=
  let d1 := d.hapTarget k
  if (d1.hapCh k).freq = 0 then d1.updHap k (·.turnOff)
  else d1.hapDrive k (Bridge.toward ((d1.hapCh k).target - (d1.hapCh k).acc))

/-- The next period's bridge (R416): DRIVE drives toward the target, or begins a gap that is due with the bridge OFF (R419); BRAKE opposes v (R425). -/
def Dev.hapNextWidth (d : Dev) (k : Nat) : Dev :=
  let h := d.hapCh k
  if d.hapState k = 2 then
    (if h.gapping then d
    else if h.gapNow then d.updHap k fun h => { h.turnOff with gapping := true, pos := h.pos + 1 }
    else d.hapControl k)
  else if d.hapState k = 3 ∧ h.shorting = false then d.hapDrive k (Bridge.toward (-h.vel))
  else d

/-- Samples that show an overcurrent take the channel to FAULT; one that reaches I_PEAK_MA in a pulse is counted; else the next width is set (R418, R428, R429). -/
def Dev.hapSampled (d : Dev) (k : Nat) (before : HapCh) (xs : List (Int × Int)) (next : Dev → Dev) : Dev :=
  if xs.any fun x => before.overcurrent x.2 then d.hapFault k 4
  else next (if xs.any fun x => before.cutBy x.2 then d.count HAP_CH_CNT.ILIM_COUNT k 1 else d)

/-- A PWM period of 16 us with its four samples (R416 to R418). The channel's durations are counted in these periods (log entry 147); a channel in OFF drives
nothing, and its past currents leave the RMS window. -/
def execHapticPwmPeriod (c : Fin 8) (samples : List HapSample) (s : State) : Host.Outcome State Fault Refusal :=
  .next (s.onDev fun d =>
    let k := c.val
    let h := d.hapCh k
    if d.hapState k = 0 then d.updHap k fun h => { h with squares := (0 :: h.squares).take 6250 }
    else
      let xs := samples.map h.scaled
      (d.updHap k (·.period k xs)).hapSampled k h xs (·.hapNextWidth k))

/-! The tracking gap (R419). -/

/-- The velocities of a gap, each with its time in us: the samples from the first with |I| below 2 % of I_PEAK_MA on, where that comes within 16 us. With the
bridge OFF the voltage is the induced one. -/
def HapCh.gapVels (h : HapCh) (t0 : Nat) (xs : List (Int × Int)) : List (Nat × Int) :=
  match xs.findIdx? fun x => decide (50 * x.2.natAbs < h.u 46 2) with
  | none => []
  | some i => if 4 ≤ i then [] else
    (xs.zipIdx.drop i).map fun x => (t0 + 4 * (x.2 + 1), 1000000 * x.1.1 / (max 1 (h.u 42 2) : Nat))

/-- The first zero crossing among velocities. -/
def zeroCross : List (Nat × Int) → Option Nat
  | a :: b :: r => if (a.2 < 0 ∧ 0 ≤ b.2) ∨ (0 < a.2 ∧ b.2 ≤ 0) then some b.1 else zeroCross (b :: r)
  | _ => none

/-- The resonance in Hz from the time between two zero crossings: the half-cycles in it are counted with the resonance known so far (DEDUCED, log entry 166). -/
def crossHz (f0 us : Nat) : Nat :=
  let n := max 1 ((2 * f0 * us + 500000) / 1000000)
  min 1023 ((1000000 * n + us) / (2 * us))

/-- The measurements of a gap: velocity, resonance, resistance and the temperature that follows from it at 0.393 % per kelvin (R419, R429). -/
def Dev.hapRes (d : Dev) (k mo : Nat) : Dev :=
  let r0 : Int := (max 1 ((d.hapCh k).u 38 2) : Nat)
  let temp : Int := 25 + ((mo : Int) - r0) * 100000 / (393 * r0)
  ((d.updHap k fun h => { h with res := mo, temp := temp }).setF HAP_CH_MEAS.RDC_MEAS k (mo / 2)).setF HAP_CH_MEAS.TCOIL k (clampI 0 255 (temp + 50)).toNat

def Dev.hapMeasure (d : Dev) (k : Nat) (before : HapCh) (vs : List (Nat × Int)) : Dev :=
  match vs.getLast? with
  | none => d
  | some v =>
    let d1 := (d.updHap k fun h => { h with vel := v.2 }).hapRes k
      (Config.coilResistance before.res before.mv before.ma before.slope (vs.map (·.2)) % 32768)
    match zeroCross vs with
    | none => d1
    | some t =>
      let d2 := d1.updHap k fun h => { h with cross := some t }
      match before.cross with
      | some t0 => if t0 < t then d2.setF HAP_CH_MEAS.F0_MEAS k (crossHz (d.f HAP_CH_MEAS.F0_MEAS k) (t - t0)) else d2
      | none => d2

/-- The 48 us gap of the tracking that the last PWM period began, with its twelve samples (R419): three PWM periods with the bridge OFF, the measurements, and the
next period's width. -/
def execTrackingGap (c : Fin 8) (samples : List HapSample) (s : State) : Host.Outcome State Fault Refusal :=
  .next (s.onDev fun d =>
    let k := c.val
    let h := d.hapCh k
    if ¬(d.hapState k = 2 ∧ h.gapping) then d
    else
      let xs := samples.map h.scaled
      let d1 := d.updHap k fun h =>
        let h3 := ((h.turnOff.period k (xs.take 4)).period k ((xs.drop 4).take 4)).period k (xs.drop 8)
        { h3 with gapping := false, pos := h.pos + 2, gapAt := h.pos + 2 }
      d1.hapSampled k h.turnOff xs fun d => (d.hapMeasure k h (h.gapVels (h.us - 16) xs)).hapControl k)

/-- A read of the accelerometer every 125 us (R421): its two bytes, the low one first; none is a read that failed. -/
def execAccRead (c : Fin 8) (value : Option (BitVec 8 × BitVec 8)) (s : State) : Host.Outcome State Fault Refusal :=
  .next (s.onDev fun d =>
    let k := c.val
    let h := d.hapCh k
    if d.hapState k = 0 ∨ h.external = false ∨ h.accUs < 125 then d
    else
      let d1 := (d.updHap k fun h => { h with accUs := h.accUs - 125 }).emit (.serial 0 (h.u 35 1) (toLe (h.u 62 1) 1) 2)
      match value with
      | some (low, high) =>
        let g : Int := (high ++ low).toInt * (200 * 2 ^ (h.u 63 1) : Nat) / 32768
        d1.updHap k fun h => { h with acc := if bit (h.u 33 1) 3 then -g else g, accFails := 0 }
      | none =>
        let d2 := d1.updHap k fun h => { h with accFails := h.accFails + 1 }
        if h.accFails + 1 < 3 then d2
        else ((d2.updHap k fun h => { h with fallback := true }).setF HAP_CH_STAT.ACC_FALLBACK k 1).raise (337 + 2 * k))

/-! Ends of states. -/

/-- Braking ends: the bridge is SHORT for 2 ms (R425). -/
def Dev.hapShort (d : Dev) (c : Nat) : Dev := d.updHap c fun h => { h.turnOff with shorting := true, ticks := 0, bridge := .short, dead := h.turnOff.deadFor .short }

/-- The effect's NO_BRAKE (R423); ROM effects brake. -/
def Dev.noBrake (d : Dev) (e : Nat) : Bool := decide (128 ≤ e) && bit (le (d.hap.effects.get (e - 128)) 1 1) 0

/-- The end of braking: HOLD where a limit holds, the queued effect, or IDLE (R425). -/
def Dev.hapAfterBrake (d : Dev) (k : Nat) : Dev := if d.hapLimit k = 0 then d.hapNext k else d.hapHold k (d.hapLimit k)

/-- The last segment ends (R422, R425). With NO_BRAKE the next state is the one that BRAKE's end would take, and no braking and no SHORT come before it. -/
def execEffectEnd (c : Fin 8) (s : State) : Host.Outcome State Fault Refusal :=
  .next (s.onDev fun d =>
    if d.hapState c.val ≠ 2 ∨ d.effectOver c.val = false then d
    else if d.noBrake (d.f HAP_CH_STAT.EFFECT c.val) then d.hapAfterBrake c.val
    else d.hapMove c.val 3)

/-- |v| has been below STOP_VEL for 1 ms, or BRAKE_MAX_MS has elapsed (R425). -/
def HapCh.brakeOver (h : HapCh) : Bool := !h.shorting && (decide (1000 ≤ 4 * h.slow) || decide (1000 * h.u 60 1 ≤ 16 * h.ticks))

def execBrakeEnd (c : Fin 8) (s : State) : Host.Outcome State Fault Refusal :=
  .next (s.onDev fun d => if d.hapState c.val = 3 ∧ (d.hapCh c.val).brakeOver = true then d.hapShort c.val else d)

def execShortEnd (c : Fin 8) (s : State) : Host.Outcome State Fault Refusal :=
  .next (s.onDev fun d =>
    if d.hapState c.val = 3 ∧ (d.hapCh c.val).shorting ∧ 2000 ≤ 16 * (d.hapCh c.val).ticks then d.hapAfterBrake c.val else d)

/-- The limits are seen again in HOLD (R429), with the coil's resistance as the channel now takes it: the temperature follows from it, and a temperature limit clears
10 degrees below TCOIL_MAX. -/
def execHoldClear (c : Fin 8) (milliohm : Nat) (s : State) : Host.Outcome State Fault Refusal :=
  .next (s.onDev fun d =>
    let k := c.val
    if d.hapState k ≠ 4 then d
    else
      let d1 := d.hapRes k milliohm
      let h := d1.hapCh k
      if d.f HAP_CH_STAT.CAUSE k = 1 ∧ (h.u 59 1 : Int) - 10 < h.temp then d1
      else if h.temp ≤ (h.u 59 1 : Int) ∧ h.squareSum < h.squareLimit ∧ d1.driveTime k < h.u 58 1 * 10000000 then d1.hapNext k
      else d1)

/-- The comparator sees the current on the input itself, beyond the full scale of the samples too (R428, R629). -/
def execOvercurrent (c : Fin 8) (ma : Int) (s : State) : Host.Outcome State Fault Refusal :=
  .next (s.onDev fun d => if (d.hapCh c.val).overcurrent ma then d.hapFault c.val 4 else d)

/-- |I| has stayed too small for 1 ms of DRIVE (R428). -/
def execOpenCoil (c : Fin 8) (s : State) : Host.Outcome State Fault Refusal :=
  .next (s.onDev fun d => if d.hapState c.val = 2 ∧ 1000 ≤ 4 * (d.hapCh c.val).weak then d.hapFault c.val 5 else d)

/-- |I| reaches I_PEAK_MA: the pulse in progress ends (R429). -/
def execPeakCurrentCut (c : Fin 8) (ma : Int) (s : State) : Host.Outcome State Fault Refusal :=
  .next (s.onDev fun d =>
    if (d.hapCh c.val).cutBy ma then (d.updHap c.val (·.turnOff)).count HAP_CH_CNT.ILIM_COUNT c.val 1 else d)

/-! Commands (R427). -/

/-- The checks that every haptic command meets: the owner, EXT, continuations and byte 32. -/
def Dev.hapHead (d : Dev) (f : Fn) (c : Cmd) : List (Bool × Nat × Nat) :=
  [(d.hapOwner (c.u 32 1 % 8) != f.code, ST_NOT_OWNER, errByte 32), (c.ext != 0, ST_BAD_FIELD, errOutside),
   (!c.conts.isEmpty, ST_BAD_FIELD, errAt 32), (c.u 32 1 / 8 != 0, ST_BAD_FIELD, errByte 32)]

/-- The fields of HAP_SET in the order of their bytes: byte, size, least and greatest value; those of I_RMS_MA and IS_FS_MA follow from I_PEAK_MA. -/
def hapRanges (ipeak : Nat) : List (Nat × Nat × Nat × Nat) :=
  [(33, 1, 0, 15), (34, 1, 1, 63), (35, 1, 0, 127), (36, 2, 50, 500), (38, 2, 500, 20000), (40, 2, 1, 10000), (42, 2, 1, 65535),
   (44, 2, 10, 2000), (46, 2, 100, 5000), (48, 2, 50, ipeak), (50, 2, (3 * ipeak + 1) / 2, 10000)] ++
  [(52, 2, 1000, 60000), (54, 2, 3000, 48000), (56, 2, 1, 65535), (58, 1, 5, 100), (59, 1, 60, 150), (60, 1, 1, 100), (61, 1, 1, 15),
   (63, 1, 0, 3)]

def hapSetErr (c : Cmd) : List (Bool × Nat × Nat) :=
  (hapRanges (c.u 46 2)).map fun r => (decide (c.u r.1 r.2.1 < r.2.2.1 ∨ r.2.2.2 < c.u r.1 r.2.1), ST_BAD_FIELD, errByte r.1)

/-- A HAP_SET that is accepted: the configuration is in force and the channel IDLE (R425, R427). -/
def Dev.hapSet (d : Dev) (c : Cmd) : Dev :=
  let k := c.u 32 1 % 8
  let d1 := d.updHap k fun h => { h with cfg := c.lead.drop 32, res := c.u 38 2, temp := 25, acc := 0, accFails := 0, fallback := false, vel := 0, accUs := 0 }
  ((((d1.setF HAP_CH_STAT.CAUSE k 0).setF HAP_CH_MEAS.F0_MEAS k (c.u 36 2)).setF HAP_CH_MEAS.RDC_MEAS k (c.u 38 2 / 2)).setF HAP_CH_MEAS.TCOIL k
    75).hapMove k 1

def Dev.hapBusy (d : Dev) (k : Nat) : Bool := d.hapState k == 2 || d.hapState k == 3 || d.hapState k == 4

def runHapSet (f : Fn) : Run := fun ref c s => s.onDev fun d =>
  match firstError (d.hapHead f c ++ hapSetErr c ++ [(d.hapBusy (c.u 32 1 % 8), ST_BUSY, errByte 32)]) with
  | some (st, res) => d.endCmd ref st res
  | none => (d.hapSet c).endCmd ref ST_OK 0

def execHapSet (f : Fn) (q : Fin 8) (s : State) : Host.Outcome State Fault Refusal := .next (s.startNext f q (· == 0x88) (runHapSet f))

/-- The completion of HAP_PLAY (R424, R426, R427). -/
def HapTake.done : HapTake → Nat × Nat
  | .started => (ST_OK, 0)
  | .queued => (ST_OK, 1)
  | .replaced => (ST_REPLACED, 2)
  | .dropped => (ST_BUSY, errByte 32)
  | .denied => (ST_NOT_OWNER, errByte 34)

def runHapPlay (f : Fn) : Run := fun ref c s => s.onDev fun d =>
  match firstError (d.hapHead f c ++ [(c.u 33 1 / 2 != 0, ST_BAD_FIELD, errByte 33), (decide (160 ≤ c.u 34 1), ST_BAD_FIELD, errByte 34),
      (!c.zero 35 63, ST_BAD_FIELD, errByte 35)]) with
  | some (st, res) => d.endCmd ref st res
  | none =>
    let r := d.hapTrigger (c.u 32 1 % 8) (c.u 34 1) (bit (c.u 33 1) 0)
    r.1.endCmd ref r.2.done.1 r.2.done.2

def execHapPlay (f : Fn) (q : Fin 8) (s : State) : Host.Outcome State Fault Refusal := .next (s.startNext f q (· == 0x89) (runHapPlay f))

def runHapStop (f : Fn) : Run := fun ref c s => s.onDev fun d =>
  match firstError (d.hapHead f c ++ [(!c.zero 33 63, ST_BAD_FIELD, errByte 33)]) with
  | some (st, res) => d.endCmd ref st res
  | none =>
    let k := c.u 32 1 % 8
    let d1 := d.hapBrake k
    if d1.hapState k = 3 then d1.updHap k fun h => { h with stops := h.stops ++ [ref] } else d1.endCmd ref ST_OK 0

def execHapStop (f : Fn) (q : Fin 8) (s : State) : Host.Outcome State Fault Refusal := .next (s.startNext f q (· == 0x8A) (runHapStop f))

/-- A segment is well formed (R423). -/
def HapSeg.ok (g : HapSeg) (i flags : Nat) : Bool :=
  flags / 2 == 0 && (match g.kind with
  | 0 | 3 => g.freq == 0 && g.dur != 0
  | 1 => decide (20 ≤ g.freq ∧ g.freq ≤ 1000) && g.dur != 0
  | 2 => g.freq == 0 && g.dur == 0
  | 4 => decide (g.freq < i) && decide (1 ≤ g.dur ∧ g.dur ≤ 255)
  | _ => false)

/-- Loop `i` lies inside the range of another loop. -/
def hapNested (gs : List HapSeg) (i : Nat) : Bool :=
  (gs.getD i default).kind == 4 && gs.zipIdx.any fun g => g.1.kind == 4 && decide (g.1.freq ≤ i ∧ i < g.2)

/-- The first malformed segment of an effect: its index, 0xFFFF for the header. -/
def hapBad (bs : List Byte) : Option Nat :=
  let gs := hapSegs bs
  if le bs 0 1 = 0 ∨ 63 < le bs 0 1 ∨ 1 < le bs 1 1 ∨ le bs 2 6 ≠ 0 then some 0xFFFF
  else (gs.zipIdx.find? fun g => !g.1.ok g.2 (le bs (8 + 8 * g.2 + 1) 1) || hapNested gs g.2).map (·.2)

/-- HAP_EFF_LOAD (R427). -/
def State.hapLoad (s : State) (f : Fn) (c : Cmd) : State × Nat × Nat :=
  let d := s.dev
  let k := c.u 34 1 - 128
  let a := c.u 40 8
  match firstError [(c.ext != 0, ST_BAD_FIELD, errOutside), (!c.conts.isEmpty, ST_BAD_FIELD, errAt 32), (!c.zero 32 33, ST_BAD_FIELD, errByte 32),
      (decide (c.u 34 1 < 128 ∨ 160 ≤ c.u 34 1), ST_BAD_FIELD, errByte 34), (!c.zero 35 39, ST_BAD_FIELD, errByte 35),
      (!c.zero 48 63, ST_BAD_FIELD, errByte 48),
      (d.fl HAP_EFF_ASSIGN.OWNER k != f.code, ST_NOT_OWNER, errByte 34), (a % 64 != 0 || !d.inDevice a (a + 7), ST_BAD_GEOMETRY, errByte 40)] with
  | some (st, res) => (s, st, res)
  | none =>
    match s.readMem ⟨f.code, c.secure⟩ 13 a 8 with
    | (s1, .ok h) =>
      let n := 8 + 8 * le h 0 1
      if le h 0 1 = 0 ∨ 63 < le h 0 1 then (s1, ST_BAD_FIELD, errOutside)
      else if !d.inDevice a (a + n - 1) then (s1, ST_BAD_GEOMETRY, errByte 40)
      else match s1.readMem ⟨f.code, c.secure⟩ 13 a n with
        | (s2, .ok bs) =>
          match hapBad bs with
          | some i => (s2, ST_BAD_FIELD, errAt 0xFFFF i)
          | none =>
            if s2.dev.effectUsed (128 + k) then (s2, ST_BUSY, errByte 34)
            else (s2.onDev fun d => { d with hap := { d.hap with effects := d.hap.effects.put k bs } }, ST_OK, 0)
        | (s2, e) => (s2, e.status, 0)
    | (s1, e) => (s1, e.status, 0)

def runHapLoad (f : Fn) : Run := fun ref c s =>
  let r := s.hapLoad f c
  r.1.onDev (·.endCmd ref r.2.1 r.2.2)

def execHapEffLoad (f : Fn) (q : Fin 8) (s : State) : Host.Outcome State Fault Refusal := .next (s.startNext f q (· == 0x8B) (runHapLoad f))

/-! Ownership and pin triggers (R430, R432). -/

def hapChAssignWrite (who : Fn) (c : Nat) (val : Word) (d0 : Dev) : Dev :=
  let d := d0.demandDomain .HAP_CH_ASSIGN c
  let old := d.f HAP_CH_ASSIGN.OWNER c
  let new := HAP_CH_ASSIGN.OWNER.get val
  if old = new then d
  else if d.mayGive who old && d.mayGive who new then ((d.setF HAP_CH_ASSIGN.OWNER c new).hapBrake c).hapApply c
  else d.werr who .HAP_CH_ASSIGN c

def execHapChAssignWrite (who : Fn) (c : Fin 8) (val : Word) (s : State) : Host.Outcome State Fault Refusal :=
  .next (if assigner who then s.onDev (hapChAssignWrite who c.val val) else s)

/-- No register holds a WERR for the effects; a write that is ignored changes nothing. -/
def hapEffAssignWrite (who : Fn) (k : Nat) (val : Word) (d0 : Dev) : Dev :=
  let d := d0.demandDomain .HAP_EFF_ASSIGN k
  let old := d.f HAP_EFF_ASSIGN.OWNER k
  let new := HAP_EFF_ASSIGN.OWNER.get val
  if d.mayGive who old && d.mayGive who new then (d.setF HAP_EFF_ASSIGN.OWNER k new).effApply k else d

def execHapEffAssignWrite (who : Fn) (k : Fin 32) (val : Word) (s : State) : Host.Outcome State Fault Refusal :=
  .next (if assigner who then s.onDev (hapEffAssignWrite who k.val val) else s)

/-- HTRIGn follows the pin world of R103. -/
def Dev.htrigSecure (d : Dev) (n : Nat) : Bool := bit (d.reg .OWN_PIN_WORLD 1).toNat (16 + n)

def hapTrigCfgWrite (who : Fn) (n : Nat) (val : Word) (d : Dev) : Dev :=
  let c := HAP_TRIG_CFG.CH.get val
  if (d.htrigSecure n && !d.secure who) || d.htrigSecure n != d.secureCode (d.hapOwner c) then d.werr who .HAP_CH_STAT c
  else d.write who .HAP_TRIG_CFG n val

def execHapTrigCfgWrite (who : Fn) (n : Fin 8) (val : Word) (s : State) : Host.Outcome State Fault Refusal :=
  .next (if assigner who then s.onDev (hapTrigCfgWrite who n.val val) else s)

end Sys2Proof.Machine
end

