-- ==== Sys2Proof/Machine/Touch.lean ====
section
/-! DEFINITION. Capacitive touch and keys (R386 to R414). -/

namespace Sys2Proof.Machine

def Dev.eng (d : Dev) (e : Nat) : TchEng := d.tch.get e

def Dev.updEng (d : Dev) (e : Nat) (g : TchEng → TchEng) : Dev := { d with tch := d.tch.upd e g }

def Dev.tchOwner (d : Dev) (e : Nat) : Nat := d.fl TCH_TE_ASSIGN.OWNER e

def Dev.tchState (d : Dev) (e : Nat) : Nat := d.f TCH_TE_STAT.STATE e

/-! The configuration image (R406). -/

abbrev TchCfg := List Byte

/-- SCAN_US in ns. -/
def TchCfg.periodNs (c : TchCfg) : Nat := le c 0 4 * 1000
def TchCfg.khz (c : TchCfg) : Nat := le c 4 2
def TchCfg.pulses (c : TchCfg) : Nat := le c 6 1
def TchCfg.glove (c : TchCfg) : Bool := bit (le c 7 1) 0
def TchCfg.hover (c : TchCfg) : Bool := bit (le c 7 1) 1
def TchCfg.ringHost (c : TchCfg) : Bool := bit (le c 7 1) 2
def TchCfg.nobj (c : TchCfg) : Nat := le c 8 1
def TchCfg.ringSize (c : TchCfg) : Nat := 2 ^ le c 24 1

/-- The role of a line and its index. -/
def TchCfg.role (c : TchCfg) (l : Nat) : Nat := le c (32 + l) 1 % 4

def TchCfg.index (c : TchCfg) (l : Nat) : Nat := le c (32 + l) 1 / 4

/-- The lines of a role, in order. -/
def TchCfg.lines (c : TchCfg) (r : Nat) : List Nat := (List.range 64).filter fun l => c.role l == r

/-- The line that has transmit (1) or receive (2) index `i`. -/
def TchCfg.lineOf (c : TchCfg) (r i : Nat) : Nat := ((c.lines r).find? fun l => c.index l == i).getD 64

/-- An object entry of the image. -/
structure TObj where
  num : Nat
  kind : Nat
  aks : Nat
  first : Nat
  count : Nat
  touchTh : Nat
  relTh : Nat
  hoverTh : Nat
  gloveTh : Nat
  holdS : Nat
  haptic : Nat
  effect : Nat
deriving DecidableEq, Repr, Inhabited

def TchCfg.obj (c : TchCfg) (i : Nat) : TObj :=
  let o := 96 + 16 * i
  ⟨i, le c o 1, le c (o + 1) 1, le c (o + 2) 1, le c (o + 3) 1, le c (o + 4) 2, le c (o + 6) 2, le c (o + 8) 2, le c (o + 10) 2, le c (o + 12) 2,
    le c (o + 14) 1, le c (o + 15) 1⟩

def TchCfg.objs (c : TchCfg) : List TObj := ((List.range (min 32 c.nobj)).map c.obj).filter (·.kind != 0)

def TObj.run (o : TObj) : List Nat := (List.range o.count).map (o.first + ·)

/-- Check 2 of R407 on the header of the image. -/
def TchCfg.headOk (c : TchCfg) : Bool :=
  let within := fun (v lo hi : Nat) => decide (lo ≤ v ∧ v ≤ hi)
  within (le c 0 4) 1000 1000000 && within c.khz 100 500 && within c.pulses 8 64 && decide (le c 7 1 < 8) && within c.nobj 0 32 &&
    within (le c 9 1) 1 10 && within (le c 10 1) 1 4 && within (le c 11 1) 1 255 && within (le c 12 2) 1 65535 && within (le c 14 2) 0 10000 &&
    le c 16 8 % 4096 == 0 && within (le c 24 1) 4 12 && le c 25 7 == 0

/-- Transmit and receive indices are in range, unique and dense from 0. -/
def TchCfg.lineOk (c : TchCfg) (l : Nat) : Bool :=
  let r := c.role l
  if r = 1 ∨ r = 2 then
    let ls := c.lines r
    decide (c.index l < ls.length ∧ c.index l < (if r = 1 then 24 else 40)) && (ls.filter fun m => c.index m == c.index l).length == 1
  else if r = 3 then (c.objs.filter fun o => o.kind != 1 && o.run.contains l).length == 1
  else true

/-- An object follows R387 and R406. -/
def TchCfg.objOk (c : TchCfg) (o : TObj) : Bool :=
  let runOk := decide (o.first + o.count ≤ 64) && o.run.all fun l => c.role l == 3
  decide (o.kind ≤ 4 ∧ o.aks < 8 ∧ (o.aks = 0 ∨ o.kind = 2)) && decide (o.relTh < o.touchTh ∧ o.gloveTh ≤ o.touchTh ∧ o.holdS ≤ 7200) &&
    o.haptic / 8 % 8 == 0 && decide (o.effect < 160) &&
    (if o.kind = 1 then !(c.lines 1).isEmpty && !(c.lines 2).isEmpty && (c.objs.filter fun x => x.kind == 1).length == 1
     else if o.kind = 2 then o.count == 1 && runOk
     else if o.kind = 3 then decide (2 ≤ o.count ∧ o.count ≤ 8) && runOk
     else decide (3 ≤ o.count ∧ o.count ≤ 8) && runOk)

/-- Reserved bits of an object entry, whether or not it is in use. -/
def TObj.reservedOk (o : TObj) : Bool := decide (o.aks < 8) && o.haptic / 8 % 8 == 0

/-- Check 2 of R407: the index of the first object or line at fault, 0xFFFF for the header. -/
def TchCfg.fault (c : TchCfg) : Option Nat :=
  if !c.headOk then some 0xFFFF
  else match (List.range 64).find? fun l => !c.lineOk l with
    | some l => some l
    | none => (List.range 32).find? fun i => !(c.obj i).reservedOk || (decide (i < c.nobj) && (c.obj i).kind != 0 && !c.objOk (c.obj i))

/-! Points (R388, R389, R392). -/

/-- A measured point: its key, its object and where its count stands in the scan. -/
structure PtDef where
  key : Nat
  obj : TObj
  count : Nat
deriving DecidableEq, Repr, Inhabited

def Dev.lineFailed (d : Dev) (e l : Nat) : Bool :=
  if l < 32 then bit (d.reg .TCH_FAIL_LO e).toNat l else bit (d.reg .TCH_FAIL_HI e).toNat (l - 32)

def cnt (l : List (BitVec 16)) (i : Nat) : Nat := (l.getD i 0).toNat

/-- The points of an engine with their counts; a mutual count is inverted (R388), and a failed line has none (R411). -/
def Dev.tchPoints (d : Dev) (e : Nat) (c : TchCfg) (k : ScanCounts) : List PtDef :=
  let ok := fun l => !d.lineFailed e l
  let nt := (c.lines 1).length
  let nr := (c.lines 2).length
  (c.objs.map fun o =>
    if o.kind = 1 then
      ((List.range nt).map fun t => ((List.range nr).filter fun r => ok (c.lineOf 1 t) && ok (c.lineOf 2 r)).map fun r =>
        (⟨40 * t + r, o, 65535 - cnt k.nodes (40 * t + r)⟩ : PtDef)).flatten ++
      (if c.hover then ((c.lines 1 ++ c.lines 2).filter ok).map fun l => (⟨1024 + l, o, cnt k.hover l⟩ : PtDef) else [])
    else (o.run.filter ok).map fun l => (⟨960 + l, o, cnt k.selfs l⟩ : PtDef)).flatten

/-- What a point reports at a transition. -/
structure PtEvent where
  neg : Bool := false
  long : Bool := false
deriving DecidableEq, Repr, Inhabited

/-- One transition of a point (R392), the first that applies. -/
def Point.next (p : Point) (c : TchCfg) (o : TObj) (now count : Nat) : Point × PtEvent :=
  let delta : Int := (count : Int) - p.base
  let fin := fun (q : Point) => { q with delta := (count : Int) - q.base }
  match p.st with
  | .init =>
    let m := if p.n = 0 then count else min p.kept count
    if p.n + 1 < 4 then ({ p with n := p.n + 1, kept := m, delta := 0 }, {})
    else (fin { st := .track, base := m }, {})
  | .recal =>
    if p.n = 0 then (fin { p with n := 1, kept := count }, {})
    else (fin { st := .track, base := (p.kept + count) / 2 }, {})
  | .track =>
    let neg := if delta ≤ -(le c 12 2 : Int) then p.neg + 1 else 0
    let th := if c.glove then o.gloveTh else o.touchTh
    let deb := if (th : Int) ≤ delta then p.deb + 1 else 0
    if 2 ≤ neg then (fin { st := .recal, base := p.base }, { neg := true })
    else if le c 10 1 ≤ deb then (fin { st := .touched, base := p.base, since := now }, {})
    else if p.drift + 1 < le c 11 1 then (fin { p with neg := neg, deb := deb, drift := p.drift + 1 }, {})
    else (fin { p with neg := neg, deb := deb, drift := 0, base := if p.base < count then p.base + 1 else if count < p.base then p.base - 1 else p.base },
      {})
  | .touched =>
    let neg := if delta ≤ -(le c 12 2 : Int) then p.neg + 1 else 0
    if 2 ≤ neg then (fin { st := .recal, base := p.base }, { neg := true })
    else if delta < (o.relTh : Int) then (fin { st := .track, base := p.base, neg := neg }, {})
    else if o.holdS ≠ 0 ∧ p.since + o.holdS * 1000000000 ≤ now then (fin { st := .track, base := count }, { long := true })
    else (fin { p with neg := neg }, {})

/-- Every point takes its transition: the points, and the events by object and point. -/
def tchStep (c : TchCfg) (now : Nat) (ps : List PtDef) (t : Tbl Point) : Tbl Point × List (Nat × Nat × PtEvent) :=
  ps.foldl (fun (acc : Tbl Point × List (Nat × Nat × PtEvent)) p =>
    let r := (acc.1.get p.key).next c p.obj now p.count
    (acc.1.put p.key r.1, acc.2 ++ (if r.2.neg || r.2.long then [(p.obj.num, p.key, r.2)] else []))) (t, [])

/-! Objects (R397 to R400). -/

/-- The keys of an object's points. -/
def TObj.ptKeys (o : TObj) (ps : List PtDef) : List Nat := (ps.filter fun p => p.obj.num == o.num && decide (p.key < 1024)).map (·.key)

def touchedOf (t : Tbl Point) (ks : List Nat) : List Nat := ks.filter fun k => (t.get k).st == .touched

/-- A position saturated at 0 (R398, R401). -/
def pos0 (x : Int) : Nat := x.toNat

/-- The largest delta among points, saturated at 0. -/
def strongest (t : Tbl Point) (ks : List Nat) : Nat := (ks.map fun k => pos0 (t.get k).delta).foldl max 0

/-- The key of a group that is reported: the largest delta, then the lowest number (R397). -/
def groupWinner (t : Tbl Point) (cand : List (TObj × List Nat)) (g : Nat) : Option Nat :=
  (cand.filter fun c => c.1.aks == g).foldl (fun (best : Option (Nat × Nat)) c =>
    let s := strongest t c.2
    match best with
    | some (n, b) => if b < s then some (c.1.num, s) else some (n, b)
    | none => some (c.1.num, s)) none |>.map (·.1)

/-- The weighted mean of pairs (place, weight) times a factor, rounded; none where the weights are all 0. -/
def centroid (factor den : Nat) (ws : List (Int × Nat)) : Option Int :=
  let n := (ws.map (·.2)).foldl (· + ·) 0
  let m := (ws.map fun w => w.1 * (w.2 : Int)).foldl (· + ·) 0
  if n = 0 then none else some ((2 * factor * m + (den * n : Nat)) / (2 * den * n : Nat))

/-- POS of a slider or wheel (R398), halves rounded up; a wheel's neighbours wrap, with their indices continued past the ends, and of equal deltas the
lower line is the centre (DEDUCED, log entry 97). -/
def TObj.pos (o : TObj) (t : Tbl Point) (touched : List Nat) : Option Nat :=
  let best := touched.foldl (fun (b : Option Nat) k => match b with
    | some x => if (t.get x).delta < (t.get k).delta then some k else some x
    | none => some k) none
  match best with
  | none => none
  | some k =>
    let i : Int := (k - 960 - o.first : Nat)
    let n : Int := o.count
    let w := fun (j : Int) => (j, pos0 (t.get (960 + o.first + (j % n).toNat)).delta)
    if o.kind = 4 then (centroid 4096 o.count [w (i - 1), w i, w (i + 1)]).map fun x => (x % 4096).toNat
    else (centroid 4095 (o.count - 1) (([i - 1, i, i + 1].filter fun j => decide (0 ≤ j ∧ j < n)).map w)).map (·.toNat)

/-- Insert behind the entries whose key is not larger. -/
def putByKey {α : Type} (key : α → Nat) (x : α) : List α → List α
  | [] => [x]
  | y :: t => if key x < key y then x :: y :: t else y :: putByKey key x t

/-- A list by rising key; entries of one key keep their order. -/
def byKey {α : Type} (key : α → Nat) (l : List α) : List α := l.foldl (fun acc x => putByKey key x acc) []

/-! Matrix contacts (R399, R400). -/

/-- The neighbours of a node within the matrix. -/
def nodeNeighbours (nt nr t r : Nat) : List (Nat × Nat) :=
  (([t - 1, t, t + 1].eraseDups.filter (· < nt)).map fun a => ([r - 1, r, r + 1].eraseDups.filter (· < nr)).map fun b => (a, b)).flatten

/-- A node is a contact. -/
def isContact (t : Tbl Point) (nt nr a b : Nat) : Bool :=
  let p := t.get (40 * a + b)
  p.st == .touched && (nodeNeighbours nt nr a b).all fun x =>
    let q := t.get (40 * x.1 + x.2)
    decide (q.delta < p.delta) || (q.delta == p.delta && !(q.st == .touched && decide (40 * x.1 + x.2 < 40 * a + b)))

/-- The contact at a node, without its ID; `none` for a position whose weights are all 0. -/
def nodeContact (t : Tbl Point) (nt nr a b : Nat) : Option Int × Option Int × Nat × Nat :=
  let ns := nodeNeighbours nt nr a b
  let w := fun (x : Nat × Nat) => pos0 (t.get (40 * x.1 + x.2)).delta
  (centroid 64 1 (ns.map fun x => ((x.2 : Int), w x)), centroid 64 1 (ns.map fun x => ((x.1 : Int), w x)), pos0 (t.get (40 * a + b)).delta,
    min 255 (ns.filter fun x => (t.get (40 * x.1 + x.2)).st == .touched).length)

/-- A value, or a free value where the specification states none. -/
def Dev.orFree (d : Dev) (x : Option Int) : Nat × Dev :=
  match x with
  | some v => (v.toNat % 65536, d)
  | none => (d.free1.1 % 65536, d.free1.2)

/-- Contacts found in a scan, before their IDs; hover needs one line at HOVER_TH (R400; DEDUCED, log entry 97). -/
def Dev.findContacts (d : Dev) (c : TchCfg) (ps : List PtDef) (t : Tbl Point) : Dev × List Contact :=
  match c.objs.find? fun o => o.kind == 1 with
  | none => (d, [])
  | some o =>
    let nt := (c.lines 1).length
    let nr := (c.lines 2).length
    let ns := ((List.range nt).map fun a => (List.range nr).map fun b => (a, b)).flatten
    let found := (byKey (fun (x : Nat × Nat) => 65536 - pos0 (t.get (40 * x.1 + x.2)).delta) (ns.filter fun x => isContact t nt nr x.1 x.2)).take (le c 9 1)
    if found ≠ [] then
      found.foldl (fun (acc : Dev × List Contact) x =>
        let r := nodeContact t nt nr x.1 x.2
        let px := acc.1.orFree r.1
        let py := px.2.orFree r.2.1
        (py.2, acc.2 ++ [⟨0, px.1, py.1, r.2.2.1, r.2.2.2, false, 40 * x.1 + x.2⟩])) (d, [])
    else if c.hover ∧ (ps.all fun p => decide (1024 ≤ p.key ∨ p.obj.num ≠ o.num ∨ (t.get p.key).delta < (o.touchTh : Int))) ∧
        (ps.any fun p => decide (1024 ≤ p.key ∧ (o.hoverTh : Int) ≤ (t.get p.key).delta)) then
      let w := fun (l : Nat) => ((c.index l : Int), pos0 (t.get (1024 + l)).delta)
      let px := d.orFree (centroid 64 1 ((c.lines 2).map w))
      let py := px.2.orFree (centroid 64 1 ((c.lines 1).map w))
      (py.2, [⟨0, px.1, py.1, ((c.lines 1 ++ c.lines 2).map fun l => pos0 (t.get (1024 + l)).delta).foldl max 0, 0, true, 960⟩])
    else (d, [])

/-- The squared distance of two contacts, in 64ths of a pitch; the distance is the straight line's (DEDUCED, log entry 97). -/
def dist2 (a b : Contact) : Nat :=
  let sq := fun (x y : Nat) => (max x y - min x y) * (max x y - min x y)
  sq a.x b.x + sq a.y b.y

/-- Pairs of (old, new) contacts within 2 pitches, nearest first, each contact once: the IDs that new contacts keep. Equal distances go by the order of
the old contacts (DEDUCED, log entry 97). -/
def pairUp (old new : List Contact) : List (Nat × Nat) :=
  let ps := (old.map fun o => (List.range new.length).map fun j => (o.id, j, dist2 o (new.getD j default))).flatten.filter fun x => decide (x.2.2 ≤ 128 * 128)
  (byKey (fun (x : Nat × Nat × Nat) => x.2.2) ps).foldl (fun acc x =>
    if acc.any fun y => y.1 == x.1 || y.2 == x.2.1 then acc else acc ++ [(x.1, x.2.1)]) []

/-- Contacts that go on or may begin: one that begins is a press, which the matrix does not report while a node of it is in INIT or RECAL (R393). -/
def mayReport (calm : Bool) (old new : List Contact) : List Contact :=
  let kept := pairUp old new
  (new.zipIdx.filter fun x => calm || x.1.hover || kept.any fun p => p.2 == x.2 && old.any fun o => o.id == p.1 && !o.hover).map (·.1)

/-- Every new contact gets its ID (R399). -/
def giveIds (old new : List Contact) : List Contact :=
  let kept := pairUp old new
  let ids := new.zipIdx.foldl (fun (used : List (Nat × Nat)) x =>
    match kept.find? fun p => p.2 == x.2 with
    | some p => used ++ [(x.2, p.1)]
    | none =>
      let taken := used.map (·.2) ++ kept.map (·.1)
      used ++ [(x.2, ((List.range 10).find? fun i => !taken.contains i).getD 9)]) []
  new.zipIdx.map fun x => { x.1 with id := ((ids.find? fun p => p.1 == x.2).map (·.2)).getD 0 }

/-! Reports (R401 to R403). -/

/-- A report without its phase, engine, SCAN and LTIME. -/
structure TReport where
  type : Nat
  flags : Nat
  id : Nat
  x : Nat
  y : Nat
  strength : Nat
  area : Nat
  wake : Bool
deriving DecidableEq, Repr, Inhabited

def TReport.bytes (r : TReport) (e scan ltime : Nat) (phase : Bool) : List Byte :=
  toLe r.type 1 ++ toLe (r.flags + b2n phase) 1 ++ toLe (e + 4 * b2n r.wake) 1 ++ toLe r.id 1 ++ toLe r.x 2 ++ toLe r.y 2 ++ toLe r.strength 2 ++
    toLe r.area 1 ++ toLe 0 1 ++ toLe scan 4 ++ toLe ltime 8 ++ toLe 0 8

/-- FLAGS bits of R401. -/
def FL_DOWN := 2
def FL_NEW := 4
def FL_UP := 8
def FL_HOVER := 16
def FL_NEG := 64
def FL_LONG := 128

def gloveFlag (c : TchCfg) : Nat := if c.glove then 32 else 0

/-- The type of an object's reports. -/
def TObj.type (o : TObj) : Nat := o.kind

/-- What one scan decides about an object: shown as touched, and blocked from a press while a point is in INIT or RECAL (R393). -/
structure ObjScan where
  o : TObj
  keys : List Nat
  touched : List Nat
  shown : Bool
  calm : Bool
deriving DecidableEq, Repr, Inhabited

def objScans (c : TchCfg) (ps : List PtDef) (t : Tbl Point) : List ObjScan :=
  let os := (c.objs.filter fun o => o.kind != 1).map fun o => (o, o.ptKeys ps)
  let cand := os.filter fun x => x.1.kind == 2 && x.1.aks != 0 && !(touchedOf t x.2).isEmpty
  os.map fun x =>
    let tk := touchedOf t x.2
    { o := x.1, keys := x.2, touched := tk, calm := x.2.all fun k => (t.get k).st == .track || (t.get k).st == .touched
      shown := !tk.isEmpty && (x.1.kind != 2 || x.1.aks == 0 || groupWinner t cand x.1.aks == some x.1.num) }

/-- No node of the matrix is in INIT or RECAL (R393). -/
def matrixCalm (ps : List PtDef) (t : Tbl Point) : Bool :=
  ps.all fun p => p.obj.kind != 1 || (t.get p.key).st == .track || (t.get p.key).st == .touched

/-- A report of a key, slider or wheel; the position of one with no TOUCHED line is a free value. -/
def Dev.objReport (d : Dev) (c : TchCfg) (t : Tbl Point) (x : ObjScan) (flags : Nat) (wake : Bool) : Dev × TReport :=
  let p := if x.o.kind = 2 then (0, d) else d.orFree ((x.o.pos t x.touched).map fun (n : Nat) => (n : Int))
  (p.2, ⟨x.o.type, flags + gloveFlag c, x.o.num, p.1, 0, strongest t x.keys, min 255 x.touched.length, wake⟩)

def Dev.objReports (d : Dev) (c : TchCfg) (t : Tbl Point) (xs : List (ObjScan × Nat × Bool)) : Dev × List TReport :=
  xs.foldl (fun (acc : Dev × List TReport) x =>
    let r := acc.1.objReport c t x.1 x.2.1 x.2.2
    (r.1, acc.2 ++ [r.2])) (d, [])

def contactReport (c : TchCfg) (k : Contact) (flags : Nat) : TReport :=
  ⟨1, flags + gloveFlag c + (if k.hover then FL_HOVER else 0), k.id, k.x, k.y, k.strength, k.area, false⟩

/-- Reports of the contacts: those of the last scan that none continues with UP, whose position is a free value, then those present, NEW where they continue
none. A contact is gone with LONG_HOLD where its node took the HOLD_S transition (R392, R402). -/
def Dev.contactReports (d : Dev) (c : TchCfg) (old new : List Contact) (long : Nat → Bool) : Dev × List TReport :=
  let kept := pairUp old new
  let gone := old.filter fun o => !kept.any fun p => p.1 == o.id
  let ups := gone.foldl (fun (acc : Dev × List TReport) o =>
    let x := acc.1.orFree none
    let y := x.2.orFree none
    let st := y.2.orFree none
    (st.2, acc.2 ++ [contactReport c { o with x := x.1, y := y.1, strength := st.1, area := 0 } (FL_UP + if long o.node then FL_LONG else 0)])) (d, [])
  (ups.1, ups.2 ++ new.zipIdx.map fun n =>
    contactReport c n.1 ((if n.1.hover then 0 else FL_DOWN) + if kept.any fun p => p.2 == n.2 then 0 else FL_NEW))

/-- A status report (R402). -/
def statusReport (c : TchCfg) (flags id x : Nat) : TReport := ⟨5, if flags = 0 then 0 else flags + gloveFlag c, id, x, 0, 0, 0, false⟩

/-- The object that a line serves. -/
def TchCfg.objOfLine (c : TchCfg) (l : Nat) : Nat :=
  ((c.objs.find? fun o => if c.role l = 3 then o.kind != 1 && o.run.contains l else o.kind == 1).map (·.num)).getD 0

/-- Write one report into the ring: device memory, or a posted write of the owner. -/
def State.tchPut (s : State) (e : Nat) (c : TchCfg) (r : TReport) (scan ltime : Nat) : State × Nat :=
  let d := s.dev
  let tail := d.f TCH_RPT_STAT.TAIL e
  let bs := r.bytes e scan ltime (d.fb TCH_RPT_STAT.PHASE e)
  let a := le c 16 8 + 32 * tail
  let res := if c.ringHost then
      match Fn.ofCode (d.tchOwner e) with
      | some f => if d.canSend f ∧ f ≠ .sp0 then (s.onDev (·.post f a bs), true, ST_HOST_DMA) else (s, false, ST_HOST_DMA)
      | none => (s, false, ST_HOST_DMA)
    else
      let w := s.writeMem ⟨d.tchOwner e, d.secureCode (d.tchOwner e)⟩ 13 a bs
      (w.1, w.2, ST_OWN_REFUSED)
  if !res.2.1 then (res.1, res.2.2)
  else
    let t' := (tail + 1) % c.ringSize
    (res.1.onDev fun d => ((if t' = 0 then d.setF TCH_RPT_STAT.PHASE e (1 - d.f TCH_RPT_STAT.PHASE e) else d).setF TCH_RPT_STAT.TAIL e t').updEng e
      fun x => { x with unreleased := x.unreleased + 1 }, 0)

/-- Reports go to the ring until one is refused: the status of that, and how many were written. -/
def State.tchPutAll (s : State) (e : Nat) (c : TchCfg) (scan ltime : Nat) : List TReport → State × Nat × Nat
  | [] => (s, 0, 0)
  | r :: t =>
    match s.tchPut e c r scan ltime with
    | (s1, 0) => let x := s1.tchPutAll e c scan ltime t; (x.1, x.2.1, x.2.2 + 1)
    | (s1, st) => (s1, st, 0)

/-! Stopping and starting. -/

/-- The engine goes OFF. -/
def Dev.tchOff (d : Dev) (e : Nat) : Dev :=
  ((d.updEng e fun x => { x with inScan := false, due := false, quiet := false }).setF TCH_TE_STAT.STATE e 0).setF TCH_TE_STAT.CONTACTS e 0

/-- A write to the ring was refused or failed: the engine stops, and its owner gets a notice (R407). -/
def Dev.tchRingFault (d : Dev) (e st : Nat) : Dev := (d.tchOff e).notice (d.tchOwner e) 5 e st 0

/-- Every point in INIT, SCAN at 0 and the ring from its start (R401, R405). The first scan starts one SCAN_US later, as the worked example of R396 has
it (DEDUCED, log entry 146). -/
def Dev.tchStart (d : Dev) (e : Nat) : Dev :=
  ((((((d.updEng e fun x => { x with pts := [], heldAt := [], contacts := [], unreleased := 0, inScan := false, due := false, quiet := false
                                     nextAt := d.now + TchCfg.periodNs x.cfg }).setReg
    .TCH_TE_SCAN e 0).setReg .TCH_RPT_HEAD e 0).setF TCH_RPT_STAT.TAIL e 0).setF TCH_RPT_STAT.PHASE e 1).setReg .TCH_KEY_STATE e 0).setF TCH_TE_STAT.STATE e 1

/-- The points that keep their state under a new image (R405). -/
def keptPoints (old new : TchCfg) (t : Tbl Point) : Tbl Point :=
  let same := old.khz == new.khz && old.pulses == new.pulses
  t.filter fun p =>
    same && (if p.1 < 960 then
        old.lineOf 1 (p.1 / 40) == new.lineOf 1 (p.1 / 40) && old.lineOf 2 (p.1 % 40) == new.lineOf 2 (p.1 % 40) && new.lineOf 1 (p.1 / 40) != 64 &&
          new.lineOf 2 (p.1 % 40) != 64
      else if p.1 < 1024 then old.role (p.1 - 960) == 3 && new.role (p.1 - 960) == 3
      else le old (32 + (p.1 - 1024)) 1 == le new (32 + (p.1 - 1024)) 1)

/-- Bits of TCH_KEY_STATE that a new image keeps: objects of the same kind. -/
def keptObjs (old new : TchCfg) (v : Nat) : Nat :=
  ((List.range 32).filter fun i => bit v i && (old.obj i).kind == (new.obj i).kind && decide (i < new.nobj)).foldl (fun a i => a + 2 ^ i) 0

/-- An image applies (R405); a new ring starts afresh. -/
def Dev.tchApply (d : Dev) (e : Nat) (img : TchCfg) : Dev :=
  let old := (d.eng e).cfg
  let d1 := (d.updEng e fun x => { x with cfg := img, pts := keptPoints old img x.pts }).setReg .TCH_KEY_STATE e
    (BitVec.ofNat 32 (keptObjs old img (d.reg .TCH_KEY_STATE e).toNat))
  let d2 := ((d1.setF TCH_TE_STAT.CONFIGURED e 1).setF TCH_TE_MODE.GLOVE e (b2n img.glove)).setF TCH_TE_MODE.HOVER e (b2n img.hover)
  if le old 16 8 = le img 16 8 ∧ le old 24 1 = le img 24 1 then d2
  else (((d2.updEng e fun x => { x with unreleased := 0 }).setReg .TCH_RPT_HEAD e 0).setF TCH_RPT_STAT.TAIL e 0).setF TCH_RPT_STAT.PHASE e 1

/-- TOUCH_REBASE: named objects without a TOUCHED point go to INIT; the mask of those skipped (R394, R405). -/
def Dev.tchRebase (d : Dev) (e mask : Nat) : Dev × Nat :=
  let c : TchCfg := (d.eng e).cfg
  let ps := d.tchPoints e c default
  c.objs.foldl (fun (acc : Dev × Nat) o =>
    if !bit mask o.num then acc
    else
      let ks := (ps.filter fun p => p.obj.num == o.num).map (·.key)
      if !(touchedOf (acc.1.eng e).pts ks).isEmpty then (acc.1, acc.2 + 2 ^ o.num)
      else (acc.1.updEng e fun x => { x with pts := ks.foldl (fun t k => t.put k {}) x.pts }, acc.2)) (d, 0)

/-- The commands that wait for the boundary act in order. -/
def Dev.tchWork (d : Dev) (e : Nat) : TchWork → Dev
  | .set ref img => (d.tchApply e img).endCmd ref ST_OK 0
  | .stop ref => (d.tchOff e).endCmd ref ST_OK 0
  | .rebase ref mask => let r := d.tchRebase e mask; r.1.endCmd ref ST_OK r.2

def Dev.tchWorks (d : Dev) (e : Nat) : Dev :=
  (d.updEng e fun x => { x with work := [] }).jointly fun d1 => (d.eng e).work.foldl (fun d w => d.tchWork e w) d1

def TchWork.ref : TchWork → CmdRef
  | .set r _ => r
  | .stop r => r
  | .rebase r _ => r

/-- A change of owner takes effect (R409): the engine is OFF and unconfigured, its wake set-up cleared, and waiting commands of
the old owner end with NOT_OWNER (DEDUCED, log entry 99). -/
def Dev.tchNewOwner (d : Dev) (e : Nat) : Dev :=
  let x := d.eng e
  let d1 := d.endAll (x.work.map TchWork.ref ++ x.hostSet.map (·.1)) ST_NOT_OWNER (errByte 32)
  let d2 := (d1.tchOff e).updEng e fun x => { toSpare := x.toSpare, checkAt := x.checkAt }
  let d3 := ((((d2.setF TCH_TE_STAT.CONFIGURED e 0).setReg .TCH_WAKE_CFG e (Reg.resetAt .TCH_WAKE_CFG e)).setReg .TCH_WAKE_MASK e 0).setReg .TCH_KEY_STATE e
    0).setReg .TCH_TE_MODE e 0
  (d3.latch .TCH_TE_ASSIGN e).evSync d ((List.range 8).map fun k => 304 + 8 * e + k)

def Dev.tchOwnerDue (d : Dev) (e : Nat) : Bool := d.f TCH_TE_ASSIGN.OWNER e != d.tchOwner e

/-! Spare front ends (R411). -/

/-- The keys of the points that a line carries. -/
def lineKeys (c : TchCfg) (ps : List PtDef) (l : Nat) : List Nat :=
  (ps.filter fun p => if p.key < 960 then c.lineOf 1 (p.key / 40) == l || c.lineOf 2 (p.key % 40) == l else (p.key - 960) % 64 == l).map (·.key)

def Dev.failLine (d : Dev) (e l : Nat) : Dev :=
  if l < 32 then d.setReg .TCH_FAIL_LO e (d.reg .TCH_FAIL_LO e ||| BitVec.ofNat 32 (2 ^ l))
  else d.setReg .TCH_FAIL_HI e (d.reg .TCH_FAIL_HI e ||| BitVec.ofNat 32 (2 ^ (l - 32)))

/-- A line moves to a spare front end or back, or is marked failed. -/
def Dev.spareLine (d : Dev) (e l : Nat) (r : SwapReq) : Dev :=
  let used := d.f TCH_TE_STAT.SPARES_USED e
  let c : TchCfg := (d.eng e).cfg
  let ks := lineKeys c (d.tchPoints e c default) l
  let fresh := fun (d : Dev) => d.updEng e fun x => { x with pts := ks.foldl (fun t k => t.put k {}) x.pts }
  let fin := fun (d : Dev) => match r.cmd with | some ref => d.endCmd ref ST_OK 0 | none => d
  if r.back then fin ((fresh (d.setF TCH_TE_STAT.SPARES_USED e (used - 1))).benchDone 6 (64 * e + l) (used - 1) r.trigger true)
  else if used < 4 then
    fin (((fresh (d.setF TCH_TE_STAT.SPARES_USED e (used + 1))).benchDone 6 (64 * e + l) used r.trigger false).raise (304 + 8 * e + 4))
  else
    match r.cmd with
    | some ref => d.endCmd ref ST_BENCH_EXHAUSTED (errByte 36)
    | none => (((fresh (d.benchExhausted 6 (64 * e + l) r.trigger)).failLine e l).updEng e fun x => { x with toReport := x.toReport ++ [l] }).raise (304 + 8 * e + 4)

def Dev.spareLines (d : Dev) (e : Nat) : Dev :=
  (d.eng e).toSpare.foldl (fun d x => d.spareLine e x.1 x.2) (d.updEng e fun x => { x with toSpare := [] })

/-- A check of the front ends is due: at start-up, then once every 10 s of LTIME while the engine runs (R411). -/
def Dev.checkDue (d : Dev) (e : Nat) : Bool :=
  (d.eng e).checkAt == 0 || (d.tchState e == 1 && decide ((d.eng e).checkAt ≤ d.now))

/-- Acholt's check finds the front ends of some lines failed (R411). -/
def execFrontEndCheck (e : Fin 4) (failed : List (Fin 64)) (s : State) : Host.Outcome State Fault Refusal :=
  .next (s.onDev fun d0 =>
    let d := if d0.acholtRuns && d0.checkDue e.val then d0.updEng e.val fun x => { x with checkAt := d0.now + 10000000000 } else d0
    if !d0.acholtRuns || !d0.checkDue e.val || !d0.autoBench 6 then d
    else
      let new := (failed.map (·.val)).filter fun l => !d.lineFailed e.val l && !(d.eng e.val).toSpare.any fun x => x.1 == l
      let d1 := d.updEng e.val fun x => { x with toSpare := x.toSpare ++ new.eraseDups.map fun l => (l, ⟨1, none, false⟩) }
      if d1.tchState e.val = 0 then d1.spareLines e.val else d1)

/-! The scan (R390). -/

/-- The length of a scan in us, rounded down (R389). -/
def TchCfg.scanUs (c : TchCfg) : Nat :=
  let nt := (c.lines 1).length
  let n := ((c.lines 3).length + 39) / 40 + (if c.hover then (nt + (c.lines 2).length + 39) / 40 else 0)
  (c.pulses * (nt * (if c.glove then 2 else 1) + n) * 1000) / max 1 c.khz + 8 * (nt + n)

/-- A scan takes longer than SCAN_US (R389, R390). -/
def TchCfg.scanLong (c : TchCfg) : Bool :=
  let nt := (c.lines 1).length
  let n := ((c.lines 3).length + 39) / 40 + (if c.hover then (nt + (c.lines 2).length + 39) / 40 else 0)
  decide (le c 0 4 * c.khz < c.pulses * (nt * (if c.glove then 2 else 1) + n) * 1000 + 8 * (nt + n) * c.khz)

/-- OVERRUN is set (R390). -/
def Dev.overrun (d : Dev) (e : Nat) : Dev := (d.setF TCH_TE_STAT.OVERRUN e 1).raise (304 + 8 * e + 6)

/-- A scan starts on engine `e`. -/
def Dev.scanBegin (d : Dev) (e : Nat) : Dev := d.updEng e fun x => { x with inScan := true, due := false, startedAt := d.now }

/-- SCAN_US passes on LTIME: a scan starts, or does when the one in progress ends, which has overrun where it takes longer than SCAN_US (R390). The starts keep
their grid after a scan that ran long (DEDUCED, log entry 146). -/
def execScanStart (e : Fin 4) (s : State) : Host.Outcome State Fault Refusal :=
  .next (s.onDev fun d =>
    if d.tchState e.val ≠ 1 ∨ d.now < (d.eng e.val).nextAt then d
    else
      let d1 := d.updEng e.val fun x => { x with nextAt := x.nextAt + TchCfg.periodNs x.cfg }
      if (d.eng e.val).inScan then
        let d2 := d1.updEng e.val fun x => { x with due := true }
        if TchCfg.scanLong (d.eng e.val).cfg then d2.overrun e.val else d2
      else d1.scanBegin e.val)

/-- A map trigger (R408). -/
def Dev.mapTrigger (d : Dev) (e : Nat) (o : TObj) : Dev :=
  let c := o.haptic % 8
  if d.hapOwner c ≠ d.tchOwner e then (d.setF TCH_TE_STAT.MAP_DENIED e 1).raise (304 + 8 * e + 6)
  else d.hapFire c o.effect (bit ((d.hapCh c).u 33 1) 2)

/-- The reports of a scan go to the ring, or the scan is lost (R403). -/
def State.tchReport (s : State) (e : Nat) (c : TchCfg) (rs : List TReport) : State :=
  let d := s.dev
  let b := 304 + 8 * e
  if rs.isEmpty then s
  else if c.ringSize < (d.eng e).unreleased + rs.length then s.onDev fun d => (d.count TCH_RPT_STAT.LOST e 1).raise (b + 1)
  else
    let r := s.tchPutAll e c (d.reg .TCH_TE_SCAN e).toNat d.now rs
    let out := rs.take r.2.2
    r.1.onDev fun d =>
      let d1 := ((d.raiseIf (!out.isEmpty) b).raiseIf (out.any fun r => bit r.flags 6) (b + 2)).raiseIf (out.any fun r => bit r.flags 7) (b + 3)
      if r.2.1 = 0 then d1 else d1.tchRingFault e r.2.1

/-- What a scan decides: presses, releases and held touches of keys, sliders and wheels. -/
structure TchDecision where
  press : List (ObjScan × Bool)
  release : List ObjScan
  held : List ObjScan
deriving DecidableEq, Repr, Inhabited

/-- A press that woke the device is reported once its object is calm, behind the release of the touch that was reported before it; no other key of its group
is then pressed (R393, R397, R412). -/
def Dev.tchDecide (d : Dev) (e : Nat) (xs : List ObjScan) : TchDecision :=
  let rep := fun (i : Nat) => bit (d.reg .TCH_KEY_STATE e).toNat i
  let eng := d.eng e
  let ms := le eng.cfg 14 2
  let woke := fun (x : ObjScan) => x.calm && eng.wakePress.contains x.o.num
  let held := fun (x : ObjScan) => x.o.aks != 0 && xs.any fun y => woke y && y.o.aks == x.o.aks
  { press := (xs.filter fun x => woke x || (!rep x.o.num && x.shown && x.calm && !held x)).map fun x => (x, woke x)
    release := xs.filter fun x => rep x.o.num && (!x.shown || woke x)
    held := xs.filter fun x => rep x.o.num && x.shown && !woke x && ms != 0 && decide (eng.heldAt.get x.o.num ≤ d.now) }

/-- The reported objects after a scan, and when the held ones report next. -/
def Dev.tchMark (d : Dev) (e : Nat) (k : TchDecision) : Dev :=
  let v := (d.reg .TCH_KEY_STATE e).toNat
  let rel := k.release.map (·.o.num)
  let prs := k.press.map (·.1.o.num)
  let v1 := ((List.range 32).filter fun i => (bit v i && !rel.contains i) || prs.contains i).foldl (fun a i => a + 2 ^ i) 0
  let ns := le (d.eng e).cfg 14 2 * 1000000
  (d.setReg .TCH_KEY_STATE e (BitVec.ofNat 32 v1)).updEng e fun x =>
    { x with wakePress := x.wakePress.filter fun i => !prs.contains i, heldAt := k.held.foldl (fun t o => t.put o.o.num (t.get o.o.num + ns)) (prs.foldl (fun t i => t.put i (d.now + ns)) x.heldAt) }

/-- The boundary of a scan that reports (R390, R392, R402, R408): the points move, failed lines go to their spares, and the objects are judged on
the points as they then stand. Reports go in the order releases, presses, held touches, contacts, status; map triggers fire even where the scan's reports
are lost (DEDUCED, log entry 98). -/
def State.tchEvaluate (s : State) (e : Nat) (k : ScanCounts) : State :=
  let c : TchCfg := (s.dev.eng e).cfg
  let ps := s.dev.tchPoints e c k
  let st := tchStep c s.dev.now ps (s.dev.eng e).pts
  let s1 := s.onDev fun d => (d.updEng e fun x => { x with pts := st.1 }).spareLines e
  let pts := (s1.dev.eng e).pts
  let xs := objScans c (s1.dev.tchPoints e c k) pts
  let dec := s1.dev.tchDecide e xs
  let long := fun (i : Nat) => st.2.any fun v => v.1 == i && v.2.2.long
  let rel := s1.dev.objReports c pts (dec.release.map fun x => (x, FL_UP + (if long x.o.num then FL_LONG else 0), false))
  let prs := rel.1.objReports c pts (dec.press.map fun x => (x.1, FL_DOWN + FL_NEW, x.2))
  let hld := prs.1.objReports c pts (dec.held.map fun x => (x, FL_DOWN, false))
  let fc := hld.1.findContacts c (s1.dev.tchPoints e c k) pts
  let old := (fc.1.eng e).contacts
  let new := giveIds old (mayReport (matrixCalm (s1.dev.tchPoints e c k) pts) old fc.2)
  let con := fc.1.contactReports c old new fun n => st.2.any fun v => v.2.1 == n && v.2.2.long
  let stat := (st.2.filter fun v => v.2.2.neg).map (fun v => statusReport c FL_NEG v.1 0) ++
    (con.1.eng e).toReport.map fun l => statusReport c 0 (c.objOfLine l) l
  let d2 := ((con.1.tchMark e dec).updEng e fun x => { x with contacts := new, toReport := [] }).setF TCH_TE_STAT.CONTACTS e new.length
  let s2 := ({ s1 with dev := d2 } : State).tchReport e c (rel.2 ++ prs.2 ++ hld.2 ++ con.2 ++ stat)
  s2.onDev fun d =>
    let fire := fun (d : Dev) (o : TObj) (need : Bool) => if bit o.haptic 7 && need then d.mapTrigger e o else d
    let d1 := dec.release.foldl (fun d x => fire d x.o (bit x.o.haptic 6)) d
    dec.press.foldl (fun d x => fire d x.1.o true) d1

/-- A scan ends (R390, R405, R409, R410); a new owner takes over after the spare lines that are due (R507). -/
def execScanBoundary (e : Fin 4) (counts : ScanCounts) (s : State) : Host.Outcome State Fault Refusal :=
  let i := e.val
  .next (if ¬((s.dev.eng i).inScan ∧ s.dev.tchState i = 1 ∧ (s.dev.eng i).startedAt + 1000 * TchCfg.scanUs (s.dev.eng i).cfg ≤ s.dev.now) then s
  else
    let c : TchCfg := (s.dev.eng i).cfg
    let long := c.scanLong
    let s1 := s.onDev fun d =>
      let d1 := if long && !(d.eng i).due then d.overrun i else d
      ((d1.setReg .TCH_TE_SCAN i (d.reg .TCH_TE_SCAN i + 1)).setReg .TCH_TE_TIME i (BitVec.ofNat 32 (c.scanUs % 2 ^ 20))).updEng i fun x =>
        { x with inScan := false, due := x.due || long
                 nextAt := if long && !x.due && decide (x.nextAt ≤ d.now) then x.nextAt + c.periodNs else x.nextAt }
    if s1.dev.tchOwnerDue i then s1.onDev fun d => (d.spareLines i).tchNewOwner i
    else if (s1.dev.eng i).quiet ∨ (s1.dev.eng i).frozen then s1.onDev fun d => (d.tchOff i).tchWorks i
    else
      let stops := (s1.dev.eng i).work.any fun w => match w with | .stop _ => true | _ => false
      let s2 := if stops then s1 else s1.tchEvaluate i counts
      s2.onDev fun d =>
        let d1 := d.tchWorks i
        if d1.tchState i = 1 ∧ (d1.eng i).due then d1.scanBegin i else d1)

/-! Commands (R404, R405, R407). -/

def Dev.tchHead (d : Dev) (f : Fn) (c : Cmd) : List (Bool × Nat × Nat) :=
  [(d.tchOwner (c.u 32 1 % 4) != f.code, ST_NOT_OWNER, errByte 32), (c.ext != 0, ST_BAD_FIELD, errOutside),
   (!c.conts.isEmpty, ST_BAD_FIELD, errAt 32), (c.u 32 1 / 4 != 0, ST_BAD_FIELD, errByte 32)]

/-- A command acts at the next boundary, or at once while the engine is OFF. -/
def Dev.tchLater (d : Dev) (e : Nat) (w : TchWork) : Dev :=
  if d.tchState e = 0 then d.tchWork e w else d.updEng e fun x => { x with work := x.work ++ [w] }

/-- Checks 2 and 3 of R407 on an image that has been read. -/
def Dev.tchImage (d : Dev) (f : Fn) (ref : CmdRef) (e : Nat) (img : TchCfg) : Dev :=
  match img.fault with
  | some i => d.endCmd ref ST_BAD_FIELD (errAt 0xFFFF i)
  | none =>
    let base := le img 16 8
    if (if img.ringHost then f == .sp0 else !d.inDevice base (base + 32 * img.ringSize - 1)) then d.endCmd ref ST_BAD_GEOMETRY errOutside
    else d.tchLater e (.set ref img)

def runTouchSet (f : Fn) : Run := fun ref c s =>
  match firstError (s.dev.tchHead f c ++ [(decide (2 ≤ c.u 33 1) || (f == .sp0 && c.u 33 1 != 0), ST_BAD_FIELD, errByte 33),
      (!c.zero 34 39, ST_BAD_FIELD, errByte 34), (c.u 40 8 % 64 != 0, ST_BAD_FIELD, errByte 40), (!c.zero 48 63, ST_BAD_FIELD, errByte 48)]) with
  | some (st, res) => s.onDev (·.endCmd ref st res)
  | none =>
    let e := c.u 32 1 % 4
    if c.u 33 1 = 1 then s.onDev fun d =>
      (d.updEng e fun x => { x with hostSet := x.hostSet ++ [(ref, [])] }).hostRead (.touch (Fin.ofNat 4 e)) (some ref) f (c.u 40 8) 608
    else match s.readMem ⟨f.code, c.secure⟩ 13 (c.u 40 8) 608 with
      | (s1, .ok img) => s1.onDev (·.tchImage f ref e img)
      | (s1, r) => s1.onDev (·.endCmd ref r.status 0)

def execTouchSet (f : Fn) (q : Fin 8) (s : State) : Host.Outcome State Fault Refusal := .next (s.startNext f q (· == 0x80) (runTouchSet f))

/-- Host data of a TOUCH_SET arrives (R405). -/
def Dev.tchHostData (d : Dev) (e : Nat) (bs : List Byte) : Dev :=
  match (d.eng e).hostSet with
  | [] => d
  | (ref, got) :: t =>
    let all := got ++ bs
    if all.length < 608 then d.updEng e fun x => { x with hostSet := (ref, all) :: t }
    else
      let d1 := d.updEng e fun x => { x with hostSet := t }
      match queueFn ref.queue with
      | some f => d1.tchImage f ref e (all.take 608)
      | none => d1

/-- The host read of a TOUCH_SET failed (R121). -/
def Dev.tchHostFail (d : Dev) (e : Nat) : Dev :=
  match (d.eng e).hostSet with
  | [] => d
  | (ref, _) :: t => (d.updEng e fun x => { x with hostSet := t }).endCmd ref ST_HOST_DMA 0

def runTouchStart (f : Fn) : Run := fun ref c s => s.onDev fun d =>
  let e := c.u 32 1 % 4
  match firstError (d.tchHead f c ++ [(!c.zero 33 63, ST_BAD_FIELD, errByte 33), (!d.fb TCH_TE_STAT.CONFIGURED e, ST_BAD_FIELD, errByte 32),
      (d.tchState e != 0, ST_BUSY, errByte 32)]) with
  | some (st, res) => d.endCmd ref st res
  | none => (d.tchStart e).endCmd ref ST_OK 0

def execTouchStart (f : Fn) (q : Fin 8) (s : State) : Host.Outcome State Fault Refusal := .next (s.startNext f q (· == 0x81) (runTouchStart f))

def runTouchStop (f : Fn) : Run := fun ref c s => s.onDev fun d =>
  match firstError (d.tchHead f c ++ [(!c.zero 33 63, ST_BAD_FIELD, errByte 33)]) with
  | some (st, res) => d.endCmd ref st res
  | none => d.tchLater (c.u 32 1 % 4) (.stop ref)

def execTouchStop (f : Fn) (q : Fin 8) (s : State) : Host.Outcome State Fault Refusal := .next (s.startNext f q (· == 0x82) (runTouchStop f))

def runTouchRebase (f : Fn) : Run := fun ref c s => s.onDev fun d =>
  match firstError (d.tchHead f c ++ [(!c.zero 33 35, ST_BAD_FIELD, errByte 33), (!c.zero 40 63, ST_BAD_FIELD, errByte 40)]) with
  | some (st, res) => d.endCmd ref st res
  | none => d.tchLater (c.u 32 1 % 4) (.rebase ref (c.u 36 4))

def execTouchRebase (f : Fn) (q : Fin 8) (s : State) : Host.Outcome State Fault Refusal := .next (s.startNext f q (· == 0x83) (runTouchRebase f))

/-! Registers. -/

/-- A write of TCH_RPT_HEAD releases entries (R401). -/
def rptHeadWrite (who : Fn) (e : Nat) (val : Word) (d : Dev) : Dev :=
  let n := TchCfg.ringSize (d.eng e).cfg
  let old := d.f TCH_RPT_HEAD.HEAD e
  let d1 := d.write who .TCH_RPT_HEAD e val
  let rel := (d1.f TCH_RPT_HEAD.HEAD e + 4096 - old) % n
  d1.updEng e fun x => { x with unreleased := x.unreleased - rel }

/-- The owner reaches its own engine's registers, and PFs, SP0 and Acholt reach every one (R414). -/
def Dev.reachesEngine (d : Dev) (who : Fn) (e : Nat) : Bool :=
  match who with
  | .vf _ => d.tchOwner e == who.code
  | _ => true

def execReportHeadWrite (who : Fn) (e : Fin 4) (val : Word) (s : State) : Host.Outcome State Fault Refusal :=
  .next (if s.dev.reachesEngine who e.val then s.onDev (rptHeadWrite who e.val val) else s)

def teAssignWrite (who : Fn) (e : Nat) (val : Word) (d0 : Dev) : Dev :=
  let d := d0.demandDomain .TCH_TE_ASSIGN e
  let old := d.f TCH_TE_ASSIGN.OWNER e
  let new := TCH_TE_ASSIGN.OWNER.get val
  if old = new then d
  else if d.mayGive who old && d.mayGive who new then
    let d1 := d.setF TCH_TE_ASSIGN.OWNER e new
    if d1.tchState e = 0 && d1.tchOwnerDue e then d1.tchNewOwner e else d1
  else d.werr who .TCH_TE_ASSIGN e

def execTeAssignWrite (who : Fn) (e : Fin 4) (val : Word) (s : State) : Host.Outcome State Fault Refusal :=
  .next (if assigner who then s.onDev (teAssignWrite who e.val val) else s)

/-- A write of TCH_WAKE_CFG: one engine at a time holds WAKE_EN (R412), and a Secure pin is the Secure world's (R103). -/
def wakeCfgWrite (who : Fn) (e : Nat) (val : Word) (d : Dev) : Dev :=
  let other := (List.range 4).any fun k => k != e && d.fb TCH_WAKE_CFG.WAKE_EN k
  let pin := !d.secure who && bit (d.reg .OWN_PIN_WORLD 1).toNat (24 + e)
  d.writeX who .TCH_WAKE_CFG e val fun fd => (fd.lo == 0 && bit val.toNat 0 && other) || (decide (11 ≤ fd.lo) && pin)

/-! Wake scanning (R412). -/

/-- A scan of the wake keys of engine `e`: points move, and the key objects that are pressed by it: those that begin to be shown, of a group the one that is
reported (R397). -/
def Dev.wakeStep (d : Dev) (e : Nat) (k : ScanCounts) : Dev × List Nat :=
  let c : TchCfg := (d.eng e).cfg
  let mask := (d.liveReg .TCH_WAKE_MASK e).toNat
  let ps := (d.tchPoints e c k).filter fun p => p.obj.kind == 2 && bit mask p.obj.num
  let was := (d.eng e).pts
  let st := tchStep c d.now ps was
  let was' := objScans c ps was
  let hit := (objScans c ps st.1).filter fun x => x.shown && x.calm && !was'.any fun y => y.o.num == x.o.num && y.shown
  (d.updEng e fun x => { x with pts := st.1, wakePress := (x.wakePress ++ hit.map (·.o.num)).eraseDups }, hit.map (·.o.num))

end Sys2Proof.Machine
end

