-- ==== Sys2Proof/Machine/Convoy.lean ====
section
/-! DEFINITION. The Convoy: links, shared time, and requests of peers (R529 to R545). -/

namespace Sys2Proof.Machine

def cnvPortEv (k : Nat) : Nat := 464 + k

/-- Port `k` trains: both positions are members (R531, R533). -/
def Dev.cnvTrains (d : Dev) (k : Nat) : Bool := d.member && bit (d.f CNV_STAT.MEMBERS 0) (d.peerAt k)

/-- The port that leads to the leader, at a follower. -/
def Dev.leaderPort (d : Dev) : Option Nat := if d.member ∧ d.f CNV_STAT.POSITION 0 ≠ 0 then some (d.peerPort 0) else none

/-! Shared time (R536, R537). -/

/-- A target moves by the step of an adoption. -/
def shiftT (step : Int) (t : Nat) : Nat := ((t : Int) + step).toNat

/-- A target that 0 switches off. -/
def shiftZ (step : Int) (t : Nat) : Nat := if t = 0 then 0 else shiftT step t

/-- The EXT fields that hold an LTIME: START_DEADLINE and AT_LTIME (R348, R459). -/
def Cmd.shift (step : Int) (c : Cmd) : Cmd :=
  let lead := if (c.opcode = 0x33 ∨ c.opcode = 0x36 ∨ c.opcode = 0x70) ∧ c.ext ≠ 0 then
      c.lead.take 24 ++ toLe (shiftT step c.ext) 8 ++ c.lead.drop 32 else c.lead
  { c with lead := lead, phase := match c.phase with | .waiting (some t) => .waiting (some (shiftT step t)) | p => p }

def GpuCtx.shift (step : Int) (x : GpuCtx) : GpuCtx :=
  { x with deadline := shiftZ step x.deadline, cmds := x.cmds.map fun c => (c.1, c.2.shift step)
           pass := x.pass.map fun p => { p with deadline := shiftZ step p.deadline } }

def OutSt.shift (step : Int) (o : OutSt) : OutSt :=
  { o with lastLatch := shiftZ step o.lastLatch, lastRef := o.lastRef.map (shiftT step), enabledAt := shiftT step o.enabledAt
           startAt := o.startAt.map (shiftT step), lineAt := shiftT step o.lineAt, pwmAt := shiftT step o.pwmAt
           captures := o.captures.map fun c => { c with doneAt := shiftT step c.doneAt } }

def CsSt.shift (step : Int) (x : CsSt) : CsSt :=
  { x with lastStart := x.lastStart.map (shiftT step), due := x.due.map fun p => (p.1, shiftT step p.2), lastLine := shiftT step x.lastLine, lastEnd := x.lastEnd.map (shiftT step)
           arrivals := x.arrivals.map fun a => (a.1, a.2.1, shiftT step a.2.2) }

def QueueSt.shift (step : Int) (q : QueueSt) : QueueSt :=
  { q with bell := shiftZ step q.bell, firstUnsig := shiftZ step q.firstUnsig, cmds := q.cmds.map (Cmd.shift step) }

def TchEng.shift (step : Int) (e : TchEng) : TchEng :=
  { e with nextAt := shiftZ step e.nextAt, startedAt := shiftT step e.startedAt, checkAt := shiftZ step e.checkAt
           heldAt := e.heldAt.mapVals (shiftT step), pts := e.pts.mapVals fun p => { p with since := shiftZ step p.since } }

def HapCh.shift (step : Int) (c : HapCh) : HapCh :=
  { c with drives := c.drives.map fun i => (shiftT step i.1, shiftT step i.2), driveFrom := shiftZ step c.driveFrom }

def HostReq.shift (step : Int) (r : HostReq) : HostReq := { r with sent := r.sent.map (shiftT step) }

/-- Times of the rings, partitions and mailboxes. -/
def Dev.shiftRings (d : Dev) (step : Int) : Dev :=
  let sh := shiftT step
  let d1 := { d with hrq := { d.hrq with
    reads := d.hrq.reads.map (HostReq.shift step)
    queues := d.hrq.queues.mapVals (QueueSt.shift step), keys := d.hrq.keys.mapVals fun k => { k with lastReject := shiftZ step k.lastReject } } }
  let d2 := d1.updPart fun p => { p with
    freezes := p.freezes.mapVals fun f => f.map fun x => (x.1, x.2.map sh), resets := p.resets.mapVals fun r => r.map sh }
  { d2 with mbx := { d2.mbx with
    slots := d2.mbx.slots.mapVals fun s => { s with deadline := s.deadline.map sh }
    bulk := d2.mbx.bulk.map fun b => { b with deadline := b.deadline.map sh } } }

/-- Times of the engines. -/
def Dev.shiftEngines (d : Dev) (step : Int) : Dev :=
  let sh := shiftT step
  let d1 := { d with gpu := { d.gpu with
    ctx := d.gpu.ctx.mapVals (GpuCtx.shift step), clusters := d.gpu.clusters.mapVals fun c => { c with since := shiftZ step c.since }
    faults := d.gpu.faults.mapVals fun f => f.map sh } }
  let d2 := { d1 with disp := { d1.disp with outs := d1.disp.outs.mapVals (OutSt.shift step) }
                      vin := { d1.vin with cs := d1.vin.cs.mapVals (CsSt.shift step) } }
  let d3 := { d2 with tch := d2.tch.mapVals (TchEng.shift step), hap := { d2.hap with chans := d2.hap.chans.mapVals (HapCh.shift step) } }
  let w := d3.msys.walk
  let d4 := { d3 with msys := { d3.msys with walk := { w with began := shiftZ step w.began, due := shiftZ step w.due } }
                      mgt := { d3.mgt with
                        sensorDue := shiftZ step d3.mgt.sensorDue, ageDue := shiftZ step d3.mgt.ageDue, watchdogAt := shiftT step d3.mgt.watchdogAt }
                      pmc := { d3.pmc with began := d3.pmc.began.mapVals fun t => t.map sh } }
  d4.updAud fun a => { a with
    hampers := a.hampers.map fun h => { h with at_ := shiftZ step h.at_ }, amps := a.amps.mapVals fun x => { x with offAt := x.offAt.map sh } }

/-- A follower adopts the leader's LTIME: every pending target moves by the step, which is logged (R46, R536). -/
def Dev.adopt (d : Dev) (leader : Nat) : Dev :=
  let step : Int := (leader : Int) - (d.now : Int)
  let d1 := (d.shiftRings step).shiftEngines step
  let d2 := { d1 with
    time := { d1.time with ltime := leader % 2 ^ 64, adopted := true, lastPtm := shiftZ step d1.time.lastPtm }
    pace := { d1.pace with probeWin := leader % 2 ^ 64 / 10000, govWin := leader % 2 ^ 64 / 10000 } }
  d2.newSource.log 0x10 0 0 (toLe (ofSigned 64 step) 8 ++ toLe (d2.f CNV_STAT.MEMBERS 0) 1)

/-! Links (R531 to R535). -/

/-- The channels that span to a position. -/
def Dev.spanning (d : Dev) (p : Nat) : List Nat := (List.range 64).filter fun c => d.f MBX_BIND.END_A c != 0 && d.mbxRemote c && d.f MBX_BIND.PEER c == p

/-- The device at a position names these channels of ours in its entries: the spanning channels to it come up, or go down with their ends reset (R474, R481). -/
def Dev.peerNames (d : Dev) (p : Nat) (cs : List Nat) : Dev :=
  let d1 := { d with mbx := { d.mbx with peerChans := d.mbx.peerChans.put p cs } }
  (d1.spanning p).foldl (fun (d : Dev) c =>
    if d.spanUp c then d.setF MBX_BIND.UP c 1
    else if d.fb MBX_BIND.UP c then (d.setF MBX_BIND.UP c 0).mbxResetEnd c 1 else d) d1

/-- A link finishes training. -/
def Dev.linkUp (d : Dev) (k : Nat) (peer : PeerInfo) : Dev :=
  let p := peer.pos.val
  let d1 := ((((((d.setF CNV_PORT_STAT.UP k 1).setF CNV_PORT_STAT.TRAINING k 0).setF CNV_PORT_STAT.LANES k peer.lanes.val).setF
    CNV_PEER_INFO.REVISION k peer.revision.toNat).setF CNV_PEER_INFO.MEM_GIB k peer.memGib.toNat)).raise (cnvPortEv k)
  let d2 := d1.peerNames p (peer.chans.map (·.val))
  if d2.leaderPort = some k ∧ ¬d2.time.adopted then d2.adopt peer.ltime else d2

def execConvoyLinkUp (k : Fin 3) (peer : PeerInfo) (s : State) : Host.Outcome State Fault Refusal :=
  .next (s.onDev fun d =>
    if !d.cnvTrains k.val || d.fb CNV_PORT_STAT.UP k.val then d
    else if !peer.member || peer.pos.val != d.peerAt k.val then (d.setF CNV_PORT_STAT.POS_CONFLICT k.val 1).raise (cnvPortEv k.val)
    else d.linkUp k.val peer)

/-- Generators that follow an output of a peer leave ACQUIRING or LOCKED (R284, R535). -/
def Dev.peerTgStopped (d : Dev) (p : Nat) : Dev :=
  (List.range 12).foldl (fun (d : Dev) m =>
    if d.f DSP_TG_GL.SRC_TYPE m = 3 ∧ d.f DSP_TG_GL.PEER m = p ∧ (d.glState m = 1 ∨ d.glState m = 2) then d.glHoldover m else d) d

/-- What a lost link ends towards its peer: spanning mailbox ends reset, generators and views of the peer stop (R481, R535). -/
def Dev.peerGone (d : Dev) (p : Nat) : Dev :=
  let d2 := (d.peerNames p []).peerTgStopped p
  { d2 with vin := { d2.vin with cs := d2.vin.cs.mapVals fun x => { x with peerViews := x.peerViews.filter fun v => v.1 / 32 != p } } }

/-- The link to the leader is down (R537). -/
def Dev.leaderLost (d : Dev) : Dev := (d.setF CNV_STAT.LEADER_LOST 0 1).raise 468

/-- Link `k` goes down; `again` tells that it retrains. -/
def Dev.linkDown (d : Dev) (k : Nat) (again : Bool) : Dev :=
  let d1 := (((d.setF CNV_PORT_STAT.UP k 0).setF CNV_PORT_STAT.LANES k 0).setF CNV_PORT_STAT.TRAINING k (b2n again)).raise (cnvPortEv k)
  let d2 := d1.peerGone (d.peerAt k)
  if d2.leaderPort == some k && d2.time.adopted then d2.leaderLost else d2

def execConvoyLinkLoss (k : Fin 3) (s : State) : Host.Outcome State Fault Refusal :=
  .next (if s.dev.fb CNV_PORT_STAT.UP k.val then (s.onDev fun d => (d.count CNV_PORT_STAT.RETRAINS k.val 1).linkDown k.val true).mbxRunAll else s)

/-- A lane of port `k` fails (R534): lane 8 takes its place, or the link goes on with four lanes. -/
def execLaneSwap (k : Fin 3) (lane : Fin 8) (s : State) : Host.Outcome State Fault Refusal :=
  .next (s.onDev fun d =>
    if !d.acholtRuns || !d.cnvTrains k.val then d
    else if d.fb CNV_PORT_STAT.SPARE_USED k.val || !d.autoBench 4 then
      (((if d.fb CNV_PORT_STAT.UP k.val then d.setF CNV_PORT_STAT.LANES k.val 4 else d).setF CNV_PORT_STAT.DEGRADED k.val 1).raise (cnvPortEv k.val)).benchExhausted 4 (9 * k.val + lane.val) 4
    else ((d.setF CNV_PORT_STAT.SPARE_USED k.val 1).raise 467).benchDone 4 (9 * k.val + lane.val) 8 4 false)

/-- The offset from the leader is measured (R537): the rate is steered within 100 ppm, and LOCKED is set once the offset lies within 8 ns (R46). -/
def execConvoyOffsetExchange (offset : Int) (s : State) : Host.Outcome State Fault Refusal :=
  .next (s.onDev fun d =>
    match d.leaderPort with
    | some k =>
      if !d.time.adopted || !d.fb CNV_PORT_STAT.UP k then d
      else
        let d1 := (d.setReg .CNV_OFFSET 0 (BitVec.ofInt 32 (clampI (-(2 ^ 31)) (2 ^ 31 - 1) offset))).setRate
          (clampI (-100000) 100000 (Config.rateCorrection offset d.time.rate))
        if d1.fb CNV_STAT.LOCKED 0 || !decide (-8 ≤ offset ∧ offset ≤ 8) then d1 else (d1.setF CNV_STAT.LOCKED 0 1).raise 469
    | none => d)

/-- A latch instant of output `src` at a peer serves its followers as a reference (R538). -/
def execPeerLatchStamp (peer : Fin 4) (src : Fin 12) (stamp : Nat) (s : State) : Host.Outcome State Fault Refusal :=
  .next (s.onDev fun d =>
    if !d.peerUp? peer.val then d
    else (List.range 12).foldl (fun (d : Dev) n =>
      if d.f DSP_TG_GL.SRC_TYPE n = 3 ∧ d.f DSP_TG_GL.PEER n = peer.val ∧ d.f DSP_TG_GL.SRC_IDX n = src.val then d.genlockRefIf n stamp
      else d) d)

/-! Requests of peers (R539, R541). -/

/-- A read or write of a peer, which competes in class 6 for its bank (R54, R55, R88, R89); what passes its check is counted as traffic of the link
(R494). -/
def State.peerAccess (s : State) (p : Nat) (sec write : Bool) (addr len : Nat) (data : List Byte) (ecc : List Ecc) (ns : Nat) (rivals : List Rival) : State :=
  let r : Req := ⟨0x60 + p, sec⟩
  let n := if write then data.length else len
  let hit := fun (d : Dev) => d.pmcHit 0x06 (2 * d.peerPort p + b2n (!write)) r.mid sec (units64 n)
  match s.contend r 8 (unitPeer (s.dev.peerPort p)) write addr len data ecc ns rivals with
  | (s1, some (.ok bs)) => if write then s1.onDev hit else s1.onDev fun d => (hit d).emit (.readData r.mid bs)
  | (s1, some .poisoned) => s1.onDev fun d => (hit d).emit (.poisonedData r.mid)
  | (s1, some .refused) => s1.onDev (·.emit (.peerRefused p))
  | (s1, none) => s1

/-- A latch of the peer takes the newest frame of a context, which is held while it is shown (R541). -/
def Dev.peerView (d : Dev) (p b : Nat) (cs : Option Nat) : Dev :=
  let key := 32 * p + b
  let d1 := (List.range 16).foldl (fun (d : Dev) c => if ((d.cs c).peerViews.get key).isSome then d.updCs c fun x =>
    { x with peerViews := x.peerViews.put key none } else d) d
  match cs with
  | some c => d1.updCs c fun x => { x with peerViews := x.peerViews.put key x.newest }
  | none => d1

/-- A message of the remote end, posted by a GO at LTIME `go`, arrives in its slot (R474, R476, R479). -/
def Dev.peerMail (d : Dev) (go c k : Nat) (data : List (BitVec 32)) : Dev :=
  let words : Tbl Word := (List.range 16).foldl (fun t w => t.put w (data.getD w 0)) []
  (d.setSlot c 1 k { data := words }).mbxPost go c 1 k none

/-- The channel spans to that peer and is up. -/
def Dev.spansTo (d : Dev) (c p : Nat) : Bool := (d.spanning p).contains c && d.fb MBX_BIND.UP c

def State.peerServe (s : State) (p : Nat) (rivals : List Rival) : PeerReq → State
  | .access sec write addr len data ecc ns => s.peerAccess p sec write addr len data ecc ns rivals
  | .view b cs => s.onDev (·.peerView p b.val (cs.map (·.val)))
  | .mail c k data go => if s.dev.spansTo c.val p ∧ ¬(s.dev.mbxSlot c.val 1 k.val).posted then (s.onDev (·.peerMail go c.val k.val data)).mbxRun c.val else s
  | .mailEnd c k st =>
    if s.dev.spansTo c.val p ∧ (s.dev.mbxSlot c.val 0 k.val).posted then
      (s.onDev fun d => if st = ST_OK then d.slotFree c.val 0 k.val ST_OK else d.mbxDiscard c.val 0 k.val st).mbxRun c.val
    else s
  | .mailGone c k =>
    if s.dev.spansTo c.val p ∧ (s.dev.mbxSlot c.val 1 k.val).posted then s.onDev fun d => d.setSlot c.val 1 k.val {} |>.updEnd c.val 1 fun x =>
      { x with order := x.order.filter (· != k.val) }
    else s
  | .mailNames c names => (s.onDev fun d => d.peerNames p ((d.mbx.peerChans.get p).filter (· != c.val) ++ if names then [c.val] else [])).mbxRun c.val
  | .mailReset c => if s.dev.spansTo c.val p then (s.onDev (·.mbxResetEnd c.val 1)).mbxRun c.val else s
  | .mailOpen c can => if s.dev.spansTo c.val p then s.onDev (·.updEnd c.val 1 fun x => { x with opened := can }) else s

def execPeerRequest (peer : Fin 4) (r : PeerReq) (rivals : List Rival) (s : State) : Host.Outcome State Fault Refusal :=
  .next (if s.dev.peerUp? peer.val then s.peerServe peer.val rivals r else s)

/-! Bindings (R540, R541, R545). -/

/-- A requester may bind a slot: one of an owner within its family, or any for the Secure world. -/
def Dev.mayBind (d : Dev) (who : Fn) (s : Nat) : Bool := d.secure who || (d.slotOwner s != 0 && d.mayGive who (d.slotOwner s))

/-- A write of CNV_RLB: in force at the latch of the slot's output, at once where nothing scans it. -/
def rlbWrite (who : Fn) (r : Nat) (val : Word) (d : Dev) : Dev :=
  let old := d.f CNV_RLB.SLOT r
  if !(d.mayBind who (CNV_RLB.SLOT.get val) && (!d.fb CNV_RLB.EN r || d.mayBind who old)) then d.werr who .CNV_RLB r
  else
    let d1 := d.write who .CNV_RLB r val
    let idle := fun (s : Nat) => match d1.slotOut s with | some n => !d1.tgScans n | none => true
    if idle (d1.f CNV_RLB.SLOT r) && (d1.fl CNV_RLB.EN r = 0 || idle (d1.fl CNV_RLB.SLOT r)) then d1.latch .CNV_RLB r else d1

/-- A new MEMBERS mask is applied (R531): links of positions that leave go down, and those of new members train; the
source of LTIME follows (R46). -/
def Dev.applyMembers (d : Dev) (m : Nat) : Dev :=
  let d1 := d.setF CNV_STAT.MEMBERS 0 m
  let d2 := (List.range 3).foldl (fun (d : Dev) k =>
    if d.cnvTrains k then (if d.fb CNV_PORT_STAT.UP k then d else d.setF CNV_PORT_STAT.TRAINING k 1)
    else if d.fb CNV_PORT_STAT.UP k then d.linkDown k false
    else d.setF CNV_PORT_STAT.TRAINING k 0) d1
  let d3 := d2.syncSource
  if d3.member ∧ d3.f CNV_STAT.POSITION 0 = 0 then (if d3.fb CNV_STAT.LOCKED 0 then d3 else (d3.setF CNV_STAT.LOCKED 0 1).raise 469) else d3

end Sys2Proof.Machine
end

