-- ==== Sys2Proof/Machine/Lock.lean ====
section
/-! DEFINITION. Lock tables: their images, what makes one valid, and how one takes effect (R97 to R107, R472, R473). -/

namespace Sys2Proof.Machine

/-! Flash (R549). -/

/-- What an erased byte reads as. -/
def flashDefault : Nat → Byte := fun _ => 0xFF

def Dev.flashBytes (d : Dev) (a n : Nat) : List Byte := (List.range n).map fun k => Tbl.getD flashDefault d.mgt.flash (a + k)

def flashPut : List Host.Cell → Nat → List Byte → List Host.Cell
  | fl, _, [] => fl
  | fl, a, b :: t => flashPut (Tbl.putD flashDefault fl a b) (a + 1) t

def flashErase (fl : List Host.Cell) (a n : Nat) : List Host.Cell := fl.filter fun c => !decide (a ≤ c.1 ∧ c.1 < a + n)

/-- Erase a range and program it. -/
def Dev.flashWrite (d : Dev) (a n : Nat) (bs : List Byte) : Dev :=
  { d with mgt := { d.mgt with flash := flashPut (flashErase d.mgt.flash a n) a bs } }

/-- The lock-table copies: their offset and their room, which ends before the closing record. -/
def lockCopy (k : Nat) : Nat := 0x1000000 + 0x20000 * k

def lockRoom : Nat := 0x20000 - 64

/-- The write sequence in the closing record of a copy (log entry 28: its first word); erased flash closes no copy. -/
def Dev.lockSeq (d : Dev) (k : Nat) : Nat := (le (d.flashBytes (lockCopy k + lockRoom) 4) 0 4 + 1) % 2 ^ 32

/-! Images (R98, R99). -/

/-- One entry of a mailbox-binding section (R472). -/
structure MbxBind where
  chan : Nat
  a : Nat
  b : Nat
  flags : Nat
deriving DecidableEq, Repr, Inhabited

/-- What a lock table says. -/
structure LockImg where
  tableBase : Nat := 0
  secureVf : Nat := 0
  epoch : Nat := 0
  shared : List Grant := []
  wb : List Grant := []
  binds : List MbxBind := []
  pins : List Nat := []
  worlds : List Nat := []
  holdPwr : Nat := 0
  holdClk : Nat := 0
deriving DecidableEq, Repr, Inhabited

/-- Entry size of each section type (R99). -/
def secSize : Nat → Option Nat
  | 1 => some 24
  | 2 => some 16
  | 3 => some 4
  | 4 => some 16
  | 5 => some 8
  | 6 => some 8
  | _ => none

/-- The section descriptors: type, entry count and offset. -/
def lockSecs (img : List Byte) : List (Nat × Nat × Nat) :=
  (List.range (le img 12 4)).map fun k => (le img (64 + 8 * k) 2, le img (66 + 8 * k) 2, le img (68 + 8 * k) 4)

/-- The entries of a section. -/
def secEntries (img : List Byte) (s : Nat × Nat × Nat) : List (List Byte) :=
  let n := (secSize s.1).getD 0
  (List.range s.2.1).map fun k => (img.drop (s.2.2 + n * k)).take n

def LockImg.addEntry (t : LockImg) (ty : Nat) (e : List Byte) : LockImg :=
  match ty with
  | 1 => { t with shared := t.shared ++ [⟨le e 0 8, le e 8 4, le e 12 4 % 16, le e 16 8 % 4⟩] }
  | 2 => { t with wb := t.wb ++ [⟨le e 0 8, le e 8 4, 0, le e 12 4 % 4096⟩] }
  | 3 => { t with binds := t.binds ++ [⟨le e 0 1, le e 1 1, le e 2 1, le e 3 1⟩] }
  | 4 => { t with pins := (List.range 4).map fun k => le e (4 * k) 4 }
  | 5 => { t with worlds := (List.range 4).map fun k => le e (2 * k) 2 }
  | 6 => { t with holdPwr := le e 0 4, holdClk := le e 4 4 }
  | _ => t

def LockImg.parse (img : List Byte) : LockImg :=
  (lockSecs img).foldl (fun t s => (secEntries img s).foldl (fun t e => t.addEntry s.1 e) t)
    { tableBase := le img 24 8, secureVf := le img 32 8, epoch := le img 6 2 }

/-! Validity (R100, R473). -/

/-- A MID that may be an end of a channel (R472). -/
def bindMid (m : Nat) : Bool := m == 1 || m == 2 || m == 4 || m == 5 || decide (0x10 ≤ m ∧ m < 0x50)

def bindsOk (bs : List MbxBind) : Bool :=
  bs.all (fun b => decide (b.chan < 64) && bindMid b.a && bindMid b.b && decide (b.flags < 8) && (bit b.flags 0 || b.a != b.b)) &&
    (bs.map MbxBind.chan).eraseDups.length == bs.length

/-- Bytes `a` to `a + n - 1` are populated memory. -/
def Dev.rangePopulated (d : Dev) (a n : Nat) : Bool := n == 0 || d.inDevice a (a + n - 1)

def Dev.grantOk (d : Dev) (base : Nat) (g : Grant) : Bool :=
  g.base % 4096 == 0 && d.rangePopulated g.base (4096 * g.pages) &&
    !decide (g.base < base + d.tableSize ∧ base < g.base + 4096 * g.pages)

/-- The form of an image of `room` bytes at most: everything of R100 but the signature. -/
def Dev.lockForm (d : Dev) (img : List Byte) (room : Nat) : Bool :=
  let len := le img 8 4
  le img 0 4 == 0x4C544B4C && le img 4 2 == 1 && decide (160 ≤ len ∧ len ≤ room) &&
    decide (1 ≤ le img 12 4 ∧ le img 12 4 ≤ 32) && (le img 16 8 == 0 || le img 16 8 == d.mgt.serial) &&
    decide (d.mgt.epochSteps ≤ le img 6 2) &&
    ((lockSecs img).all fun s => match secSize s.1 with | some n => decide (s.2.2 + n * s.2.1 + 96 ≤ len) | none => false)

/-- The places that an image names. -/
def Dev.lockPlaces (d : Dev) (t : LockImg) : Bool :=
  t.tableBase % 4096 == 0 && d.rangePopulated t.tableBase d.tableSize && t.shared.all (d.grantOk t.tableBase) &&
    t.wb.all (d.grantOk t.tableBase) && bindsOk t.binds

/-- Acholt accepts the image (R100). -/
def Dev.lockValid (d : Dev) (img : List Byte) (room : Nat) : Bool :=
  let len := le img 8 4
  d.lockForm img room && d.lockPlaces (LockImg.parse img) && Config.signatureVerifies (img.take (len - 96)) ((img.drop (len - 96)).take 96)

/-! Taking effect (R102 to R107). -/

/-- A GPIO gives up its functions: amplifier enable (R469), rail pin and wake source (R598). -/
def Dev.gpioReset (d : Dev) (g : Nat) : Dev :=
  let d1 := (List.range 8).foldl (fun (d : Dev) k => if d.f AUD_AMP_CFG.PIN k = g then d.setF AUD_AMP_CFG.EN k 0 else d) d
  let d2 := if d1.f PWR_STATE_CTRL.RAIL_PIN 0 = g then d1.setF PWR_STATE_CTRL.RAIL_PIN 0 0x3F else d1
  let r : Reg := if g < 32 then .PWR_WAKE_GPIO_LO else .PWR_WAKE_GPIO_HI
  d2.setReg r 0 (d2.reg r 0 &&& ~~~BitVec.ofNat 32 (2 ^ (g % 32)))

/-- A pin whose world bit changes returns to its reset state, high-impedance and without function (R104). -/
def Dev.pinReset (d : Dev) (w b : Nat) : Dev :=
  if w = 0 ∨ w = 1 ∧ b < 16 then d.gpioReset (32 * w + b)
  else if w = 1 ∧ b < 24 then d.setReg .HAP_TRIG_CFG (b - 16) (Reg.resetAt .HAP_TRIG_CFG (b - 16))
  else if w = 1 ∧ b < 28 then (d.setBoth TCH_WAKE_CFG.PIN_EN (b - 24) 0).setF TCH_WAKE_CFG.PIN_ASSERTED (b - 24) 0
  else if w = 2 ∧ b < 12 then d.setF DSP_BL_CTRL.EN_MODE b 0
  else if w = 2 ∧ b < 24 then
    let n := b - 12
    let d0 := d.setReg .DSP_BL_CTRL n (DSP_BL_CTRL.EN_MODE.put (Reg.resetAt .DSP_BL_CTRL n) (d.f DSP_BL_CTRL.EN_MODE n))
    let d1 := (d0.setReg .DSP_BL_PWM n (Reg.resetAt .DSP_BL_PWM n)).latch .DSP_BL_PWM n
    d1.updOut n fun o => { o with pwmPeriod := d1.fl DSP_BL_PWM.PERIOD n, pwmDuty := 0 }
  else d

/-- Bits that OWN_PIN_WORLD gives a pin (R103). -/
def pinMask (w : Nat) : Nat := [0xFFFFFFFF, 0x0FFFFFFF, 0x00FFFFFF, 0].getD w 0

def Dev.setPins (d : Dev) (w v : Nat) : Dev :=
  let old := (d.reg .OWN_PIN_WORLD w).toNat
  let new := v &&& pinMask w
  (List.range 32).foldl (fun (d : Dev) b => if bit old b == bit new b then d else d.pinReset w b) (d.setReg .OWN_PIN_WORLD w (BitVec.ofNat 32 new))

/-- MBX_BIND as an entry asks for it. -/
def bindWord (bs : List MbxBind) (c : Nat) : Nat :=
  match bs.find? fun b => b.chan == c with
  | some b => b.a + 2 ^ 8 * b.b + 2 ^ 16 * (b.flags % 8)
  | none => 0

/-- A channel whose binding changes is discarded in both directions as though both ends had reset, and a spanning one is up where the peer names it (R473,
R474). Bulk commands of a function that is no end of the channel any more end with NOT_OWNER; the others go on at their end (DESIGN CHOICE, log entry
167). -/
def Dev.setBind (d : Dev) (c v : Nat) : Dev :=
  if (d.reg .MBX_BIND c).toNat % 2 ^ 19 = v then d
  else
    let d1 := ((((d.tellPeer c 0 7 0).mbxResetEnd c 0).mbxResetEnd c 1).setReg .MBX_BIND c (BitVec.ofNat 32 v))
    let d2 := (d1.setF MBX_BIND.UP c (b2n (d1.spanUp c))).tellPeer c 0 7 1
    (d2.mbx.bulk.filter fun b => b.chan == c).foldl (fun (d : Dev) b =>
      match d.mbxSide c b.code with
      | some e => d.setBulk { b with side := e }
      | none => d.endBulk b ST_NOT_OWNER (errByte 32)) d2

/-- The marks of secure VFs (R98, R111). -/
def Dev.setSecureVfs (d : Dev) (m : Nat) : Dev :=
  let d1 := { d with own := { d.own with secureVf := m } }.setReg64 .OWN_SECURE_VF_LO .OWN_SECURE_VF_HI 0 m
  (List.range 64).foldl (fun (d : Dev) v => d.setF GLB_VF_STAT.SECURE v (b2n (bit m v))) d1

/-- Everything that a lock table fixes but the place of the ownership table takes effect, and Acholt logs it (R102, R561). An image without a
pin-world, channel-world or hold section clears those in force (DESIGN CHOICE, log entry 125). -/
def Dev.applyLock (d : Dev) (t : LockImg) (dflt : Bool) : Dev :=
  let d1 := d.setSecureVfs t.secureVf
  let d2 := { d1 with own := { d1.own with shared := t.shared, wbGrants := t.wb } }
  let d3 := (List.range 4).foldl (fun (d : Dev) w => d.setPins w (t.pins.getD w 0)) d2
  let d4 := (List.range 4).foldl (fun (d : Dev) e => d.setWorlds e (BitVec.ofNat 32 (t.worlds.getD e 0))) d3 |>.cpBeginAll
  let d5 := (d4.setReg .OWN_HOLD_PWR 0 (BitVec.ofNat 32 (t.holdPwr % 2 ^ 24))).setReg .OWN_HOLD_CLK 0 (BitVec.ofNat 32 (t.holdClk % 2 ^ 31))
  let d6 := (List.range 64).foldl (fun (d : Dev) c => d.setBind c (bindWord t.binds c)) d5
  let d7 := (d6.evSync d (List.range 512)).setF OWN_LOCK_STAT.EPOCH 0 t.epoch
  (d7.setF OWN_LOCK_STAT.LOCK_DEFAULT 0 (b2n dflt)).log 0x05 (b2n dflt) (if dflt then 488 else 0xFFFF) (toLe t.epoch 2 ++ toLe (b2n dflt) 1)

/-! Start-up (R101). -/

/-- The default lock table: the ownership table at the top of populated LPDDR5X. -/
def Dev.defaultLock (d : Dev) : LockImg := { tableBase := ddrBase + d.msys.ddrBytes - d.tableSize }

/-- The valid copy that has the higher write sequence. -/
def Dev.bootLock (d : Dev) : Option LockImg :=
  let img := fun k => d.flashBytes (lockCopy k) lockRoom
  let ok := fun k => d.lockValid (img k) lockRoom
  let first := if d.lockSeq 0 ≤ d.lockSeq 1 then 1 else 0
  if ok first then some (LockImg.parse (img first)) else if ok (1 - first) then some (LockImg.parse (img (1 - first))) else none

/-- The ownership table is placed. -/
def Dev.placeTable (d : Dev) (base : Nat) : Dev :=
  let d1 := { d with own := { d.own with tableBase := base, bootWaiting := false } }
  (d1.setReg64 .OWN_TABLE_BASE_LO .OWN_TABLE_BASE_HI 0 base).setReg .OWN_TABLE_SIZE 0 (BitVec.ofNat 32 d1.tableSize)

/-- Steps 4 to 6: the table is initialised, every section is applied, LOCKED is set, and the host ports and SP0 are enabled. -/
def State.lockNow (s : State) (t : LockImg) (dflt : Bool) : State :=
  let s1 := ((s.onDev (·.placeTable t.tableBase)).initTable).onDev fun d => (d.applyLock t dflt).setF OWN_LOCK_STAT.LOCKED 0 1
  s1.onDev fun d =>
    let d1 := d.setF OWN_LOCK_STAT.EPOCH_FLOOR 0 d.mgt.epochSteps
    let d2 := (List.range 2).foldl (fun (d : Dev) p => { d with ports := d.ports.upd p fun x => { x with enabled := true, linkUp := !x.inReset } }) d1
    { d2 with mgt := { d2.mgt with earlyDue := d2.mgt.bootSel == 0 || d2.mgt.bootSel == 3 } }

/-- Acholt finds no valid image: LOCK_DEFAULT is set and the event raised before step 3, once. -/
def Dev.foundNoLock (d : Dev) (dflt : Bool) : Dev :=
  if dflt && !d.own.bootWaiting then (d.setF OWN_LOCK_STAT.LOCK_DEFAULT 0 1).raise 488 else d

/-- Acholt loads the lock table, which waits for LPDDR5X training where the ownership table lies there. -/
def State.lockBoot (s : State) : State :=
  if !s.dev.acholtRuns || s.dev.fb OWN_LOCK_STAT.LOCKED 0 then s
  else
    let (t, dflt) := match s.dev.bootLock with | some t => (t, false) | none => (s.dev.defaultLock, true)
    let s1 := s.onDev (·.foundNoLock dflt)
    if ddrBase ≤ t.tableBase ∧ ¬s.dev.msys.trained then s1.onDev fun d => { d with own := { d.own with bootWaiting := true } }
    else s1.lockNow t dflt

def execLockTableBootLoad (s : State) : Host.Outcome State Fault Refusal := .next s.lockBoot

end Sys2Proof.Machine
end

