-- ==== Sys2Proof/Machine/Early.lean ====
section
/-! DEFINITION. The early view: how an entry is brought up and ended (R567 to R570), and the latch instants, at which it ends. -/

namespace Sys2Proof.Machine

/-! Pages. -/

/-- Pages that a range of bytes touches, as page numbers from address 0. -/
def pageSpan (a n : Nat) : List Nat := if n = 0 then [] else (List.range ((a + n - 1) / 4096 + 1 - a / 4096)).map (a / 4096 + ·)

/-- Assign pages under R92 with KEEP 0: pages of another owner are zero-filled. -/
def State.givePages (s : State) (ks : List Nat) (owner : Nat) : State :=
  ks.foldl (fun (s : State) k =>
    let a := pageAddr k
    (if s.ownerOf a = owner then s else s.zeroPage a).setOwnByte a (BitVec.ofNat 8 owner)) s

/-- The checks of R92 on a range, for Acholt in secure mode. -/
def State.pagesOk (s : State) (ks : List Nat) : Bool := ks.all fun k => s.dev.populated (pageAddr k) && !s.dev.inTable (pageAddr k)

/-! Ending (R570). -/

/-- The slot of an entry returns to no owner. -/
def Dev.earlySlot (d : Dev) (slot owner out : Nat) : Dev :=
  ((d.setF DSP_SLOT_ASSIGN.OWNER slot owner).setF DSP_SLOT_ASSIGN.OUTPUT slot out).setF DSP_SLOT_ASSIGN.PENDING slot 1 |>.applySlot slot

/-- The slot of an entry is hidden, its context stops, and slot, context and stream pages return to 0x00. -/
def State.earlyReturn (s : State) (e : EarlyEntry) : State :=
  let s1 := if e.camera then s.onDev fun d =>
      (((d.hideSlot e.slot 1 (d.out e.output).compose).earlySlot e.slot 0 e.output).csChangeOwner e.cs 0) else s
  (s1.givePages ((List.range e.pages).map (e.firstPage + ·)) 0).onDev fun d =>
    let rest := d.mgt.early.filter fun x => x.output != e.output
    { d with mgt := { d.mgt with early := rest } }.setF MGT_STAT.EARLY 0 (b2n !rest.isEmpty)

/-- Commands of SUB 1 whose last output has ended complete. -/
def Dev.earlyEnds (d : Dev) : Dev :=
  let live := fun (d : Dev) (m : Nat) => d.mgt.early.any fun e => e.ending && bit m e.output
  let done := d.mgt.earlyEnds.filter fun x => !live d x.2
  let d1 := d.endAll (done.map (·.1)) ST_OK 0
  { d1 with mgt := { d1.mgt with earlyEnds := d1.mgt.earlyEnds.filter fun x => live d x.2 } }

/-- Entries that are to end do so at the latch of their output. -/
def State.earlyLatch (s : State) (ns : List Nat) : State :=
  let es := s.dev.mgt.early.filter fun e => e.ending && ns.contains e.output
  if es.isEmpty then s else (es.foldl State.earlyReturn s).onDev Dev.earlyEnds

/-! Latch instants. -/

/-- The latch instants of a round (R189, R274, R281). -/
def execLatch (n : Fin 12) (also : List (Fin 12)) (peers : List PeerView) (s : State) : Host.Outcome State Fault Refusal :=
  let ns := s.dev.latchOuts n.val (also.map (·.val))
  let run := ns.filter fun m => s.dev.tgScans m
  .next (s.jointly fun s => ((run.foldl State.completeFrame s).earlyLatch run).onDev (·.latchRound ns peers))

def execTgStart (n : Fin 12) (peers : List PeerView) (s : State) : Host.Outcome State Fault Refusal := .next (s.onDev (·.jointly (·.tgStart n.val peers)))

def execTgStartTimeout (n : Fin 12) (peers : List PeerView) (s : State) : Host.Outcome State Fault Refusal :=
  .next (s.onDev (·.jointly (·.tgStartTimeout n.val peers)))

/-! Images (R567). -/

/-- Where the early-view area begins, and its size (R549). -/
def earlyArea : Nat := 0x1080000

def earlyRoom : Nat := 0x400000

/-- One entry of 512 bytes. -/
def earlyEntry (img : List Byte) (k : Nat) : List Byte := (img.drop (64 + 512 * k)).take 512

/-- The 68-byte body and continuation of the stream's STREAM_SET, the record, and the Canopy's body. -/
def earlyStream (e : List Byte) : Cmd :=
  { lead := [0x50, 0x01] ++ List.replicate 30 0 ++ (e.drop 40).take 32
    conts := [[0x01, 0x00] ++ (e.drop 72).take 16 ++ List.replicate 46 0], secure := true }

def earlyRec (e : List Byte) : List Byte := (e.drop 88).take 62

def earlyCanopy (e : List Byte) : List Byte := (e.drop 152).take 32

/-- The field ranges of an entry (log entry 29). -/
def earlyEntryOk (len : Nat) (e : List Byte) : Bool :=
  let cam := bit (le e 1 1) 0
  let cnp := bit (le e 1 1) 1
  decide (le e 0 1 < 12) && decide (le e 1 1 < 16) && decide (le e 2 2 < 384) && !bit (le e 4 4) 0 && le e 150 2 == 0 &&
    ((List.range 64).all fun k => le e (192 + k) 1 == 0) && (!cam || (decide (le e 40 1 < 16) && LRec.reserved (earlyRec e) == none)) &&
    (!cnp || decide (le e 184 4 + le e 168 2 * le e 176 2 ≤ len)) && (le e 188 4 == 0 || decide (le e 188 4 + 4160 ≤ len))

/-- MAGIC, FORMAT, CRC and field ranges. -/
def earlyImageOk (img : List Byte) (room : Nat) : Bool :=
  let len := le img 8 4
  let n := le img 6 1
  le img 0 4 == 0x57564C45 && le img 4 2 == 1 && decide (1 ≤ n ∧ n ≤ 4) && le img 7 1 == 0 && decide (64 + 512 * n ≤ len ∧ len ≤ room) &&
    ((List.range 48).all fun k => le img (16 + k) 1 == 0) && crcOf 1 ((img.take len).drop 64) == le img 12 4 &&
    ((List.range n).all fun k => earlyEntryOk len (earlyEntry img k))

/-! Applying an entry (R568). -/

/-- What the entry brings up. -/
def EarlyEntry.of (e : List Byte) : EarlyEntry :=
  let x : CsSt := { cfg := (e.drop 40).take 32, cont := (e.drop 72).take 16 ++ List.replicate 46 0 }
  let size := if x.lineLocked then x.ring * x.stride * (if x.fmt = 6 then 2 else 1) else x.nbuf * x.pitch
  let ps := if bit (le e 1 1) 0 then pageSpan x.bufBase size else []
  { output := le e 0 1, slot := le e 2 2 % 512, cs := le e 40 1 % 16, pfEnd := bit (le e 1 1) 3, firstPage := x.bufBase / 4096
    pages := ps.length, camera := bit (le e 1 1) 0, canopy := bit (le e 1 1) 1, ending := false }

/-- The outcome of a step: the status with which it fails. -/
abbrev StepRes := State × Option Nat

/-- Run a step where the one before it passed; a failure carries the number of its step. -/
def earlyThen (r : State × Option (Nat × Nat)) (k : Nat) (g : State → StepRes) : State × Option (Nat × Nat) :=
  match r with
  | (s, none) => match g s with
    | (s1, none) => (s1, none)
    | (s1, some st) => (s1, some (k, st))
  | x => x

/-- A register write that the block refuses fails its step: it sets WERR, which is otherwise left as it was. -/
def regStep (F : Fld) (i : Nat) (g : Dev → Dev) (s : State) : StepRes :=
  let was := s.dev.f F i
  let d1 := g (s.dev.setF F i 0)
  if d1.f F i = 0 then ({ s with dev := d1.setF F i was }, none) else ({ s with dev := d1 }, some ST_BAD_FIELD)

def canopyBytes (e : List Byte) : Nat := le e 168 2 * le e 176 2

def early1 (x : EarlyEntry) (e : List Byte) (s : State) : StepRes :=
  let ps := (List.range x.pages).map (x.firstPage + ·)
  let cs := if x.canopy then pageSpan (le e 160 8) (canopyBytes e) else []
  if s.pagesOk ps && s.pagesOk cs then ((s.givePages ps 2).givePages cs 1, none) else (s, some ST_BAD_GEOMETRY)

def early2 (x : EarlyEntry) (e img : List Byte) (s : State) : StepRes :=
  if x.canopy then
    match s.writeMem ⟨0x02, true⟩ 13 (le e 160 8) ((img.drop (le e 184 4)).take (canopyBytes e)) with
    | (s1, true) => (s1, none)
    | (s1, false) => (s1, some ST_OWN_REFUSED)
  else (s, none)

def early3 (x : EarlyEntry) (s : State) : StepRes :=
  if x.camera then (s.onDev fun d => (d.earlySlot x.slot 2 x.output).csChangeOwner x.cs 2, none) else (s, none)

def word (e : List Byte) (o : Nat) : Word := BitVec.ofNat 32 (le e o 4)

/-- The registers of step 4: the generator, its route, its port and the receive port. -/
def earlyRegs (x : EarlyEntry) (e : List Byte) : List (State → StepRes) :=
  let n := x.output
  let route := Config.earlyRoute e
  let p := route % 32
  let put := fun (r : Reg) (o : Nat) => regStep DSP_TG_STAT.WERR n (·.write .acholt r n (word e o))
  let rx := le e 42 1
  [regStep DSP_TG_STAT.WERR n (tgCtrlWrite .acholt n (word e 4)), put .DSP_TG_H0 8, put .DSP_TG_H1 12, put .DSP_TG_V0 16, put .DSP_TG_V1 20,
   put .DSP_TG_PCLK 24, regStep DSP_TG_STAT.WERR n (glWrite .acholt n (word e 28)),
   regStep DSP_TG_STAT.WERR n (routeWrite .acholt n (BitVec.ofNat 32 route)),
   regStep DSP_PORT_STAT.WERR p (portCfgWrite .acholt p (word e 32 &&& ~~~(1 : Word))),
   fun s => if x.camera && rx != 0x1E then regStep VIN_RX_STAT.WERR rx (rxCfgWrite .acholt rx (word e 36)) s else (s, none)]

/-- A command's own status, carried by the reference of no queue. -/
def noCmd : CmdRef := ⟨2 ^ 32, 0⟩

def earlyStreamStep (x : EarlyEntry) (e : List Byte) (s : State) : StepRes :=
  if !x.camera then (s, none)
  else match s.dev.streamSetErr (earlyStream e) 2 with
    | some (st, _) => (s, some st)
    | none =>
      let d1 := s.dev.streamSet noCmd 2 (earlyStream e)
      if d1.csClash x.cs then (s, some ST_RESOURCE_LIMIT) else ({ s with dev := d1.csBegin x.cs }, none)

/-- The group that a COMMIT of the record would make. -/
def earlyGroup (x : EarlyEntry) (e : List Byte) : Group :=
  let b := earlyRec e
  { kind := .commit, code := 2, queue := 2 ^ 32, sec := true, mask := 2 ^ x.output, anchor := x.output
    recs := [{ r := LRec.parse b, cmd := 0, cont := 1, rsv := LRec.reserved b }] }

def earlyLayerStep (x : EarlyEntry) (e : List Byte) (s : State) : StepRes :=
  if !x.camera then (s, none)
  else match s.dev.validate (earlyGroup x e) [] with
    | some err => (s, some err.status)
    | none => (s.onDev fun d =>
        let g := earlyGroup x e
        (d.landEffect { g with recs := g.recs.map (d.settle []) } x.output).raise (outEv x.output 1), none)

/-- The checks of R254 on the window table and the output-stage image of the entry. -/
def earlyTablesBad (d : Dev) (n : Nat) (tab ost : List Byte) : Option Nat :=
  let ent := fun (chk : List Byte → Bool) => (List.range 16).any fun k => chk (tab.drop (16 * k))
  if (ent fun e => le e 12 2 / 2 ^ 13 != 0 || le e 14 2 != 0) || (ost != [] && (le ost 0 4 / 16 != 0 || le ost 0 4 % 4 == 3 ||
      le ost 4 60 != 0 || (List.range 1024).any fun k => le ost (64 + 4 * k) 4 / 2 ^ 16 != 0)) then some ST_BAD_FIELD
  else if ent fun e => bit (le e 12 2) 0 && !d.inActive n (le e 0 2) (le e 2 2) (le e 4 2) (le e 6 2) then some ST_BAD_GEOMETRY
  else none

def earlyCanopyGroup (x : EarlyEntry) (e : List Byte) : Group :=
  { kind := .canopy, code := 1, queue := 2 ^ 32, sec := true, body := earlyCanopy e, mask := 2 ^ x.output, anchor := x.output }

def earlyCanopyStep (x : EarlyEntry) (e img : List Byte) (s : State) : StepRes :=
  let n := x.output
  let o := le e 188 4
  let ost := if o = 0 then [] else (img.drop o).take 4160
  let tab := (e.drop 256).take 256
  if !x.canopy then (s.onDev (·.setFinal n ost), none)
  else match firstError (s.canopyChecks (earlyCanopyGroup x e)), earlyTablesBad s.dev n tab ost with
    | some (st, _), _ => (s, some st)
    | none, some st => (s, some st)
    | none, none => (s.onDev fun d =>
        (((d.setFinal n ost).landCanopy { earlyCanopyGroup x e with ext := 1, data := tab } n).raise (outEv n 1)), none)

/-- Step 5: the generator and the port are enabled, with their locks where the entry asks for them. -/
def early5 (x : EarlyEntry) (e : List Byte) (s : State) : StepRes :=
  let n := x.output
  let p := Config.earlyRoute e % 32
  let lock := bit (le e 1 1) 2
  match regStep DSP_TG_STAT.WERR n (tgCtrlWrite .acholt n (word e 4 ||| 1 ||| (if lock then (0x4000 : Word) else 0))) s with
  | (s1, none) => regStep DSP_PORT_STAT.WERR p (portCfgWrite .acholt p (word e 32 ||| 1 ||| (if lock then (0x800 : Word) else 0))) s1
  | r => r

/-- A step has failed: generator and port are turned off, slot, context and stream pages return, and the Canopy stays disabled (R568). -/
def State.earlyFail (s : State) (x : EarlyEntry) (e : List Byte) (k st : Nat) : State :=
  let n := x.output
  let p := Config.earlyRoute e % 32
  let s1 := s.onDev fun d =>
    let d1 := if d.tgOn n then d.tgStop n else d
    let d2 := portCfgWrite .acholt p (d1.reg .DSP_PORT_CFG p &&& ~~~(1 : Word)) d1
    (d2.updOut n fun o => { o with canopy := {}, failHeld := false }).setF DSP_CNP_STAT.ENABLED n 0
  let s2 := if 3 ≤ k then s1.earlyReturn x else if 2 ≤ k then s1.earlyReturn { x with camera := false } else s1
  s2.onDev fun d => (d.log 0x0E 2 491 (toLe n 1 ++ toLe k 1 ++ toLe st 1)).raise 491

/-- Every step of an entry. -/
def State.earlyApply (s : State) (img : List Byte) (k : Nat) : State :=
  let e := earlyEntry img k
  let x := EarlyEntry.of e
  let r0 := earlyThen (earlyThen (earlyThen (s, none) 1 (early1 x e)) 2 (early2 x e img)) 3 (early3 x)
  let r1 := (earlyRegs x e).foldl (fun r g => earlyThen r 4 g) r0
  let r2 := earlyThen (earlyThen (earlyThen r1 4 (earlyStreamStep x e)) 4 (earlyLayerStep x e)) 4 (earlyCanopyStep x e img)
  match earlyThen r2 5 (early5 x e) with
  | (s1, none) => s1.onDev fun d => { d with mgt := { d.mgt with early := d.mgt.early ++ [x] } }.setF MGT_STAT.EARLY 0 1
  | (s1, some (j, st)) => s1.earlyFail x e j st

/-- Acholt in secure mode applies the early-view image, once after LOCKED is set (R568, R593). -/
def State.earlyAll (s : State) : State :=
  if !s.dev.acholtRuns || !s.dev.own.acholtSecure || !s.dev.fb OWN_LOCK_STAT.LOCKED 0 || !s.dev.mgt.earlyDue then s
  else
    let s1 := s.onDev fun d => { d with mgt := { d.mgt with earlyDue := false } }
    let len := le (s1.dev.flashBytes earlyArea 64) 8 4
    if 64 ≤ len ∧ len ≤ earlyRoom then
      let img := s1.dev.flashBytes earlyArea len
      if earlyImageOk img earlyRoom then (List.range (le img 6 1)).foldl (fun s k => s.earlyApply img k) s1 else s1
    else s1

def execEarlyViewApply (s : State) : Host.Outcome State Fault Refusal := .next s.earlyAll

end Sys2Proof.Machine
end

