-- ==== Sys2Proof/Machine/Mgt.lean ====
section
/-! DEFINITION. Acholt: sensors, the event log, firmware, the Bench, keys, early view, calendar and serial buses (R546 to R576). -/

namespace Sys2Proof.Machine

def Dev.updMgt (d : Dev) (g : MgtSt → MgtSt) : Dev := { d with mgt := g d.mgt }

/-! What the commands share (R546, R547). -/

/-- The submitter is PF0, PF1 or SP0. -/
def mgtSubmitter : Fn → Bool
  | .pf _ | .sp0 => true
  | _ => false

/-- Checks of a management command: the submitter where no right is needed, EXT, continuations, and the bytes of the body that are named, as
ranges that are not to be 0. -/
def mgtHead (f : Fn) (c : Cmd) (anyone : Bool) (named : Nat → Bool) : List (Bool × Nat × Nat) :=
  [(!anyone && !mgtSubmitter f, ST_NOT_PERMITTED, errOutside), (c.ext != 0, ST_BAD_FIELD, errOutside),
   (!c.conts.isEmpty, ST_BAD_FIELD, errAt 32),
   (((List.range 32).any fun k => !named (32 + k) && c.u (32 + k) 1 != 0), ST_BAD_FIELD,
     errByte (32 + ((List.range 32).find? fun k => !named (32 + k) && c.u (32 + k) 1 != 0).getD 0))]

def within (lo hi b : Nat) : Bool := decide (lo ≤ b ∧ b ≤ hi)

/-- The buffer of `n` bytes is aligned and lies in populated memory. -/
def Dev.mgtBuf (d : Dev) (c : Cmd) (n : Nat) : Bool × Nat × Nat :=
  (c.u 40 8 % 64 != 0 || !d.inDevice (c.u 40 8) (c.u 40 8 + max 1 n - 1), ST_BAD_GEOMETRY, errByte 40)

/-- The first line of a range that R87 refuses. -/
def State.refusedLine (s : State) (r : Req) (a n : Nat) (write : Bool) : Option Nat :=
  ((List.range ((n + 63) / 64)).map fun k => a + 64 * k).find? fun x => !s.checkAccess r 13 x write

/-- Write a buffer for a command: a refusal leaves it as it was. -/
def State.mgtWrite (s : State) (r : Req) (a : Nat) (bs : List Byte) : StepRes :=
  match s.refusedLine r a bs.length true with
  | some x => (s.refuseAt r 13 x true, some ST_OWN_REFUSED)
  | none => ((s.writeMem r 13 a bs).1, none)

def cmdReq (f : Fn) (c : Cmd) : Req := ⟨f.code, c.secure⟩

/-- Complete a command after its buffer has been written. -/
def State.finish (r : StepRes) (ref : CmdRef) (status result : Nat) : State :=
  match r with
  | (s, none) => s.onDev (·.endCmd ref status result)
  | (s, some st) => s.onDev (·.endCmd ref st 0)

/-- Run a command whose checks pass, with the bytes of its buffer. -/
def State.withBuffer (s : State) (f : Fn) (ref : CmdRef) (c : Cmd) (n : Nat) (g : List Byte → State → State) : State :=
  match s.readMem (cmdReq f c) 13 (c.u 40 8) n with
  | (s1, .ok bs) => g bs s1
  | (s1, e) => s1.onDev (·.endCmd ref e.status 0)

/-! Sensors (R557 to R559). -/

/-- The layout of PWR_PROBE_DATA for probe `i` (R34). -/
def Dev.probeWord (d : Dev) (i : Nat) : Nat :=
  match d.pace.probes.get i with
  | some p => p % 2 ^ 16 + 2 ^ 16
  | none => 0

/-- The image of a sensor window that ends now. -/
def Dev.sensorImage (d : Dev) : List Byte :=
  toLe d.now 8 ++ ((List.range 24).map fun i => toLe (d.reg .MGT_THERM i).toNat 4).flatten ++
    ((List.range 16).map fun i => toLe (d.reg .MGT_VMON i).toNat 4).flatten ++ ((List.range 64).map fun i => toLe (d.probeWord i) 4).flatten ++
    ((List.range 32).map fun i => toLe (d.reg .MGT_AGE i).toNat 4).flatten

def runSensorRead (f : Fn) : Run := fun ref c s =>
  match firstError (mgtHead f c false (within 40 47) ++ [s.dev.mgtBuf c 552]) with
  | some (st, res) => s.onDev (·.endCmd ref st res)
  | none => State.finish (s.mgtWrite (cmdReq f c) (c.u 40 8) ((s.dev.mgt.sensorWindow ++ List.replicate 552 0).take 552)) ref ST_OK 0

def execSensorRead (f : Fn) (q : Fin 8) (s : State) : Host.Outcome State Fault Refusal := .next (s.startIf f q (fun c => c.opcode == 0xA0) (runSensorRead f))

/-- One thermal site: TEMP, PEAK, WARN and CRIT (R558). -/
def Dev.thermSite (d : Dev) (i t : Nat) : Dev :=
  let x := toSigned 12 t
  let warn : Int := 8 * (d.f MGT_THERM_CFG.WARN_C 0 : Nat)
  let crit : Int := 8 * (d.f MGT_THERM_CFG.CRIT_C 0 : Nat)
  let d1 := (d.setF MGT_THERM.TEMP i t).setF MGT_THERM.PEAK i (ofSigned 12 (max (toSigned 12 (d.f MGT_THERM.PEAK i)) x))
  let entry := fun (d : Dev) (lvl sev ev : Nat) => d.log 0x0A sev ev (toLe i 1 ++ toLe (t % 4096) 2 ++ toLe lvl 1)
  let d2 := if warn ≤ x ∧ ¬d1.fb MGT_THERM.WARN i then entry ((d1.setF MGT_THERM.WARN i 1).raise 482) 1 1 482
    else if x ≤ warn - 40 ∧ d1.fb MGT_THERM.WARN i then entry (d1.setF MGT_THERM.WARN i 0) 0 0 482 else d1
  if crit ≤ x ∧ ¬d2.fb MGT_THERM.CRIT i then entry ((d2.setF MGT_THERM.CRIT i 1).raise 483) 2 3 483
  else if x ≤ crit - 40 ∧ d2.fb MGT_THERM.CRIT i then d2.setF MGT_THERM.CRIT i 0
  else d2

/-- The window of a monitor in mV (R620, R622). -/
def Dev.vmonWindow (d : Dev) (i : Nat) : Nat × Nat :=
  if i < 5 then (d.pace.setpoint - 15, d.pace.setpoint + 35)
  else [(750, 900), (760, 840), (760, 840), (713, 787), (1140, 1260), (713, 787), (470, 570), (1710, 1890), (3135, 3465), (1700, 3600),
    (750, 900)].getD (i - 5) (0, 0)

def Dev.vmon (d : Dev) (i mv : Nat) : Dev :=
  let w := d.vmonWindow i
  let d1 := d.setF MGT_VMON.MV i mv
  let out := fun (d : Dev) (F : Fld) (hi : Nat) =>
    let d1 := (d.setF F i 1).raise 484
    if d.fb F i then d1 else d1.log 0x0B 2 484 (toLe i 1 ++ toLe mv 2 ++ toLe hi 1)
  if mv < w.1 then out d1 MGT_VMON.LOW 0 else if w.2 < mv then out d1 MGT_VMON.HIGH 1 else d1

/-- Sensors are read every 1 ms: raw temperatures of TS00 to TS23 and readings of VM00 to VM15 in mV. VDD_CORE as measured is the lowest of
its monitors (R33). -/
def Dev.sensorUpdate (d : Dev) (temps : List (BitVec 12)) (mvs : List Nat) : Dev :=
  let d1 := (temps.take 24).zipIdx.foldl (fun (d : Dev) p => d.thermSite p.2 p.1.toNat) d
  let d2 := (mvs.take 16).zipIdx.foldl (fun (d : Dev) p => d.vmon p.2 (min 8191 p.1)) d1
  let core := (mvs.take 5).foldl min 1023
  let d3 := if mvs = [] then d2 else (d2.setF PWR_PACE_STAT.VCORE_MEAS_MV 0 core).belowFloor core
  d3.updMgt fun m => { m with sensorWindow := d3.sensorImage, sensorDue := d.now + 1000000 }

def execSensorUpdate (temps : List (BitVec 12)) (mvs : List Nat) (s : State) : Host.Outcome State Fault Refusal :=
  .next (s.onDev fun d => if d.acholtRuns && decide (d.mgt.sensorDue ≤ d.now) then d.sensorUpdate temps mvs else d)

/-- Acholt asks for the spare compositor in place of output `n`'s (R242). -/
def Dev.wantCompositor (d : Dev) (n : Nat) (r : SwapReq) : Dev :=
  if n < 12 ∧ d.autoBench 3 ∧ ¬d.fb DSP_CMP_STAT.SPARE n ∧ (d.out n).swapReq.isNone then d.updOut n fun o => { o with swapReq := some r } else d

/-- Acholt asks for a spare in place of physical cluster `p`, where it serves a logical one (R340). -/
def Dev.wantCluster (d : Dev) (p : Nat) (r : SwapReq) : Dev :=
  if d.autoBench 2 then
    match (List.range 8).find? fun k => d.physOf k == p with
    | some k => if (d.cluster k).swap.isNone then d.setCluster k { d.cluster k with swap := some r } else d
    | none => d
  else d

/-- The Bench policy of an aging monitor (R71, R242, R340, R558). -/
def Dev.agePolicy (d : Dev) (i : Nat) : Dev :=
  let r : SwapReq := ⟨0, none, false⟩
  if i < 12 then d.wantCompositor i r else if 13 ≤ i ∧ i < 23 then d.wantCluster (i - 13) r else d

/-- The Bench policy of the probes: one reports under floor while VDD_CORE is at or above 0.72 V (R242, R340). -/
def Dev.probePolicy (d : Dev) : Dev :=
  let r : SwapReq := ⟨2, none, false⟩
  let short := fun (k : Nat) => match d.pace.probes.get k with | some p => decide (p < 256) | none => false
  if 720 ≤ d.f PWR_PACE_STAT.VCORE_MEAS_MV 0 then
    let d1 := (List.range 12).foldl (fun (d : Dev) n => if short n then d.wantCompositor n r else d) d
    (List.range 10).foldl (fun (d : Dev) p => if short (19 + p) then d.wantCluster p r else d) d1
  else d

/-- A window of the probes has ended: each probe's reading becomes the result that a read returns (R25). -/
def execProbeWindow (paces : List Nat) (s : State) : Host.Outcome State Fault Refusal :=
  .next (s.onDev fun d =>
    if d.acholtRuns && decide (d.pace.probeWin < d.paceWindow) then
      { d with pace := { d.pace with
        probeWin := d.paceWindow, probes := (List.range 64).foldl (fun t e => t.put e (some (paces.getD e 0 % 2 ^ 16))) d.pace.probes } }.probePolicy
    else d)

def Dev.ageSite (d : Dev) (i v : Nat) : Dev :=
  let past := decide (d.f MGT_AGE_CFG.AGE_LIMIT 0 ≤ v % 2 ^ 16)
  let was := d.fb MGT_AGE.OVER i
  let d1 := (d.setF MGT_AGE.DRIFT i v).setF MGT_AGE.OVER i (b2n past)
  if past && !was then ((d1.log 0x0C 1 485 (toLe i 1 ++ toLe v 2)).raise 485).agePolicy i else d1

/-- The aging monitors are read every 1 s: DRIFT of AM00 to AM31. -/
def execAgingUpdate (drifts : List (BitVec 16)) (s : State) : Host.Outcome State Fault Refusal :=
  .next (s.onDev fun d =>
    if d.acholtRuns && decide (d.mgt.ageDue ≤ d.now) then
      (drifts.take 32).zipIdx.foldl (fun (d : Dev) p => d.ageSite p.2 p.1.toNat) (d.updMgt fun m => { m with ageDue := d.now + 1000000000 })
    else d)

/-! The event log (R560 to R563). -/

def mirrorAt (seq : Nat) : Nat := 0x1480000 + 32 * (seq % 131072)

/-- An entry as it is held: in the ring, or in the mirror. -/
def Dev.logBytes (d : Dev) (seq : Nat) : List Byte :=
  match d.mgt.log.find? fun e => e.seq == seq % 2 ^ 32 with
  | some e => e.bytes
  | none => d.flashBytes (mirrorAt seq) 32

/-- The oldest entry held. -/
def Dev.logOldest (d : Dev) : Nat := min (d.mgt.nextSeq - d.mgt.log.length) (if d.mgt.nextMirror = 0 then d.mgt.nextSeq else d.mgt.nextMirror - 131072)

/-- A write of flash other than by FW_UPDATE: a running recovery image makes none (R553). The command that asks for it then has its other effects and completes
(DESIGN CHOICE, log entry 150). -/
def Dev.flashStore (d : Dev) (a n : Nat) (bs : List Byte) : Dev := if d.mgt.recovery then d else d.flashWrite a n bs

/-- Mirror every entry that waits (R562); a write that fails raises EV494 and leaves them waiting. -/
def Dev.logMirror (d : Dev) (ok : Bool) : Dev :=
  if !ok then d.raise 494
  else
    let seqs := (List.range (d.mgt.nextSeq - d.mgt.nextMirror)).map (d.mgt.nextMirror + ·)
    let d1 := seqs.foldl (fun (d : Dev) q => d.flashWrite (mirrorAt q) 32 (d.logBytes q)) d
    let d2 := d1.updMgt fun m => { m with nextMirror := m.nextSeq }
    if seqs = [] then d2 else d2.setReg .MGT_LOG_MIRROR 0 (BitVec.ofNat 32 (d.mgt.nextSeq - 1))

def execLogMirror (ok : Bool) (s : State) : Host.Outcome State Fault Refusal :=
  .next (s.onDev fun d => if d.acholtRuns && !d.mgt.recovery && decide (d.mgt.nextMirror < d.mgt.nextSeq) then d.logMirror ok else d)

/-- For a Normal-world submitter the DATA of an entry with SECURE at 1 is zeros (R563). -/
def logShow (sec : Bool) (e : List Byte) : List Byte := if !sec && bit (le e 1 1) 2 then e.take 22 ++ List.replicate 10 0 else e

def runLogRead (f : Fn) : Run := fun ref c s =>
  let n := c.u 48 4
  let d := s.dev
  match firstError (mgtHead f c false (fun b => within 36 51 b) ++
      [(!decide (1 ≤ n ∧ n ≤ 2048), ST_BAD_FIELD, errByte 48), d.mgtBuf c (32 * n)]) with
  | some (st, res) => s.onDev (·.endCmd ref st res)
  | none =>
    let from' := max (c.u 36 4) d.logOldest
    let k := min n (d.mgt.nextSeq - from')
    let bs := ((List.range k).map fun j => logShow c.secure (d.logBytes (from' + j))).flatten
    State.finish (s.mgtWrite (cmdReq f c) (c.u 40 8) bs) ref (if c.u 36 4 < d.logOldest then ST_CLAMPED else ST_OK) k

def execLogRead (f : Fn) (q : Fin 8) (s : State) : Host.Outcome State Fault Refusal := .next (s.startIf f q (fun c => c.opcode == 0xA1) (runLogRead f))

/-! Lock tables (R100, R102, R574). -/

/-- A change of the secure marks is allowed: a VF's mark changes only while it is disabled or in function-level reset. -/
def Dev.marksOk (d : Dev) (m : Nat) : Bool :=
  (List.range 64).all fun v => bit m v == d.secureVf v || d.f GLB_VF_STAT.STATE v == 0 || d.inReset (0x10 + v)

/-- SUB 0: the image takes effect, and is written over the copy that is not in use with the lower write sequence. -/
def Dev.lockLoad (d : Dev) (img : List Byte) : Dev :=
  let k := if d.lockSeq 0 ≤ d.lockSeq 1 then 0 else 1
  let sq := d.lockSeq (1 - k)
  (d.applyLock (LockImg.parse img) false).flashStore (lockCopy k) 0x20000
    (img ++ List.replicate (lockRoom - img.length) 0xFF ++ toLe sq 4 ++ List.replicate 60 0)

def runLockLoad (f : Fn) : Run := fun ref c s =>
  let n := c.u 48 4
  match firstError (mgtHead f c true (fun b => b == 33 || within 40 51 b) ++
      [(c.u 33 1 != 0, ST_BAD_FIELD, errByte 33), (decide (lockRoom < n), ST_BAD_FIELD, errByte 48), s.dev.mgtBuf c n]) with
  | some (st, res) => s.onDev (·.endCmd ref st res)
  | none => s.withBuffer f ref c n fun img s =>
      if le img 8 4 != n || !s.dev.lockValid img lockRoom || (LockImg.parse img).tableBase != s.dev.own.tableBase ||
          !s.dev.marksOk (LockImg.parse img).secureVf then s.onDev (·.endCmd ref ST_LOCK_INVALID errOutside)
      else (s.onDev fun d => (d.lockLoad img).endCmd ref ST_OK 0).mbxRunAll

def execLockLoad (f : Fn) (q : Fin 8) (s : State) : Host.Outcome State Fault Refusal :=
  .next (s.startIf f q (fun c => c.opcode == 0xA2 && c.u 33 1 != 1) (runLockLoad f))

/-- SUB 1 raises the epoch floor by one OTP step. -/
def runEpochRaise (f : Fn) : Run := fun ref c s => s.onDev fun d =>
  match firstError (mgtHead f c true (· == 33) ++
      [(d.mgt.epochSteps == 32 || decide (d.f OWN_LOCK_STAT.EPOCH 0 < d.mgt.epochSteps + 1), ST_BAD_FIELD, errByte 33)]) with
  | some (st, res) => d.endCmd ref st res
  | none =>
    let n := d.mgt.epochSteps + 1
    ((d.updMgt fun m => { m with epochSteps := n }).setF OWN_LOCK_STAT.EPOCH_FLOOR 0 n).endCmd ref ST_OK n

def execEpochFloorRaise (f : Fn) (q : Fin 8) (s : State) : Host.Outcome State Fault Refusal :=
  .next (s.startIf f q (fun c => c.opcode == 0xA2 && c.u 33 1 == 1) (runEpochRaise f))

/-! Debug enables (R108, R116, R574). -/

def Dev.debugBits (d : Dev) : Nat := b2n d.own.invS + 2 * b2n d.own.ninvS + 4 * b2n d.own.invN + 8 * b2n d.own.ninvN

/-- All four enables are set at once. -/
def Dev.setDebug (d : Dev) (v : Nat) : Dev :=
  { d with own := { d.own with
      invS := bit v 0, ninvS := bit v 1, invN := bit v 2, ninvN := bit v 3
      acholtHalted := d.own.acholtHalted && bit v 0, normalHalted := d.own.normalHalted && bit v 2, normalSteps := 0 } }.setReg .OWN_DEBUG_STAT 0
    (BitVec.ofNat 32 (v % 16 + 16 * b2n (v % 16 != 0)))

def runDebugSet (f : Fn) : Run := fun ref c s => s.onDev fun d =>
  match firstError (mgtHead f c true (· == 34) ++ [(decide (16 ≤ c.u 34 1), ST_BAD_FIELD, errByte 34)]) with
  | some (st, res) => d.endCmd ref st res
  | none => ((d.setDebug (c.u 34 1)).log 0x07 1 0xFFFF (toLe d.debugBits 1 ++ toLe (c.u 34 1) 1)).endCmd ref ST_OK 0

def execDebugSet (f : Fn) (q : Fin 8) (s : State) : Host.Outcome State Fault Refusal := .next (s.startIf f q (fun c => c.opcode == 0xA3) (runDebugSet f))

/-! Firmware (R548 to R556). -/

/-- A firmware image of `room` bytes at most: its form, its signature, and its anti-rollback level. -/
def Dev.fwForm (d : Dev) (img : List Byte) : Bool :=
  le img 0 4 == 0x46574841 && le img 4 2 == 1 && decide (64 ≤ le img 12 4 ∧ le img 12 4 ≤ 8388512) && (le img 16 8 == 0 || le img 16 8 == d.mgt.serial)

def fwSigned (img : List Byte) : Bool := Config.signatureVerifies (img.take (le img 12 4)) ((img.drop (le img 12 4)).take 96)

def Dev.fwLevel (d : Dev) (img : List Byte) : Bool := decide (d.mgt.fwSteps ≤ le img 6 1)

def fwSlotAt (k : Nat) : Nat := 0x800000 * k

def Dev.fwHeader (d : Dev) (k : Nat) : List Byte := d.flashBytes (fwSlotAt k) 64

def Dev.fwImage (d : Dev) (k : Nat) : List Byte := d.flashBytes (fwSlotAt k) (le (d.fwHeader k) 12 4 + 96)

/-- A slot is valid (R551). -/
def Dev.slotValid (d : Dev) (k : Nat) : Bool := d.fwForm (d.fwHeader k) && d.fwLevel (d.fwHeader k) && fwSigned (d.fwImage k)

/-- MGT_STAT, MGT_FW_VER and MGT_FW_RB show what the journal, the image and OTP hold (R576). -/
def Dev.mgtShow (d : Dev) : Dev :=
  let m := d.mgt
  let d1 := ((((d.setF MGT_STAT.SLOT 0 m.slot).setF MGT_STAT.TRIAL 0 (b2n (m.trial && m.slot == m.active && !m.recovery))).setF MGT_STAT.TRIES 0 m.tries).setF
    MGT_STAT.BOOT_SEL 0 m.bootSel).setF MGT_STAT.RECOVERY 0 (b2n m.recovery)
  ((((d1.setReg .MGT_FW_VER 0 (BitVec.ofNat 32 m.version)).setF MGT_FW_RB.OTP_STEPS 0 m.fwSteps).setF MGT_FW_RB.IMG_RB 0 m.imageRollback).setF
    MGT_FW_RB.FUSE_SPARES 0 m.fusesUsed)

/-- A firmware step is logged. -/
def Dev.fwLog (d : Dev) (sub st version : Nat) : Dev := d.log 0x02 0 0xFFFF (toLe sub 1 ++ toLe st 1 ++ toLe version 4)

/-- A firmware step ends: it is logged. -/
def Dev.fwEnd (d : Dev) (ref : CmdRef) (sub st res version : Nat) : Dev := (d.fwLog sub st version).endCmd ref st res

/-- The slot that is not running. -/
def Dev.fwOther (d : Dev) : Nat := 1 - d.mgt.slot % 2

def runFwWrite (f : Fn) : Run := fun ref c s =>
  let o := c.u 36 4
  let n := c.u 48 4
  let d := s.dev
  let v := le (d.fwHeader d.fwOther) 8 4
  match firstError (mgtHead f c true (fun b => b == 33 || within 36 51 b) ++
      [(c.u 33 1 != 0, ST_BAD_FIELD, errByte 33), (d.mgt.trial, ST_BUSY, errOutside), (o % 4096 != 0, ST_BAD_FIELD, errByte 36),
       (n % 4096 != 0 || !decide (4096 ≤ n ∧ n ≤ 0x100000), ST_BAD_FIELD, errByte 48), (decide (0x800000 < o + n), ST_BAD_FIELD, errByte 36),
       d.mgtBuf c n]) with
  | some (st, res) => s.onDev (·.fwEnd ref 0 st res v)
  | none => s.withBuffer f ref c n fun bs s => s.onDev fun d =>
      ((d.flashWrite (fwSlotAt d.fwOther + o) n bs).updMgt fun m => { m with verified := false }).fwEnd ref 0 ST_OK 0 v

def execFwWrite (f : Fn) (q : Fin 8) (s : State) : Host.Outcome State Fault Refusal :=
  .next (s.startIf f q (fun c => c.opcode == 0xA4 && (c.u 33 1 == 0 || decide (4 < c.u 33 1))) (runFwWrite f))

def runFwVerify (f : Fn) : Run := fun ref c s => s.onDev fun d =>
  let k := d.fwOther
  let h := d.fwHeader k
  let v := le h 8 4
  match firstError (mgtHead f c true (· == 33) ++
      [(!(d.fwForm h && fwSigned (d.fwImage k)), ST_BAD_FIELD, errOutside), (!d.fwLevel h, ST_VERSION, errOutside)]) with
  | some (st, res) => d.fwEnd ref 1 st res v
  | none => (d.updMgt fun m => { m with verified := true }).fwEnd ref 1 ST_OK v v

def execFwVerify (f : Fn) (q : Fin 8) (s : State) : Host.Outcome State Fault Refusal :=
  .next (s.startIf f q (fun c => c.opcode == 0xA4 && c.u 33 1 == 1) (runFwVerify f))

/-- An Acholt restart begins (R556): 0 activate, 1 watchdog. -/
def Dev.restart (d : Dev) (cause : Nat) : Dev :=
  let d1 := ((d.setVcore (d.f PWR_PACE_CTRL.VMAX_MV 0)).updMgt fun m => { m with phase := .starting, restartCause := some cause }).mbxResetFn 2
  ((d1.count MGT_STAT.RESTARTS 0 1).log 0x04 1 480 (toLe cause 1)).raise 480

def runFwActivate (f : Fn) : Run := fun ref c s =>
  let v := le (s.dev.fwHeader s.dev.fwOther) 8 4
  match firstError (mgtHead f c true (fun b => b == 33 || b == 34) ++
      [(decide (2 ≤ c.u 34 1), ST_BAD_FIELD, errByte 34), (!s.dev.mgt.verified, ST_BAD_FIELD, errOutside)]) with
  | some (st, res) => s.onDev (·.fwEnd ref 2 st res v)
  | none =>
    let s1 := s.onDev fun d => ((d.updMgt fun m => { m with active := d.fwOther, trial := true, tries := 0 }).fwEnd ref 2 ST_OK 0 v).mgtShow
    if c.u 34 1 = 1 then (s1.onDev (·.restart 0)).mbxRunAll else s1

def execFwActivate (f : Fn) (q : Fin 8) (s : State) : Host.Outcome State Fault Refusal :=
  .next (s.startIf f q (fun c => c.opcode == 0xA4 && c.u 33 1 == 2) (runFwActivate f))

/-- The running image is the trial. -/
def Dev.onTrial (d : Dev) : Bool := d.mgt.trial && d.mgt.slot == d.mgt.active && !d.mgt.recovery

def runFwConfirm (f : Fn) : Run := fun ref c s => s.onDev fun d =>
  match firstError (mgtHead f c true (· == 33) ++ [(!d.onTrial, ST_BAD_FIELD, errOutside)]) with
  | some (st, res) => d.fwEnd ref 3 st res d.mgt.version
  | none => ((d.updMgt fun m => { m with trial := false }).fwEnd ref 3 ST_OK 0 d.mgt.version).mgtShow

def execFwConfirm (f : Fn) (q : Fin 8) (s : State) : Host.Outcome State Fault Refusal :=
  .next (s.startIf f q (fun c => c.opcode == 0xA4 && c.u 33 1 == 3) (runFwConfirm f))

/-- Program the step fuses from `fwSteps` on, `n` of them; a fuse of `bad` fails its read-back and takes the next spare (R555). The flag tells
that none remained. -/
def Dev.programSteps (d : Dev) (bad : List (Fin 64)) : Nat → Dev × Bool
  | 0 => (d, true)
  | n + 1 =>
    let k := d.mgt.fwSteps
    if bad.any fun b => b.val == k then
      if d.mgt.fusesUsed < 8 then
        ((d.updMgt fun m => { m with fwSteps := k + 1, fusesUsed := m.fusesUsed + 1 }).benchDone 7 k d.mgt.fusesUsed 1 false).programSteps bad n
      else (d, false)
    else (d.updMgt fun m => { m with fwSteps := k + 1 }).programSteps bad n

def runFwRollbackStep (f : Fn) (bad : List (Fin 64)) : Run := fun ref c s => s.onDev fun d =>
  match firstError (mgtHead f c true (· == 33) ++
      [(d.mgt.trial, ST_BAD_FIELD, errOutside), (decide (d.mgt.imageRollback ≤ d.mgt.fwSteps), ST_BAD_FIELD, errOutside)]) with
  | some (st, res) => d.fwEnd ref 4 st res d.mgt.version
  | none =>
    match d.programSteps bad (min 64 d.mgt.imageRollback - d.mgt.fwSteps) with
    | (d1, true) => (d1.fwEnd ref 4 ST_OK d1.mgt.fwSteps d.mgt.version).mgtShow
    | (d1, false) => (d1.fwEnd ref 4 ST_BENCH_EXHAUSTED errOutside d.mgt.version).mgtShow

def execFwRollbackStep (f : Fn) (q : Fin 8) (bad : List (Fin 64)) (s : State) : Host.Outcome State Fault Refusal :=
  .next (s.startIf f q (fun c => c.opcode == 0xA4 && c.u 33 1 == 4) (runFwRollbackStep f bad))

/-- The firmware has missed its watchdog, which it services every 100 ms of LTIME: none is missed in the first 100 ms of a start (DEDUCED, log entry 151). -/
def execWatchdogExpire (s : State) : Host.Outcome State Fault Refusal :=
  .next (if s.dev.acholtRuns && decide (s.dev.mgt.watchdogAt + 100000000 ≤ s.dev.now) then (s.onDev (·.restart 1)).mbxRunAll else s)

/-! Starting (R552, R553, R562). -/

/-- What the journal restores before any master reaches it, oldest replacement first (R549, R582). -/
def Dev.restoreUse (d : Dev) (u : BenchUse) : Dev :=
  match u.kind with
  | 0 => (d.setF MEM_BANK_STAT.RETIRED u.resource 1).setF MEM_BANK_STAT.REPLACES 16 u.resource
  | 2 =>
    let old := d.physOf u.resource
    (((d.setF GPU_SC_STAT.ROLE old 2).setF GPU_SC_STAT.ROLE u.spare 0).setF GPU_SC_STAT.LOGICAL u.spare u.resource)
  | 3 => d.setF DSP_CMP_STAT.SPARE u.resource 1
  | 4 => d.setF CNV_PORT_STAT.SPARE_USED (u.resource / 9) 1
  | 6 => d.setF TCH_TE_STAT.SPARES_USED (u.resource / 64) (d.f TCH_TE_STAT.SPARES_USED (u.resource / 64) + 1)
  | _ => d

/-- What the log records of the Bench holds again. ROWS_USED counts the rows of the log alone, as if the fuses mapped none, and ROW_LIMIT is 1 again where
they reach 24 (R59; DESIGN CHOICE, log entry 158). -/
def Dev.restoreBench (d : Dev) : Dev :=
  let d1 := d.mgt.bench.reverse.foldl Dev.restoreUse d
  let d2 := d1.mgt.spareRows.foldl (fun (d : Dev) r =>
    let n := d.f MEM_BANK_STAT.ROWS_USED r.1 + 1
    (d.setF MEM_BANK_STAT.ROWS_USED r.1 n).setF MEM_BANK_STAT.ROW_LIMIT r.1 (b2n (decide (24 ≤ n)))) d1
  let d3 := (List.range 8).foldl (fun (d : Dev) k =>
    let n := if k = 1 then d.mgt.spareRows.length else (d.mgt.bench.filter fun u => u.kind == k).length
    (d.setF MGT_BENCH.IN_USE k n).setF MGT_BENCH.RETIRED k (if k = 1 then 0 else n)) d2
  if d3.mgt.bkspRetired then d3.setF MEM_BANK_STAT.RETIRED 16 1 else d3

/-- The first window of the probes and of the governor is the first that begins from now on (R25, R26). -/
def Dev.startPace (d : Dev) : Dev :=
  { d with pace := { d.pace with probeWin := (d.now + 9999) / 10000, govWin := (d.now + 9999) / 10000 } }

/-- The firmware runs: entries held while it did not are numbered, the start is logged, and after a cold reset the journal and the larger slot
counters are restored in both places, the AVSBus rate is set (R28), and the accelerometer bus assigns its addresses by ENTDAA (R421; its form on the bus is PRESUMED, log entry
152; R101, R156, R531, R549, R560). -/
def Dev.firmwareRuns (d : Dev) (slot version level : Nat) (recovery : Bool) : Dev :=
  let cold := d.mgt.restartCause.isNone
  let held := d.mgt.logFifo
  let d1 := (d.updMgt fun m => { m with
    phase := .running, slot := slot, version := version, imageRollback := level, recovery := recovery, logFifo := [], restartCause := none
    watchdogAt := d.now }).startPace
  let d2 := held.foldl Dev.logPut d1
  let d3 := d2.log 0x01 0 0xFFFF (toLe slot 1 ++ toLe version 4 ++ toLe d2.mgt.bootSel 1 ++ toLe (b2n d2.mgt.logLoss) 1)
  let d4 := (d3.mgt.trips.foldl (fun (d : Dev) x => d.log 0x0A 2 483 (toLe x.1 1 ++ toLe x.2 2 ++ toLe 2 1)) d3).updMgt fun m => { m with
    logLoss := false, trips := [] }
  let d5 := if !cold then d4 else
    let larger := fun (k : Nat) => max (d4.hrq.keys.get k).counter (d4.mgt.counters.get k)
    let keys := (List.range 8).foldl (fun (t : Tbl KeySlot) k => t.upd k fun x => { x with counter := larger k }) d4.hrq.keys
    let mirror := (List.range 8).foldl (fun (t : Tbl Nat) k => t.put k (larger k)) d4.mgt.counters
    ((({ d4 with hrq := { d4.hrq with keys := keys }, mgt := { d4.mgt with counters := mirror } }.restoreBench).applyMembers d4.mgt.members).emit (.avsRate 5)).emit
      (.serial 0 0x7E [0x07] 0)
  (d5.setF OWN_LOCK_STAT.EPOCH_FLOOR 0 d5.mgt.epochSteps).mgtShow

/-- Start a slot; a trial counts its start first. -/
def Dev.startSlot (d : Dev) (k : Nat) : Dev :=
  let h := d.fwHeader k
  let d1 := if d.mgt.trial then d.updMgt fun m => { m with tries := min 3 (m.tries + 1) } else d
  d1.firmwareRuns k (le h 8 4) (le h 6 1) false

/-- The ACTIVE slot changes, by a trial revert (EV481) or because the slot is not valid (no event). -/
def Dev.slotChange (d : Dev) (k source : Nat) : Dev :=
  (d.updMgt fun m => { m with active := k, trial := false }).log 0x03 1 source (toLe d.mgt.active 1 ++ toLe k 1)

/-- Trailhead ROM selects and starts a slot (R552), or enters recovery (R553). -/
def Dev.romStart (d : Dev) : Dev :=
  if d.mgt.bootSel = 2 then d.updMgt fun m => { m with phase := .recovery }
  else
    let d1 := if d.mgt.trial && d.mgt.tries == 3 then (d.slotChange (1 - d.mgt.active % 2) 481).raise 481 else d
    let a := d1.mgt.active % 2
    if d1.slotValid a then d1.startSlot a
    else if d1.slotValid (1 - a) then (d1.slotChange (1 - a) 0xFFFF).startSlot (1 - a)
    else d1.updMgt fun m => { m with phase := .recovery }

/-- The safety host has written the go word: the image in the SP0 window is verified and started (R553). -/
def Dev.recoveryGo (d : Dev) : Dev :=
  let h := d.winRead 0 64
  let n := le h 12 4
  if le (d.winRead 0x3FFFC 4) 0 4 = 0x52454356 ∧ d.fwForm h ∧ d.fwLevel h ∧ n + 96 ≤ 0x3FFFC ∧ fwSigned (d.winRead 0 (n + 96)) then
    d.firmwareRuns d.mgt.active (le h 8 4) (le h 6 1) true
  else d

/-- Acholt starts; `octal` tells what the flash's parameter table declares (R548). -/
def execAcholtStart (octal : Bool) (s : State) : Host.Outcome State Fault Refusal :=
  .next (s.onDev fun d =>
    match d.mgt.phase with
    | .starting => (d.updMgt fun m => { m with fspiOctal := octal }).romStart
    | .recovery => d.recoveryGo
    | _ => d)

/-! The Bench (R564 to R566). -/

/-- The Forced column: a kind and its index. -/
def forcedOk (kind index : Nat) : Bool :=
  match kind with
  | 0 => decide (index < 16)
  | 2 => decide (index < 8)
  | 3 => decide (index < 12)
  | 4 => decide (index < 27) && index % 9 != 8
  | 6 => decide (index < 256)
  | _ => false

/-- The resource of a kind is retired. -/
def Dev.benchRetired (d : Dev) (kind index : Nat) : Bool := d.mgt.bench.any fun u => u.kind == kind && u.resource == index

/-- A spare of the kind is free for the resource. -/
def Dev.spareFree (d : Dev) (kind index : Nat) : Bool :=
  match kind with
  | 0 => d.f MEM_BANK_STAT.REPLACES 16 == 0x1F && !d.fb MEM_BANK_STAT.RETIRED 16
  | 2 => (List.range 10).any fun p => d.f GPU_SC_STAT.ROLE p == 1
  | 3 => !(List.range 12).any fun m => d.fb DSP_CMP_STAT.SPARE m
  | 4 => !d.fb CNV_PORT_STAT.SPARE_USED (index / 9)
  | 6 => decide (d.f TCH_TE_STAT.SPARES_USED (index / 64) < 4)
  | _ => false

/-- A swap of the kind is in progress. -/
def Dev.swapBusy (d : Dev) (kind : Nat) : Bool :=
  match kind with
  | 0 => d.msys.swap.isSome
  | 2 => (List.range 8).any fun k => (d.cluster k).swap.isSome
  | 3 => (List.range 12).any fun n => (d.out n).swapReq.isSome
  | 6 => (List.range 4).any fun e => !(d.eng e).toSpare.isEmpty
  | _ => false

/-- A forced swap is granted: it takes place at the kind's boundary, where the command completes. -/
def Dev.forceSwap (d : Dev) (ref : CmdRef) (kind index : Nat) (back : Bool) : Dev :=
  let r : SwapReq := ⟨3, some ref, back⟩
  match kind with
  | 0 => if back then d.startSwap 16 index true 3 (some ref) else d.startSwap index 16 false 3 (some ref)
  | 2 => d.setCluster index { d.cluster index with swap := some r }
  | 3 => d.updOut index fun o => { o with swapReq := some r }
  | 4 => (((d.setF CNV_PORT_STAT.SPARE_USED (index / 9) (b2n !back)).raise 467).benchDone 4 index 8 3 back).endCmd ref ST_OK 0
  | _ =>
    let e := index / 64
    let d1 := d.updEng e fun x => { x with toSpare := x.toSpare ++ [(index % 64, r)] }
    if d1.tchState e = 0 then d1.spareLines e else d1

/-- BENCH_SWAP (R566). While a swap of the kind is in progress, also one that moves the range back (R73), it answers BUSY: the spec gives no order of the two
statuses (DESIGN CHOICE, log entry 140). -/
def runBenchSwap (f : Fn) : Run := fun ref c s => s.onDev fun d =>
  let kind := c.u 34 1
  let index := c.u 36 2
  let back := c.u 35 1 == 1
  match firstError (mgtHead f c true (within 34 37) ++
      [(!([0, 2, 3, 4, 6] : List Nat).contains kind, ST_BAD_FIELD, errByte 34), (decide (2 ≤ c.u 35 1), ST_BAD_FIELD, errByte 35),
       (!forcedOk kind index, ST_BAD_FIELD, errByte 36), (back && !d.benchRetired kind index, ST_BAD_FIELD, errByte 36),
       (d.swapBusy kind, ST_BUSY, errOutside), (!back && !d.spareFree kind index, ST_BENCH_EXHAUSTED, errOutside)]) with
  | some (st, res) => d.endCmd ref st res
  | none => d.forceSwap ref kind index back

def execBenchSwap (f : Fn) (q : Fin 8) (s : State) : Host.Outcome State Fault Refusal := .next (s.startIf f q (fun c => c.opcode == 0xA5) (runBenchSwap f))

/-- Acholt benches a die-to-die lane that fails training or shows too many corrected errors (R565). -/
def execD2dLaneSwap (lane : Nat) (training : Bool) (s : State) : Host.Outcome State Fault Refusal :=
  .next (s.onDev fun d =>
    let used := (d.mgt.bench.filter fun u => u.kind == 5).length
    let trigger := if training then 4 else 1
    if !d.autoBench 5 || d.benchRetired 5 lane then d
    else if used < 4 then d.benchDone 5 lane used trigger false
    else d.benchExhausted 5 lane trigger)

/-! Keys and members (R158, R531, R574). -/

/-- A slot that would keep right 5 usable. -/
def Dev.holdsRevoke (d : Dev) (k : Nat) : Bool := let x := d.hrq.keys.get k; x.present && !x.revoked && bit x.rights 5

def runKeyRevoke (f : Fn) : Run := fun ref c s => s.onDev fun d =>
  let k := c.u 34 1
  match firstError (mgtHead f c true (· == 34) ++ [(decide (8 ≤ k), ST_BAD_FIELD, errByte 34),
      (!((List.range 8).any fun j => j != k && d.holdsRevoke j), ST_NOT_PERMITTED, errByte 34)]) with
  | some (st, res) => d.endCmd ref st res
  | none => ((d.setKey k { d.hrq.keys.get k with revoked := true }).log 0x11 1 0xFFFF (toLe k 1)).endCmd ref ST_OK 0

def execKeyRevoke (f : Fn) (q : Fin 8) (s : State) : Host.Outcome State Fault Refusal := .next (s.startIf f q (fun c => c.opcode == 0xA6) (runKeyRevoke f))

def runConvoyMembers (f : Fn) : Run := fun ref c s =>
  match firstError (mgtHead f c true (· == 34) ++ [(decide (16 ≤ c.u 34 1), ST_BAD_FIELD, errByte 34)]) with
  | some (st, res) => s.onDev (·.endCmd ref st res)
  | none => (s.onDev fun d => ((d.updMgt fun m => { m with members := c.u 34 1 }).applyMembers (c.u 34 1)).endCmd ref ST_OK 0).mbxRunAll

def execConvoyMembers (f : Fn) (q : Fin 8) (s : State) : Host.Outcome State Fault Refusal :=
  .next (s.startIf f q (fun c => c.opcode == 0xA7) (runConvoyMembers f))

/-! Early view (R570). -/

def runEarlyStore (f : Fn) : Run := fun ref c s =>
  let n := c.u 48 4
  match firstError (mgtHead f c true (fun b => b == 33 || within 40 51 b) ++
      [(!decide (64 ≤ n ∧ n ≤ earlyRoom), ST_BAD_FIELD, errByte 48), s.dev.mgtBuf c n]) with
  | some (st, res) => s.onDev (·.endCmd ref st res)
  | none => s.withBuffer f ref c n fun img s => s.onDev fun d =>
      if earlyImageOk img n then (d.flashStore earlyArea earlyRoom img).endCmd ref ST_OK 0 else d.endCmd ref ST_BAD_FIELD errOutside

def execEarlyViewStore (f : Fn) (q : Fin 8) (s : State) : Host.Outcome State Fault Refusal :=
  .next (s.startIf f q (fun c => c.opcode == 0xAD && c.u 33 1 == 0) (runEarlyStore f))

/-- The submitter may end the entries that the mask names. -/
def Dev.mayEndEarly (d : Dev) (f : Fn) (c : Cmd) (mask : Nat) : Bool :=
  c.secure || (match f with | .pf _ => d.mgt.early.all fun e => !bit mask e.output || e.pfEnd | _ => false)

/-- Entries of outputs whose generator scans nothing end at once, the others at the next latch. -/
def State.earlyEnd (s : State) (ref : CmdRef) (mask : Nat) : State :=
  let s1 := s.onDev fun d => d.updMgt fun m => { m with
    early := m.early.map fun e => if bit mask e.output then { e with ending := true } else e, earlyEnds := m.earlyEnds ++ [(ref, mask)] }
  (s1.earlyLatch ((List.range 12).filter fun n => !s1.dev.tgScans n)).onDev Dev.earlyEnds

def runEarlyEnd (f : Fn) : Run := fun ref c s =>
  let mask := c.u 36 2
  match firstError ([(c.u 33 1 == 1 && !s.dev.mayEndEarly f c mask, ST_NOT_PERMITTED, errByte 36)] ++
      mgtHead f c true (fun b => b == 33 || b == 36 || b == 37) ++
      [(c.u 33 1 != 1, ST_BAD_FIELD, errByte 33), (decide (4096 ≤ mask), ST_BAD_FIELD, errByte 36)]) with
  | some (st, res) => s.onDev (·.endCmd ref st res)
  | none => s.earlyEnd ref mask

def execEarlyViewEnd (f : Fn) (q : Fin 8) (s : State) : Host.Outcome State Fault Refusal :=
  .next (s.startIf f q (fun c => c.opcode == 0xAD && c.u 33 1 != 0 && c.u 33 1 != 2) (runEarlyEnd f))

def runEarlyClear (f : Fn) : Run := fun ref c s => s.onDev fun d =>
  match firstError (mgtHead f c true (· == 33)) with
  | some (st, res) => d.endCmd ref st res
  | none => (d.flashStore earlyArea earlyRoom []).endCmd ref ST_OK 0

def execEarlyViewClear (f : Fn) (q : Fin 8) (s : State) : Host.Outcome State Fault Refusal :=
  .next (s.startIf f q (fun c => c.opcode == 0xAD && c.u 33 1 == 2) (runEarlyClear f))

/-! The calendar clock (R571 to R573). -/

/-- CAL_SEC has changed to `sec` (R573). -/
def Dev.calAlarm (d : Dev) (sec : Nat) : Dev :=
  if d.fb MGT_CAL_SUB.ALARM_EN 0 ∧ (d.reg .MGT_CAL_ALARM 0).toNat = sec then (d.setF MGT_CAL_SUB.ALARM 0 1).raise 492 else d

/-- SUB 0 sets the time; an undefined SUB is a field error. -/
def runCalTime (f : Fn) : Run := fun ref c s => s.onDev fun d =>
  match firstError (mgtHead f c false (fun b => b == 33 || within 36 41 b) ++
      [(c.u 33 1 != 0, ST_BAD_FIELD, errByte 33), (decide (0x8000 ≤ c.u 40 2), ST_BAD_FIELD, errByte 40)]) with
  | some (st, res) => d.endCmd ref st res
  | none =>
    let d1 := ((d.setReg .MGT_CAL_SEC 0 (BitVec.ofNat 32 (c.u 36 4))).setF MGT_CAL_SUB.CAL_SUB 0 (c.u 40 2)).setF MGT_CAL_SUB.VALID 0 1
    let d2 := d1.log 0x0F 0 0xFFFF (toLe (d.reg .MGT_CAL_SEC 0).toNat 4 ++ toLe (c.u 36 4) 4)
    (if (d.reg .MGT_CAL_SEC 0).toNat = c.u 36 4 then d2 else d2.calAlarm (c.u 36 4)).endCmd ref ST_OK 0

def execCalSetTime (f : Fn) (q : Fin 8) (s : State) : Host.Outcome State Fault Refusal :=
  .next (s.startIf f q (fun c => c.opcode == 0xAE && c.u 33 1 != 1 && c.u 33 1 != 2) (runCalTime f))

def runCalAlarm (f : Fn) : Run := fun ref c s => s.onDev fun d =>
  match firstError (mgtHead f c false (fun b => b == 33 || b == 34 || within 36 39 b) ++ [(decide (4 ≤ c.u 34 1), ST_BAD_FIELD, errByte 34)]) with
  | some (st, res) => d.endCmd ref st res
  | none => (((d.setReg .MGT_CAL_ALARM 0 (BitVec.ofNat 32 (c.u 36 4))).setF MGT_CAL_SUB.ALARM_EN 0 (c.u 34 1 % 2)).setF MGT_CAL_SUB.WAKE_EN 0
      (c.u 34 1 / 2)).endCmd ref ST_OK 0

def execCalSetAlarm (f : Fn) (q : Fin 8) (s : State) : Host.Outcome State Fault Refusal :=
  .next (s.startIf f q (fun c => c.opcode == 0xAE && c.u 33 1 == 1) (runCalAlarm f))

def runCalTrim (f : Fn) : Run := fun ref c s => s.onDev fun d =>
  match firstError (mgtHead f c false (fun b => b == 33 || b == 34) ++ [(c.u 34 1 == 0x80, ST_BAD_FIELD, errByte 34)]) with
  | some (st, res) => d.endCmd ref st res
  | none => (d.setF MGT_CAL_SUB.TRIM 0 (c.u 34 1)).endCmd ref ST_OK 0

def execCalSetTrim (f : Fn) (q : Fin 8) (s : State) : Host.Outcome State Fault Refusal :=
  .next (s.startIf f q (fun c => c.opcode == 0xAE && c.u 33 1 == 2) (runCalTrim f))

/-- Everything that the clock holds reads 0 once VALID has fallen (R571, R576). -/
def Dev.calInvalid (d : Dev) : Dev :=
  (((d.setReg .MGT_CAL_SUB 0 (d.reg .MGT_CAL_SUB 0 &&& 0x10000)).setReg .MGT_CAL_SEC 0 0).setReg .MGT_CAL_ALARM 0 0).raise 493

def execCalOscStop (s : State) : Host.Outcome State Fault Refusal :=
  .next (s.onDev fun d =>
    let d1 := d.updMgt fun m => { m with oscillator := false }
    if d.fb MGT_CAL_SUB.VALID 0 then d1.calInvalid else d1)

/-! The serial buses (R574). -/

/-- I3C_XFER: `reply` is what the target answers, the bytes read in `some`, and `none` where it does not acknowledge. -/
def runI3c (f : Fn) (reply : Option (List Byte)) : Run := fun ref c s =>
  let wlen := c.u 36 1
  let rlen := c.u 37 1
  match firstError (mgtHead f c false (fun b => within 34 37 b || within 40 63 b) ++
      [(decide (2 ≤ c.u 34 1), ST_BAD_FIELD, errByte 34), (decide (128 ≤ c.u 35 1), ST_BAD_FIELD, errByte 35),
       (decide (16 < wlen), ST_BAD_FIELD, errByte 36), (decide (16 < rlen), ST_BAD_FIELD, errByte 37)] ++
      (if rlen = 0 then [] else [s.dev.mgtBuf c rlen])) with
  | some (st, res) => s.onDev (·.endCmd ref st res)
  | none =>
    match (if rlen = 0 then none else s.refusedLine (cmdReq f c) (c.u 40 8) rlen true) with
    | some x => (s.refuseAt (cmdReq f c) 13 x true).onDev (·.endCmd ref ST_OWN_REFUSED 0)
    | none =>
      let s1 := s.onDev fun d => (d.setReg .PWR_CLK_STAT 0 (d.reg .PWR_CLK_STAT 0 ||| 0x40000000)).emit
        (.serial (c.u 34 1) (c.u 35 1) ((c.lead.drop 48).take wlen) rlen)
      match reply with
      | none => s1.onDev (·.endCmd ref ST_OK 1)
      | some bs =>
        if rlen = 0 then s1.onDev (·.endCmd ref ST_OK 0)
        else State.finish (s1.mgtWrite (cmdReq f c) (c.u 40 8) ((bs ++ List.replicate 16 0).take rlen)) ref ST_OK 0

def execI3cXfer (f : Fn) (q : Fin 8) (reply : Option (List Byte)) (s : State) : Host.Outcome State Fault Refusal :=
  .next (s.startIf f q (fun c => c.opcode == 0xAF) (runI3c f reply))

end Sys2Proof.Machine
end

