-- ==== Sys2Proof/Machine/Warp.lean ====
section
/-! DEFINITION. The warp engines: commands, jobs and the computation of a pass (R324 to R333, R337). -/

namespace Sys2Proof.Machine

def Dev.we (d : Dev) (e : Nat) : WarpSt := d.vin.we.get e

def Dev.updWe (d : Dev) (e : Nat) (g : WarpSt → WarpSt) : Dev :=
  let d1 := { d with vin := { d.vin with we := d.vin.we.upd e g } }
  let w := d1.we e
  ((d1.setF VIN_WE_STAT.BUSY e (b2n w.job.isSome)).setF VIN_WE_STAT.PREEMPTED e (b2n w.preempted.isSome)).setF VIN_WE_STAT.QUEUED e
    w.queue.length

/-! Fields (R325, R326); a body starts at byte 32, a pass at its first payload byte. -/

def WarpJob.toCs (j : WarpJob) : Bool := bit (le j.body 3 1) 7
def WarpJob.outCs (j : WarpJob) : Nat := le j.body 3 1 % 16
def WarpJob.outW (j : WarpJob) : Nat := le j.body 4 2
def WarpJob.outH (j : WarpJob) : Nat := le j.body 6 2

/-- Format, stride, base and chroma offset of the output: those of the context, for the buffer that it has chosen, where OUT_TO_CS is 1 (R325). -/
def WarpJob.outRec (j : WarpJob) (d : Dev) : LRec :=
  if j.toCs then
    let x := d.cs j.outCs
    { fmt := x.fmt, stride := x.stride, chroma := x.chroma, base := x.buffer (j.outBuf.getD 0) }
  else { fmt := le j.body 2 1, stride := le j.body 14 2, base := le j.body 16 8, chroma := le j.body 24 4 }

/-- The input of a pass: format, geometry and crop (R326). -/
def Dev.passRec (d : Dev) (p : List Byte) : LRec :=
  let crop : LRec := { sx := le p 16 2, sy := le p 18 2, sw := le p 20 2, sh := le p 22 2, dx := le p 24 2, dy := le p 26 2, dw := le p 28 2
                       dh := le p 30 2 }
  if bit (le p 0 1) 0 then
    let x := d.cs (le p 0 1 / 16)
    { crop with fmt := x.fmt, stride := x.stride, chroma := x.chroma, base := x.bufBase }
  else { crop with fmt := le p 1 1, stride := le p 2 2, base := le p 4 8, chroma := le p 12 4 }

/-- An RGB or YUV format, as a group (R328): 0 neither. -/
def warpGroup (fmt : Nat) : Nat := if isYuv fmt then 2 else if fmt = 9 ∨ fmt = 10 ∨ fmt = 0 ∨ 11 < fmt then 0 else 1

/-! Validation (R329). -/

/-- The checks of one pass: those of order 2. -/
def Dev.passFields (d : Dev) (p : List Byte) (k : Nat) : List (Bool × Nat × Nat) :=
  let off := fun o => errAt (contOffset (k + 1) + o) k
  let er := fun (bad : Bool) (o : Nat) => (bad, ST_BAD_FIELD, off o)
  let cs := bit (le p 0 1) 0
  let r := d.passRec p
  [er (bits (le p 0 1) 3 1 != 0 || (cs && (d.cs (le p 0 1 / 16)).lineLocked)) 0,
   er (!decide (1 ≤ r.sw ∧ r.sw ≤ 8192)) 20, er (!decide (1 ≤ r.sh ∧ r.sh ≤ 8192)) 22,
   er (!decide (2 ≤ le p 32 1 ∧ le p 32 1 ≤ 129)) 32, er (!decide (2 ≤ le p 33 1 ∧ le p 33 1 ≤ 129)) 33,
   er (!decide (3 ≤ le p 34 1 ∧ le p 34 1 ≤ 8)) 34, er (le p 35 1 != 0) 35, er (le p 36 8 % 64 != 0) 36,
   er ((List.range 18).any fun i => le p (44 + i) 1 != 0) 44]

/-- The checks of one pass of order 4. -/
def Dev.passGeometry (d : Dev) (p : List Byte) (k w h : Nat) : List (Bool × Nat × Nat) :=
  let er := fun (bad : Bool) (o : Nat) => (bad, ST_BAD_GEOMETRY, errAt (contOffset (k + 1) + o) k)
  let cs := bit (le p 0 1) 0
  let x := d.cs (le p 0 1 / 16)
  let r := d.passRec p
  let cell := 2 ^ le p 34 1
  let even := fun n => if isYuv r.fmt then n + n % 2 else n
  let size := max (r.stride * (r.sy + r.sh)) (frameSize r.fmt r.stride (even (r.sy + r.sh)) r.chroma)
  let mesh := le p 36 8
  [er (!cs && !d.inDevice r.base (r.base + size - 1)) 4,
   er (if cs then decide (x.width < r.sx + r.sw) else decide (r.stride < lineBytes r.fmt (even (r.sx + r.sw)))) 16,
   er (cs && decide (x.height < r.sy + r.sh)) 18,
   er (decide (w < r.dx + r.dw)) 24, er (decide (h < r.dy + r.dh)) 26,
   er (decide ((le p 32 1 - 1) * cell + 1 < r.dw)) 28, er (decide ((le p 33 1 - 1) * cell + 1 < r.dh)) 30,
   er (!d.inDevice mesh (mesh + 12 * le p 32 1 * le p 33 1 - 1)) 36]

/-- The checks of R329 in order. -/
def Dev.warpErr (d : Dev) (c : Cmd) (code : Nat) (standing : Bool) : Option (Nat × Nat) :=
  let body := c.lead.drop 32
  let passes := c.conts.map (List.drop 2)
  let j : WarpJob := { body := body, passes := passes }
  let ps := passes.zipIdx
  let out := j.outRec d
  let x := d.cs j.outCs
  let own := fun n => d.csOwner n == code && code != 0
  let uses := standing || j.toCs
  let even := out.fmt == 5 || out.fmt == 7
  let dim := fun v => decide (16 ≤ v ∧ v ≤ 4096) && !(even && v % 2 != 0)
  firstError (
    (ps.map fun p => (bit (le p.1 0 1) 0 && !own (le p.1 0 1 / 16), ST_NOT_OWNER, errAt (contOffset (p.2 + 1)) p.2)) ++
    [(uses && !own j.outCs, ST_NOT_OWNER, errByte 35),
     ((if standing then c.ext / 16 else c.ext) != 0, ST_BAD_FIELD, errOutside),
     (decide (3 ≤ le body 0 1), ST_BAD_FIELD, errByte 32),
     (!decide (1 ≤ le body 1 1 ∧ le body 1 1 ≤ 8) || le body 1 1 != passes.length, ST_BAD_FIELD, errByte 33),
     (bits (le body 3 1) 6 4 != 0 || (standing && !j.toCs) || (j.toCs && x.source != 0x1E), ST_BAD_FIELD, errByte 35),
     (!dim j.outW || (j.toCs && j.outW != x.width), ST_BAD_FIELD, errByte 36),
     (!dim j.outH || (j.toCs && j.outH != x.height), ST_BAD_FIELD, errByte 38),
     (!j.toCs && !strideOk out.fmt out.stride j.outW, ST_BAD_FIELD, errByte 46),
     (!j.toCs && !twoPlane out.fmt && out.chroma != 0, ST_BAD_FIELD, errByte 56),
     (!c.zero 60 63, ST_BAD_FIELD, errByte 60)] ++
    (ps.map fun p => d.passFields p.1 p.2).flatten ++
    [(!(out.fmt == 2 || out.fmt == 3 || out.fmt == 5 || out.fmt == 7), ST_BAD_FORMAT, errByte 34)] ++
    (ps.map fun p => (warpGroup (d.passRec p.1).fmt != warpGroup out.fmt, ST_BAD_FORMAT, errAt (contOffset (p.2 + 1) + 1) p.2)) ++
    [(!j.toCs && !d.inDevice out.base (out.base + max (out.stride * j.outH) (frameSize out.fmt out.stride j.outH out.chroma) - 1), ST_BAD_GEOMETRY, errByte 48)] ++
    (ps.map fun p => d.passGeometry p.1 p.2 j.outW j.outH).flatten)

/-! Commands. -/

def warpJobOf (ref : Option CmdRef) (code : Nat) (c : Cmd) (standing : Bool) : WarpJob :=
  { cmd := ref, code := code, sec := c.secure, standing := standing, body := (c.lead.drop 32).take 32, passes := c.conts.map (List.drop 2) }

/-- WARP (R324, R325): the job queues on its engine. -/
def Dev.warp (d : Dev) (ref : CmdRef) (code : Nat) (c : Cmd) : Dev :=
  match d.warpErr c code false with
  | some (st, res) => d.endCmd ref st res
  | none => d.updWe (d.warpEngine (c.u 32 1 % 4)) fun w => { w with queue := w.queue ++ [warpJobOf (some ref) code c false] }

/-- Runs that wait, in the order of their triggers (R324). -/
def insertRun (l : List (Nat × Nat)) (r : Nat × Nat) : List (Nat × Nat) := l.takeWhile (fun x => decide (x.2 < r.2)) ++ r :: l.dropWhile (fun x => decide (x.2 < r.2))

/-- A run that waits goes to the engine that the new standing job names. -/
def Dev.moveRuns (d : Dev) (o e : Nat) : Dev :=
  let rs := ((d.we 0).runs ++ (d.we 1).runs).filter fun r => r.1 == o
  rs.foldl (fun d r => d.updWe e fun w => { w with runs := insertRun w.runs r }) (d.dropRuns o)

/-- WARP_STANDING (R331): the new job replaces the old one from the next run. WARP_CANCEL commands for the old job go on waiting for its run. -/
def Dev.warpStanding (d : Dev) (ref : CmdRef) (code : Nat) (c : Cmd) : Dev :=
  match d.warpErr c code true with
  | some (st, res) => d.endCmd ref st res
  | none =>
    let o := c.u 35 1 % 16
    let old := (d.cs o).standing
    let st : Standing := { job := { warpJobOf none code c true with serial := d.vin.installed + 1 }, engine := d.warpEngine (c.u 32 1 % 4), trigger := c.ext % 16, cancel := [] }
    let held := match old with | some x => x.cancel | none => []
    let d1 := { d with vin := { d.vin with installed := d.vin.installed + 1 } }
    (((d1.updCs o fun x => { x with standing := some st, cancels := x.cancels ++ held }).moveRuns o st.engine).setF VIN_CS_STAT.STANDING o 1).endCmd
      ref (if old.isSome then ST_REPLACED else ST_OK) 0

/-- WARP_CANCEL (R331): the job is removed at once, or after the run in progress. -/
def Dev.warpCancel (d : Dev) (ref : CmdRef) (code : Nat) (c : Cmd) : Dev :=
  match d.csCmdErr c code false with
  | some (st, res) => d.endCmd ref st res
  | none =>
    let o := c.u 32 1 % 16
    match (d.cs o).standing with
    | some st =>
      if d.standingRuns o then d.updCs o fun x => { x with standing := some { st with cancel := st.cancel ++ [ref] } }
      else (d.removeStanding o).endCmd ref ST_OK 0
    | none => d.endCmd ref ST_OK 0

def runWarp (code : Nat) : Run := fun ref c s => s.onDev (·.warp ref code c)
def runWarpStanding (code : Nat) : Run := fun ref c s => s.onDev (·.warpStanding ref code c)
def runWarpCancel (code : Nat) : Run := fun ref c s => s.onDev (·.warpCancel ref code c)

def execWarp (f : Fn) (q : Fin 8) (s : State) : Host.Outcome State Fault Refusal :=
  .next (s.startNext f q (· == 0x55) (runWarp f.code))

def execWarpStanding (f : Fn) (q : Fin 8) (s : State) : Host.Outcome State Fault Refusal :=
  .next (s.startNext f q (· == 0x56) (runWarpStanding f.code))

def execWarpCancel (f : Fn) (q : Fin 8) (s : State) : Host.Outcome State Fault Refusal :=
  .next (s.startNext f q (· == 0x57) (runWarpCancel f.code))

/-! Starting a job (R324, R332). -/

/-- What a pass reads: none where its context supplies nothing; and the frame that it holds. -/
def Dev.passInput (d : Dev) (p : List Byte) : Option LRec × Option (Nat × Nat) :=
  let r := d.passRec p
  if bit (le p 0 1) 0 then
    let c := le p 0 1 / 16
    let x := d.cs c
    if x.staleMs ≠ 0 ∧ x.staleMs < d.frameAge x ∧ x.fbEn then (some { r with base := x.fbBase }, none)
    else match x.newest with
      | some k => (some { r with base := x.buffer k }, some (c, k))
      | none => (none, none)
  else (some r, none)

/-- A job begins: its inputs and its output are fixed, and the output context begins a frame. -/
def Dev.jobBegin (d : Dev) (e : Nat) (j : WarpJob) : Dev :=
  let ins := j.passes.map d.passInput
  let j1 := { j with inputs := ins.map (·.1), inBufs := ins.filterMap (·.2), out := j.outRec d }
  let d1 := d.updWe e fun w => { w with job := some j1 }
  if j.toCs && d.csState j.outCs != 0 then
    let d2 := d1.frameBegin j.outCs
    let j2 := { j1 with outBuf := (d2.cs j.outCs).buf, frame := (d2.cs j.outCs).begun }
    d2.updWe e fun w => { w with job := some { j2 with out := j2.outRec d2 } }
  else d1

/-- The next standing run of an engine starts; a run for which no buffer qualifies is counted and does not run (R331). -/
def Dev.runBegin (d : Dev) (e o : Nat) : Dev :=
  let d1 := d.updWe e fun w => { w with runs := w.runs.drop 1 }
  match (d.cs o).standing with
  | none => d1
  | some st =>
    if d.csState o = 0 then d1
    else if (d1.chooseBuffer o).isNone then d1.count VIN_CS_CNT.DROP_COUNT o 1
    else (d1.updWe e fun w => { w with preempted := match w.job with | some j => some j | none => w.preempted, job := none }).jobBegin e st.job

/-- An engine starts a standing run, or resumes or starts a one-shot job (R324). -/
def Dev.warpJobStart (d : Dev) (e : Nat) : Dev :=
  let w := d.we e
  match w.runs with
  | o :: _ =>
    match w.job with
    | some j => if j.standing then d else d.runBegin e o.1
    | none => d.runBegin e o.1
  | [] =>
    if w.job.isSome then d
    else match w.preempted with
      | some j => d.updWe e fun w => { w with job := some j, preempted := none }
      | none =>
        match w.parked.find? fun j => !d.vfHeld j.code with
        | some j => d.updWe e fun w => { w with job := some j, parked := w.parked.erase j }
        | none =>
          match w.queue.find? fun j => !d.vfHeld j.code with
          | some j => (d.updWe e fun w => { w with queue := w.queue.erase j }).jobBegin e j
          | none => d

/-! The computation (R327, R328). -/

/-- One control value of the mesh: k = 0 X, 1 Y, 2 WT. -/
def meshVal (mesh : List Byte) (gx i j k : Nat) : Int :=
  let o := 12 * (i + gx * j)
  if k = 0 then toSigned 32 (le mesh o 4) else if k = 1 then toSigned 32 (le mesh (o + 4) 4) else (le mesh (o + 8) 2 : Nat)

/-- The interpolated values at (u, v) of the pass rectangle. -/
def meshAt (p mesh : List Byte) (u v k : Nat) : Int :=
  let gx := le p 32 1
  let cl := le p 34 1
  let c := 2 ^ cl
  let i := min (u / c) (gx - 2)
  let j := min (v / c) (le p 33 1 - 2)
  let fu : Int := (u : Int) - (i * c : Nat)
  let fv : Int := (v : Int) - (j * c : Nat)
  (meshVal mesh gx i j k * (c - fu) * (c - fv) + meshVal mesh gx (i + 1) j k * fu * (c - fv) + meshVal mesh gx i (j + 1) k * (c - fu) * fv +
    meshVal mesh gx (i + 1) (j + 1) k * fu * fv) / (2 ^ (2 * cl) : Nat)

/-- The three components of crop pixel (x, y) as 16-bit values (R206, R328). -/
def Source.components (s : Source) (x y : Nat) : Px :=
  if isYuv s.r.fmt then
    let n := if s.r.fmt = 7 then 10 else 8
    let c := s.chroma x y
    ⟨rep16 n (s.luma x y), rep16 n c.1, rep16 n c.2, 65535⟩
  else s.pixel x y

/-- A sample position clamped into the crop. -/
def clampPos (size : Nat) (x : Int) : Nat := (clampI 0 ((size : Nat) - 1) x).toNat

/-- The four sample positions of an output pixel. -/
def passTaps (r : LRec) (p mesh : List Byte) (u v : Nat) : List (Nat × Nat) :=
  let ix := meshAt p mesh u v 0 / 65536
  let iy := meshAt p mesh u v 1 / 65536
  [(ix, iy), (ix + 1, iy), (ix, iy + 1), (ix + 1, iy + 1)].map fun q => (clampPos r.sw q.1, clampPos r.sh q.2)

/-- One pass over one output pixel. -/
def Source.passPx (s : Source) (p mesh : List Byte) (x y : Nat) (d : Px) : Px :=
  if s.r.dx ≤ x ∧ x < s.r.dx + s.r.dw ∧ s.r.dy ≤ y ∧ y < s.r.dy + s.r.dh then
    let u := x - s.r.dx
    let v := y - s.r.dy
    let wt := (meshAt p mesh u v 2).toNat
    if wt = 0 then d
    else
      let fx := (meshAt p mesh u v 0 / 256 % 256).toNat
      let fy := (meshAt p mesh u v 1 / 256 % 256).toNat
      let t := (passTaps s.r p mesh u v).map fun q => s.components q.1 q.2
      let g := fun (f : Px → Nat) (d : Nat) =>
        let a := fun k => f (t.getD k d0)
        let sm := ((a 0 * (256 - fx) + a 1 * fx) * (256 - fy) + (a 2 * (256 - fx) + a 3 * fx) * fy + 32768) / 65536
        (wt * sm + (65535 - wt) * d + 32767) / 65535
      ⟨g Px.r d.r, g Px.g d.g, g Px.b d.b, 65535⟩
  else d
where d0 : Px := ⟨0, 0, 0, 0⟩

/-- The 64-byte lines that output line `y` of a pass reads. -/
def Source.passLines (s : Source) (p mesh : List Byte) (y : Nat) : List Nat :=
  if s.r.dy ≤ y ∧ y < s.r.dy + s.r.dh then
    let us := (List.range s.r.dw).filter fun u => meshAt p mesh u (y - s.r.dy) 2 != 0
    (sortN ((us.map fun u => ((passTaps s.r p mesh u (y - s.r.dy)).map fun q => (s.touch q.1 q.2).map (· / 64)).flatten).flatten)).map (64 * ·)
  else []

/-- One row of output working values. -/
def warpRow (bg : Px) (w y : Nat) (ps : List (Source × List Byte × List Byte)) : List Px :=
  (List.range w).map fun x => ps.foldl (fun d p => p.1.passPx p.2.1 p.2.2 x y d) bg

/-- Plane 0 bytes of an output row (R328); `x` supplies the unused bits of P010. -/
def warpBytes (fmt : Nat) (row : List Px) (x : Nat → Nat) : List Byte :=
  (row.zipIdx.map fun p =>
    if fmt = 5 then toLe (narrow 8 p.1.r) 1
    else if fmt = 7 then toLe (narrow 10 p.1.r * 64 + x p.2 % 64) 2
    else toLe (captureWord fmt p.1) 4).flatten

/-- The chroma row of two output rows. -/
def warpChroma (fmt : Nat) (a b : List Px) (x : Nat → Nat) : List Byte :=
  let q := fun (f : Px → Nat) (k : Nat) =>
    let at' := fun (l : List Px) i => f (l.getD i ⟨0, 0, 0, 0⟩)
    (at' a (2 * k) + at' a (2 * k + 1) + at' b (2 * k) + at' b (2 * k + 1) + 2) / 4
  chromaData fmt ((List.range (a.length / 2)).map fun k =>
    if fmt = 7 then (narrow 10 (q Px.g k), narrow 10 (q Px.b k)) else (narrow 8 (q Px.g k), narrow 8 (q Px.b k))) x

/-- The sources of a job's passes, with their pass records and meshes. -/
def State.passSources (s : State) (j : WarpJob) (meshes : List (List Byte)) : List (Source × List Byte × List Byte) :=
  ((j.inputs.zip (j.passes.zip meshes)).filterMap fun i => i.1.map fun r =>
    ({ r := { r with enc := Config.warpSiting % 2 * 8 }, peek := s.byteAt }, i.2.1, i.2.2))

/-- Read the meshes of the passes that run. -/
def State.readMeshes (s : State) (r : Req) : List (Option LRec × List Byte) → State × Option Nat × List (List Byte)
  | [] => (s, none, [])
  | (none, _) :: t => let x := s.readMeshes r t; (x.1, x.2.1, [] :: x.2.2)
  | (some _, p) :: t =>
    match s.readMem r 3 (le p 36 8) (12 * le p 32 1 * le p 33 1) with
    | (s1, .ok m) => let x := s1.readMeshes r t; (x.1, x.2.1, m :: x.2.2)
    | (s1, e) => (s1, some e.status, [])

/-- Output line `y`: the reads of its passes, then its writes (R327, R328, R333). -/
def State.warpLine (s : State) (j : WarpJob) (meshes : List (List Byte)) (y : Nat) : State × Option Nat :=
  let r : Req := ⟨j.code, j.sec⟩
  let ps := s.passSources j meshes
  match s.touchLines r 3 ((ps.map fun p => p.1.passLines p.2.1 p.2.2 y).flatten) with
  | (s1, .ok _) =>
    if j.toCs && j.outBuf.isNone then (s1, none)
    else
      let out := j.out
      let bg : Px := ⟨le j.body 8 2, le j.body 10 2, le j.body 12 2, 65535⟩
      let k := s1.dev.free
      let x := fun i => Config.freeValue (k + i)
      let row := fun y => warpRow bg j.outW y ps
      let luma := (out.base + y * out.stride, warpBytes out.fmt (row y) x)
      let ws := if twoPlane out.fmt ∧ y % 2 = 1 then
          [luma, (out.base + out.chroma + y / 2 * out.stride, warpChroma out.fmt (row (y - 1)) (row y) fun i => x (j.outW + i))]
        else [luma]
      match (s1.onDev fun d => { d with free := k + 2 * j.outW }).writeAll r 3 ws with
      | (s2, true) => (s2, none)
      | (s2, false) => (s2, some ST_OWN_REFUSED)
  | (s1, e) => (s1, some e.status)

/-- Output lines in order until a fault: the state, the fault and the lines done. -/
def State.warpLines (s : State) (j : WarpJob) (meshes : List (List Byte)) : List Nat → State × Option Nat × Nat
  | [] => (s, none, 0)
  | y :: t => match s.warpLine j meshes y with
    | (s1, none) => let x := s1.warpLines j meshes t; (x.1, x.2.1, x.2.2 + 1)
    | (s1, some st) => (s1, some st, 0)

/-- Pixels of every pass on the first `k` output lines (R330, R337). -/
def WarpJob.pixelsTo (j : WarpJob) (k : Nat) : Nat := (j.inputs.filterMap id).foldl (fun a r => a + r.dw * (min k (r.dy + r.dh) - r.dy)) 0

/-- Millions of pass pixels (R337): those of the job's output lines from where it stands to line `k`. -/
def Dev.countPixels (d : Dev) (e : Nat) (j : WarpJob) (k : Nat) : Dev :=
  let m := j.pixelsTo k - j.pixelsTo j.lines
  let n := (d.we e).pixels + m
  ((d.updWe e fun w => { w with pixels := n }).setReg .VIN_WE_PIX e (BitVec.ofNat 32 (n / 1000000))).pmcPixels 0x0D e j.code j.sec m

/-- The next `k` lines of a job from where it stands, with its meshes, which it reads at every run (R331): the state, counted, the fault, and the job as it
then stands. -/
def State.warpCompute (s : State) (e : Nat) (j : WarpJob) (k : Nat) : State × Option Nat × WarpJob :=
  match s.readMeshes ⟨j.code, j.sec⟩ (j.inputs.zip j.passes) with
  | (s1, some st, _) => (s1, some st, j)
  | (s1, none, meshes) =>
    let x := s1.warpLines j meshes ((List.range (min (j.lines + k) j.outH)).drop j.lines)
    (x.1.onDev (·.countPixels e j (j.lines + x.2.2)), x.2.1, { j with lines := j.lines + x.2.2 })

/-! Ending a job (R330, R331, R333). -/

/-- The frame of OUT_CS that the job wrote ends: complete when it has the context's size (R311, R312). -/
def Dev.jobFrame (d : Dev) (j : WarpJob) (ok : Bool) : Dev :=
  let x := d.cs j.outCs
  if !j.toCs || !x.inFrame || x.begun != j.frame || x.source != 0x1E then d
  else if x.buf.isNone then d.csDrop j.outCs
  else if ok && j.outW == x.width && j.outH == x.height then d.frameComplete j.outCs
  else d.csDiscard j.outCs

/-- The engine is free, and a pre-empted job resumes where no run waits (R324). -/
def Dev.jobFree (d : Dev) (e : Nat) : Dev :=
  d.updWe e fun w => if w.runs.isEmpty then { w with job := w.preempted, preempted := none } else { w with job := none }

def Dev.jobEnd (d : Dev) (e : Nat) (j : WarpJob) (fault : Option Nat) : Dev :=
  let d1 := (d.jobFrame j fault.isNone).jobFree e
  match j.cmd with
  | some ref =>
    let res := if j.toCs ∧ fault.isNone then (d1.reg .VIN_CS_FRAMES j.outCs).toNat else 0
    d1.endCmd ref (fault.getD ST_OK) res
  | none =>
    let o := j.outCs
    let mine := match (d1.cs o).standing with | some x => x.job.serial == j.serial | none => false
    match fault with
    | some st => (((if mine then d1.removeStanding o else d1.endCancels o).notice j.code 2 o st 0).raise (csEv o 3))
    | none =>
      if d1.standingRuns o then d1
      else match (d1.cs o).standing with
        | some x => if x.cancel.isEmpty then d1.endCancels o else d1.removeStanding o
        | none => d1.endCancels o

/-- The job of engine `e` ends: its remaining lines are computed first. -/
def State.warpJobEnd (s : State) (e : Nat) (j : WarpJob) : State :=
  let x := s.warpCompute e j j.outH
  x.1.onDev (·.jobEnd e x.2.2 x.2.1)

def execWarpJobEnd (e : Fin 2) (s : State) : Host.Outcome State Fault Refusal :=
  .next (match (s.dev.we e.val).job with
  | none => s
  | some j => s.warpJobEnd e.val j)

/-- The job in progress on engine `e` stops after the line in progress, where `stops` holds of it (R324, R333, R517): how many lines are then done, the device's
pace decides, and the model takes a free value (log entry 139). A line that faults ends the job. -/
def State.warpCut (s : State) (e : Nat) (stops : WarpJob → Bool) : State :=
  match (s.dev.we e).job with
  | some j =>
    if stops j then
      let n := s.dev.free1
      let x := ({ s with dev := n.2 } : State).warpCompute e j (n.1 % (j.outH - j.lines + 1))
      match x.2.1 with
      | some _ => x.1.onDev (·.jobEnd e x.2.2 x.2.1)
      | none => x.1.onDev (·.updWe e fun w => { w with job := some x.2.2 })
    else s
  | none => s

/-- An engine's next job: a standing run stops a one-shot job in progress after its line (R324). -/
def State.warpJobStart (s : State) (e : Nat) : State :=
  let s1 := if (s.dev.we e).runs.isEmpty then s else s.warpCut e fun j => !j.standing
  s1.onDev (·.warpJobStart e)

def execWarpJobStart (e : Fin 2) (s : State) : Host.Outcome State Fault Refusal := .next (s.warpJobStart e.val)

/-- The jobs of a function that are in progress stop after the line in progress (R333). -/
def State.warpCuts (s : State) (code : Nat) : State := (s.warpCut 0 fun j => j.code == code).warpCut 1 fun j => j.code == code

/-- The jobs of a function stop and are dropped without completions, and its standing jobs are removed (R333). -/
def Dev.warpReset (d : Dev) (code : Nat) : Dev :=
  let d1 := ([0, 1] : List Nat).foldl (fun (d : Dev) e => d.updWe e fun w =>
    let mine := fun (j : Option WarpJob) => match j with | some j => if j.code = code then none else some j | none => none
    { w with queue := w.queue.filter fun j => j.code != code, parked := w.parked.filter fun j => j.code != code, job := mine w.job, preempted := mine w.preempted }) d
  (List.range 16).foldl (fun (d : Dev) o =>
    match (d.cs o).standing with
    | some st => if st.job.code = code then d.removeStanding o else d
    | none => d) d1

/-- A freeze parks the one-shot jobs of a function where their last line stands; a standing run in progress ends with its frame (R517). -/
def Dev.warpFreeze (d : Dev) (code : Nat) : Dev :=
  ([0, 1] : List Nat).foldl (fun (d : Dev) e => d.updWe e fun w =>
    let js := (w.preempted.toList ++ w.job.toList).filter fun j => j.code == code
    let rest := fun (j : Option WarpJob) => match j with | some j => if j.code = code then none else some j | none => none
    { w with parked := w.parked ++ js.filter fun j => !j.standing, job := rest w.job, preempted := rest w.preempted }) d

end Sys2Proof.Machine
end

