-- ==== Sys2Proof/Machine/Part.lean ====
section
/-! DEFINITION. Partitions: moving pages, function-level reset, freezing, the Rucksack and dirty harvests (R506 to R528). -/

namespace Sys2Proof.Machine

def Dev.vfState (d : Dev) (v : Nat) : Nat := d.f GLB_VF_STAT.STATE v

/-! Moving pages (R508, R509). -/

def overlaps (a b n : Nat) : Bool := decide (a < b + n ∧ b < a + n)

/-- The checks of step 2, as the RESULT of R528; 0 for a range that passes. -/
def State.moveCheck (s : State) (who : Fn) (src dst n : Nat) : Nat :=
  let both := pagesOf src n ++ pagesOf dst n
  if both.any fun k => !s.dev.populated (pageAddr k) then 3
  else if both.any fun k => s.dev.inTable (pageAddr k) then 4
  else if overlaps src dst n then 5
  else if (pagesOf src n).any fun k => !s.dev.mayGive who (s.ownerOf (pageAddr k)) then 1
  else if (pagesOf dst n).any fun k => s.ownerOf (pageAddr k) != 0 then 2
  else 0

def Dev.moveDone (d : Dev) (result : Nat) : Dev :=
  (((d.updPart fun p => { p with move := none }).setF MEM_MOVE_STAT.BUSY 0 0).setF MEM_MOVE_STAT.DONE 0 1).setF MEM_MOVE_STAT.RESULT 0 result

/-- A write of MEM_MOVE_CTRL (R508, R528). -/
def memMoveWrite (who : Fn) (val : Word) (s : State) : State :=
  let go := s.dev.acts who MEM_MOVE_CTRL.GO 0 val
  let s1 := s.onDev (·.write who .MEM_MOVE_CTRL 0 val)
  if !go then s1
  else
    let src := s1.dev.reg64 .MEM_MOVE_SRC_LO .MEM_MOVE_SRC_HI 0 / 4096
    let dst := s1.dev.reg64 .MEM_MOVE_DST_LO .MEM_MOVE_DST_HI 0 / 4096
    let n := s1.dev.f MEM_MOVE_CTRL.COUNT_M1 0 + 1
    let res := s1.moveCheck who src dst n
    s1.onDev fun d => if res = 0 then (d.updPart fun p => { p with move := some ⟨src, dst, n⟩ }).setF MEM_MOVE_STAT.BUSY 0 1 else d.moveDone res

def execMemMove (who : Fn) (val : Word) (s : State) : Host.Outcome State Fault Refusal :=
  .next (match who with
    | .vf _ => s
    | _ => memMoveWrite who val s)

/-- One line is copied from place to place; where either end is not checked, no error mark goes with it (R642). -/
def Dev.copyLine (d : Dev) (m : Mem) (src dst p q : Nat) : Mem :=
  let m1 := m.copy p q 64
  if d.checked src && d.checked dst then m1 else { m1 with poison := m1.poison.filter fun c => !decide (q ≤ c.1 ∧ c.1 < q + 64) }

/-- One page is copied, line by line where each line stands; both copies of the destination while its bank migrates (R72, R508). Words that a read finds
poisoned are counted (R62). -/
def State.copyPage (s : State) (src dst : Nat) : State :=
  { mem := (List.range 64).foldl (fun (m : Mem) k =>
      let a := s.dev.place (src + 64 * k)
      let m1 := s.dev.copyLine m (src + 64 * k) (dst + 64 * k) a (s.dev.place (dst + 64 * k))
      match s.dev.mirror (dst + 64 * k) with
      | some p => s.dev.copyLine m1 (src + 64 * k) (dst + 64 * k) a p
      | none => m1) s.mem
    dev := (s.badWords src 4096).foldl Dev.memUe s.dev
    pending := s.pending }

/-- One page passes with its owner byte, and its source is free and zero (R508). -/
def State.movePage (s : State) (src dst : Nat) : State :=
  let o := s.ownByte src
  (((s.copyPage src dst).setOwnByte dst o).setOwnByte src 0).zeroPage src

def execMemMoveDone (rivals : List Rival) (s : State) : Host.Outcome State Fault Refusal :=
  .next (match s.dev.part.move with
  | some m =>
    let rd := s.dev.round (s.dev.arbiterOf (pageAddr m.src)) rivalHelper rivals
    if !rd.2 then { s with dev := rd.1 }
    else ((List.range m.count).foldl (fun (s : State) k => s.movePage (pageAddr (m.src + k)) (pageAddr (m.dst + k))) { s with dev := rd.1 }).onDev
      (·.moveDone 0)
  | none => s)

/-! Function-level reset (R510 to R515). -/

/-- The registers of a function's page (R159, R510): register and index, for owner code `c`. -/
def fnRegs (c : Nat) : List (Reg × Nat) :=
  ((List.range 8).map fun q => ([.HRQ_SQ_BASE_LO, .HRQ_SQ_BASE_HI, .HRQ_CQ_BASE_LO, .HRQ_CQ_BASE_HI, .HRQ_Q_CFG, .HRQ_Q_IRQ, .HRQ_Q_STAT,
    .HRQ_Q_PTR, .HRQ_SHADOW_LO, .HRQ_SHADOW_HI, .HRQ_Q_TIMEOUT] : List Reg).map fun r => (r, idx2 8 c q)).flatten ++
  ((List.range 256).map fun k => (Reg.HRQ_MSIX_TABLE, idx2 256 c k)) ++ [(.HRQ_MSIX_PBA, idx2 2 c 0), (.HRQ_MSIX_PBA, idx2 2 c 1)] ++
  [(.HRQ_APERTURE_LO, c), (.HRQ_APERTURE_HI, c)]

/-- The queues of a function stop: its commands are discarded (R510). -/
def Dev.rstQueues (d : Dev) (c : Nat) : Dev :=
  let d1 := (List.range 8).foldl (fun (d : Dev) q => d.setQueue (idx2 8 c q) {}) d
  let d2 := { d1 with hrq := { d1.hrq with throttleWait := d1.hrq.throttleWait.filter fun w => w.2 / 8 != c } }.keepReads fun r => r.f.code != c
  { d2 with disp := { d2.disp with waits := d2.disp.waits.filter fun w => w.1.queue / 8 != c } }.updPart fun p => { p with
    fetches := p.fetches.filter fun x => x.ref.queue / 8 != c }

/-- Display: slots hide behind the lines already composed, and groups and captures are discarded (R201, R510). -/
def Dev.rstDisplay (d : Dev) (c : Nat) : Dev :=
  let gone := d.disp.groups.filter fun g => g.code == c
  let d1 := gone.foldl (fun (d : Dev) g => (g.recs.filter fun r => !r.landed).foldl
    (fun d r => d.releaseNow g.code g.sec r.r) d) d
  let d2 := d1.setGroups (d1.disp.groups.filter fun g => g.code != c)
  let d3 := (List.range 12).foldl (fun (d : Dev) n => d.updOut n fun o => { o with captures := o.captures.filter fun x => x.group.code != c }) d2
  ((List.range 384).foldl (fun (d : Dev) s =>
    if d.slotOwner s = c then d.hideSlot s 3 (d.linesToLeave s) else d) d3).startWaiting

/-- Ingest and warp (R333, R510). -/
def Dev.rstVideo (d : Dev) (c : Nat) : Dev :=
  (List.range 16).foldl (fun (d : Dev) k => if d.csOwner k = c then d.csStop k else d) (d.warpReset c)

/-- Graphics: work stops on every cluster and is dropped; the context is not GUILTY (R511). -/
def Dev.rstGpu (d : Dev) (c : Nat) : Dev :=
  ((List.range 128).foldl (fun (d : Dev) g => if d.ctxOwner g = c then (d.freeClusters g).updCtx g fun x => { x with
    pass := none, cmds := [], active := false, begun := false, deadline := 0, fired := false, loading := none, res := [], todo := 0, got := [] } else d) d).schedIdle

/-- A channel drops the commands of a function. -/
def Dev.rstChan (d : Dev) (c x : Nat) : Dev :=
  let ch := d.chan x
  let d1 := d.updChan x fun ch => { ch with queue := ch.queue.filter fun j => j.code != c }
  match ch.run with
  | some j =>
    if j.code ≠ c then d1
    else
      let d2 := (d1.updChan x fun ch => { ch with run := none, host := [] }).setF CPE_CH_STAT.BUSY x 0
      (match j.cmd.cvuUnit with | some u => (d2.setF CVU_CTRL.BUSY u 0).cvuApply u | none => d2).cpApplyOwner x
  | none => d1

def Dev.rstCopy (d : Dev) (c : Nat) : Dev := ((List.range 64).foldl (fun (d : Dev) x => d.rstChan c x) d).cpBeginAll

/-- Touch engines end with the scan in progress and report nothing more (R410). -/
def Dev.rstTouch (d : Dev) (c : Nat) : Dev :=
  (List.range 4).foldl (fun (d : Dev) e =>
    if d.tchOwner e ≠ c then d
    else
      let d1 := d.updEng e fun x => { x with work := [], hostSet := [], frozen := false }
      if d1.tchState e = 0 then d1 else if (d1.eng e).inScan then d1.updEng e fun x => { x with quiet := true } else d1.tchOff e) d

def Dev.rstHap (d : Dev) (c : Nat) : Dev :=
  (List.range 8).foldl (fun (d : Dev) k => if d.hapOwner k = c then (d.hapBrake k).updHap k fun h => { h with stops := [] } else d) d

/-- A command of owner `c`. -/
def AudWork.isOf (c : Nat) : AudWork → Bool
  | .stream r _ _ _ _ _ | .play r _ _ _ _ _ | .stop r _ => r.queue / 8 == c
  | .halt _ => false

def Dev.rstAudio (d : Dev) (c : Nat) : Dev := (d.audReset c).updAud fun a => { a with work := a.work.filter fun w => !w.isOf c }

/-- Management commands that freeze, save or restore VF `v`, bare or in an envelope and not yet started, complete with ABORTED (R515). -/
def Dev.rstMgmt (d : Dev) (v : Nat) : Dev :=
  d.hrq.queues.foldl (fun (d : Dev) e =>
    if d.f HRQ_Q_CFG.TYPE e.1 ≠ 7 then d
    else d.endAll ((e.2.cmds.filter fun x => x.phase != .running && !x.isEnded && ([0xA8, 0xAA, 0xAB] : List Nat).contains x.opcode &&
        le x.lead 32 1 % 64 == v).map fun x => ⟨e.1, x.id⟩) ST_ABORTED 0) d

/-- A freeze of the VF, or a restore that waits for its image, completes with ABORTED (R515). -/
def Dev.rstFreeze (d : Dev) (v : Nat) : Dev :=
  let d1 := match d.part.freezes.get v with
    | some x => (d.updPart fun p => { p with freezes := p.freezes.put v none }).endCmd x.1 ST_ABORTED 0
    | none => d
  let mine := fun (d : Dev) (x : HostFetch) => match d.cmd? x.ref with
    | some c => c.opcode == 0xAB && le c.lead 32 1 % 64 == v
    | none => false
  (d1.endAll ((d1.part.fetches.filter (mine d1)).map fun x => x.ref) ST_ABORTED 0).updPart fun p => { p with
    fetches := p.fetches.filter fun x => !mine d1 x }

/-- Everything that a reset of the function with owner code `c` stops. -/
def Dev.rstAll (d : Dev) (c : Nat) : Dev :=
  let d1 := (((d.rstQueues c).mbxResetFn c).rstVideo c).rstDisplay c
  ((((d1.rstTouch c).rstHap c).rstAudio c).rstGpu c).rstCopy c

/-- A function-level reset begins; one that is in progress is merged with it (R510, R514). -/
def Dev.flrBegin (d : Dev) (c : Nat) : Dev :=
  if d.inReset c then d
  else
    let d1 := d.updPart fun p => { p with resets := p.resets.put c (some d.now) }
    if c < 0x10 then d1.rstAll c else (((d1.rstFreeze (c - 0x10)).rstMgmt (c - 0x10)).setF GLB_VF_STAT.STATE (c - 0x10) 2).rstAll c

/-- VFs of port `p` that have been enabled (R118, R527). -/
def Dev.vfsOf (d : Dev) (p : Nat) : List Nat := (List.range 32).map (32 * p + ·) |>.filter fun v => d.vfState v != 0

/-- Function-level reset of a VF, or of a PF with all its VFs (R510, R514). -/
def Dev.flrStart (d : Dev) (f : Fn) : Dev :=
  match f with
  | .vf v => if d.vfState v.val = 0 then d else d.flrBegin f.code
  | .pf p => ((d.vfsOf p.val).foldl (fun (d : Dev) v => d.flrBegin (0x10 + v)) d).flrBegin f.code
  | _ => d

/-- Owner codes that a reset of a function begins to reset (R510, R514). -/
def Dev.flrCodes (d : Dev) (f : Fn) : List Nat :=
  (match f with
   | .vf v => if d.vfState v.val = 0 then [] else [f.code]
   | .pf p => (d.vfsOf p.val).map (0x10 + ·) ++ [f.code]
   | _ => []).filter fun c => !d.inReset c

/-- Function-level reset: warp jobs stop after the line in progress, and the rest stops with them. -/
def State.flrAll (s : State) (f : Fn) : State :=
  if (s.dev.flrCodes f).isEmpty then s
  else (((s.dev.flrCodes f).foldl (fun (s : State) c => (s.warpCuts c).cpCuts c) s).onDev fun d => d.jointly (·.flrStart f)).mbxRunAll

def execFlrStart (f : Fn) (s : State) : Host.Outcome State Fault Refusal := .next (s.flrAll f)

/-- The registers of the function return to their reset values, and the low words that it wrote are forgotten (R10, R510). -/
def Dev.rstRegs (d : Dev) (c : Nat) : Dev :=
  let d1 := (fnRegs c).foldl (fun (d : Dev) r => d.setReg r.1 r.2 (Reg.resetAt r.1 r.2))
    ((List.range 8).foldl (fun (d : Dev) q => d.setQueue (idx2 8 c q) {}) d)
  { d1 with time := { d1.time with held := d1.time.held.filter fun x => x.1 / 2 ^ 40 != c } }

/-- What the function writes through its windows outside the HRQ block returns to its reset value too, but for what a rule keeps (R410, R433, R490, R510, R512; log
entry 168): reports, wake set-up and flags of its touch engines, and positions, limits and flags of its audio streams. -/
def Dev.rstWindows (d : Dev) (c : Nat) : Dev :=
  let d1 := (List.range 4).foldl (fun (d : Dev) e =>
    if d.tchOwner e ≠ c then d
    else
      let d1 := (([.TCH_TE_SCAN, .TCH_TE_TIME, .TCH_RPT_HEAD, .TCH_RPT_STAT, .TCH_KEY_STATE, .TCH_WAKE_CFG, .TCH_WAKE_MASK] : List Reg).foldl (fun (d : Dev) r =>
        (d.setReg r e (Reg.resetAt r e)).latch r e) d)
      (([TCH_TE_STAT.OVERRUN, TCH_TE_STAT.WERR, TCH_TE_STAT.MAP_DENIED, TCH_TE_STAT.CONTACTS] : List Fld).foldl (fun (d : Dev) F => d.setF F e 0) d1)) d
  (List.range 12).foldl (fun (d : Dev) n =>
    if d.streamOwner n = c then (([.AUD_STRM_POS, .AUD_STRM_LIMIT, .AUD_STRM_STAT] : List Reg).foldl (fun (d : Dev) r => d.setReg r n (Reg.resetAt r n)) d) else d) d1

/-- Reset-done (R511, R513, R514): a PF's comes after that of every VF. -/
def Dev.flrDone (d : Dev) (f : Fn) : Dev :=
  let c := f.code
  match d.part.resets.get c with
  | none => d
  | some t0 =>
    let ns := d.now - t0
    let d1 := (((d.rstRegs c).rstWindows c).mbxRegsReset c).updPart fun p => { p with resets := p.resets.put c none }
    match f with
    | .vf v =>
      let d2 := (((d1.updPart fun p => { p with ran := p.ran.put c false }).setF GLB_VF_STAT.STATE v.val (b2n (d1.exists? f))).setF
        GLB_VF_STAT.RESET_DONE v.val 1).setF GLB_VF_STAT.LAST_RESET_US v.val (min 255 (ns / 1000))
      d2.notice (4 + v.val / 32) 7 c ST_OK ns
    | .pf p => if (d.vfsOf p.val).any fun v => d.inReset (0x10 + v) then d else d1.notice 1 7 c ST_OK ns
    | _ => d

def execFlrDone (f : Fn) (s : State) : Host.Outcome State Fault Refusal := .next (s.onDev (·.flrDone f))

/-! Freezing (R516 to R519). -/

/-- A command may name VF `v` (R516). -/
def Dev.mayNameVf (d : Dev) (f : Fn) (c : Cmd) (v : Nat) : Bool :=
  c.secure || (match f with | .pf p => v / 32 == p.val && !d.secureVf v | _ => false)

/-- The checks that the four commands share. -/
def Dev.vfHead (d : Dev) (f : Fn) (c : Cmd) : List (Bool × Nat × Nat) :=
  let v := c.u 32 1 % 64
  [(!d.mayNameVf f c v, ST_NOT_PERMITTED, errByte 32), (c.ext != 0, ST_BAD_FIELD, errOutside), (!c.conts.isEmpty, ST_BAD_FIELD, errAt 32),
   (decide (64 ≤ c.u 32 1) || !(match Fn.ofCode (0x10 + v) with | some g => d.exists? g | none => false), ST_BAD_FIELD, errByte 32)]

/-- A freeze, save or restore of a VF in function-level reset completes with ABORTED (R515). -/
def Dev.vfAborts (d : Dev) (c : Cmd) : Bool × Nat × Nat := (d.inReset (0x10 + c.u 32 1 % 64), ST_ABORTED, 0)

/-- What a freeze stops as it begins (R517). -/
def Dev.freezeParts (d : Dev) (c : Nat) : Dev :=
  let d1 := (List.range 16).foldl (fun (d : Dev) k =>
    if d.csOwner k = c ∧ d.csState k ≠ 0 then ((d.csQuiet k).csEnter k 0).updCs k fun x => { x with frozen := true } else d) (d.warpFreeze c)
  let d2 := (List.range 4).foldl (fun (d : Dev) e =>
    if d.tchOwner e = c ∧ d.tchState e ≠ 0 then
      let d1 := d.updEng e fun x => { x with frozen := true }
      if (d1.eng e).inScan then d1 else d1.tchOff e
    else d) d1
  (List.range 8).foldl (fun (d : Dev) k => if d.hapOwner k = c then d.hapBrake k else d) d2

/-- A freeze begins: warp jobs stop after the line in progress, copies where their transfers retire, and the other parts are stopped (R517). -/
def State.freezeStart (s : State) (ref : CmdRef) (v us : Nat) : State :=
  ((s.warpCuts (0x10 + v)).cpCuts (0x10 + v)).onDev fun d =>
    ((d.setF GLB_VF_STAT.STATE v 3).updPart fun p => { p with
      freezes := p.freezes.put v (some (ref, if us = 0 then none else some (d.now + 1000 * us))) }).freezeParts (0x10 + v)

def runFreeze (f : Fn) : Run := fun ref c s =>
  let d := s.dev
  let v := c.u 32 1 % 64
  match firstError (d.vfHead f c ++ [d.vfAborts c, (!c.zero 33 35, ST_BAD_FIELD, errByte 33), (!c.zero 40 63, ST_BAD_FIELD, errByte 40),
      (d.vfState v == 3 || d.vfState v == 5, ST_BUSY, errByte 32)]) with
  | some (st, res) => s.onDev (·.endCmd ref st res)
  | none => if d.vfState v = 4 then s.onDev (·.endCmd ref ST_OK 0) else s.freezeStart ref v (c.u 36 4)

def execVfFreeze (f : Fn) (q : Fin 8) (s : State) : Host.Outcome State Fault Refusal := .next (s.startNext f q (· == 0xA8) (runFreeze f))

/-- Every part of the VF is at rest (R517). -/
def Dev.atRest (d : Dev) (c : Nat) : Bool :=
  let fl := d.fadeLen
  let run := d.fb AUD_GLB_CTRL.RUN 0
  ((List.range 8).all fun q => (d.queue (idx2 8 c q)).reading == 0) &&
    ((List.range 8).all fun k => match (d.cluster k).run with | some g => d.ctxOwner g != c | none => true) &&
    (d.hrq.reads.all fun r => r.copy?.isNone || r.f.code != c || r.sent.isNone) &&
    ((List.range 4).all fun e => d.tchOwner e != c || d.tchState e == 0) &&
    ((List.range 8).all fun k => d.hapOwner k != c || !(d.hapState k == 2 || d.hapState k == 3)) &&
    ((List.range 24).all fun b => !run || d.busOwner b != c || (d.bus b).cur == [] || decide (fl ≤ (d.bus b).hold)) &&
    ((List.range 64).all fun j => !run || d.snkOwner j != c || (d.sink j).cur == [] || decide (fl ≤ (d.sink j).hold))

def execFreezeAtRest (v : Fin 64) (s : State) : Host.Outcome State Fault Refusal :=
  .next (s.onDev fun d =>
    match d.part.freezes.get v.val with
    | some x =>
      if d.atRest (0x10 + v.val) then
        ((d.updPart fun p => { p with freezes := p.freezes.put v.val none }).setF GLB_VF_STAT.STATE v.val 4).endCmd x.1 ST_OK 0
      else d
    | none => d)

/-- Every part of the VF goes on (R519). -/
def State.thaw (s : State) (v : Nat) : State :=
  let c := 0x10 + v
  let s1 := s.onDev fun d =>
    let d1 := d.setF GLB_VF_STAT.STATE v 1
    let d2 := (List.range 16).foldl (fun (d : Dev) k =>
      if d.csOwner k = c ∧ (d.cs k).frozen then (d.updCs k fun x => { x with frozen := false }).csBegin k else d) d1
    let d3 := (List.range 4).foldl (fun (d : Dev) e =>
      if d.tchOwner e = c ∧ (d.eng e).frozen then
        let d1 := d.updEng e fun x => { x with frozen := false }
        if d1.tchState e = 0 then d1.tchStart e else d1
      else d) d2
    (d3.startWaiting.sendReads d3.hrq.reads.length).cpBeginAll
  (List.range 128).foldl (fun (s : State) g => if s.dev.ctxOwner g = c then s.gpuRun g else s) s1 |>.onDev Dev.schedIdle |>.mbxRunAll

def execFreezeLimit (v : Fin 64) (s : State) : Host.Outcome State Fault Refusal :=
  .next (match s.dev.part.freezes.get v.val with
  | some (ref, some t) =>
    if t ≤ s.dev.now ∧ ¬ s.dev.atRest (0x10 + v.val) then
      (s.onDev fun d => (d.updPart fun p => { p with freezes := p.freezes.put v.val none }).endCmd ref ST_BUSY (errByte 32)).thaw v.val
    else s
  | _ => s)

def runThaw (f : Fn) : Run := fun ref c s =>
  let v := c.u 32 1 % 64
  match firstError (s.dev.vfHead f c ++ [(!c.zero 33 63, ST_BAD_FIELD, errByte 33), (s.dev.vfState v != 4, ST_BAD_FIELD, errByte 32)]) with
  | some (st, res) => s.onDev (·.endCmd ref st res)
  | none => (s.thaw v).onDev (·.endCmd ref ST_OK 0)

def execVfThaw (f : Fn) (q : Fin 8) (s : State) : Host.Outcome State Fault Refusal := .next (s.startNext f q (· == 0xA9) (runThaw f))

/-! What a Rucksack holds (R521, R522). -/

/-- Kinds of RESOURCES with their number of indices. -/
def resKinds : List (Nat × Nat) :=
  [(1, 384), (2, 128), (3, 64), (4, 16), (5, 4), (6, 8), (7, 32)] ++
  [(8, 96), (9, 24), (10, 64), (11, 64), (12, 8), (13, 64), (14, 12)]

/-- Resource `i` of a kind is assigned to owner code `c`. -/
def Dev.resIs (d : Dev) (c kind i : Nat) : Bool :=
  match kind with
  | 1 => d.slotOwner i == c
  | 2 => d.ctxOwner i == c
  | 3 => d.cpOwner i == c
  | 4 => d.csOwner i == c
  | 5 => d.tchOwner i == c
  | 6 => d.hapOwner i == c
  | 7 => d.fl HAP_EFF_ASSIGN.OWNER i == c
  | 8 => d.srcOwner i == c
  | 9 => d.busOwner i == c
  | 10 => d.snkOwner i == c
  | 11 => d.f HRQ_FENCE_OWNER.OWNER i == c
  | 12 => d.cvuOwner i == c
  | 13 => (d.mbxSide i c).isSome
  | 14 => d.fl DSP_CMP_CTRL.CSTAGE_OWNER i == c
  | _ => false

def Dev.owned (d : Dev) (c kind : Nat) : List Nat :=
  match resKinds.find? fun k => k.1 == kind with
  | some k => (List.range k.2).filter fun i => d.resIs c kind i
  | none => []

def Dev.resources (d : Dev) (c : Nat) : List (Nat × Nat) := (resKinds.map fun k => (d.owned c k.1).map fun i => (k.1, i)).flatten

/-- The page with number `k` of all pages in address order. -/
def nthPage (k : Nat) : Nat := if k < 32768 then 4096 * k else ddrBase + 4096 * (k - 32768)

/-- The ranges of pages that a code owns: base and page count, in address order. -/
def State.ranges (s : State) (c : Nat) : List (Nat × Nat) :=
  ((List.range (32768 + s.dev.msys.ddrBytes / 4096)).foldl (fun (acc : List (Nat × Nat)) k =>
    let a := nthPage k
    if s.ownerOf a ≠ c then acc
    else match acc with
      | (b, n) :: t => if b + 4096 * n = a then (b, n + 1) :: t else (a, 1) :: acc
      | [] => [(a, 1)]) []).reverse

/-- The status registers that travel with a resource. -/
def resRegs : Nat → List Reg
  | 1 => [.DSP_SLOT_STAT, .DSP_SLOT_SEQ]
  | 2 => [.GPU_CTX_STAT, .GPU_CTX_USE, .GPU_CTX_PIPES]
  | 4 => [.VIN_CS_STAT, .VIN_CS_FRAMES, .VIN_CS_CNT, .VIN_CS_LL_SLACK, .VIN_CS_LL_TRIM, .VIN_CS_LINE, .VIN_CS_FE_LO, .VIN_CS_FE_HI]
  | 5 => [.TCH_TE_STAT, .TCH_TE_SCAN, .TCH_TE_TIME, .TCH_RPT_HEAD, .TCH_RPT_STAT, .TCH_KEY_STATE, .TCH_WAKE_CFG, .TCH_WAKE_MASK]
  | 6 => [.HAP_CH_STAT, .HAP_CH_MEAS, .HAP_CH_CNT]
  | 9 => [.AUD_BUS_STAT]
  | 10 => [.AUD_SNK_STAT]
  | 12 => [.CVU_CTRL]
  | _ => []

def streamRegs : List Reg := [.AUD_STRM_POS, .AUD_STRM_LIMIT, .AUD_STRM_STAT]

def Dev.partRegs (d : Dev) (c : Nat) : VfPart :=
  { code := c, regs := (fnRegs c).map fun r => d.reg r.1 r.2, queues := (List.range 8).map fun q => d.queue (idx2 8 c q)
    res := (d.resources c).filterMap fun r => if resRegs r.1 = [] then none else some (r.1, r.2, (resRegs r.1).map fun x => d.reg x r.2)
    streamRegs := ((List.range 12).filter fun n => d.streamOwner n == c).map fun n => (n, streamRegs.map fun r => d.reg r n)
    trigs := ((List.range 8).filter fun n => d.hapOwner (d.f HAP_TRIG_CFG.CH n) == c && d.reg .HAP_TRIG_CFG n != 0).map fun n =>
      (n, d.reg .HAP_TRIG_CFG n) }

def Dev.partWork (d : Dev) (c : Nat) (p : VfPart) : VfPart :=
  let jobs := (([0, 1] : List Nat).map fun e => ((d.we e).parked.map fun j => (e, true, j)) ++ (d.we e).queue.map fun j => (e, false, j)).flatten
  { p with
    layers := (d.owned c 1).map fun s => (s, d.layer s), groups := d.disp.groups.filter fun g => g.code == c
    waits := d.disp.waits.filter fun w => w.1.queue / 8 == c
    stages := (d.owned c 14).map fun n => (n, (d.out n).stage, (d.out n).coefs), ctxs := (d.owned c 2).map fun g => (g, d.gctx g)
    chans := (d.owned c 3).map fun x => (x, d.chan x), css := (d.owned c 4).map fun k => (k, d.cs k)
    jobs := jobs.filter fun j => j.2.2.code == c }

def Dev.partRest (d : Dev) (c : Nat) (p : VfPart) : VfPart :=
  { p with
    engs := (d.owned c 5).map fun e => (e, d.eng e), haps := (d.owned c 6).map fun k => (k, d.hapCh k)
    effects := (d.owned c 7).map fun k => (k, d.hap.effects.get k), buses := (d.owned c 9).map fun b => (b, d.bus b)
    sinks := (d.owned c 10).map fun j => (j, d.sink j), streams := p.streamRegs.map fun n => (n.1, d.stream n.1)
    chimes := ((List.range 8).filter fun n => d.srcOwner (88 + n) == c).map fun n => (n, d.chime n)
    hampers := d.aud.hampers.filter fun h => h.code == c, audWork := d.aud.work.filter (AudWork.isOf c)
    fences := (d.owned c 11).map fun b => (b, (List.range 64).map fun k => d.fence (64 * b + k))
    mail := (d.owned c 13).map fun m =>
      let e := (d.mbxSide m c).getD 0
      (m, d.mbxEnd m e, (List.range 4).map (d.mbxSlot m e), (List.range 4).map (d.mbxSlot m (1 - e)), (d.mbxEnd m e).order, (d.mbxEnd m (1 - e)).order)
    bulk := d.mbx.bulk.filter fun b => b.code == c, cvus := (d.owned c 12).map fun u => (u, d.mbx.cvu.get u) }

/-- Everything that the device-defined sections hold of a VF. -/
def Dev.vfPart (d : Dev) (c : Nat) : VfPart := d.partRest c (d.partWork c (d.partRegs c))

/-- The section has content. -/
def VfPart.has (p : VfPart) (ty : Nat) : Bool :=
  let kind := fun k => p.res.any fun r => r.1 == k
  if ty = 3 then p.regs != [] || p.queues != []
  else if ty = 4 then p.layers != [] || p.groups != [] || p.stages != []
  else if ty = 5 then p.ctxs != []
  else if ty = 6 then p.chans != []
  else if ty = 7 then p.css != [] || p.jobs != []
  else if ty = 8 then p.engs != []
  else if ty = 9 then p.haps != [] || p.effects != [] || p.trigs != []
  else if ty = 10 then p.buses != [] || p.sinks != [] || p.streams != [] || p.chimes != []
  else if ty = 11 then p.fences != []
  else if ty = 12 then p.mail != []
  else kind 12

/-- The greatest length of an image (R521). -/
def sackMost : Nat := 0x800000

/-- The sections of the image in order: type and bytes. A device-defined layout is free within what 8 MiB leave to it (R521; log entry 168). -/
def State.sections (s : State) (c : Nat) : List (Nat × List Byte) :=
  let p := s.dev.vfPart c
  let res := ((s.dev.resources c).map fun r => toLe r.1 1 ++ toLe 0 1 ++ toLe r.2 2).flatten
  let mem := ((s.ranges c).map fun r => toLe r.1 8 ++ toLe r.2 4 ++ toLe 0 4).flatten
  let room := (sackMost - (64 + 16 * 13) - res.length - mem.length) / 11
  (if res = [] then [] else [(1, res)]) ++ (if mem = [] then [] else [(2, mem)]) ++
    ((List.range 11).map (3 + ·) |>.filter p.has).map fun ty => (ty, (Config.packSection ty p).take room)

/-- The descriptors of sections that begin at `off`. -/
def sectionDescs : Nat → List (Nat × List Byte) → List Byte
  | _, [] => []
  | off, (ty, bs) :: t =>
    toLe ty 2 ++ toLe (b2n (decide (ty ≤ 3))) 2 ++ toLe off 4 ++ toLe bs.length 4 ++ toLe (crcOf 1 bs) 4 ++ sectionDescs (off + bs.length) t

/-- The image of VF `v`. -/
def State.rucksack (s : State) (v : Nat) : List Byte :=
  let secs := s.sections (0x10 + v)
  let n := secs.length
  let body := (secs.map (·.2)).flatten
  let len := 64 + 16 * n + body.length
  let h := toLe 0x4B534352 4 ++ toLe 0x0100 2 ++ toLe (s.dev.f GLB_ID.REVISION 0) 1 ++ toLe n 1 ++ toLe len 4 ++ toLe (0x10 + v) 1 ++
    toLe (b2n (s.dev.secureVf v)) 1 ++ toLe 0 2 ++ toLe s.dev.mgt.serial 8 ++ toLe s.dev.now 8 ++ List.replicate 28 0
  h ++ toLe (crcOf 1 h) 4 ++ sectionDescs (64 + 16 * n) secs ++ body

/-! RUCKSACK_SAVE (R520). -/

/-- Fields of both commands beside VF. -/
def Dev.sackErr (d : Dev) (f : Fn) (c : Cmd) : List (Bool × Nat × Nat) :=
  let host := bit (c.u 33 1) 0
  d.vfHead f c ++ [d.vfAborts c, (decide (2 ≤ c.u 33 1) || (host && f == .sp0), ST_BAD_FIELD, errByte 33), (!c.zero 34 39, ST_BAD_FIELD, errByte 34),
    (!c.zero 52 63, ST_BAD_FIELD, errByte 52),
    (c.u 40 8 % 64 != 0 || (!host && c.u 48 4 != 0 && !d.inDevice (c.u 40 8) (c.u 40 8 + c.u 48 4 - 1)), ST_BAD_GEOMETRY, errByte 40)]

/-- A device-memory buffer lies in pages of the submitter. -/
def State.ownsBuffer (s : State) (f : Fn) (a n : Nat) : Bool :=
  (List.range ((a + n + 4095) / 4096 - a / 4096)).all fun k => s.ownerOf (pageAddr (a / 4096 + k)) == f.code

/-- Write bytes where a management command asks: host memory or device memory, on a path of R89; the status of a failure. -/
def State.putBuffer (s : State) (f : Fn) (path : Nat) (sec host : Bool) (a : Nat) (bs : List Byte) : State × Option Nat :=
  if host then
    if s.dev.canSend f then (s.onDev (·.post f a bs), none) else (s, some ST_HOST_DMA)
  else match s.writeMem ⟨f.code, sec⟩ path a bs with
    | (s1, true) => (s1, none)
    | (s1, false) => (s1, some ST_OWN_REFUSED)

def State.saveSack (s : State) (f : Fn) (ref : CmdRef) (c : Cmd) : State :=
  let v := c.u 32 1 % 64
  let host := bit (c.u 33 1) 0
  match firstError (s.dev.sackErr f c ++ [(s.dev.vfState v != 4, ST_BAD_FIELD, errByte 32)]) with
  | some (st, res) => s.onDev (·.endCmd ref st res)
  | none =>
    if !host && !s.ownsBuffer f (c.u 40 8) (c.u 48 4) then s.onDev (·.endCmd ref ST_NOT_OWNER (errByte 40))
    else
      let img := s.rucksack v
      if min (c.u 48 4) sackMost < img.length then s.onDev (·.endCmd ref ST_RESOURCE_LIMIT img.length)
      else match s.putBuffer f 9 c.secure host (c.u 40 8) img with
        | (s1, none) => s1.onDev (·.endCmd ref ST_OK img.length)
        | (s1, some st) => s1.onDev (·.endCmd ref st 0)

def runSave (f : Fn) : Run := fun ref c s => s.saveSack f ref c

def execRucksackSave (f : Fn) (q : Fin 8) (s : State) : Host.Outcome State Fault Refusal := .next (s.startNext f q (· == 0xAA) (runSave f))

/-! RUCKSACK_RESTORE (R523, R524). -/

/-- A section of an image: type, REQUIRED, and its bytes where it lies within the image with the right CRC. -/
def imgSection (img : List Byte) (i : Nat) : Nat × Bool × Option (List Byte) :=
  let o := 64 + 16 * i
  let off := le img (o + 4) 4
  let n := le img (o + 8) 4
  let bs := (img.drop off).take n
  (le img o 2, bit (le img (o + 2) 2) 0, if off + n ≤ le img 8 4 ∧ crcOf 1 bs = le img (o + 12) 4 then some bs else none)

def imgSections (img : List Byte) : List (Nat × Bool × Option (List Byte)) := (List.range (le img 7 1)).map (imgSection img)

/-- Checks 1 and 2: status and section index. A LENGTH above the most that an image has is one not within SIZE (R521; DEDUCED, log entry 168). -/
def Dev.imgErr (d : Dev) (img : List Byte) (size : Nat) : Option (Nat × Nat) :=
  let n := le img 7 1
  let secs := imgSections img
  if le img 0 4 ≠ 0x4B534352 ∨ crcOf 1 (img.take 60) ≠ le img 60 4 ∨ min size sackMost < le img 8 4 ∨ n = 0 ∨ 32 < n ∨ le img 8 4 < 64 + 16 * n then
    some (ST_BAD_FIELD, 0xFFFF)
  else match secs.zipIdx.find? fun s => s.1.2.2.isNone with
    | some s => some (ST_BAD_FIELD, s.2)
    | none =>
      if le img 5 1 ≠ 1 ∨ d.f GLB_ID.REVISION 0 < le img 6 1 then some (ST_VERSION, 0xFFFF)
      else (secs.zipIdx.find? fun s => s.1.2.1 && !decide (1 ≤ s.1.1 ∧ s.1.1 ≤ 13)).map fun s => (ST_VERSION, s.2)

/-- Check 3: every queue disabled, running, and not run since its last reset. -/
def Dev.restorable (d : Dev) (v : Nat) : Bool :=
  (d.vfState v == 1 || d.vfState v == 5) && !d.part.ran.get (0x10 + v) && (List.range 8).all fun q => !d.fb HRQ_Q_CFG.ENABLE (idx2 8 (0x10 + v) q)

/-- Check 5 for one section. Mailbox channels are bound by the lock table and are dealt with by R524. -/
def State.ownsAll (s : State) (c ty : Nat) (bs : List Byte) : Bool :=
  if ty = 1 then (List.range ((bs.length + 3) / 4)).all fun i => le bs (4 * i) 1 == 13 || s.dev.resIs c (le bs (4 * i) 1) (le bs (4 * i + 2) 2)
  else if ty = 2 then (List.range ((bs.length + 15) / 16)).all fun i =>
    (List.range (le bs (16 * i + 8) 4)).all fun k => s.dev.populated (le bs (16 * i) 8 + 4096 * k) && s.ownerOf (le bs (16 * i) 8 + 4096 * k) == c
  else true

/-- A command with a body from byte 32 and continuations. -/
def cmdOf (sec : Bool) (op : Nat) (body : List Byte) (conts : List (List Byte)) : Cmd :=
  { lead := toLe op 1 ++ List.replicate 31 0 ++ body, conts := conts.map ([0, 0] ++ ·), secure := sec }

/-- The body of the CTX_SET that gives a context its settings. -/
def ctxBody (g : Nat) (x : GpuCtx) : List Byte :=
  toLe g 2 ++ toLe x.prioReq 1 ++ toLe 0 1 ++ toLe x.guard 2 ++ toLe x.need 1 ++ toLe 0 1 ++ toLe x.arenaBase 8 ++ toLe x.arenaKib 4 ++
    toLe x.basketMib 4 ++ toLe x.basketBase 8

/-- The device with the stream contexts and buses of the image in place, which its own records and entries name. -/
def Dev.withImage (d : Dev) (p : VfPart) : Dev := p.buses.foldl (fun (d : Dev) b => d.setBus b.1 b.2) (p.css.foldl (fun (d : Dev) x => d.setCs x.1 x.2) d)

/-- The slot records of the image as one COMMIT of the target (R183). -/
def Dev.recordsErr (d : Dev) (c : Nat) (sec : Bool) (p : VfPart) : Option Nat :=
  let recs : List GRec := p.layers.filterMap fun x => x.2.cur.map fun r => ⟨{ r with slot := x.1 }, 0, 0, none, false, false⟩
  let outs := (recs.filterMap fun r => d.slotOut r.r.slot).eraseDups
  if recs = [] then none
  else (d.validate { code := c, sec := sec, mask := (outs.map (2 ^ ·)).foldl (· + ·) 0, anchor := outs.headD 0, recs := recs } []).map (·.status)

/-- The audio settings of the image as a Hamper, a stream set-up and a chime of the target name them (R459, R463, R465). -/
def Dev.audioErr (d : Dev) (c : Nat) (p : VfPart) : Option Nat :=
  let llOk := fun (e : List Byte) => le e 3 1 == 0xFF || bit8 (d.bus (le e 3 1 - 128)).cur 1 1
  if (p.buses.any fun b => b.2.cur != [] && !busEntryOk d.graphFs b.2.cur) || (p.sinks.any fun j => j.2.cur != [] && !(sinkFieldsOk j.2.cur && llOk j.2.cur)) ||
      (p.streams.any fun x => x.2.size != 0 && (x.2.base % 64 != 0 || decide (x.2.size < 4096 ∨ 4194304 < x.2.size) || x.2.size % 64 != 0)) ||
      (p.chimes.any fun x => x.2.on && decide (x.2.len < 1 ∨ 1048576 < x.2.len)) || p.hampers.any fun h => (d.hamperFields c h.image).isSome then some ST_BAD_FIELD
  else if p.chimes.any fun x => x.2.on && !inBanks x.2.clip (x.2.clip + 2 * x.2.len - 1) then some ST_BAD_GEOMETRY
  else if p.hampers.any fun h => (d.hamperOwner c h.image).isSome then some ST_NOT_OWNER
  else if (p.buses.any fun b => b.2.cur != [] && (List.range 16).any fun k => inEn b.2.cur k && !d.mayName c b.1 (inCode b.2.cur k)) ||
      (p.sinks.any fun j => j.2.cur != [] && ([2, 3] : List Nat).any fun k => le j.2.cur k 1 != 0xFF && !d.mayName c 24 (le j.2.cur k 1)) ||
      p.hampers.any fun h => (d.hamperRights c h.image).isSome then some ST_NOT_PERMITTED
  else none

/-- A bulk command of the image as its submitter wrote it (R483). -/
def Dev.bulkErr (d : Dev) (b : MbxBulk) : Option Nat :=
  if !decide (1 ≤ b.count ∧ b.count ≤ 16) then some ST_BAD_FIELD
  else if b.buf % 64 != 0 || (!b.host && !d.inDevice b.buf (b.buf + 64 * b.count - 1)) then some ST_BAD_GEOMETRY
  else none

/-- Check 6: the saved settings under the validation of their own commands; section type and status of the first that fails. -/
def Dev.partErr (d : Dev) (c : Nat) (sec : Bool) (p : VfPart) : Option (Nat × Nat) :=
  let bad := fun (ty : Nat) (st : Nat) (b : Bool) => if b then some (ty, st) else none
  let at_ := d.withImage p
  let jobs := (p.jobs.map fun j => (j.2.2, false)) ++ p.css.filterMap fun x => x.2.standing.map fun t => (t.job, true)
  let cmd := fun (ty : Nat) (e : Option (Nat × Nat)) => e.map fun x => (ty, x.1)
  let all : List (List (Option (Nat × Nat))) := [[(at_.recordsErr c sec p).map fun st => (4, st)],
    p.stages.map fun s => bad 4 ST_BAD_FIELD ((s.2.1 != [] && colourBad s.2.1) || (s.2.2 != [] && (scalerBad s.2.2).isSome)),
    p.ctxs.map fun x => if x.2.arenaKib = 0 then none else cmd 5 ({ d with gpu := { d.gpu with ctx := d.gpu.ctx.upd x.1 fun y => { y with pass := none } } }.ctxSetErr x.1
      (cmdOf sec 0x30 (ctxBody x.1 x.2) [])),
    p.chans.map fun x => ((x.2.run.toList ++ x.2.queue).findSome? fun j =>
      match Fn.ofCode c with | some f => cmd 6 (d.copyErr f { j.cmd with secure := sec }) | none => none),
    p.css.map fun x => if x.2.cfg = [] then none else cmd 7 (d.streamSetErr (cmdOf sec 0x50 x.2.cfg [x.2.cont]) c),
    jobs.map fun j => cmd 7 (at_.warpErr (cmdOf sec 0x55 j.1.body j.1.passes) c j.2),
    p.engs.map fun e => bad 8 ST_BAD_FIELD (e.2.cfg != [] && (TchCfg.fault e.2.cfg).isSome),
    p.haps.map fun h => if h.2.cfg = [] then none else cmd 9 (firstError (hapSetErr (cmdOf sec 0x88 h.2.cfg []))),
    p.effects.map fun e => bad 9 ST_BAD_FIELD (e.2 != [] && (hapBad e.2).isSome),
    [(at_.audioErr c p).map fun st => (10, st)], p.bulk.map fun b => (d.bulkErr b).map fun st => (12, st)]
  all.flatten.findSome? id

/-- How command references of the image become those of the target: codes, and the number added to each command's own. -/
structure Remap where
  from_ : Nat
  dst : Nat
  base : Nat

def Remap.ref (m : Remap) (r : CmdRef) : CmdRef := if r.queue / 8 = m.from_ then ⟨8 * m.dst + r.queue % 8, r.id + m.base⟩ else r

def Remap.job (m : Remap) (j : WarpJob) : WarpJob := { j with cmd := j.cmd.map m.ref, code := m.dst }

def Remap.cs (m : Remap) (x : CsSt) : CsSt :=
  { x with holds := x.holds.map fun h => (m.ref h.1, h.2)
           cancels := x.cancels.map m.ref
           standing := x.standing.map fun s => { s with job := m.job s.job, cancel := s.cancel.map m.ref } }

def Remap.cp (m : Remap) (j : CpJob) : CpJob := { j with ref := m.ref j.ref, code := m.dst }

def Remap.aud (m : Remap) : AudWork → AudWork
  | .stream r n run b z h => .stream (m.ref r) n run b z h
  | .play r n clip len rep gap => .play (m.ref r) n clip len rep gap
  | .stop r n => .stop (m.ref r) n
  | .halt n => .halt n

def Remap.tch (m : Remap) : TchWork → TchWork
  | .set r img => .set (m.ref r) img
  | .stop r => .stop (m.ref r)
  | .rebase r k => .rebase (m.ref r) k

def Remap.slot (m : Remap) (s : MbxSlot) : MbxSlot := { s with bulk := s.bulk.map m.ref }

/-- Registers and queues of the image. -/
def Dev.applyRegs (d : Dev) (c : Nat) (m : Remap) (p : VfPart) : Dev :=
  let d1 := (((fnRegs c).zip p.regs).foldl (fun (d : Dev) x => d.setReg x.1.1 x.1.2 x.2) d)
  let d2 := (p.queues.zipIdx.filter fun x => x.2 < 8).foldl (fun (d : Dev) x => d.setQueue (idx2 8 c x.2)
    { x.1 with reading := 0, cmds := x.1.cmds.map fun y => { y with id := y.id + m.base } }) d1
  let top := (p.queues.map fun x => (x.cmds.map fun y => y.id + 1).foldl max 0).foldl max 0
  let d3 := { d2 with hrq := { d2.hrq with nextId := d2.hrq.nextId + top } }
  let d4 := (p.res.filter fun r => d.resIs c r.1 r.2.1).foldl (fun (d : Dev) r =>
    ((resRegs r.1).zip r.2.2).foldl (fun (d : Dev) x => d.setReg x.1 r.2.1 x.2) d) d3
  let d5 := (p.streamRegs.filter fun r => d.ownsStream c r.1).foldl (fun (d : Dev) r => (streamRegs.zip r.2).foldl (fun (d : Dev) x => d.setReg x.1 r.1 x.2) d) d4
  (p.trigs.filter fun t => t.1 < 8 && d.hapOwner (HAP_TRIG_CFG.CH.get t.2) == c && d.htrigSecure t.1 == d.secureCode c).foldl (fun (d : Dev) t => d.setReg .HAP_TRIG_CFG t.1 t.2) d5

/-- Display: slot records, tables, and held groups that are validated again with TARGET_EN cleared (R524). -/
def Dev.applyDisplay (d : Dev) (c : Nat) (m : Remap) (p : VfPart) : Dev :=
  let d1 := (p.layers.filter fun x => d.resIs c 1 x.1).foldl (fun (d : Dev) x => d.setLayer x.1 { x.2 with cur := x.2.cur.map fun r => { r with slot := x.1 } }) d
  let d2 := (p.stages.filter fun x => d.resIs c 14 x.1).foldl (fun (d : Dev) x => d.updOut x.1 fun o => { o with stage := x.2.1, coefs := x.2.2 }) d1
  let d3 := p.groups.foldl (fun (d : Dev) g => d.newGroup { g with
    code := c, queue := 8 * c + g.queue % 8, cmds := g.cmds.map m.ref, targetEn := false, decided := none, landed := 0
    phase := if g.phase = .collecting then .collecting else .waiting }) d2
  { d3 with disp := { d3.disp with waits := d3.disp.waits ++ p.waits.map fun w => (m.ref w.1, w.2) } }

/-- Graphics, copy, video. -/
def Dev.applyWork (d : Dev) (c : Nat) (m : Remap) (p : VfPart) : Dev :=
  let d1 := (p.ctxs.filter fun x => d.resIs c 2 x.1).foldl (fun (d : Dev) x => d.updCtx x.1 fun _ => { x.2 with
    cmds := x.2.cmds.map fun y => (m.ref y.1, y.2), loading := none }) d
  let d2 := (p.chans.filter fun x => d.resIs c 3 x.1).foldl (fun (d : Dev) x =>
    d.updChan x.1 fun _ => { run := none, host := [], queue := (x.2.run.toList ++ x.2.queue).map m.cp }) d1
  let d3 := (p.css.filter fun x => d.resIs c 4 x.1).foldl (fun (d : Dev) x => d.setCs x.1 (m.cs x.2)) d2
  (p.jobs.filter fun j => j.1 < 2).foldl (fun (d : Dev) j => d.updWe j.1 fun w =>
    if j.2.1 then { w with parked := w.parked ++ [m.job j.2.2] } else { w with queue := w.queue ++ [m.job j.2.2] })
      { d3 with vin := { d3.vin with installed := (p.jobs.map (·.2.2.serial) ++ p.css.filterMap fun x => x.2.standing.map (·.job.serial)).foldl max d3.vin.installed } }

/-- Touch, haptics, audio. -/
def Dev.applyRest (d : Dev) (c : Nat) (m : Remap) (p : VfPart) : Dev :=
  let d1 := (p.engs.filter fun x => d.resIs c 5 x.1).foldl (fun (d : Dev) x => d.updEng x.1 fun _ => { x.2 with
    work := x.2.work.map m.tch, hostSet := [], inScan := false }) d
  let d2 := (p.haps.filter fun x => d.resIs c 6 x.1).foldl (fun (d : Dev) x => d.updHap x.1 fun _ => { x.2 with stops := x.2.stops.map m.ref }) d1
  let d3 := { d2 with hap := { d2.hap with effects := (p.effects.filter fun x => d.resIs c 7 x.1).foldl (fun t x => t.put x.1 x.2) d2.hap.effects } }
  let d4 := (p.buses.filter fun x => d.resIs c 9 x.1).foldl (fun (d : Dev) x => d.setBus x.1 x.2) d3
  let d5 := (p.sinks.filter fun x => d.resIs c 10 x.1).foldl (fun (d : Dev) x => d.setSink x.1 x.2) d4
  let d6 := (p.streams.filter fun x => d.ownsStream c x.1).foldl (fun (d : Dev) x => d.setStream x.1 x.2) d5
  let d7 := (p.chimes.filter fun x => d.srcOwner (88 + x.1) == c).foldl (fun (d : Dev) x => d.setChime x.1 x.2) d6
  d7.updAud fun a => { a with
    hampers := a.hampers ++ p.hampers.map fun h => { h with ref := m.ref h.ref, code := c }
    work := a.work ++ p.audWork.map m.aud }

/-- Fences are signalled to their saved values, mailbox slots come back where the binding names the target, at the end that it has there, and check-value units
(R524). A bulk command of another channel ends: MBX_SEND with RX_RESET, MBX_RECV with NOT_OWNER (DESIGN CHOICE, log entry 167). -/
def Dev.applyMail (d : Dev) (c : Nat) (m : Remap) (p : VfPart) : Dev :=
  let d1 := (p.fences.filter fun x => d.resIs c 11 x.1).foldl (fun (d : Dev) x =>
    (x.2.zipIdx.filter fun v => v.2 < 64).foldl (fun (d : Dev) v => d.signal ⟨64 * x.1 + v.2, v.1, none⟩) d) d
  let d2 := p.mail.foldl (fun (d : Dev) x => match d.mbxSide x.1 c with
    | none => d
    | some e =>
      let put := fun (d : Dev) (side : Nat) (ss : List MbxSlot) => (ss.zipIdx.filter fun s => s.2 < 4).foldl (fun (d : Dev) s =>
        d.setSlot x.1 side s.2 (m.slot s.1)) d
      ((put (put (d.updEnd x.1 e fun _ => x.2.1) e x.2.2.1) (1 - e) x.2.2.2.1).updEnd x.1 e fun y => { y with order := x.2.2.2.2.1 }).updEnd x.1 (1 - e) fun y =>
        { y with order := x.2.2.2.2.2 }) d1
  let d3 := p.bulk.foldl (fun (d : Dev) b =>
    let b1 := { b with ref := m.ref b.ref, code := c, side := (d.mbxSide b.chan c).getD 0 }
    if (d.mbxSide b.chan c).isSome then { d with mbx := { d.mbx with bulk := d.mbx.bulk ++ [b1] } }
    else if b.send then d.endCmd b1.ref ST_RX_RESET b.popped
    else d.endCmd b1.ref ST_NOT_OWNER b.recvResult) d2
  (p.cvus.filter fun x => d.resIs c 12 x.1).foldl (fun (d : Dev) x => d.setCvu x.1 x.2) d3

def Dev.applyPart (d : Dev) (c : Nat) (p : VfPart) : Dev :=
  let m : Remap := ⟨p.code, c, d.hrq.nextId⟩
  ((((d.applyRegs c m p).applyDisplay c m p).applyWork c m p).applyRest c m p).applyMail c m p

/-- An image that has been read is validated and applied; the target is FROZEN (R523, R524). -/
def State.restoreImage (s : State) (ref : CmdRef) (c : Cmd) (img : List Byte) : State :=
  let v := c.u 32 1 % 64
  let code := 0x10 + v
  let back := if s.dev.vfState v = 5 then s.onDev (·.setF GLB_VF_STAT.STATE v 1) else s
  let fail := fun (st sec : Nat) => back.onDev (·.endCmd ref st (errAt 0xFFFF sec))
  match s.dev.imgErr img (c.u 48 4) with
  | some (st, i) => fail st i
  | none =>
    let secs := imgSections img
    let secure := bit (le img 13 1) 0
    if !s.dev.restorable v then fail ST_BUSY 0xFFFF
    else if secure != s.dev.secureVf v || (secure && !c.secure) then fail ST_NOT_PERMITTED 0xFFFF
    else match secs.zipIdx.find? fun x => !s.ownsAll code x.1.1 (x.1.2.2.getD []) with
      | some x => fail ST_NOT_OWNER x.2
      | none =>
        let p := Config.unpackSections (secs.map fun x => (x.1, x.2.2.getD []))
        match s.dev.partErr code (s.dev.secureVf v) p with
        | some (ty, st) => fail st (((secs.zipIdx.find? fun x => x.1.1 == ty).map (·.2)).getD 0xFFFF)
        | none => s.onDev fun d => (((d.applyPart code p).setF GLB_VF_STAT.STATE v 4).updPart fun q => { q with ran := q.ran.put code true }).endCmd ref
            ST_OK (le img 8 4)

def State.restoreSack (s : State) (f : Fn) (ref : CmdRef) (c : Cmd) : State :=
  let v := c.u 32 1 % 64
  let host := bit (c.u 33 1) 0
  let size := c.u 48 4
  match firstError (s.dev.sackErr f c ++ [(decide (size < 64), ST_BAD_FIELD, errAt 0xFFFF)]) with
  | some (st, res) => s.onDev (·.endCmd ref st res)
  | none =>
    if host then s.onDev fun d => (((if d.vfState v = 1 then d.setF GLB_VF_STAT.STATE v 5 else d).updPart fun p => { p with
      fetches := p.fetches ++ [⟨ref, size, []⟩] }).hostRead (.queue f (Fin.ofNat 8 ref.queue)) (some ref) f (c.u 40 8) size)
    else if !s.ownsBuffer f (c.u 40 8) size then s.onDev (·.endCmd ref ST_NOT_OWNER (errByte 40))
    else match s.readMem ⟨f.code, c.secure⟩ 9 (c.u 40 8) size with
      | (s1, .ok img) => s1.restoreImage ref c img
      | (s1, e) => s1.onDev (·.endCmd ref e.status 0)

def runRestore (f : Fn) : Run := fun ref c s => s.restoreSack f ref c

def execRucksackRestore (f : Fn) (q : Fin 8) (s : State) : Host.Outcome State Fault Refusal := .next (s.startNext f q (· == 0xAB) (runRestore f))

/-! DIRTY_HARVEST (R525). -/

/-- The bitmap bytes of up to 512 pages from page address `a`. -/
def State.dirtyBits (s : State) (a n : Nat) : List Byte :=
  (List.range 64).map fun b => BitVec.ofNat 8 ((List.range 8).foldl (fun v j =>
    v + (if 8 * b + j < n then (s.ownByte (a + 4096 * (8 * b + j))).toNat / 128 else 0) * 2 ^ j) 0)

/-- Harvest by lines of the bitmap: the bits of a line are cleared as it is written. -/
def State.harvest (s : State) (f : Fn) (sec host : Bool) : Nat → Nat → Nat → Nat → State × Option Nat
  | 0, _, _, _ => (s, none)
  | fuel + 1, a, n, out =>
    if n = 0 then (s, none)
    else
      let k := min n 512
      match (s.clearDirty (a / 4096) k).putBuffer f 13 sec host out (s.dirtyBits a k) with
      | (s1, none) => s1.harvest f sec host fuel (a + 4096 * k) (n - k) (out + 64)
      | (_, some st) => (if host then s else s.refuseAt ⟨f.code, sec⟩ 13 out true, some st)

/-- The checks of DIRTY_HARVEST. -/
def State.harvestErr (s : State) (f : Fn) (c : Cmd) : Option (Nat × Nat) :=
  let host := bit (c.u 33 1) 0
  let a := c.u 40 8
  let n := c.u 48 4
  let ps := pagesOf (a / 4096) n
  firstError
    [(c.ext != 0, ST_BAD_FIELD, errOutside), (!c.conts.isEmpty, ST_BAD_FIELD, errAt 32), (c.u 32 1 != 0, ST_BAD_FIELD, errByte 32),
     (decide (2 ≤ c.u 33 1) || (host && f == .sp0), ST_BAD_FIELD, errByte 33), (!c.zero 34 39, ST_BAD_FIELD, errByte 34),
     (!decide (1 ≤ n ∧ n ≤ 1048576), ST_BAD_FIELD, errByte 48), (!c.zero 52 55, ST_BAD_FIELD, errByte 52),
     (a % 4096 != 0 || ps.any (fun k => !s.dev.populated (pageAddr k)), ST_BAD_GEOMETRY, errByte 40),
     (c.u 56 8 % 64 != 0 || (!host && !s.dev.inDevice (c.u 56 8) (c.u 56 8 + 64 * ((n + 511) / 512) - 1)), ST_BAD_GEOMETRY, errByte 56),
     (ps.any fun k => s.dev.inTable (pageAddr k) || !s.permits ⟨f.code, c.secure⟩ (pageAddr k) true, ST_NOT_PERMITTED, errByte 40)]

def runHarvest (f : Fn) : Run := fun ref c s =>
  match s.harvestErr f c with
  | some (st, res) => s.onDev (·.endCmd ref st res)
  | none =>
    let r := s.harvest f c.secure (bit (c.u 33 1) 0) (c.u 48 4 / 512 + 1) (c.u 40 8) (c.u 48 4) (c.u 56 8)
    r.1.onDev (·.endCmd ref (r.2.getD ST_OK) 0)

def execDirtyHarvest (f : Fn) (q : Fin 8) (s : State) : Host.Outcome State Fault Refusal := .next (s.startNext f q (· == 0xAC) (runHarvest f))

end Sys2Proof.Machine
end

