-- ==== Sys2Proof/Machine/Power.lean ====
section
/-! DEFINITION. Power, reset and start-up (R577 to R598), and the calendar second (R571, R573). -/

namespace Sys2Proof.Machine

def Dev.updPwr (d : Dev) (g : PwrSt → PwrSt) : Dev := { d with pwr := g d.pwr }

def Dev.updHost (d : Dev) (p : Nat) (g : PortSt → PortSt) : Dev := { d with ports := d.ports.upd p g }

/-! What resets keep (R582). -/

/-- Registers that outlast a cold reset: those of the clock under VBAT (R571), and those that show what the log holds (R414, R576). -/
def coldKeeps (r : Reg) : Bool :=
  match r with
  | .MGT_CAL_SUB | .MGT_CAL_SEC | .MGT_CAL_ALARM | .MGT_LOG_NEWEST | .MGT_LOG_MIRROR | .TCH_FAIL_LO | .TCH_FAIL_HI => true
  | _ => false

/-- Registers that outlast DORMANT beside them: the lock table and what it fixes, the debug enables and FRAME_SEQ. -/
def dormantKeeps (r : Reg) : Bool :=
  coldKeeps r || (match r with
  | .OWN_LOCK_STAT | .OWN_TABLE_BASE_LO | .OWN_TABLE_BASE_HI | .OWN_TABLE_SIZE | .OWN_PIN_WORLD | .OWN_CE_WORLD | .OWN_HOLD_PWR | .OWN_HOLD_CLK
  | .OWN_DEBUG_STAT | .OWN_SECURE_VF_LO | .OWN_SECURE_VF_HI | .MBX_BIND | .DSP_TG_SEQ | .MEM_DDR_STAT | .MGT_LOG_LOST => true
  | _ => false)

def isTch (r : Reg) : Bool :=
  match r with
  | .TCH_TE_ASSIGN | .TCH_TE_STAT | .TCH_TE_SCAN | .TCH_TE_TIME | .TCH_RPT_HEAD | .TCH_RPT_STAT | .TCH_KEY_STATE | .TCH_WAKE_CFG | .TCH_WAKE_MASK
  | .TCH_FAIL_LO | .TCH_FAIL_HI | .TCH_TE_MODE => true
  | _ => false

def keepRegs (p : Reg → Nat → Bool) (rs : List (Nat × Word)) : List (Nat × Word) := rs.filter fun e => p (Reg.ofNat (e.1 % 512)) (e.1 / 512)

/-- What flash, OTP, the journal and the log ring hold (R549, R560). -/
def MgtSt.kept (m : MgtSt) : MgtSt :=
  { flash := m.flash, serial := m.serial, epochSteps := m.epochSteps, fwSteps := m.fwSteps, fusesUsed := m.fusesUsed, active := m.active
    trial := m.trial, tries := m.tries, members := m.members, counters := m.counters, bench := m.bench, spareRows := m.spareRows
    bkspRetired := m.bkspRetired, log := m.log, nextSeq := m.nextSeq, nextMirror := m.nextMirror, logLoss := m.logLoss
    oscillator := m.oscillator, trips := m.trips }

/-- A reset leaves the counter of a slot, and what OTP holds; its failures are forgotten (R157, R165, R582). -/
def KeySlot.rested (k : KeySlot) : KeySlot := { k with fails := 0, lastReject := 0, throttled := false }

/-- A cold reset takes effect: everything but what R582 keeps returns to its reset value, EPOCH_FLOOR to the steps that OTP holds (R112). -/
def Dev.coldReset (d : Dev) (ph : PwrPhase) : Dev :=
  let keys := d.hrq.keys.mapVals KeySlot.rested
  let ports := d.ports.mapVals fun x => { inReset := x.inReset }
  let d1 : Dev := { regs := keepRegs (fun r _ => coldKeeps r) d.regs, mgt := d.mgt.kept, hrq := { keys := keys }, ports := ports
                    pwr := { phase := ph, held := d.pwr.held }, free := d.free, outbox := d.outbox }
  (d1.setF PWR_STATE_STAT.TRIP 0 (d.f PWR_STATE_STAT.TRIP 0)).setF OWN_LOCK_STAT.EPOCH_FLOOR 0 d.mgt.epochSteps

/-! Cold reset and thermal trip (R580, R581). -/

def execPorstAssert (s : State) : Host.Outcome State Fault Refusal := .next (s.onDev (·.coldReset .reset))

/-- Populated bytes (R79): with inline error protection 7/8 of what is fitted. -/
def ddrSize (gib : Nat) (ecc : Bool) : Nat :=
  if ([4, 8, 16, 32] : List Nat).contains gib then (if ecc then gib * 2 ^ 30 / 8 * 7 else gib * 2 ^ 30) else 0

/-- What is sampled as PORST_n rises. -/
def Dev.sample (d : Dev) (st : Straps) : Dev :=
  let e := b2n st.ecc
  let d1 := (((d.setF MEM_DDR_STAT.ECC_EN 0 e).setF MEM_DDR_STAT.ECC_EN 1 e).setF CNV_STAT.POSITION 0 st.convoyId.val).setF MGT_STAT.BOOT_SEL 0
    st.bootSel.val
  (List.range 8).foldl (fun (d : Dev) n =>
    (d.setF DSP_PORT_STAT.DIR (8 + n) (b2n (bit st.aphDir.toNat n))).setF VIN_RX_STAT.DIR (8 + n) (b2n (bit st.aphDir.toNat n))) d1

/-- Only LPDDR5X keeps its contents: every bank, BKSP and shadow buffer is cleared with valid check bits (R77). -/
def Mem.clearSram (m : Mem) : Mem :=
  { cells := m.cells.filter fun c => decide (ddrBase ≤ c.1), poison := m.poison.filter fun c => decide (ddrBase ≤ c.1) }

/-- PORST_n rises: after a trip the device stays in reset until every site is cool; otherwise start-up begins (R580, R581, R586). -/
def execPorstDeassert (st : Straps) (s : State) : Host.Outcome State Fault Refusal :=
  let d := s.dev
  .next (if d.pwr.phase != .reset && d.pwr.phase != .calendar then s
  else if d.pwr.held && st.hot then s.onDev (·.updPwr fun w => { w with phase := .tripped })
  else
    let d1 := (d.coldReset .on).sample st
    { s with
      mem := s.mem.clearSram
      dev := { d1 with msys := { ddrBytes := ddrSize st.gib st.ecc }, pwr := { phase := .on }
                       mgt := { d1.mgt with phase := .starting, bootSel := st.bootSel.val } } })

/-- The pin that requests rails off, and the level that does. -/
def railPin (v : Word) : Option (Nat × Bool) :=
  if PWR_STATE_CTRL.RAIL_PIN.get v < 48 then some (PWR_STATE_CTRL.RAIL_PIN.get v, PWR_STATE_CTRL.RAIL_POL.get v == 1) else none

/-- A thermal site trips (R581): the device is in reset, also while PORST_n is low; without rails no comparator acts (R588). -/
def execThermalTrip (site : Fin 24) (temp : BitVec 12) (s : State) : Host.Outcome State Fault Refusal :=
  .next (s.onDev fun d =>
    let rail := railPin (d.reg .PWR_STATE_CTRL 0)
    let ph := if d.pwr.phase == .reset then PwrPhase.reset else .tripped
    let d1 := ((d.coldReset ph).updPwr fun w => { w with held := true, rail := rail }).updMgt fun m => { m with
      trips := m.trips ++ [(site.val, temp.toNat)] }
    if d.pwr.phase == .calendar then d else d1.setF PWR_STATE_STAT.TRIP 0 1)

/-! Host ports (R583, R587, R645). -/

/-- The functions of a port, by code. -/
def portCodes (p : Nat) : List Nat := (4 + p) :: (List.range 32).map (0x10 + 32 * p + ·)

/-- The configuration space of the port's functions returns to reset. -/
def Dev.cfgReset (d : Dev) (p : Nat) : Dev :=
  let d1 := (portCodes p).foldl (fun (d : Dev) c => { d with
    busMaster := d.busMaster.put c false, notD0 := d.notD0.put c false, pci := d.pci.put c {} }) d
  d1.updHost p fun x => { x with numVfs := 0, vfEnable := false, tenBit := false, pme := [] }

/-- PERSTp_n or a hot reset: the link goes down, and the functions reset. -/
def execPerstAssert (p : Fin 2) (s : State) : Host.Outcome State Fault Refusal :=
  .next (((s.onDev (·.updHost p.val fun x => { x with linkUp := false, inReset := true, l2 := false })).flrAll (.pf p)).onDev (·.cfgReset p.val))

/-- The sources that wake the device, as WAKE_SRC numbers them, where PWR_WAKE_EN holds `en` (R592). -/
def wakeOf (en : Nat) (ks : List Nat) : Option Nat := ([1, 2, 3, 4, 5, 6] : List Nat).find? fun k => ks.contains k && bit en (k - 1)

/-- RAIL_WAIT_MS in ns. -/
def Dev.railWait (d : Dev) : Nat := d.fl PWR_STATE_CTRL.RAIL_WAIT_MS 0 * 1000000

/-- Wake events (R590, R592, R593): before the rails are requested off they abort the entry; in DORMANT they begin the exit. -/
def Dev.wake (d : Dev) (ks : List Nat) : Dev :=
  match d.pwr.phase with
  | .entering =>
    match wakeOf (d.reg .PWR_WAKE_EN 0).toNat ks with
    | some _ => ((d.updPwr fun w => { w with phase := .on }).setF PWR_STATE_STAT.STATE 0 0).setF PWR_STATE_STAT.WAKE_SRC 0 7
    | none => d
  | .dormant =>
    match wakeOf (d.liveReg .PWR_WAKE_EN 0).toNat ks with
    | some k => ((d.updPwr fun w => { w with phase := .railWait, railAt := d.now + d.railWait, rail := none }).setF PWR_STATE_STAT.STATE 0 3).setF
        PWR_STATE_STAT.WAKE_SRC 0 k
    | none => d
  | _ => d

/-- PERSTp_n rises: the port's LTSSM leaves Detect once LOCKED is set, and WAKE_n is released (R587, R592, R593). -/
def execPerstDeassert (p : Fin 2) (s : State) : Host.Outcome State Fault Refusal :=
  .next (s.onDev fun d =>
    ((d.updHost p.val fun x => { x with inReset := false, linkUp := x.enabled, l2 := false }).updPwr fun w => { w with
      wakeN := w.wakeN.put p.val false }).wake [3 + p.val])

/-- The link goes down, or to L2, without a reset (R645). -/
def execPcieLinkDown (p : Fin 2) (l2 : Bool) (s : State) : Host.Outcome State Fault Refusal :=
  .next (s.onDev (·.updHost p.val fun x => { x with linkUp := false, l2 := l2 }))

/-- A write of VF Enable (R118): VFs begin to exist, or cease to after their reset. -/
def Dev.vfEnable (d : Dev) (p : Nat) (on : Bool) : Dev :=
  let x := d.ports.get p
  let vs := (List.range x.numVfs).map (32 * p + ·)
  let d1 := d.updHost p fun x => { x with vfEnable := on }
  if on = x.vfEnable then d
  else if on then vs.foldl (fun (d : Dev) v => if d.vfState v = 0 then d.setF GLB_VF_STAT.STATE v 1 else d) d1
  else d1.jointly fun d1 => (d.vfsOf p).foldl (fun (d : Dev) v => d.flrBegin (0x10 + v)) d1

/-- Change what the configuration of a function of the port selects (R117, R121). -/
def Dev.setPci (d : Dev) (p : Nat) (f : Fn) (g : PciFn → PciFn) : Dev :=
  if (portCodes p).contains f.code then { d with pci := d.pci.put f.code (g (d.pci.get f.code)) } else d

/-- A configuration request that completes normally. -/
def Dev.configure (d : Dev) (p : Nat) : CfgReq → Dev
  | .numVfs n => if (d.ports.get p).vfEnable then d else d.updHost p fun x => { x with numVfs := n.val }
  | .vfEnable on => d.vfEnable p on
  | .powerState f d0 => if (portCodes p).contains f.code then { d with notD0 := d.notD0.put f.code !d0 } else d
  | .busMaster f on => if (portCodes p).contains f.code then { d with busMaster := d.busMaster.put f.code on } else d
  | .pmeEnable f on => if (portCodes p).contains f.code then d.updHost p fun x => { x with pme := x.pme.put f.code on } else d
  | .maxReadRequest f c => d.setPci p f fun x => { x with maxRead := c.val }
  | .completionTimeout f r => d.setPci p f fun x => { x with timeout := r.val }
  | .maxPayload f c => d.setPci p f fun x => { x with maxPayload := c.val }
  | .attributes f r n i => d.setPci p f fun x => { x with relaxed := r, noSnoop := n, idOrder := i }
  | .ecrc f g c => d.setPci p f fun x => { x with ecrcGen := g, ecrcCheck := c }
  | .aspm f l => d.setPci p f fun x => { x with aspmL1 := l }
  | .retrain g l => d.updHost p fun x => { x with gen := g.val, lanes := l.val }
  | .aerStatus f c => (d.setPci p f fun x => { x with aer := x.aer &&& (~~~c).toNat }).emit (.aer f (d.pci.get f.code).aer)
  | .tenBitTags on => (d.updHost p fun x => { x with tenBit := on }).sendReads d.hrq.reads.length
  | .readSriov => d.emit (.sriov p 32 1 1)
  | .other => d

/-- Owner codes of the VFs that a request takes away. -/
def Dev.vfsGone (d : Dev) (p : Nat) : CfgReq → List Nat
  | .vfEnable false => if (d.ports.get p).vfEnable then ((d.vfsOf p).map (0x10 + ·)).filter fun c => !d.inReset c else []
  | _ => []

/-- A configuration request completes, or before LPDDR5X is trained with retry status (R587); the slots that a reset of VFs frees are used at once (R484). -/
def execConfigurationRequest (p : Fin 2) (r : CfgReq) (s : State) : Host.Outcome State Fault Refusal :=
  let gone := s.dev.vfsGone p.val r
  let done := fun (s : State) => s.onDev fun d => (d.configure p.val r).emit (.configDone p.val false)
  .next (if !s.dev.msys.trained then s.onDev (·.emit (.configDone p.val true))
    else if gone.isEmpty then done s
    else (done (gone.foldl (fun (s : State) c => (s.warpCuts c).cpCuts c) s)).mbxRunAll)

/-- LPDDR5X training ends: a lock table that waited for it takes effect (R101, R587, R593). -/
def execDdrTrainingDone (s : State) : Host.Outcome State Fault Refusal :=
  let s1 := s.onDev fun d => { d with msys := { d.msys with trained := true } }
  .next (if s1.dev.own.bootWaiting then s1.lockBoot else s1)

/-! Requests (R589, R590). -/

/-- A queue has a started command. -/
def Dev.anyStarted (d : Dev) : Bool := d.hrq.queues.any fun e => e.2.cmds.any fun c => c.phase == .running

/-- A host port stands in the way of DORMANT. -/
def Dev.portBusy (d : Dev) (p : Nat) : Bool := let x := d.ports.get p; x.enabled && !x.inReset && !x.l2

def Dev.dormBusy (d : Dev) : Bool := d.floorHeld || d.anyStarted || d.portBusy 0 || d.portBusy 1

/-- A write of PWR_STATE_CTRL: its set-up fields, and DORM_REQ (R590, R598). -/
def pwrCtrlWrite (who : Fn) (val : Word) (d : Dev) : Dev :=
  let d1 := d.write who .PWR_STATE_CTRL 0 val
  if !bit val.toNat 0 || d1.pwr.phase != .on then d1
  else if !d1.secure who && bit (d1.reg .OWN_HOLD_PWR 0).toNat 23 then d1.setF PWR_STATE_STAT.RESULT 0 1
  else if d1.dormBusy then d1.setF PWR_STATE_STAT.RESULT 0 2
  else ((d1.updPwr fun w => { w with phase := .entering }).setF PWR_STATE_STAT.RESULT 0 0).setF PWR_STATE_STAT.STATE 0 2

def execDormReq (who : Fn) (val : Word) (s : State) : Host.Outcome State Fault Refusal :=
  .next (if notVf who then s.onDev (pwrCtrlWrite who val) else s)

/-! Entering and leaving DORMANT (R590 to R593). -/

/-- The engine that scans wake keys (R412). -/
def Dev.wakeEngine (d : Dev) : Option Nat := (List.range 4).find? fun e => d.fl TCH_WAKE_CFG.WAKE_EN e == 1 && d.tchState e != 0

/-- WAKE_MS in ns. -/
def Dev.wakePeriod (d : Dev) (e : Nat) : Nat := d.fl TCH_WAKE_CFG.WAKE_MS e * 1000000

/-- The fields of class L whose boundary is DORMANT entry take effect. -/
def Dev.latchDormant (d : Dev) : Dev :=
  let d1 := (((d.latch .PWR_STATE_CTRL 0).latch .PWR_WAKE_EN 0).latch .PWR_WAKE_GPIO_LO 0).latch .PWR_WAKE_GPIO_HI 0
  let d2 := (List.range 16).foldl (fun (d : Dev) n => d.latch .MEM_BANK_CFG n) d1
  (List.range 4).foldl (fun (d : Dev) e => (d.latch .TCH_WAKE_CFG e).latch .TCH_WAKE_MASK e) d2

/-- Steps 2 to 6 of R590, once the walker and any swap have finished (R78). -/
def Dev.dormantEnter (d : Dev) : Dev :=
  let d1 := d.latchDormant
  let d2 := { d1 with time := { d1.time with refRunning := false }, msys := { d1.msys with trained := false }
                      mgt := { d1.mgt with phase := .off } }
  let d3 := match d2.wakeEngine with
    | some e => (d2.setF TCH_TE_STAT.STATE e 2).updEng e fun x => { x with inScan := false, due := false, nextAt := d2.now + d2.wakePeriod e }
    | none => d2
  d3.updPwr fun w => { w with phase := .dormant, acholt := d.mgt.phase, rail := railPin (d1.liveReg .PWR_STATE_CTRL 0) }

def execDormantEnter (s : State) : Host.Outcome State Fault Refusal :=
  .next (s.onDev fun d =>
    if d.pwr.phase == .entering && d.msys.walk.phase == .idle && d.msys.swap.isNone then d.dormantEnter else d)

/-- The source as WAKE_SRC numbers it; a pin counts where PWR_WAKE_GPIO enables it. -/
def Dev.wakeNum (d : Dev) : WakeSrc → Nat
  | .touch => 1
  | .alarm => 2
  | .perst p => 3 + p.val
  | .sp0 => 5
  | .gpio pin =>
    let r := if pin.val < 32 then Reg.PWR_WAKE_GPIO_LO else Reg.PWR_WAKE_GPIO_HI
    let w := if d.pwr.phase = .dormant then d.liveReg r 0 else d.reg r 0
    if bit w.toNat (pin.val % 32) then 6 else 0

def execWakeEvent (srcs : List WakeSrc) (s : State) : Host.Outcome State Fault Refusal := .next (s.onDev fun d => d.wake (srcs.map d.wakeNum))

/-- Half-banks that DORMANT retains, as physical numbers: half `h` of bank `b` is 2 × b + h (R75). -/
def Dev.retained (d : Dev) : List Nat :=
  ((List.range 16).map fun n => ([0, 1] : List Nat).filterMap fun h =>
    if bit (d.fl MEM_BANK_CFG.RET n) h then some (2 * d.serving n + h) else none).flatten

/-- The ownership table is kept: it lies in LPDDR5X, or wholly in retained halves (R97). -/
def Dev.tableKept (d : Dev) : Bool :=
  let b := d.own.tableBase
  let ends := b + d.tableSize - 1
  ddrBase ≤ b || ((List.range 4).map fun j => min (b + 0x400000 * j) ends).all fun a =>
    d.retained.contains (2 * d.serving (a / bankBytes) + a % bankBytes / 0x400000)

/-- Halves that are not retained are cleared with valid check bits (R76). -/
def Mem.clearHalves (m : Mem) (kept : List Nat) : Mem :=
  let p := fun (a : Nat) => decide (ddrBase ≤ a) || kept.contains (a / 0x400000)
  { cells := m.cells.filter fun c => p c.1, poison := m.poison.filter fun c => p c.1 }

/-- What DORMANT leaves of a host port: its configuration space has lost its power with group B. -/
def PortSt.afterDormant (x : PortSt) : PortSt := { linkUp := x.linkUp, inReset := x.inReset, enabled := x.enabled, l2 := x.l2 }

def TimeSt.resumed (t : TimeSt) : TimeSt := { ltime := t.ltime, frac := t.frac, calFrac := t.calFrac, adopted := t.adopted }

/-- The blocks lose their state, but for what R582 keeps, the instants of the last latches (R182) and the wake engine (R412). The walker's history of failing rows and of sweeps with
uncorrectable errors is lost with them (DESIGN CHOICE, log entry 123). -/
def Dev.dormantReset (d : Dev) : Dev :=
  let we := d.wakeEngine
  let regs := keepRegs (fun r i => dormantKeeps r || (isTch r && we == some i)) d.regs
  let live := keepRegs (fun r i => isTch r && we == some i) d.live
  let eng := match we with | some e => Tbl.put ([] : Tbl TchEng) e (d.eng e) | none => []
  let own : OwnSt := { d.own with assign := none, ceWorldHeld := [] }
  { disp := { outs := d.disp.outs.mapVals fun o => { lastLatch := o.lastLatch } }
    regs := regs, live := live, time := d.time.resumed, own := own, ports := d.ports.mapVals PortSt.afterDormant, tch := eng
    msys := { ddrBytes := d.msys.ddrBytes }, hrq := { keys := d.hrq.keys.mapVals KeySlot.rested, toFlash := d.hrq.toFlash }, free := d.free
    outbox := d.outbox
    mgt := { d.mgt with phase := d.pwr.acholt, early := [], earlyEnds := [], earlyDue := d.fl PWR_STATE_CTRL.EV_WAKE 0 == 1 }
    pwr := { phase := .resuming } }

/-- What the device shows again after the loss: the straps, the marks, retirements, members and the power state. -/
def Dev.dormantShow (d old : Dev) : Dev :=
  let d1 := (List.range 8).foldl (fun (d : Dev) n =>
    (d.setF DSP_PORT_STAT.DIR (8 + n) (old.f DSP_PORT_STAT.DIR (8 + n))).setF VIN_RX_STAT.DIR (8 + n) (old.f DSP_PORT_STAT.DIR (8 + n))) d
  let d2 := (List.range 64).foldl (fun (d : Dev) v => d.setF GLB_VF_STAT.SECURE v (b2n (d.secureVf v))) d1
  let d3 := ((d2.setF CNV_STAT.POSITION 0 (old.f CNV_STAT.POSITION 0)).restoreBench.applyMembers old.mgt.members).mgtShow
  let d4 := (d3.setF GLB_LTIME_STAT.CARRIED 0 (old.f GLB_LTIME_STAT.CARRIED 0)).setF MGT_STAT.RESTARTS 0 (old.f MGT_STAT.RESTARTS 0)
  let d5 := ((((d4.setF MEM_DDR_STAT.UE 0 0).setF MEM_DDR_STAT.UE 1 0).setF PWR_STATE_STAT.STATE 0 3).setF PWR_STATE_STAT.WAKE_SRC 0 (old.f PWR_STATE_STAT.WAKE_SRC 0)).setF PWR_STATE_STAT.TRIP 0
    (old.f PWR_STATE_STAT.TRIP 0)
  let wakeN := (List.range 2).foldl (fun (t : Tbl Bool) p => t.put p ((old.ports.get p).pme.any fun e => e.2)) []
  ((List.range 64).foldl (fun (d : Dev) c => d.setF MBX_BIND.UP c 0) d5).updPwr fun w => { w with wakeN := wakeN }

/-- The wake engine scans again, its first scan being due at once, and the press that woke the device is pending. -/
def Dev.wakeEngineBack (d : Dev) (we : Option Nat) : Dev :=
  match we with
  | some e => ((d.setF TCH_TE_STAT.STATE e 1).updEng e fun x => { x with nextAt := d.now }).raiseIf (!(d.eng e).wakePress.isEmpty) (304 + 8 * e + 5)
  | none => d

/-- Steps 3, 4 and 6 of R593. -/
def State.dormantExit (s : State) : State :=
  let d := s.dev
  let s1 : State := { s with
    mem := s.mem.clearHalves d.retained
    dev := (d.dormantReset.dormantShow d).wakeEngineBack d.wakeEngine }
  if d.tableKept then s1 else s1.initTable.onDev (·.setF OWN_LOCK_STAT.TABLE_REINIT 0 1)

/-- RAIL_WAIT_MS has passed, and the monitors find group B in range or not (R593). -/
def execRailWaitExpire (ok : Bool) (s : State) : Host.Outcome State Fault Refusal :=
  .next (if s.dev.pwr.phase != .railWait || decide (s.dev.now < s.dev.pwr.railAt) then s
  else if ok then s.dormantExit
  else s.onDev (·.updPwr fun w => { w with railAt := s.dev.now + 1000000 }))

/-- Device memory is ready: the device is ON (R593). -/
def execDormantExitDone (s : State) : Host.Outcome State Fault Refusal :=
  .next (s.onDev fun d =>
    if d.pwr.phase == .resuming && d.msys.trained then
      ((d.updPwr fun w => { w with phase := .on }).setF PWR_STATE_STAT.STATE 0 0).setF PWR_STATE_STAT.DORM_DONE 0 1
    else d)

/-- A scan of the wake keys in DORMANT, once every WAKE_MS of LTIME (R412). -/
def execWakeScan (counts : ScanCounts) (s : State) : Host.Outcome State Fault Refusal :=
  .next (s.onDev fun d =>
    match d.wakeEngine, d.pwr.phase with
    | some e, .dormant =>
      if d.now < (d.eng e).nextAt then d
      else
      let r := (d.updEng e fun x => { x with nextAt := x.nextAt + d.wakePeriod e }).wakeStep e counts
      if r.2 = [] then r.1
      else
        let d1 := if r.1.fl TCH_WAKE_CFG.PIN_EN e = 1 then r.1.setF TCH_WAKE_CFG.PIN_ASSERTED e 1 else r.1
        (d1.raise (304 + 8 * e + 5)).wake [1]
    | _, _ => d)

/-! Power domains and interface clocks (R595 to R597). -/

def Dev.warpIdle (d : Dev) : Bool :=
  ((List.range 2).all fun e => let w := d.vin.we.get e; w.queue.isEmpty && w.parked.isEmpty && w.runs.isEmpty && w.job.isNone && w.preempted.isNone) &&
    (List.range 16).all fun c => (d.cs c).standing.isNone

/-- The idle condition of a power domain. -/
def Dev.domIdle (d : Dev) (b : Nat) : Bool :=
  if b < 12 then !d.tgOn b
  else if b = 12 then !d.ingestOn
  else if b = 13 then d.warpIdle
  else if b = 14 then (List.range 128).all fun g => (d.gctx g).cmds.isEmpty
  else if b = 15 then (List.range 64).all fun x => !d.fb CPE_CH_STAT.BUSY x
  else if b < 20 then d.tchState (b - 16) == 0
  else if b = 20 then (List.range 8).all fun c => d.hapState c == 0
  else if b = 21 then !d.fb AUD_GLB_CTRL.RUN 0
  else (List.range 3).all fun k => !d.fb CNV_PORT_STAT.UP k

/-- No engine holds work (R589). -/
def Dev.devIdle (d : Dev) : Bool :=
  !d.floorHeld && !d.anyStarted && d.warpIdle && d.domIdle 14 && d.domIdle 15 && d.own.assign.isNone && d.part.move.isNone && d.msys.swap.isNone &&
    ((List.range 4).all fun e => d.tchState e != 1) && (List.range 8).all fun c => !decide (2 ≤ d.hapState c ∧ d.hapState c ≤ 4)

/-! The pace governor (R26 to R28). -/

/-- The governor lowers VDD_CORE below 0.72 V only in IDLE (R5, R589). -/
def Dev.floorTarget (d : Dev) (mv : Nat) : Nat :=
  if d.devIdle ∨ 720 ≤ mv ∨ d.pace.setpoint ≤ mv then mv else min d.pace.setpoint 720

/-- One governor window (R26, with the code of that section). A probe without a reading, before its first window has ended, counts neither as
short nor as tight, so the window counts as calm for it (DESIGN CHOICE, log entry 120). AT_VMAX tells that the setpoint already stood at VMAX_MV
when a probe of this window read below need (R33). -/
def Dev.governor (d : Dev) (demand margin : List Nat) : Dev :=
  let reading := fun e => d.pace.probes.get e
  let short := fun e => match reading e with | some p => decide (p < d.need demand e) | none => false
  let tight := fun e => match reading e with | some p => decide (p < d.need demand e + margin.getD e 0) | none => false
  let raise := (List.range 60).any short
  let calm := if (List.range 60).any tight then 0 else d.pace.calm + 1
  let vmax := d.f PWR_PACE_CTRL.VMAX_MV 0
  let held := d.floorHeld
  let low := if held then 735 else 600
  let sp := d.pace.setpoint
  let target :=
    if d.f PWR_PACE_CTRL.MODE 0 = 1 then clampN low vmax (d.f PWR_PACE_CTRL.FIXED_MV 0)
    else if held && decide (sp < 735) then 735
    else if raise then min (sp + 10) vmax
    else if 10 ≤ calm then max (sp - 5) low
    else sp
  let d1 := { d with pace := { d.pace with calm := calm } }.setVcore (min (d.floorTarget target) vmax)
  d1.setF PWR_PACE_STAT.AT_VMAX 0 (b2n (raise && decide (vmax ≤ sp)))

/-- A window of the governor has ended (R26); in it the governor also reads the rail's voltage and current (R28; log entry 120). -/
def execGovernorWindow (demand margin : List Nat) (s : State) : Host.Outcome State Fault Refusal :=
  .next (s.onDev fun d => if d.acholtRuns && decide (d.pace.govWin < d.paceWindow) then
    (({ d with pace := { d.pace with govWin := d.paceWindow } }.governor demand margin).emit .avsVoltageRead).emit .avsCurrentRead else d)

/-! Power-off and power-on requests. -/

/-- The condition under which an interface clock may be gated. -/
def Dev.clkIdle (d : Dev) (b : Nat) : Bool :=
  if b < 6 then !d.fb DSP_PORT_CFG.ENABLE b
  else if b < 14 then (if d.aphyRx (b + 2) then !d.fb VIN_RX_CFG.ENABLE (b + 2) else !d.fb DSP_PORT_CFG.ENABLE (b + 2))
  else if b < 18 then !d.fb VIN_RX_CFG.ENABLE (b + 2)
  else if b < 26 then !d.fb AUD_TDM_CFG.ENABLE (b - 18)
  else if b < 30 then !d.fb AUD_PDM_CFG.ENABLE (b - 26)
  else (List.range 8).all fun c => !bit ((d.hapCh c).u 33 1) 1

/-- The bits of a request that pass a test. -/
def bitsWhere (m n : Nat) (p : Nat → Bool) : Nat := ((List.range n).filter fun b => bit m b && p b).foldl (fun a b => a + 2 ^ b) 0

/-- An off request (R107, R596): held bits and bits that are not idle have no effect, and the others are powered down or gated. -/
def Dev.pwrOff (d : Dev) (who : Fn) (want n : Nat) (hold : Reg) (idle : Nat → Bool) (stat : Reg) : Dev :=
  let held := fun b => !d.secure who && bit (d.reg hold 0).toNat b
  let anyHeld := bitsWhere want n held != 0
  let anyBusy := bitsWhere want n (fun b => !held b && !idle b) != 0
  let off := bitsWhere want n fun b => !held b && idle b
  let d1 := d.setReg stat 0 (d.reg stat 0 &&& ~~~(BitVec.ofNat 32 off))
  let d2 := if anyHeld then d1.setF PWR_REQ_STAT.HELD 0 1 else d1
  let d3 := if anyBusy then d2.setF PWR_REQ_STAT.BUSY_REF 0 1 else d2
  if want % 2 ^ n = 0 then d3 else d3.setF PWR_REQ_STAT.DONE 0 1

def pwrDomOffWrite (who : Fn) (val : Word) (d : Dev) : Dev := d.pwrOff who val.toNat 23 .OWN_HOLD_PWR d.domIdle .PWR_DOM_STAT

def pwrClkOffWrite (who : Fn) (val : Word) (d : Dev) : Dev := d.pwrOff who val.toNat 31 .OWN_HOLD_CLK d.clkIdle .PWR_CLK_STAT

def pwrDomOnWrite (_who : Fn) (val : Word) (d : Dev) : Dev :=
  if val.toNat % 2 ^ 23 = 0 then d else (d.needDomains val.toNat).setF PWR_REQ_STAT.DONE 0 1

def pwrClkOnWrite (_who : Fn) (val : Word) (d : Dev) : Dev :=
  if val.toNat % 2 ^ 31 = 0 then d else (d.needClocks val.toNat).setF PWR_REQ_STAT.DONE 0 1

def execPwrDomOff (who : Fn) (val : Word) (s : State) : Host.Outcome State Fault Refusal :=
  .next (if notVf who then s.onDev (pwrDomOffWrite who val) else s)

def execPwrDomOn (who : Fn) (val : Word) (s : State) : Host.Outcome State Fault Refusal :=
  .next (if notVf who then s.onDev (pwrDomOnWrite who val) else s)

def execPwrClkOff (who : Fn) (val : Word) (s : State) : Host.Outcome State Fault Refusal :=
  .next (if notVf who then s.onDev (pwrClkOffWrite who val) else s)

def execPwrClkOn (who : Fn) (val : Word) (s : State) : Host.Outcome State Fault Refusal :=
  .next (if notVf who then s.onDev (pwrClkOnWrite who val) else s)

/-- A write of PWR_WAKE_GPIO: bits of Secure pins are written by the Secure world only (R598). -/
def wakeGpioWrite (who : Fn) (hi : Bool) (val : Word) (d : Dev) : Dev :=
  let r := if hi then Reg.PWR_WAKE_GPIO_HI else Reg.PWR_WAKE_GPIO_LO
  let w := d.reg .OWN_PIN_WORLD (b2n hi) &&& (if hi then (0xFFFF : Word) else 0xFFFFFFFF)
  let old := d.reg r 0
  if d.secure who then d.write who r 0 val
  else
    let d1 := d.write who r 0 ((val &&& ~~~w) ||| (old &&& w))
    if (val ^^^ old) &&& w = 0 then d1 else d1.werr who r 0

/-! The calendar (R571, R573, R594). -/

/-- Every rail but VBAT is removed: the clock goes on, and with VDD_AON the log ring and the Thermos domain are lost (R562, R579, R594). -/
def execCalendarEntry (s : State) : Host.Outcome State Fault Refusal :=
  .next { s with
    mem := {}
    dev :=
      let d1 := s.dev.coldReset .calendar
      let keys := d1.hrq.keys.mapVals fun k => { k with counter := 0 }
      ({ d1 with hrq := { d1.hrq with keys := keys }, pwr := { phase := .calendar }
                 mgt := { d1.mgt with log := [], nextSeq := d1.mgt.nextMirror, logLoss := true, trips := [] } }).setF PWR_STATE_STAT.TRIP 0 0 }

/-- A second passes on the calendar clock. -/
def execCalendarSecond (s : State) : Host.Outcome State Fault Refusal :=
  .next (s.onDev fun d =>
    if !d.fb MGT_CAL_SUB.VALID 0 then d
    else
      let sec := ((d.reg .MGT_CAL_SEC 0).toNat + 1) % 2 ^ 32
      let d1 := ((d.setReg .MGT_CAL_SEC 0 (BitVec.ofNat 32 sec)).setF MGT_CAL_SUB.CAL_SUB 0 0).calAlarm sec
      if d.fb MGT_CAL_SUB.ALARM_EN 0 && (d.reg .MGT_CAL_ALARM 0).toNat == sec && d.fb MGT_CAL_SUB.WAKE_EN 0 then d1.wake [2] else d1)

end Sys2Proof.Machine
end

