-- ==== Sys2Proof/Machine/Start.lean ====
section
/-! DEFINITION. How any command starts: the engine that an opcode names, fences that are reached, and envelopes (R129, R145, R154, R155). -/

namespace Sys2Proof.Machine

/-- Display commands. -/
def runDisplay (f : Fn) (op : Nat) : Run :=
  match op with
  | 0x10 => runCommit f.code
  | 0x11 => runWaitFrame
  | 0x12 => runQueryFrame
  | 0x18 => runTable f.code .colour
  | 0x19 => runTable f.code .scaler
  | 0x1A => runWriteback f.code
  | 0x20 => runCanopy f.code .canopy
  | 0x21 => runCanopy f.code .outstage
  | 0x22 => runCanopyOwn f.code
  | 0x28 => runBacklight f.code
  | _ => fun ref _ s => s.onDev (·.endCmd ref ST_BAD_OPCODE errOutside)

/-- Video, audio, touch, haptic and mailbox commands. -/
def runStreams (f : Fn) (op : Nat) : Run :=
  match op with
  | 0x50 => runStreamSet f.code
  | 0x51 => runStreamStart f.code
  | 0x52 => runStreamStop f.code
  | 0x53 => runFrameHold f.code
  | 0x54 => runFrameRelease f.code
  | 0x55 => runWarp f.code
  | 0x56 => runWarpStanding f.code
  | 0x57 => runWarpCancel f.code
  | 0x70 => runHamper f
  | 0x71 => runAudStream f
  | 0x72 => runChimePlay f
  | 0x73 => runChimeStop f
  | 0x80 => runTouchSet f
  | 0x81 => runTouchStart f
  | 0x82 => runTouchStop f
  | 0x83 => runTouchRebase f
  | 0x88 => runHapSet f
  | 0x89 => runHapPlay f
  | 0x8A => runHapStop f
  | 0x8B => runHapLoad f
  | 0x90 => runMbx f true
  | 0x91 => runMbx f false
  | _ => fun ref _ s => s.onDev (·.endCmd ref ST_BAD_OPCODE errOutside)

/-- Commands of one opcode that SUB tells apart. -/
def runBySub (f : Fn) (op sub : Nat) : Run :=
  match op, sub with
  | 0xA2, 1 => runEpochRaise f
  | 0xA2, _ => runLockLoad f
  | 0xA4, 1 => runFwVerify f
  | 0xA4, 2 => runFwActivate f
  | 0xA4, 3 => runFwConfirm f
  | 0xA4, _ => runFwWrite f
  | 0xAD, 0 => runEarlyStore f
  | 0xAD, 2 => runEarlyClear f
  | 0xAD, _ => runEarlyEnd f
  | _, 1 => runCalAlarm f
  | _, 2 => runCalTrim f
  | _, _ => runCalTime f

/-- Management commands. -/
def runMgmt (f : Fn) (op : Nat) : Run :=
  match op with
  | 0xA0 => runSensorRead f
  | 0xA1 => runLogRead f
  | 0xA3 => runDebugSet f
  | 0xA5 => runBenchSwap f
  | 0xA6 => runKeyRevoke f
  | 0xA7 => runConvoyMembers f
  | 0xA8 => runFreeze f
  | 0xA9 => runThaw f
  | 0xAA => runSave f
  | 0xAB => runRestore f
  | 0xAC => runHarvest f
  | _ => fun ref c s => runBySub f op (c.u 33 1) ref c s

/-- The engine that a command's opcode names. -/
def runAny (f : Fn) (q : Fin 8) : Run := fun ref c s =>
  let o := c.opcode
  (if o < 0x30 then runDisplay f o
   else if o < 0x50 then runGpu f q
   else if 0x60 ≤ o ∧ o < 0x70 then runCopy f
   else if o < 0xA0 then runStreams f o
   else runMgmt f o) ref c s

/-- The command carries out an operation whose outcome comes from outside the device, and starts with the row that holds it: I3C_XFER, and the
fuse programming of FW_UPDATE (log entry 30). -/
def Cmd.ownRow (c : Cmd) : Bool := c.opcode == 0xAF || (c.opcode == 0xA4 && c.u 33 1 == 4)

/-- A command that has waited on a fence starts once its value is reached (R145). -/
def execFenceWaitSatisfied (f : Fn) (q : Fin 8) (s : State) : Host.Outcome State Fault Refusal :=
  .next (s.startIf f q (fun c => (match c.phase with | .waiting _ => true | _ => false) && s.dev.fenceReached c && !c.ownRow) (runAny f q))

/-- An envelope is taken, verified and opened (R154, R155). -/
def execEnvelope (f : Fn) (q : Fin 8) (s : State) : Host.Outcome State Fault Refusal :=
  .next (match (s.dev.queue (qi f q)).next with
  | some (c, _) =>
    if c.env.isNone then s
    else if c.ownRow then { s with dev := (s.dev.takeEnvelope f q).1 }
    else s.openEnvelope f q (runAny f q)
  | none => s)

end Sys2Proof.Machine
end

