-- ==== Sys2Proof/Machine/Access.lean ====
section
/-! DEFINITION. Single accesses to memory (R54 to R57, R62, R63, R81, R87 to R91) and completions from host memory (R121, R645). -/

namespace Sys2Proof.Machine

/-! On whose behalf (R81, R89). -/

/-- A requester, its path in R89 (13 for none), the output of a writeback, and its class in R55 (log entry 31 where R55 names none). -/
structure Master where
  req : Req
  path : Nat
  out : Nat
  cls : Nat
deriving DecidableEq, Repr

/-- A resource with an owner issues accesses for that owner. -/
def Dev.ownerMaster (d : Dev) (code path cls : Nat) : Option Master :=
  if code = 0 then none else some ⟨⟨code, d.secureCode code⟩, path, 0, cls⟩

/-- The layer, if its slot shows a record on that output. -/
def Dev.layerMaster (d : Dev) (n s : Nat) : Option Master :=
  if d.slotOut s = some n ∧ (d.layer s).cur.isSome then d.ownerMaster (d.slotOwner s) 0 1 else none

/-- The capture whose FIFO holds the output's next write (R234). -/
def Dev.captureMaster (d : Dev) (n : Nat) : Option Master :=
  (d.wbNext n).map fun w => ⟨w.1.req, if w.1.tap = 1 then 7 else 6, n, 2⟩

/-- The message command of a queue that reads or writes device memory. -/
def Dev.queueBulk (d : Dev) (i : Nat) : Option MbxBulk := d.mbx.bulk.find? fun b => b.ref.queue == i && !b.host

/-- The master of a piece of work; none where nothing of it runs: a haptic channel reads memory only for HAP_EFF_LOAD, whose queue does it (R427). -/
def Dev.master (d : Dev) : Work → Option Master
  | .layer n s => d.layerMaster n.val s.val
  | .canopy n => if (d.out n.val).canopy.on then some ⟨⟨0x01, true⟩, 1, 0, 1⟩ else none
  | .writeback n => d.captureMaster n.val
  | .ingest c => if d.csState c.val = 0 then none else d.ownerMaster (d.csOwner c.val) 2 2
  | .warp e => (d.we e.val).job.map fun j => ⟨⟨j.code, j.sec⟩, 3, 0, 3⟩
  | .graphics g => if (d.gctx g.val).active then d.ownerMaster (d.ctxOwner g.val) 4 4 else none
  | .copy e ch => (d.chan (cpeIdx e.val ch.val)).run.map fun _ => ⟨d.cpReq (cpeIdx e.val ch.val), 5, 0, 5⟩
  | .touch e => if d.tchState e.val = 0 then none else d.ownerMaster (d.tchOwner e.val) 13 6
  | .haptic _ => none
  | .audio n => if d.fb AUD_STRM_STAT.RUN n.val then d.ownerMaster (d.streamOwner n.val) 13 5 else none
  | .queue f q => (d.queueBulk (qi f q)).map fun b => ⟨⟨b.code, b.sec⟩, 13, 0, 5⟩
  | .fetch _ _ => none
  | .agent => some ⟨⟨0x06, true⟩, 11, 0, 7⟩
  | .helper => if d.msys.swap.isSome || d.part.move.isSome then some ⟨⟨0x06, true⟩, 11, 0, 5⟩ else none

/-! What follows a refusal or a poisoned word (R63, R91): a device agent carries poison on (R64, R72), and no operation with a status is its own. -/

def State.accessFailed (s : State) (w : Work) (refused : Bool) : State :=
  let st := if refused then ST_OWN_REFUSED else ST_POISONED
  match w with
  | .layer n k => s.onDev fun d => if refused then d.fetchRefused n.val k.val else d.underrun n.val k.val (d.out n.val).compose
  | .canopy n => s.onDev (·.canopyFault n.val refused)
  | .writeback n =>
    match s.dev.wbNext n.val with
    | some w => s.onDev (·.endCapture n.val w.1 st 0 s.dev.now)
    | none => s
  | .ingest c => s.onDev (·.ingestRefused c.val)
  | .warp e =>
    match (s.dev.we e.val).job with
    | some j => s.onDev (·.jobEnd e.val j (some st))
    | none => s
  | .graphics g => s.gpuFault g.val st
  | .copy e ch =>
    match (s.dev.chan (cpeIdx e.val ch.val)).run with
    | some j => s.onDev (·.cpEnd (cpeIdx e.val ch.val) j (some st))
    | none => s
  | .touch e => s.onDev (·.tchRingFault e.val st)
  | .audio n => s.onDev (·.streamFault n.val)
  | .queue f q =>
    match s.dev.queueBulk (qi f q) with
    | some b => s.onDev (·.endBulk b st (if b.send then b.popped else b.recvResult))
    | none => s
  | .haptic _ | .fetch _ _ | .agent | .helper => s

/-! A granted access. -/

/-- A read of `n` bytes whose words the code checks (R62): words with uncorrectable errors are counted one by one and fail the access. -/
def State.grantedRead (s : State) (w : Work) (a n : Nat) (es : List Ecc) : State :=
  let s1 := s.findErrors a n es
  match s1.badWords a n with
  | [] => s1
  | bad => (s1.onDev fun d => bad.foldl Dev.memUe d).accessFailed w false

/-- What a granted access has done for the work it belongs to: a line of a capture leaves its FIFO (R234). -/
def State.accessDone (s : State) (w : Work) : State :=
  match w with
  | .writeback n => match s.dev.wbNext n.val with | some x => s.onDev (·.wbWritten n.val x.1) | none => s
  | _ => s

/-- The access of the row; a writeback issues the next write of its FIFO, whatever the row names. -/
def Dev.issued (d : Dev) (a : Access) : Access :=
  match a.work with
  | .writeback n => match d.wbNext n.val with | some w => { a with addr := w.2.1, write := true, data := w.2.2, len := w.2.2.length } | none => a
  | _ => a

/-- The check at issue, one arbitration round, and the access where it is granted. -/
def State.access (s : State) (m : Master) (a : Access) (rivals : List Rival) : State :=
  let room := 64 - a.addr % 64
  let bs := a.data.take room
  let n := if a.write then bs.length else min a.len room
  if !s.checkAccess m.req m.path a.addr a.write m.out then (s.refuseAt m.req m.path a.addr a.write).accessFailed a.work true
  else
    let b := s.dev.arbiterOf a.addr
    let rd := s.dev.round b ⟨m.cls, m.req.mid, a.work.unit, m.req.sec⟩ rivals
    let s1 : State := { s with dev := rd.1 }
    if !rd.2 then s1
    else
      let s2 := s1.onDev (·.countAccess m.req a.addr n (!a.write) a.ns)
      if a.write then (s2.storeLine m.req a.addr bs).accessDone a.work else s2.grantedRead a.work a.addr n a.ecc

def execMemoryAccess (a : Access) (rivals : List Rival) (s : State) : Host.Outcome State Fault Refusal :=
  .next (match s.dev.master a.work with
  | some m => s.access m (s.dev.issued a) rivals
  | none => s)

/-! Host memory (R121). -/

/-- Data for a command: messages to send, or an image to restore. -/
def State.queueData (s : State) (ref : CmdRef) (bs : List Byte) : State :=
  match s.dev.mbx.bulk.find? fun b => b.ref == ref && b.send && b.host with
  | some b => (s.onDev (·.setBulk { b with data := b.data ++ bs })).mbxRun b.chan
  | none =>
    match s.dev.part.fetches.find? fun x => x.ref == ref with
    | none => s
    | some x =>
      let all := x.data ++ bs
      let rest := fun (p : PartSt) => { p with fetches := p.fetches.filter fun y => y.ref != x.ref }
      if all.length < x.need then s.onDev (·.updPart fun p => { p with
        fetches := p.fetches.map fun y => if y.ref = x.ref then { y with data := all } else y })
      else
        match s.dev.cmd? x.ref with
        | some c => (s.onDev (·.updPart rest)).restoreImage x.ref c (all.take x.need)
        | none => s.onDev (·.updPart rest)

/-- A request for a command failed. -/
def State.queueHostFault (s : State) (ref : CmdRef) : State :=
  match s.dev.mbx.bulk.find? fun b => b.ref == ref with
  | some b => s.onDev (·.endBulk b ST_HOST_DMA (if b.send then b.popped else b.recvResult))
  | none =>
    match s.dev.part.fetches.find? fun x => x.ref == ref with
    | none => s
    | some x =>
      let s1 := match s.dev.cmd? x.ref with
        | some c =>
          let v := le c.lead 32 1 % 64
          if s.dev.vfState v = 5 then s.onDev (·.setF GLB_VF_STAT.STATE v 1) else s
        | none => s
      s1.onDev fun d => (d.updPart fun p => { p with fetches := p.fetches.filter fun y => y.ref != x.ref }).endCmd x.ref ST_HOST_DMA 0

/-- The data of a request has arrived. -/
def State.hostData (s : State) (r : HostReq) (bs : List Byte) : State :=
  match r.work, r.ref with
  | .layer _ k, _ => s.onDev (·.hostArrived k.val r.addr bs)
  | .copy e ch, _ => s.onDev (·.updChan (cpeIdx e.val ch.val) fun c => if c.run.isSome then { c with host := c.host ++ bs } else c)
  | .touch e, _ => s.onDev (·.tchHostData e.val bs)
  | .audio n, _ => s.onDev (·.streamData n.val bs)
  | .graphics g, _ => s.onDev (·.shaderGot g.val (bs.map BitVec.toNat))
  | .queue _ _, some ref => s.queueData ref bs
  | .fetch f q, _ => s.onDev (·.descriptorData f q (some (pieces bs)) false)
  | _, _ => s

/-- An error, poisoned data or the completion timeout: the operation stops with HOST_DMA, and a ring read halts its queue (R176, R381, R645). -/
def State.hostFailed (s : State) (r : HostReq) : State :=
  match r.work, r.ref with
  | .layer n k, _ => s.onDev (·.hostFetchFailed n.val k.val)
  | .copy e ch, _ =>
    match (s.dev.chan (cpeIdx e.val ch.val)).run with
    | some j => s.onDev (·.cpEnd (cpeIdx e.val ch.val) j (some ST_HOST_DMA))
    | none => s
  | .touch e, _ => s.onDev (·.tchHostFail e.val)
  | .audio n, _ => s.onDev (·.streamFault n.val)
  | .graphics g, _ => s.gpuFault g.val ST_HOST_DMA
  | .queue _ _, some ref => s.queueHostFault ref
  | .fetch f q, _ => s.onDev (·.descriptorData f q none false)
  | _, _ => s

/-- Requests of operations that have ended since are dropped. -/
def Dev.tidyReads (d : Dev) : Dev := d.keepReads d.readLive

/-- A request has its answer: it leaves the list, and its data or its failure reaches the operation, whose other requests end with it. -/
def State.endRead (s : State) (k : Nat) (r : HostReq) (data : Option (List Byte)) : State :=
  let s1 := s.onDev fun d => { d with hrq := { d.hrq with reads := d.hrq.reads.eraseIdx k } }
  (match data with
   | some bs => s1.hostData r bs
   | none => (s1.onDev (·.keepReads fun x => !(x.work == r.work && x.ref == r.ref))).hostFailed r).onDev Dev.tidyReads

/-- AER of a function records an uncorrectable error, by its bit of the standard's status register (R117; log entry 129). -/
def Dev.aerSet (d : Dev) (f : Fn) (b : Nat) : Dev :=
  { d with pci := d.pci.upd f.code fun x => { x with aer := x.aer ||| 2 ^ b } }

/-- A completion arrives `ns` after its request; it answers the oldest request sent for the work (log entry 129), whose data may come in parts. -/
def State.hostReply (s : State) (w : Work) (reply : HostResult) (ns : Nat) : State :=
  let rs := s.dev.hrq.reads
  match rs.findIdx? fun r => r.work == w && r.sent.isSome with
  | none => s
  | some k =>
    let r := rs.getD k default
    match reply with
    | .ok bs =>
      let s1 := s.onDev (·.countHost r.f bs.length ns)
      let all := r.got ++ bs
      if all.length < r.len then s1.onDev fun d => { d with hrq := { d.hrq with reads := rs.set k { r with got := all } } }
      else s1.endRead k r (some (all.take r.len))
    | .poisoned => (s.onDev (·.aerSet r.f 12)).endRead k r none
    | .unsupportedRequest | .completerAbort => s.endRead k r none

def execHostCompletion (w : Work) (reply : HostResult) (ns : Nat) (s : State) : Host.Outcome State Fault Refusal := .next (s.hostReply w reply ns)

/-- A request runs past its completion timeout (R121). -/
def execHostCompletionTimeout (w : Work) (s : State) : Host.Outcome State Fault Refusal :=
  .next (match s.dev.hrq.reads.findIdx? fun r => r.work == w && s.dev.readLate r with
  | some k => let r := s.dev.hrq.reads.getD k default; (s.onDev (·.aerSet r.f 14)).endRead k r none
  | none => s)

end Sys2Proof.Machine
end

