-- ==== Sys2Proof/Machine/Register.lean ====
section
/-! DEFINITION. Accesses to the registers by their offsets: PF BAR0, the windows of VF BAR0 and the SP0 address space (R9 to R12, R48, R123,
R634 to R637, R643, R644). -/

namespace Sys2Proof.Machine

/-! Where a register lies. -/

/-- The member of a register at an offset of PF BAR0. -/
def Place.member (p : Place) (off : Nat) : Option Nat :=
  if off < p.base then none
  else
    let x := off - p.base
    match p.dims with
    | [] => if x = 0 then some 0 else none
    | [(s, n)] => if x % s = 0 ∧ x / s < n then some (x / s) else none
    | (s, n) :: (t, m) :: _ => if x / s < n ∧ x % s % t = 0 ∧ x % s / t < m then some (idx2 m (x / s) (x % s / t)) else none

/-- The register at an offset of PF BAR0. -/
def regAt (off : Nat) : Option (Reg × Nat) := Reg.all.findSome? fun r => (r.place.member off).map fun i => (r, i)

/-- The function blocks of the HRQ exist for SP0, the PFs and the VFs (R159). -/
def hrqFn (c : Nat) : Bool := c == 1 || c == 4 || c == 5 || decide (0x10 ≤ c ∧ c < 0x50)

/-- The member exists: no MSI-X for SP0 and 16 vectors for a VF, apertures of VFs only (R159), port registers under R278 and R336. -/
def Dev.regExists (d : Dev) (r : Reg) (i : Nat) : Bool :=
  match r with
  | .HRQ_APERTURE_LO | .HRQ_APERTURE_HI => decide (0x10 ≤ i ∧ i < 0x50)
  | .HRQ_SQ_BASE_LO | .HRQ_SQ_BASE_HI | .HRQ_CQ_BASE_LO | .HRQ_CQ_BASE_HI | .HRQ_Q_CFG | .HRQ_Q_IRQ | .HRQ_Q_STAT | .HRQ_Q_PTR | .HRQ_SHADOW_LO
  | .HRQ_SHADOW_HI | .HRQ_Q_TIMEOUT => hrqFn (i / 8)
  | .HRQ_MSIX_TABLE => hrqFn (i / 256) && i / 256 != 1 && (decide (i / 256 < 0x10) || decide (i % 256 < 64))
  | .HRQ_MSIX_PBA => hrqFn (i / 2) && i / 2 != 1 && (decide (i / 2 < 0x10) || i % 2 == 0)
  | .DSP_PORT_CFG | .DSP_PORT_STAT | .DSP_PORT_SC_CMD | .DSP_PORT_SC_STAT => d.portExists i
  | .DSP_PORT_SC_DATA => d.portExists (i / 4)
  | .VIN_RX_CFG | .VIN_RX_STAT => decide (8 ≤ i)
  | _ => true

/-- A register that an access reaches, and whether the access may write it. -/
structure Hit where
  reg : Reg
  i : Nat
  writable : Bool
deriving DecidableEq, Repr

/-- The register at an offset of PF BAR0, for a PF, SP0 or Acholt. -/
def Dev.pfHit (d : Dev) (off : Nat) : Option Hit :=
  match regAt off with
  | some (r, i) => if d.regExists r i then some ⟨r, i, true⟩ else none
  | none => none

/-- An offset within the windows that repeat every `stride` from `base`: the index and the offset in its window. -/
def inWindow (off base stride n : Nat) : Option (Nat × Nat) :=
  if base ≤ off ∧ off < base + stride * n then some ((off - base) / stride, (off - base) % stride) else none

/-- A read-only window of two registers at +0x00 and +0x04, shown to the resource's owner. -/
def pairHit (own : Bool) (r0 r4 : Reg) (i k : Nat) : Option Hit :=
  if !own then none else if k = 0 then some ⟨r0, i, false⟩ else if k = 4 then some ⟨r4, i, false⟩ else none

/-- A window that shows offsets `lo` to `hi` of each block as PF BAR0 places them. -/
def Dev.imageHit (d : Dev) (own writable : Bool) (lo hi pf k : Nat) : Option Hit :=
  if own ∧ lo ≤ k ∧ k ≤ hi then (d.pfHit (pf + k)).map fun h => { h with writable := writable } else none

/-- LTIME and PTM offsets (R49), and the HRQ function block (R159). -/
def Dev.vfTime (d : Dev) (c off : Nat) : Option Hit :=
  match d.pfHit (off - 0x10000 + 0x100) with
  | some h => if (h.reg == .GLB_PTM_OFFSET_LO || h.reg == .GLB_PTM_OFFSET_HI) && portOf c != some h.i then none else some { h with writable := false }
  | none => none

/-- The display windows (R170, R244, R299). -/
def Dev.vfDisplay (d : Dev) (c off : Nat) : Option Hit :=
  match inWindow off 0x30000 0x10 384 with
  | some (s, k) => pairHit (d.slotOwner s == c) .DSP_SLOT_STAT .DSP_SLOT_SEQ s k
  | none => match inWindow off 0x32000 0x40 12 with
    | some (n, k) => pairHit (d.fl DSP_CMP_CTRL.CSTAGE_OWNER n == c) .DSP_CMP_STAT .DSP_CMP_COV n k
    | none => match inWindow off 0x33000 0x40 12 with
      | some (n, k) => pairHit (d.fl DSP_CMP_CTRL.CSTAGE_OWNER n == c) .DSP_TG_STAT .DSP_TG_SEQ n k
      | none => none

/-- Camera, graphics and copy windows (R335, R384, R385). -/
def Dev.vfEngines (d : Dev) (c off : Nat) : Option Hit :=
  match inWindow off 0x34000 0x40 16 with
  | some (x, k) => d.imageHit (d.csOwner x == c) false 4 0x24 (0x1000000 + 0x40 * x) k
  | none => match inWindow off 0x35000 0x20 128 with
    | some (g, k) => pairHit (d.ctxOwner g == c) .GPU_CTX_STAT .GPU_CTX_USE g k
    | none => match inWindow off 0x36000 0x10 64 with
      | some (x, k) => if k = 0 ∧ d.cpOwner x = c then some ⟨.CPE_CH_STAT, x, false⟩ else none
      | none => none

/-- Touch, haptic and audio windows (R414, R434, R471). -/
def Dev.vfField (d : Dev) (c off : Nat) : Option Hit :=
  match inWindow off 0x37000 0x100 4 with
  | some (e, k) => d.imageHit (d.tchOwner e == c) true 4 0x2C (0x1800000 + 0x100 * e) k
  | none => match inWindow off 0x38000 0x40 8 with
    | some (h, k) => d.imageHit (d.hapOwner h == c) false 4 0xC (0x1900000 + 0x40 * h) k
    | none => match inWindow off 0x39000 0x10 12 with
      | some (n, k) => d.imageHit (d.streamOwner n == c) true 0 0xC (0x1A00B00 + 0x10 * n) k
      | none => none

/-- Counter windows (R502). -/
def Dev.vfCounters (d : Dev) (c off : Nat) : Option Hit :=
  match inWindow off 0x3B000 4 64 with
  | some (i, k) => if k = 0 ∧ d.pmcVfReads c (i / 8) then some ⟨.PMC_CNT, i, false⟩ else none
  | none => match inWindow off 0x3B100 4 8 with
    | some (g, k) => if k = 0 ∧ d.pmcVfReads c g then some ⟨.PMC_GRP_STAT, g, false⟩ else none
    | none => none

/-- The register at an offset of VF BAR0 (R636). -/
def Dev.vfHit (d : Dev) (c off : Nat) : Option Hit :=
  if 0x10000 ≤ off ∧ off < 0x10028 then d.vfTime c off
  else if 0x20000 ≤ off ∧ off < 0x21000 then d.pfHit (0x200000 + 0x1000 * c + (off - 0x20000))
  else if 0x30000 ≤ off ∧ off < 0x34000 then d.vfDisplay c off
  else if 0x34000 ≤ off ∧ off < 0x37000 then d.vfEngines c off
  else if 0x37000 ≤ off ∧ off < 0x3A000 then d.vfField c off
  else if 0x3A000 ≤ off ∧ off < 0x3A100 then d.pfHit (0x1C00000 + (off - 0x3A000))
  else if 0x3B000 ≤ off ∧ off < 0x3C000 then d.vfCounters c off
  else if 0x40000 ≤ off ∧ off < 0x50000 then d.pfHit (0x280000 + (off - 0x40000))
  else if 0x50000 ≤ off ∧ off < 0x60000 then d.pfHit (0x1B00000 + (off - 0x50000))
  else none

/-- The register that a function reaches at an offset of its BAR0, or of the image that SP0 and Acholt reach. -/
def Dev.hit (d : Dev) (who : Fn) (off : Nat) : Option Hit :=
  match who with
  | .vf _ => d.vfHit who.code off
  | _ => d.pfHit off

/-! Reads. -/

/-- The readers whom a rule shows 0 (R143, R475, R493, R527). -/
def Dev.mayRead (d : Dev) (who : Fn) (r : Reg) (i : Nat) : Bool :=
  match r with
  | .GLB_VF_STAT => match who with
    | .pf p => i / 32 == p.val
    | _ => true
  | .HRQ_FENCE_VAL_LO | .HRQ_FENCE_VAL_HI => d.mayWait who.code (d.secure who) i
  | .CVU_ASSIGN | .CVU_CTRL | .CVU_FEED8 | .CVU_FEED32 | .CVU_RESULT_LO | .CVU_RESULT_HI => d.holds who (d.cvuOwner (i))
  | .MBX_TX_DATA | .MBX_RX_DATA => (d.mbxSide (i / 64) who.code).isSome
  | .MBX_END_CTRL | .MBX_TX_CTRL | .MBX_TX_STAT | .MBX_RX_STAT | .MBX_RX_POP => (d.mbxSide i who.code).isSome
  | _ => true

def KeySlot.stat (k : KeySlot) : Nat :=
  b2n k.present + 2 * b2n k.revoked + 4 * (k.rights % 256) + 2 ^ 10 * b2n k.throttled + 2 ^ 11 * (k.fails % 16)

/-- What the reader of a register sees where it is not the stored word: a mailbox end's view (R475, R492). -/
def Dev.mbxView (d : Dev) (who : Fn) (r : Reg) (i : Nat) : Word :=
  let c := if r == .MBX_TX_DATA || r == .MBX_RX_DATA then i / 64 else i
  match d.mbxSide c who.code with
  | none => 0
  | some e =>
    match r with
    | .MBX_TX_DATA => (d.mbxSlot c e (i % 64 / 16)).data.get (i % 16)
    | .MBX_RX_DATA => d.mbxRxData c e (i % 64 / 16) (i % 16)
    | .MBX_END_CTRL => BitVec.ofNat 32 (d.mbxEndCtrl c e)
    | .MBX_TX_STAT => BitVec.ofNat 32 (d.mbxTxStat c e)
    | .MBX_RX_STAT => BitVec.ofNat 32 (d.mbxRxStat c e)
    | _ => 0

/-- HRQ_Q_STAT with ACTIVE and IN_FLIGHT, which wraps past 65,535 commands while ACTIVE stays 1 (R162; DESIGN CHOICE, log entry 134). -/
def Dev.qStat (d : Dev) (i : Nat) : Word :=
  let n := (d.queue i).cmds.length
  HRQ_Q_STAT.IN_FLIGHT.put (HRQ_Q_STAT.ACTIVE.put (d.reg .HRQ_Q_STAT i) (b2n (n != 0))) n

/-- HRQ_EV_ROUTE as a requester reads it (R164). -/
def Dev.evRouteView (d : Dev) (who : Fn) (k : Nat) : Word :=
  let v := HRQ_EV_ROUTE.SECURE_SRC.put (d.reg .HRQ_EV_ROUTE k) (b2n (d.evSecure k))
  if d.evSecure k && !d.secure who then v &&& 0xFFFFC000 else v

/-- The view of a register of the GLB, OWN or HRQ block; `none` for the stored word. -/
def State.coreView (s : State) (who : Fn) (r : Reg) (i : Nat) : Option Word :=
  let d := s.dev
  match r with
  | .GLB_LTIME_LO => some (BitVec.ofNat 32 d.now)
  | .GLB_VF_STAT => some (GLB_VF_STAT.SECURE.put (d.reg r i) (b2n (d.secureVf i)))
  | .OWN_QUERY_RESULT => some (BitVec.ofNat 32 (s.queryResult who))
  | .HRQ_Q_STAT => some (d.qStat i)
  | .HRQ_FENCE_VAL_LO => some (BitVec.ofNat 32 (d.fence i))
  | .HRQ_FENCE_VAL_HI => some (BitVec.ofNat 32 (d.fence i / 2 ^ 32))
  | .HRQ_EV_ROUTE => some (d.evRouteView who i)
  | .HRQ_KEY_STAT => some (BitVec.ofNat 32 (d.hrq.keys.get i).stat)
  | .HRQ_KEY_CTR_LO => some (BitVec.ofNat 32 (d.hrq.keys.get i).counter)
  | _ => none

/-- The view of a register of any other block. -/
def Dev.blockView (d : Dev) (who : Fn) (r : Reg) (i : Nat) : Option Word :=
  match r with
  | .VIN_CS_AGE => some (BitVec.ofNat 32 (d.frameAge (d.cs i)))
  | .TCH_WAKE_CFG => if bit (d.reg .OWN_PIN_WORLD 1).toNat (24 + i) && !d.secure who then some (TCH_WAKE_CFG.PIN_ASSERTED.put (d.reg r i) 0) else none
  | .MBX_TX_DATA | .MBX_RX_DATA | .MBX_END_CTRL | .MBX_TX_CTRL | .MBX_TX_STAT | .MBX_RX_STAT | .MBX_RX_POP => some (d.mbxView who r i)
  | .CVU_RESULT_LO => some (BitVec.ofNat 32 (d.cvuResult i))
  | .PMC_CNT => some (d.pmcRead i)
  | .PWR_STATE_STAT =>
    if d.pwr.phase == .on && d.f PWR_STATE_STAT.STATE 0 == 0 && d.devIdle then some (PWR_STATE_STAT.STATE.put (d.reg r i) 1) else none
  | .PWR_PACE_STAT => some (PWR_PACE_STAT.FLOOR_HELD.put (d.reg r i) (b2n d.floorHeld))
  | .PWR_PROBE_DATA => some (BitVec.ofNat 32 (d.probeWord (d.f PWR_PROBE_SEL.INDEX 0)))
  | _ => none

/-- What a read returns, with the free values that some fields hold: the transfers in flight of a running copy, and CAL_SUB (log entry 27). -/
def State.view (s : State) (who : Fn) (r : Reg) (i : Nat) : Word × Dev :=
  let d := s.dev
  match r with
  | .CPE_CH_STAT => let n := d.cpFlight i; (CPE_CH_STAT.IN_FLIGHT.put (d.reg r i) n.1, n.2)
  | .CPE_ENG_STAT => let n := d.engFlight i; (CPE_ENG_STAT.IN_FLIGHT.put (d.reg r i) n.1, n.2)
  | .MGT_CAL_SUB => ((d.reg r i &&& 0xFFFF0000) ||| BitVec.ofNat 32 d.calSub.1, d.calSub.2)
  | _ => (((s.coreView who r i).or (d.blockView who r i)).getD (d.reg r i), d)

/-- The register whose read captures the high word that the other returns (R48). -/
def snapHigh : Reg → Option Reg
  | .GLB_LTIME_LO => some .GLB_LTIME_HI
  | .GLB_PTM_OFFSET_LO => some .GLB_PTM_OFFSET_HI
  | .HRQ_FENCE_VAL_LO => some .HRQ_FENCE_VAL_HI
  | .HRQ_KEY_CTR_LO => some .HRQ_KEY_CTR_HI
  | .DSP_LAND_LTIME_LO => some .DSP_LAND_LTIME_HI
  | .VIN_CS_FE_LO => some .VIN_CS_FE_HI
  | .AUD_SAMPLE_LO => some .AUD_SAMPLE_HI
  | .AUD_SAMPLE_LTIME_LO => some .AUD_SAMPLE_LTIME_HI
  | .CVU_RESULT_LO => some .CVU_RESULT_HI
  | .MGT_CAL_SUB => some .MGT_CAL_SEC
  | _ => none

/-- The low register whose snapshot a read of a high word returns. -/
def snapLow : Reg → Option Reg
  | .GLB_LTIME_HI => some .GLB_LTIME_LO
  | .GLB_PTM_OFFSET_HI => some .GLB_PTM_OFFSET_LO
  | .HRQ_FENCE_VAL_HI => some .HRQ_FENCE_VAL_LO
  | .HRQ_KEY_CTR_HI => some .HRQ_KEY_CTR_LO
  | .DSP_LAND_LTIME_HI => some .DSP_LAND_LTIME_LO
  | .VIN_CS_FE_HI => some .VIN_CS_FE_LO
  | .AUD_SAMPLE_HI => some .AUD_SAMPLE_LO
  | .AUD_SAMPLE_LTIME_HI => some .AUD_SAMPLE_LTIME_LO
  | .CVU_RESULT_HI => some .CVU_RESULT_LO
  | .MGT_CAL_SEC => some .MGT_CAL_SUB
  | _ => none

/-- The high word as it stands. -/
def Dev.highNow (d : Dev) (hi : Reg) (i : Nat) : Word :=
  match hi with
  | .GLB_LTIME_HI => BitVec.ofNat 32 (d.now / 2 ^ 32)
  | .HRQ_FENCE_VAL_HI => BitVec.ofNat 32 (d.fence i / 2 ^ 32)
  | .HRQ_KEY_CTR_HI => BitVec.ofNat 32 ((d.hrq.keys.get i).counter / 2 ^ 32)
  | .CVU_RESULT_HI => BitVec.ofNat 32 (d.cvuResult i / 2 ^ 32)
  | _ => d.reg hi i

/-- A read of the low word captures the high word for the reader (R48). -/
def Dev.capture (d : Dev) (who : Fn) (r : Reg) (i : Nat) : Dev :=
  match snapHigh r with
  | some hi => { d with time := { d.time with snaps := d.time.snaps.put (heldKey who r i) (d.highNow hi i) } }
  | none => d

/-- The fields of RC are cleared once their value is returned (R12). -/
def clearRc (r : Reg) (v : Word) : List FieldDesc → Word
  | [] => v
  | fd :: t => clearRc r (if fd.acc == .rc then (⟨r, fd.lo, fd.w⟩ : Fld).put v 0 else v) t

def Dev.readClear (d : Dev) (r : Reg) (i : Nat) : Dev :=
  if r.fields.any fun fd => fd.acc == .rc then d.setReg r i (clearRc r (d.reg r i) r.fields) else d

/-- A read of a register that the reader may see: the value, and the state after it. -/
def State.readReg (s : State) (who : Fn) (r : Reg) (i : Nat) : Word × State :=
  let s1 := s.onDev (·.demandDomain r i)
  match snapLow r with
  | some lo => (s1.dev.time.snaps.get (heldKey who lo i), s1)
  | none => ((s1.view who r i).1, s1.onDev fun _ => (((s1.view who r i).2).capture who r i).readClear r i)

/-- A read at an offset (R9): the aligned word that holds it; 0 where nothing is assigned (R635) or the reader may not see it. -/
def State.readAt (s : State) (who : Fn) (off : Nat) : Word × State :=
  match s.dev.hit who (off / 4 * 4) with
  | some h => if s.dev.mayRead who h.reg h.i then s.readReg who h.reg h.i else (0, s)
  | none => (0, s)

/-- A read whose value goes back to its reader. -/
def State.regRead (s : State) (who : Fn) (off : Nat) : State :=
  let x := s.readAt who off
  x.2.onDev (·.emit (.readValue who x.1))

def execSnapshotRead (who : Fn) (off : Nat) (s : State) : Host.Outcome State Fault Refusal := .next (s.regRead who off)

def execRcRead (who : Fn) (off : Nat) (s : State) : Host.Outcome State Fault Refusal := .next (s.regRead who off)

/-! Writes. -/

/-- The high word of a 64-bit register that is written (R10). -/
def pairHigh : Reg → Option Reg
  | .HRQ_APERTURE_LO => some .HRQ_APERTURE_HI
  | .HRQ_SQ_BASE_LO => some .HRQ_SQ_BASE_HI
  | .HRQ_CQ_BASE_LO => some .HRQ_CQ_BASE_HI
  | .HRQ_SHADOW_LO => some .HRQ_SHADOW_HI
  | .HRQ_FENCE_SIG_LO => some .HRQ_FENCE_SIG_HI
  | .OWN_ASSIGN_ADDR_LO => some .OWN_ASSIGN_ADDR_HI
  | .OWN_QUERY_ADDR_LO => some .OWN_QUERY_ADDR_HI
  | .MEM_MOVE_SRC_LO => some .MEM_MOVE_SRC_HI
  | .MEM_MOVE_DST_LO => some .MEM_MOVE_DST_HI
  | _ => none

/-- The low word of a 64-bit register whose high word is written (R10). -/
def pairLow : Reg → Option Reg
  | .HRQ_APERTURE_HI => some .HRQ_APERTURE_LO
  | .HRQ_SQ_BASE_HI => some .HRQ_SQ_BASE_LO
  | .HRQ_CQ_BASE_HI => some .HRQ_CQ_BASE_LO
  | .HRQ_SHADOW_HI => some .HRQ_SHADOW_LO
  | .OWN_ASSIGN_ADDR_HI => some .OWN_ASSIGN_ADDR_LO
  | .OWN_QUERY_ADDR_HI => some .OWN_QUERY_ADDR_LO
  | .MEM_MOVE_SRC_HI => some .MEM_MOVE_SRC_LO
  | .MEM_MOVE_DST_HI => some .MEM_MOVE_DST_LO
  | _ => none

/-- A write of a low word sets the word held for the writer (R10). -/
def Dev.holdLow (d : Dev) (who : Fn) (r : Reg) (i : Nat) (val : Word) : Dev :=
  { d with time := { d.time with held := d.time.held.put (heldKey who r i) val } }

/-- A write of the high word takes the 64-bit value that it forms with the held low word (R10). -/
def Dev.writePair (d : Dev) (who : Fn) (lo hi : Reg) (i : Nat) (val : Word) : Dev :=
  (d.write who lo i (d.time.held.get (heldKey who lo i))).write who hi i val

/-- An entry of the MSI-X table: a message that waited while its vector was masked is sent once the mask falls (log entry 3). -/
def msixWrite (who : Fn) (i : Nat) (val : Word) (d : Dev) : Dev :=
  let d1 := d.write who .HRQ_MSIX_TABLE i val
  let c := i / 256
  let v := i % 256 / 4
  let w := idx2 2 c (v / 32)
  if i % 4 = 3 ∧ val.toNat % 2 = 0 ∧ bit (d1.reg .HRQ_MSIX_PBA w).toNat (v % 32) then
    match Fn.ofCode c with
    | some f => (d1.setReg .HRQ_MSIX_PBA w (d1.reg .HRQ_MSIX_PBA w &&& ~~~(BitVec.ofNat 32 (2 ^ (v % 32))))).sendMsix f v
    | none => d1
  else d1

/-- A write of CSTAGE_OWNER by the rules of R167 (R221), in force at the latch of the output, or at once while it does not scan. -/
def cmpCtrlWrite (who : Fn) (n : Nat) (val : Word) (d : Dev) : Dev :=
  let old := d.f DSP_CMP_CTRL.CSTAGE_OWNER n
  let new := DSP_CMP_CTRL.CSTAGE_OWNER.get val
  if old ≠ new ∧ !(d.mayGive who old && d.mayGive who new) then (d.demandDomain .DSP_CMP_CTRL n).werr who .DSP_CMP_CTRL n
  else
    let d1 := d.write who .DSP_CMP_CTRL n val
    if d1.tgScans n then d1 else d1.latchStageOwner n

/-- A class L register of output `n` (R38, R244, R269, R299): in force at the latch, or at once while the output does not scan. -/
def outRegWrite (who : Fn) (r : Reg) (n : Nat) (val : Word) (d : Dev) : Dev :=
  let d1 := d.write who r n val
  if d1.tgScans n then d1 else d1.latch r n

/-- A register of a check window: a write of EXPECT ends an injected fault (R264, R268). -/
def cwRegWrite (who : Fn) (r : Reg) (i : Nat) (val : Word) (d : Dev) : Dev :=
  let n := i / 16
  let w := i % 16
  let d1 := d.write who r i val
  let d2 := if r == .DSP_CW_EXP && d.secure who then d1.updOut n fun o => { o with cwBad := o.cwBad.put w false } else d1
  if d2.tgScans n then d2 else d2.latchWindow n w

/-- FAULT_LATCH of a window is cleared, and FAULT_OUT follows the latches of its output (R265, R269). -/
def cwResWrite (who : Fn) (i : Nat) (val : Word) (d : Dev) : Dev :=
  let n := i / 16
  let d1 := d.write who .DSP_CW_RES i val
  d1.setF DSP_CNP_STAT.FAULT_OUT n (b2n ((List.range 16).any fun w => d1.fb DSP_CW_RES.FAULT_LATCH (idx2 16 n w)))

/-- RESERVE takes effect at the next pre-emption boundary of the reserved clusters (R345), at once while they hold no work. -/
def schedCtrlWrite (who : Fn) (val : Word) (d : Dev) : Dev :=
  let d1 := d.write who .GPU_SCHED_CTRL 0 val
  if (d1.cluster 6).run.isNone && (d1.cluster 7).run.isNone then d1.latch .GPU_SCHED_CTRL 0 else d1

/-- A write of OWN_PIN_WORLD (R103, R104): the pins whose bit changes return to their reset state, and the routing of the touch-wake events follows
(R152, R646). -/
def pinWorldWrite (who : Fn) (i : Nat) (val : Word) (d : Dev) : Dev :=
  let d1 := d.write who .OWN_PIN_WORLD i (val &&& BitVec.ofNat 32 (pinMask i))
  ((d1.setReg .OWN_PIN_WORLD i (d.reg .OWN_PIN_WORLD i)).setPins i (d1.reg .OWN_PIN_WORLD i).toNat).evSync d [309, 317, 325, 333]

/-- Writes of the GLB, OWN, HRQ and MEM blocks that a rule gives more than R644 does. -/
def coreWrite (who : Fn) (r : Reg) (i : Nat) (val : Word) : Option (State → State) :=
  match r with
  | .GLB_LTIME_CTRL => some (·.onDev (ltimeCtrlWrite who val))
  | .OWN_ASSIGN_CTRL => some (assignCtrlWrite who val)
  | .OWN_PIN_WORLD => some (·.onDev (pinWorldWrite who i val))
  | .OWN_CE_WORLD => some (·.onDev (ceWorldWrite who i val))
  | .HRQ_Q_CFG => some (·.onDev (qCfgWrite who i val))
  | .HRQ_MSIX_TABLE => some (·.onDev (msixWrite who i val))
  | .HRQ_FENCE_SIG_HI => some (·.onDev (fenceSigWrite who i val))
  | .HRQ_FENCE_OWNER => some (·.onDev (fenceOwnerWrite who i val))
  | .HRQ_EV_ROUTE => some (·.onDev (evRouteWrite who i val))
  | .HRQ_EV_PEND => some (·.onDev (evPendWrite who i val))
  | .MEM_BANK_CFG => some (·.onDev (bankCfgWrite who i val))
  | .MEM_MOVE_CTRL => some (memMoveWrite who val)
  | _ => none

/-- Writes of the display registers. -/
def displayWrite (who : Fn) (r : Reg) (i : Nat) (val : Word) : Option (Dev → Dev) :=
  match r with
  | .DSP_SLOT_ASSIGN => some (slotAssignWrite who i val)
  | .DSP_CMP_CTRL => some (cmpCtrlWrite who i val)
  | .DSP_CMP_UCOL | .DSP_CNP_FAILCOL | .DSP_RUNWAY_CTRL | .DSP_BL_PWM => some (outRegWrite who r i val)
  | .DSP_BL_CTRL => some fun d => d.writeX who .DSP_BL_CTRL i val (d.pwmLocked who i)
  | .DSP_CW_EXP | .DSP_CW_XY | .DSP_CW_WH => some (cwRegWrite who r i val)
  | .DSP_CW_CTRL => some (cwCtrlWrite who (i / 16) (i % 16) val)
  | .DSP_CW_RES => some (cwResWrite who i val)
  | .DSP_TG_CTRL => some (tgCtrlWrite who i val)
  | .DSP_TG_ROUTE => some (routeWrite who i val)
  | .DSP_TG_GL => some (glWrite who i val)
  | .DSP_PORT_CFG => some (portCfgWrite who i val)
  | .DSP_PORT_SC_CMD => some (scCmdWrite who i val)
  | .VIN_CS_ASSIGN => some (csAssignWrite who i val)
  | .VIN_RX_CFG => some (rxCfgWrite who i val)
  | .VIN_RX_STAT => some fun d => if i < 16 ∧ ¬ d.aphyRx i then d.werr who .VIN_RX_STAT i else d.write who .VIN_RX_STAT i val
  | _ => none

/-- Writes of the engines, the field die and the counters. -/
def engineWrite (who : Fn) (r : Reg) (i : Nat) (val : Word) : Option (Dev → Dev) :=
  match r with
  | .GPU_SCHED_CTRL => some (schedCtrlWrite who val)
  | .GPU_CTX_ASSIGN => some (ctxAssignWrite who i val)
  | .CPE_CH_ASSIGN => some (chAssignWrite who i val)
  | .CNV_RLB => some (rlbWrite who i val)
  | .CNV_CE_PEER => some (cePeerWrite who i val)
  | .TCH_TE_ASSIGN => some (teAssignWrite who i val)
  | .TCH_RPT_HEAD => some (rptHeadWrite who i val)
  | .TCH_WAKE_CFG => some (wakeCfgWrite who i val)
  | .HAP_CH_ASSIGN => some (hapChAssignWrite who i val)
  | .HAP_EFF_ASSIGN => some (hapEffAssignWrite who i val)
  | .HAP_TRIG_CFG => some (hapTrigCfgWrite who i val)
  | .AUD_GLB_CTRL => some (audCtrlWrite who val)
  | .AUD_SRC_CFG => some (audSrcWrite who i val)
  | .AUD_BUS_ASSIGN => some (audBusWrite who i val)
  | .AUD_SNK_CFG => some (audSnkWrite who i val)
  | .AUD_TDM_CFG => some (tdmCfgWrite who i val)
  | .AUD_AMP_CFG => some (ampCfgWrite who i val)
  | .CVU_ASSIGN => some (cvuAssignWrite who i val)
  | .CVU_CTRL => some (cvuCtrlWrite who i val)
  | .CVU_FEED8 => some (cvuFeedWrite who .CVU_FEED8 i 1 val)
  | .CVU_FEED32 => some (cvuFeedWrite who .CVU_FEED32 i 4 val)
  | .PMC_CNT => some (pmcCntWrite who i val false false)
  | .PMC_SEL => some (pmcSelWrite who i val)
  | .PMC_GRP_CTRL => some (pmcCtrlWrite who i val)
  | .PMC_GRP_CFG2 => some (pmcCfg2Write who i val)
  | .PMC_GRP_STAT => some (pmcStatWrite who i val)
  | .PMC_OVF_LO | .PMC_LC_LO => some (pmcFlagWrite who r 0 val)
  | .PMC_OVF_HI | .PMC_LC_HI => some (pmcFlagWrite who r 4 val)
  | _ => none

/-- Writes of the power and mailbox registers. -/
def systemWrite (who : Fn) (r : Reg) (i : Nat) (val : Word) : Option (State → State) :=
  match r with
  | .PWR_STATE_CTRL => some (·.onDev (pwrCtrlWrite who val))
  | .PWR_DOM_OFF => some (·.onDev (pwrDomOffWrite who val))
  | .PWR_DOM_ON => some (·.onDev (pwrDomOnWrite who val))
  | .PWR_CLK_OFF => some (·.onDev (pwrClkOffWrite who val))
  | .PWR_CLK_ON => some (·.onDev (pwrClkOnWrite who val))
  | .PWR_WAKE_GPIO_LO => some (·.onDev (wakeGpioWrite who false val))
  | .PWR_WAKE_GPIO_HI => some (·.onDev (wakeGpioWrite who true val))
  | .MBX_TX_DATA => some (·.onDev (mbxTxDataWrite who (i / 64) (i % 64 / 16) (i % 16) val))
  | .MBX_END_CTRL => some (·.onDev (mbxEndCtrlWrite who i val))
  | .MBX_TX_CTRL => some (mbxGoWrite who i val)
  | .MBX_TX_STAT => some (·.onDev (mbxTxStatWrite who i val))
  | .MBX_RX_POP => some (mbxPopWrite who i val)
  | .MBX_RX_DATA | .MBX_RX_STAT => some id
  | _ => none

/-- A whole-word write of a register. -/
def State.writeReg (s : State) (who : Fn) (r : Reg) (i : Nat) (val : Word) : State :=
  if (pairHigh r).isSome then s.onDev (·.holdLow who r i val)
  else match pairLow r with
    | some lo => s.onDev (·.writePair who lo r i val)
    | none =>
      match (coreWrite who r i val).or (systemWrite who r i val) with
      | some g => g s
      | none => s.onDev (((displayWrite who r i val).or (engineWrite who r i val)).getD (·.write who r i val))

/-- A write with fewer than four byte enables is ignored and flagged (R9); in a mailbox window at the requester's own end. -/
def Dev.partialWrite (d : Dev) (who : Fn) (r : Reg) (i : Nat) : Dev :=
  let c := if r == .MBX_TX_DATA || r == .MBX_RX_DATA then i / 64 else i
  match r with
  | .MBX_TX_DATA | .MBX_RX_DATA | .MBX_END_CTRL | .MBX_TX_CTRL | .MBX_TX_STAT | .MBX_RX_STAT | .MBX_RX_POP =>
    match d.mbxSide c who.code with
    | some e => d.mbxWerr c e
    | none => d
  | .CVU_ASSIGN | .CVU_CTRL | .CVU_FEED8 | .CVU_FEED32 | .CVU_RESULT_LO | .CVU_RESULT_HI => if d.mayCvu who i then d.werr who r i else d
  | _ => d.werr who r i

/-- A write at an offset (R9): ignored where nothing is assigned (R635) or a window is read-only. -/
def State.regWrite (s : State) (who : Fn) (off : Nat) (be : BitVec 4) (val : Word) : State :=
  match s.dev.hit who (off / 4 * 4) with
  | some h =>
    if !h.writable then s
    else if be = 0xF ∧ off % 4 = 0 then s.writeReg who h.reg h.i val
    else s.onDev fun d => (d.demandDomain h.reg h.i).partialWrite who h.reg h.i
  | none => s

def execRegisterWrite (who : Fn) (off : Nat) (be : BitVec 4) (val : Word) (s : State) : Host.Outcome State Fault Refusal :=
  .next (s.regWrite who off be val)

def execLowWordWrite (who : Fn) (off : Nat) (val : Word) (s : State) : Host.Outcome State Fault Refusal := .next (s.regWrite who off 0xF val)

def execHighWordWrite (who : Fn) (off : Nat) (val : Word) (s : State) : Host.Outcome State Fault Refusal := .next (s.regWrite who off 0xF val)

/-! SP0 (R122 to R124), which answers nothing before it is enabled (R101). -/

/-- The aligned word at an SP0 address. -/
def State.sp0Word (s : State) (a : Nat) : List Byte × State :=
  if a < 0x40000 then (s.dev.winRead a 4, s)
  else if 0x1000000 ≤ a ∧ a < 0x5000000 then
    let x := s.readAt .sp0 (a - 0x1000000)
    (toLe x.1.toNat 4, x.2)
  else ([0, 0, 0, 0], s)

/-- READ: the words from the address on, each read once. -/
def execSp0Read (addr len : Nat) (malformed : Bool) (s : State) : Host.Outcome State Fault Refusal :=
  .next (if !s.dev.spOn then s
  else if malformed then s.onDev (·.sp0Malformed)
  else
    let a0 := addr % 2 ^ 32 / 4 * 4
    let k := addr % 2 ^ 32 - a0
    let n := if len = 0 then 0 else (k + len + 3) / 4
    let x := (List.range n).foldl (fun (x : List Byte × State) j =>
      let w := x.2.sp0Word (a0 + 4 * j)
      (x.1 ++ w.1, w.2)) ([], s)
    x.2.onDev (·.emit (.readData 0x01 ((x.1.drop k).take len))))

/-- The four address bytes, sent most significant first, and the data (R124; PRESUMED of xSPI, log entry 32). -/
def Dev.wrCrc (d : Dev) (a : Nat) (data : List Byte) : Dev :=
  { d with hrq := { d.hrq with wrCrc := crcOf 2 ((toLe a 4).reverse ++ data) } }

/-- A write of the doorbell page (R127, R637): one aligned word. -/
def Dev.sp0Doorbell (d : Dev) (a v : Nat) : Dev :=
  if !d.hasQueues .sp0 || decide (0x40 ≤ a) then d
  else if a % 8 = 0 then d.sqTail .sp0 ⟨a / 8 % 8, Nat.mod_lt _ (by decide)⟩ v
  else d.cqHead .sp0 ⟨a / 8 % 8, Nat.mod_lt _ (by decide)⟩ v

/-- A write of the window; in recovery, the go word at its end starts the image (R553). -/
def Dev.sp0Window (d : Dev) (a : Nat) (data : List Byte) : Dev :=
  let d1 := d.winWrite a data
  if d1.mgt.phase == .recovery && decide (a < 0x40000 ∧ 0x3FFFC < a + data.length) then d1.recoveryGo else d1

/-- WRITE. -/
def execSp0Write (addr : Nat) (data : List Byte) (malformed : Bool) (s : State) : Host.Outcome State Fault Refusal :=
  .next (if !s.dev.spOn then s
  else if malformed then s.onDev (·.sp0Malformed)
  else
    let a := addr % 2 ^ 32
    let s1 := s.onDev (·.wrCrc a data)
    let whole := a % 4 == 0 && data.length == 4
    if a < 0x40000 then s1.onDev (·.sp0Window a data)
    else if a < 0x41000 then (if whole then s1.onDev (·.sp0Doorbell (a - 0x40000) (le data 0 4)) else s1)
    else if 0x1000000 ≤ a ∧ a < 0x5000000 then
      s1.regWrite .sp0 (a - 0x1000000) (if whole then 0xF else 0) (BitVec.ofNat 32 (le data 0 4))
    else s1.onDev (·.raise 38))

end Sys2Proof.Machine
end

