-- ==== Sys2Proof/Machine/Dispatch.lean ====
section
/-! DEFINITION. One arm per row: the meaning of each command and event. -/

namespace Sys2Proof.Machine

def exec (i : Instr) (s : State) : Host.Outcome State Fault Refusal :=
  match i with
  | .registerWrite who off be val => Sys2Proof.Machine.execRegisterWrite who off be val s
  | .lowWordWrite who off val => Sys2Proof.Machine.execLowWordWrite who off val s
  | .highWordWrite who off val => Sys2Proof.Machine.execHighWordWrite who off val s
  | .snapshotRead who off => Sys2Proof.Machine.execSnapshotRead who off s
  | .rcRead who off => Sys2Proof.Machine.execRcRead who off s
  | .probeWindow paces => Sys2Proof.Machine.execProbeWindow paces s
  | .governorWindow demand margin => Sys2Proof.Machine.execGovernorWindow demand margin s
  | .avsStatusDone => Sys2Proof.Machine.execAvsStatusDone s
  | .avsNoAnswer => Sys2Proof.Machine.execAvsNoAnswer s
  | .belowFloor mv => Sys2Proof.Machine.execBelowFloor mv s
  | .composeLine n rb => Sys2Proof.Machine.execComposeLine n rb s
  | .lineScanStart n rb inTime => Sys2Proof.Machine.execLineScanStart n rb inTime s
  | .ltimeStep => Sys2Proof.Machine.execLtimeStep s
  | .ptmExchange p host => Sys2Proof.Machine.execPtmExchange p host s
  | .ptmHoldover => Sys2Proof.Machine.execPtmHoldover s
  | .ltimeCarryStep => Sys2Proof.Machine.execLtimeCarryStep s
  | .ltimeCtrlWrite who val => Sys2Proof.Machine.execLtimeCtrlWrite who val s
  | .memoryAccess a rivals => Sys2Proof.Machine.execMemoryAccess a rivals s
  | .walkRegion corrected poisoned => Sys2Proof.Machine.execWalkRegion corrected poisoned s
  | .walkRegionTimeout => Sys2Proof.Machine.execWalkRegionTimeout s
  | .walkTestEnd failing corrected clean => Sys2Proof.Machine.execWalkTestEnd failing corrected clean s
  | .walkRestoreLine rivals => Sys2Proof.Machine.execWalkRestoreLine rivals s
  | .migrationCopyRegion corrected poisoned rivals => Sys2Proof.Machine.execMigrationCopyRegion corrected poisoned rivals s
  | .bankSwapCutover => Sys2Proof.Machine.execBankSwapCutover s
  | .ownAssign who val => Sys2Proof.Machine.execOwnAssign who val s
  | .ownClrDirty who val => Sys2Proof.Machine.execOwnClrDirty who val s
  | .ownZeroFillPage => Sys2Proof.Machine.execOwnZeroFillPage s
  | .ownAssignUpdate => Sys2Proof.Machine.execOwnAssignUpdate s
  | .lockTableBootLoad => Sys2Proof.Machine.execLockTableBootLoad s
  | .ceWorldChange e ch => Sys2Proof.Machine.execCeWorldChange e ch s
  | .jtagInstruction ins => Sys2Proof.Machine.execJtagInstruction ins s
  | .jtagMemoryAccess write addr len data ecc => Sys2Proof.Machine.execJtagMemoryAccess write addr len data ecc s
  | .barMemoryAccess who off write len data ecc rivals ns => Sys2Proof.Machine.execBarMemoryAccess who off write len data ecc rivals ns s
  | .hostCompletion w r ns => Sys2Proof.Machine.execHostCompletion w r ns s
  | .hostCompletionTimeout w => Sys2Proof.Machine.execHostCompletionTimeout w s
  | .sp0Read addr len malformed => Sys2Proof.Machine.execSp0Read addr len malformed s
  | .sp0Write addr data malformed => Sys2Proof.Machine.execSp0Write addr data malformed s
  | .sp0ReadStatus malformed => Sys2Proof.Machine.execSp0ReadStatus malformed s
  | .sp0Enter8d => Sys2Proof.Machine.execSp0Enter8d s
  | .sp0Exit8d => Sys2Proof.Machine.execSp0Exit8d s
  | .doorbellSqTail f q idx => Sys2Proof.Machine.execDoorbellSqTail f q idx s
  | .doorbellCqHead f q idx => Sys2Proof.Machine.execDoorbellCqHead f q idx s
  | .descriptorFetch f q => Sys2Proof.Machine.execDescriptorFetch f q s
  | .descriptorData f q data poisoned ns => Sys2Proof.Machine.execDescriptorData f q data poisoned ns s
  | .badOpcodeDescriptor f q => Sys2Proof.Machine.execBadOpcodeDescriptor f q s
  | .completionWrite f q poisoned => Sys2Proof.Machine.execCompletionWrite f q poisoned s
  | .coalTimerExpire f q => Sys2Proof.Machine.execCoalTimerExpire f q s
  | .queueEnable who f q val => Sys2Proof.Machine.execQueueEnable who f q val s
  | .queueDisable who f q val => Sys2Proof.Machine.execQueueDisable who f q val s
  | .queueAbort who f q val => Sys2Proof.Machine.execQueueAbort who f q val s
  | .fenceSigWrite who n val => Sys2Proof.Machine.execFenceSigWrite who n val s
  | .fenceWaitSatisfied f q => Sys2Proof.Machine.execFenceWaitSatisfied f q s
  | .fenceTimeout f q => Sys2Proof.Machine.execFenceTimeout f q s
  | .fenceOwnerWrite who b val => Sys2Proof.Machine.execFenceOwnerWrite who b val s
  | .eventPendClear who w val => Sys2Proof.Machine.execEventPendClear who w val s
  | .eventRouteWrite who k val => Sys2Proof.Machine.execEventRouteWrite who k val s
  | .envelope f q => Sys2Proof.Machine.execEnvelope f q s
  | .envelopeCounterPersisted f q => Sys2Proof.Machine.execEnvelopeCounterPersisted f q s
  | .envelopeThrottleExpire slot => Sys2Proof.Machine.execEnvelopeThrottleExpire slot s
  | .slotAssignWrite who slot val => Sys2Proof.Machine.execSlotAssignWrite who slot val s
  | .slotAssignApply slot => Sys2Proof.Machine.execSlotAssignApply slot s
  | .commit f q => Sys2Proof.Machine.execCommit f q s
  | .groupValidated f q also peers => Sys2Proof.Machine.execGroupValidated f q also peers s
  | .waitFrame f q => Sys2Proof.Machine.execWaitFrame f q s
  | .queryFrame f q => Sys2Proof.Machine.execQueryFrame f q s
  | .latch n also peers => Sys2Proof.Machine.execLatch n also peers s
  | .groupDecideStopped n => Sys2Proof.Machine.execGroupDecideStopped n s
  | .releaseFenceSignal k => Sys2Proof.Machine.execReleaseFenceSignal k s
  | .colourSet f q => Sys2Proof.Machine.execColourSet f q s
  | .scalerSet f q => Sys2Proof.Machine.execScalerSet f q s
  | .tableLoadDone f q => Sys2Proof.Machine.execTableLoadDone f q s
  | .writeback f q => Sys2Proof.Machine.execWriteback f q s
  | .writebackDone n => Sys2Proof.Machine.execWritebackDone n s
  | .layerDeadline n late canopyLate => Sys2Proof.Machine.execLayerDeadline n late canopyLate s
  | .compositorSwap n => Sys2Proof.Machine.execCompositorSwap n s
  | .canopySet f q => Sys2Proof.Machine.execCanopySet f q s
  | .outstageSet f q => Sys2Proof.Machine.execOutstageSet f q s
  | .canopyOwn f q => Sys2Proof.Machine.execCanopyOwn f q s
  | .canopyValidated f q => Sys2Proof.Machine.execCanopyValidated f q s
  | .checkWindowResult n w => Sys2Proof.Machine.execCheckWindowResult n w s
  | .cwInjectRef who n w val => Sys2Proof.Machine.execCwInjectRef who n w val s
  | .tgEnable who n val => Sys2Proof.Machine.execTgEnable who n val s
  | .tgDisable who n val => Sys2Proof.Machine.execTgDisable who n val s
  | .tgStopNow who n val => Sys2Proof.Machine.execTgStopNow who n val s
  | .tgStart n peers => Sys2Proof.Machine.execTgStart n peers s
  | .tgStartTimeout n peers => Sys2Proof.Machine.execTgStartTimeout n peers s
  | .tgRouteWrite who n val => Sys2Proof.Machine.execTgRouteWrite who n val s
  | .tgGlWrite who n val => Sys2Proof.Machine.execTgGlWrite who n val s
  | .genlockReference n => Sys2Proof.Machine.execGenlockReference n s
  | .genlockHoldover n => Sys2Proof.Machine.execGenlockHoldover n s
  | .portEnable who p val => Sys2Proof.Machine.execPortEnable who p val s
  | .hpdRise p => Sys2Proof.Machine.execHpdRise p s
  | .portTrainingDone p ok => Sys2Proof.Machine.execPortTrainingDone p ok s
  | .hpdUnplug p => Sys2Proof.Machine.execHpdUnplug p s
  | .hpdIrq p lost => Sys2Proof.Machine.execHpdIrq p lost s
  | .aphyLinkUp k => Sys2Proof.Machine.execAphyLinkUp k s
  | .aphyLossOfLock k => Sys2Proof.Machine.execAphyLossOfLock k s
  | .sideChannelGo who p val => Sys2Proof.Machine.execSideChannelGo who p val s
  | .sideChannelDone p reply => Sys2Proof.Machine.execSideChannelDone p reply s
  | .backlightSet f q => Sys2Proof.Machine.execBacklightSet f q s
  | .csAssignWrite who c val => Sys2Proof.Machine.execCsAssignWrite who c val s
  | .vinStreamSet f q => Sys2Proof.Machine.execVinStreamSet f q s
  | .streamStart f q => Sys2Proof.Machine.execStreamStart f q s
  | .streamStop f q => Sys2Proof.Machine.execStreamStop f q s
  | .frameHold f q => Sys2Proof.Machine.execFrameHold f q s
  | .frameHoldSatisfied c => Sys2Proof.Machine.execFrameHoldSatisfied c s
  | .frameRelease f q => Sys2Proof.Machine.execFrameRelease f q s
  | .frameStart port c corrected headerOk => Sys2Proof.Machine.execFrameStart port c corrected headerOk s
  | .lineReceived port c l => Sys2Proof.Machine.execLineReceived port c l s
  | .frameEnd port c corrected headerOk => Sys2Proof.Machine.execFrameEnd port c corrected headerOk s
  | .lineTimeout c => Sys2Proof.Machine.execLineTimeout c s
  | .frameTimeout c => Sys2Proof.Machine.execFrameTimeout c s
  | .warp f q => Sys2Proof.Machine.execWarp f q s
  | .warpStanding f q => Sys2Proof.Machine.execWarpStanding f q s
  | .warpCancel f q => Sys2Proof.Machine.execWarpCancel f q s
  | .warpJobStart e => Sys2Proof.Machine.execWarpJobStart e s
  | .warpJobEnd e => Sys2Proof.Machine.execWarpJobEnd e s
  | .clusterSwap k => Sys2Proof.Machine.execClusterSwap k s
  | .ctxAssignWrite who g val => Sys2Proof.Machine.execCtxAssignWrite who g val s
  | .preemptionBoundary k st => Sys2Proof.Machine.execPreemptionBoundary k st s
  | .timesliceExpire k => Sys2Proof.Machine.execTimesliceExpire k s
  | .deadlineGuard g => Sys2Proof.Machine.execDeadlineGuard g s
  | .startDeadlineExpire g => Sys2Proof.Machine.execStartDeadlineExpire g s
  | .ctxSet f q => Sys2Proof.Machine.execCtxSet f q s
  | .pipeLoad f q => Sys2Proof.Machine.execPipeLoad f q s
  | .pipeTranslated g => Sys2Proof.Machine.execPipeTranslated g s
  | .pipeFree f q => Sys2Proof.Machine.execPipeFree f q s
  | .passBegin f q => Sys2Proof.Machine.execPassBegin f q s
  | .draw f q => Sys2Proof.Machine.execDraw f q s
  | .passEnd f q => Sys2Proof.Machine.execPassEnd f q s
  | .dispatch f q => Sys2Proof.Machine.execDispatch f q s
  | .channelOwnerWrite who e ch val => Sys2Proof.Machine.execChannelOwnerWrite who e ch val s
  | .copy f q => Sys2Proof.Machine.execCopy f q s
  | .copy2d f q => Sys2Proof.Machine.execCopy2d f q s
  | .fill f q => Sys2Proof.Machine.execFill f q s
  | .convert f q => Sys2Proof.Machine.execConvert f q s
  | .crcFeed f q => Sys2Proof.Machine.execCrcFeed f q s
  | .copyDone e ch peer => Sys2Proof.Machine.execCopyDone e ch peer s
  | .scanStart e => Sys2Proof.Machine.execScanStart e s
  | .scanBoundary e counts => Sys2Proof.Machine.execScanBoundary e counts s
  | .touchSet f q => Sys2Proof.Machine.execTouchSet f q s
  | .touchStart f q => Sys2Proof.Machine.execTouchStart f q s
  | .touchStop f q => Sys2Proof.Machine.execTouchStop f q s
  | .touchRebase f q => Sys2Proof.Machine.execTouchRebase f q s
  | .reportHeadWrite who e val => Sys2Proof.Machine.execReportHeadWrite who e val s
  | .teAssignWrite who e val => Sys2Proof.Machine.execTeAssignWrite who e val s
  | .frontEndCheck e failed => Sys2Proof.Machine.execFrontEndCheck e failed s
  | .wakeScan counts => Sys2Proof.Machine.execWakeScan counts s
  | .hapticPwmPeriod c samples => Sys2Proof.Machine.execHapticPwmPeriod c samples s
  | .trackingGap c samples => Sys2Proof.Machine.execTrackingGap c samples s
  | .accRead c value => Sys2Proof.Machine.execAccRead c value s
  | .htrigEdge n rising held => Sys2Proof.Machine.execHtrigEdge n rising held s
  | .hapSet f q => Sys2Proof.Machine.execHapSet f q s
  | .hapPlay f q => Sys2Proof.Machine.execHapPlay f q s
  | .hapStop f q => Sys2Proof.Machine.execHapStop f q s
  | .hapEffLoad f q => Sys2Proof.Machine.execHapEffLoad f q s
  | .effectEnd c => Sys2Proof.Machine.execEffectEnd c s
  | .brakeEnd c => Sys2Proof.Machine.execBrakeEnd c s
  | .shortEnd c => Sys2Proof.Machine.execShortEnd c s
  | .holdClear c milliohm => Sys2Proof.Machine.execHoldClear c milliohm s
  | .overcurrent c ma => Sys2Proof.Machine.execOvercurrent c ma s
  | .openCoil c => Sys2Proof.Machine.execOpenCoil c s
  | .peakCurrentCut c ma => Sys2Proof.Machine.execPeakCurrentCut c ma s
  | .hapChAssignWrite who c val => Sys2Proof.Machine.execHapChAssignWrite who c val s
  | .hapEffAssignWrite who k val => Sys2Proof.Machine.execHapEffAssignWrite who k val s
  | .hapTrigCfgWrite who n val => Sys2Proof.Machine.execHapTrigCfgWrite who n val s
  | .sampleBoundary ins => Sys2Proof.Machine.execSampleBoundary ins s
  | .tdmClockLoss p => Sys2Proof.Machine.execTdmClockLoss p s
  | .hamper f q => Sys2Proof.Machine.execHamper f q s
  | .audStreamSet f q => Sys2Proof.Machine.execAudStreamSet f q s
  | .chimePlay f q => Sys2Proof.Machine.execChimePlay f q s
  | .chimeStop f q => Sys2Proof.Machine.execChimeStop f q s
  | .audioOwnerWrite who k val => Sys2Proof.Machine.execAudioOwnerWrite who k val s
  | .ampOffTimer k => Sys2Proof.Machine.execAmpOffTimer k s
  | .mbxGo who c val => Sys2Proof.Machine.execMbxGo who c val s
  | .mbxPop who c val => Sys2Proof.Machine.execMbxPop who c val s
  | .mbxTimeout c e k => Sys2Proof.Machine.execMbxTimeout c e k s
  | .mbxSend f q => Sys2Proof.Machine.execMbxSend f q s
  | .mbxRecv f q => Sys2Proof.Machine.execMbxRecv f q s
  | .mbxRecvTimeout c e => Sys2Proof.Machine.execMbxRecvTimeout c e s
  | .cvuFeed8 who u val => Sys2Proof.Machine.execCvuFeed8 who u val s
  | .cvuFeed32 who u val => Sys2Proof.Machine.execCvuFeed32 who u val s
  | .cvuInit who u val => Sys2Proof.Machine.execCvuInit who u val s
  | .cvuPolyChange who u val => Sys2Proof.Machine.execCvuPolyChange who u val s
  | .cvuAssignWrite who u val => Sys2Proof.Machine.execCvuAssignWrite who u val s
  | .pmcWindowEnd g => Sys2Proof.Machine.execPmcWindowEnd g s
  | .pmcCounterWrite who n val inc carry => Sys2Proof.Machine.execPmcCounterWrite who n val inc carry s
  | .flrStart f => Sys2Proof.Machine.execFlrStart f s
  | .flrDone f => Sys2Proof.Machine.execFlrDone f s
  | .vfFreeze f q => Sys2Proof.Machine.execVfFreeze f q s
  | .freezeAtRest v => Sys2Proof.Machine.execFreezeAtRest v s
  | .freezeLimit v => Sys2Proof.Machine.execFreezeLimit v s
  | .vfThaw f q => Sys2Proof.Machine.execVfThaw f q s
  | .rucksackSave f q => Sys2Proof.Machine.execRucksackSave f q s
  | .rucksackRestore f q => Sys2Proof.Machine.execRucksackRestore f q s
  | .dirtyHarvest f q => Sys2Proof.Machine.execDirtyHarvest f q s
  | .memMove who val => Sys2Proof.Machine.execMemMove who val s
  | .memMoveDone rivals => Sys2Proof.Machine.execMemMoveDone rivals s
  | .convoyLinkUp k peer => Sys2Proof.Machine.execConvoyLinkUp k peer s
  | .convoyLinkLoss k => Sys2Proof.Machine.execConvoyLinkLoss k s
  | .laneSwap k lane => Sys2Proof.Machine.execLaneSwap k lane s
  | .convoyOffsetExchange offset => Sys2Proof.Machine.execConvoyOffsetExchange offset s
  | .peerLatchStamp peer src stamp => Sys2Proof.Machine.execPeerLatchStamp peer src stamp s
  | .peerRequest peer r rivals => Sys2Proof.Machine.execPeerRequest peer r rivals s
  | .sensorRead f q => Sys2Proof.Machine.execSensorRead f q s
  | .logRead f q => Sys2Proof.Machine.execLogRead f q s
  | .lockLoad f q => Sys2Proof.Machine.execLockLoad f q s
  | .epochFloorRaise f q => Sys2Proof.Machine.execEpochFloorRaise f q s
  | .debugSet f q => Sys2Proof.Machine.execDebugSet f q s
  | .fwWrite f q => Sys2Proof.Machine.execFwWrite f q s
  | .fwVerify f q => Sys2Proof.Machine.execFwVerify f q s
  | .fwActivate f q => Sys2Proof.Machine.execFwActivate f q s
  | .fwConfirm f q => Sys2Proof.Machine.execFwConfirm f q s
  | .fwRollbackStep f q bad => Sys2Proof.Machine.execFwRollbackStep f q bad s
  | .benchSwap f q => Sys2Proof.Machine.execBenchSwap f q s
  | .keyRevoke f q => Sys2Proof.Machine.execKeyRevoke f q s
  | .convoyMembers f q => Sys2Proof.Machine.execConvoyMembers f q s
  | .earlyViewStore f q => Sys2Proof.Machine.execEarlyViewStore f q s
  | .earlyViewEnd f q => Sys2Proof.Machine.execEarlyViewEnd f q s
  | .earlyViewClear f q => Sys2Proof.Machine.execEarlyViewClear f q s
  | .calSetTime f q => Sys2Proof.Machine.execCalSetTime f q s
  | .calSetAlarm f q => Sys2Proof.Machine.execCalSetAlarm f q s
  | .calSetTrim f q => Sys2Proof.Machine.execCalSetTrim f q s
  | .i3cXfer f q reply => Sys2Proof.Machine.execI3cXfer f q reply s
  | .acholtStart octal => Sys2Proof.Machine.execAcholtStart octal s
  | .watchdogExpire => Sys2Proof.Machine.execWatchdogExpire s
  | .sensorUpdate temps mvs => Sys2Proof.Machine.execSensorUpdate temps mvs s
  | .agingUpdate drifts => Sys2Proof.Machine.execAgingUpdate drifts s
  | .logMirror ok => Sys2Proof.Machine.execLogMirror ok s
  | .d2dLaneSwap lane training => Sys2Proof.Machine.execD2dLaneSwap lane training s
  | .earlyViewApply => Sys2Proof.Machine.execEarlyViewApply s
  | .calendarSecond => Sys2Proof.Machine.execCalendarSecond s
  | .calOscStop => Sys2Proof.Machine.execCalOscStop s
  | .porstAssert => Sys2Proof.Machine.execPorstAssert s
  | .porstDeassert st => Sys2Proof.Machine.execPorstDeassert st s
  | .thermalTrip site temp => Sys2Proof.Machine.execThermalTrip site temp s
  | .perstAssert p => Sys2Proof.Machine.execPerstAssert p s
  | .perstDeassert p => Sys2Proof.Machine.execPerstDeassert p s
  | .ddrTrainingDone => Sys2Proof.Machine.execDdrTrainingDone s
  | .dormReq who val => Sys2Proof.Machine.execDormReq who val s
  | .dormantEnter => Sys2Proof.Machine.execDormantEnter s
  | .wakeEvent srcs => Sys2Proof.Machine.execWakeEvent srcs s
  | .railWaitExpire ok => Sys2Proof.Machine.execRailWaitExpire ok s
  | .dormantExitDone => Sys2Proof.Machine.execDormantExitDone s
  | .pwrDomOff who val => Sys2Proof.Machine.execPwrDomOff who val s
  | .pwrDomOn who val => Sys2Proof.Machine.execPwrDomOn who val s
  | .pwrClkOff who val => Sys2Proof.Machine.execPwrClkOff who val s
  | .pwrClkOn who val => Sys2Proof.Machine.execPwrClkOn who val s
  | .pwmPeriodStart n => Sys2Proof.Machine.execPwmPeriodStart n s
  | .calendarEntry => Sys2Proof.Machine.execCalendarEntry s
  | .configurationRequest p r => Sys2Proof.Machine.execConfigurationRequest p r s
  | .pcieLinkDown p l2 => Sys2Proof.Machine.execPcieLinkDown p l2 s

end Sys2Proof.Machine
end

