-- ==== Sys2Proof/Machine/Flags.lean ====
section
/-! DEFINITION. The levels of the pins that the device drives from its state: interrupt and fault lines (R139, R150, R265, R292, R553, R558,
R581, R585), backlight (R294), touch wake (R412), PCIe wake, calendar alarm and rail pins (R593, R594). -/

namespace Sys2Proof.Machine

/-- A pending event is routed to FAULT_n (R150). -/
def Dev.faultEvent (d : Dev) : Bool := (List.range 512).any fun k => d.pend k && d.fb HRQ_EV_ROUTE.FAULT k

/-- A check window holds FAULT_LATCH (R265). -/
def Dev.faultWindow (d : Dev) : Bool := (List.range 192).any fun i => d.fb DSP_CW_RES.FAULT_LATCH i

/-- A port with LINKDN_FAULT has no link (R292). -/
def Dev.faultLink (d : Dev) : Bool :=
  (List.range 16).any fun p => d.fb DSP_PORT_CFG.LINKDN_FAULT p && (d.disp.ports.get p).latched && !d.fb DSP_PORT_STAT.LINK_UP p

/-- A thermal site stands at CRIT (R558). -/
def Dev.faultThermal (d : Dev) : Bool := (List.range 24).any fun i => d.fb MGT_THERM.CRIT i

/-- FAULT_n is pulled low (R150, R585): from the start of Trailhead ROM until LOCKED is 1, in recovery, while a thermal trip holds the device in
reset, and under the conditions above. -/
def Dev.faultLow (d : Dev) : Bool :=
  match d.pwr.phase with
  | .reset | .calendar => false
  | .tripped => true
  | _ => !d.fb OWN_LOCK_STAT.LOCKED 0 || d.mgt.phase == .recovery || d.faultEvent || d.faultWindow || d.faultLink || d.faultThermal

/-- BL_EN of an output (R294). -/
def Dev.blEn (d : Dev) (n : Nat) : Bool :=
  match d.f DSP_BL_CTRL.EN_MODE n with
  | 1 => true
  | 2 => (d.out n).lit
  | _ => false

/-- The level of BL_PWM of an output (R295): active for DUTY ticks of each period of PERIOD ticks, inactive while BL_EN is low; POL makes it active low. -/
def Dev.blPwm (d : Dev) (n : Nat) : Bool :=
  let o := d.out n
  let active := d.blEn n && o.pwmPeriod != 0 && (decide (o.pwmPeriod ≤ o.pwmDuty) || decide (d.pwmTicks n < o.pwmDuty))
  active != d.fb DSP_BL_CTRL.POL n

/-- TEe_WAKE_n is low (R412). -/
def Dev.touchWakeLow (d : Dev) (e : Nat) : Bool := d.fl TCH_WAKE_CFG.PIN_EN e == 1 && d.fb TCH_WAKE_CFG.PIN_ASSERTED e

/-- WAKEp_n is low (R593). -/
def Dev.wakeLow (d : Dev) (p : Nat) : Bool := d.pwr.wakeN.get p

/-- CAL_ALARM_n is low (R594). -/
def Dev.calAlarmLow (d : Dev) : Bool := d.fb MGT_CAL_SUB.ALARM 0 && d.fb MGT_CAL_SUB.WAKE_EN 0

/-- The rail pin and the level that it is driven to (R581, R590, R593). -/
def Dev.railPin (d : Dev) : Option (Nat × Bool) := d.pwr.rail

end Sys2Proof.Machine
end

