-- ==== Sys2Proof/Safety.lean ====
section
/-! DEFINITION. What a well-formed machine and a safe step are, in the terms that statements use. -/

namespace Sys2Proof.Machine

/-- The register table and the table of the values in force keep their canonical form: keys strictly rise, and no entry holds what an unlisted
key reads as. -/
def Dev.regsWf (d : Dev) : Bool := Tbl.wfD regDefault d.regs && Tbl.wfD regDefault d.live

/-- The SP0 window keeps its canonical form (R123). -/
def Dev.windowWf (d : Dev) : Bool := Tbl.wfD (fun _ => (0 : Byte)) d.hrq.window

/-- A table whose unlisted keys read as the default value keeps its canonical form. -/
def Tbl.wf {α : Type} [Inhabited α] [DecidableEq α] (t : Tbl α) : Bool := Tbl.wfD (fun _ => default) t

/-- The tables of the device keep their canonical form, and no round of fence signals stands open (R144). -/
def Dev.tablesWf (d : Dev) : Bool :=
  d.windowWf && d.time.held.wf && d.time.snaps.wf && d.hrq.queues.wf && d.hrq.keys.wf && d.mgt.counters.wf && d.disp.layers.wf &&
    d.disp.outs.wf && d.disp.ports.wf && d.vin.cs.wf && d.vin.we.wf && d.gpu.ctx.wf && d.gpu.clusters.wf && d.gpu.chans.wf && d.mbx.slots.wf &&
    d.mbx.ends.wf && d.mbx.cvu.wf && d.tch.wf && d.hap.chans.wf && d.hap.effects.wf && d.aud.buses.wf && d.aud.sinks.wf && d.aud.streams.wf &&
    d.aud.chimes.wf && d.aud.amps.wf && d.hrq.fences.wf && d.pci.wf && d.pmc.began.wf && d.part.freezes.wf && d.part.resets.wf && d.part.ran.wf && d.ports.wf && d.busMaster.wf && d.notD0.wf &&
    d.hrq.joint.isNone

/-- The registers in which events, messages, the log and the performance counters are told. -/
def told : List Reg := [.HRQ_EV_PEND, .HRQ_MSIX_PBA, .PMC_CNT, .PMC_OVF_LO, .PMC_OVF_HI, .MGT_LOG_NEWEST, .MGT_LOG_LOST]

/-- Only the registers `rs` and none of the bytes of memory have changed. -/
def State.Only (s t : State) (rs : List Reg) : Prop := t.mem = s.mem ∧ ∀ r i, r ∉ rs → t.dev.reg r i = s.dev.reg r i

/-- Command `id` of queue `i` has completed with a status and a RESULT (R135). -/
def Dev.Completed (d : Dev) (i id status result : Nat) : Prop :=
  ∃ x ∈ (d.queue i).cmds, x.id = id ∧ x.phase = .ended ∧ x.status = status ∧ x.result = result

/-- Device memory keeps its canonical form: equal memories are equal data. -/
def State.Canonical (s : State) : Prop := s.mem.wf = true

/-- The command answers a next state, of which `P` holds. -/
def Does (s : State) (i : Instr) (P : State → Prop) : Prop := ∃ t, exec i s = .next t ∧ P t

/-- A command of a queue has completed with a status and a RESULT (R135). -/
def Dev.Ended (d : Dev) (ref : CmdRef) (status result : Nat) : Prop :=
  ∃ x, d.cmd? ref = some x ∧ x.phase = .ended ∧ x.status = status ∧ x.result = result

/-- A command of a queue has started and not completed. -/
def Dev.Running (d : Dev) (ref : CmdRef) : Prop := ∃ x, d.cmd? ref = some x ∧ x.phase = .running

/-- The state in which the engine of a command starts: its domains have power, the dispatch is counted, and the command runs (R129, R494, R597). -/
def State.started (s : State) (f : Fn) (q : Fin 8) (c : Cmd) : State :=
  s.onDev fun d => ((d.needDomains c.domains).pmcDispatch f q c).updCmd ⟨qi f q, c.id⟩ fun x => { x with phase := .running, secure := c.secure }

/-- Nothing holds back a command whose turn it is: its opcode is one of its queue's type, its header has no fault, its fence is reached and its
engine has room (R134, R143, R145, R324). -/
def Dev.Clear (d : Dev) (f : Fn) (q : Fin 8) (c : Cmd) : Prop :=
  d.opcodeOk (qi f q) c.opcode = true ∧ d.headerFault f c = none ∧ d.fenceReached c = true ∧ d.roomFor c = true

/-- The bare command `c`, in the world of its queue, is next and may start (R129, R131). -/
def State.Bare (s : State) (f : Fn) (q : Fin 8) (c : Cmd) : Prop :=
  ∃ c0 all, (s.dev.queue (qi f q)).next = some (c0, all) ∧ c = { c0 with secure := s.dev.secure f } ∧ c0.env = none ∧
    s.dev.mayStart f (qi f q) = true ∧ (c0.flag 3 = true → all = true) ∧ s.dev.Clear f q c

/-- The inner command `c` of an envelope has been accepted, in this step or before, which leaves the state `s1` (R155). -/
def State.Accepted (s : State) (f : Fn) (q : Fin 8) (c : Cmd) (s1 : State) : Prop :=
  ∃ c0 all, (s.dev.queue (qi f q)).next = some (c0, all) ∧ c0.env.isSome = true ∧ c.lead = c0.lead ∧ c.conts = c0.conts ∧ c.id = c0.id ∧
    ((s.dev.acceptedNext f q = some c ∧ s1 = s) ∨
     (s.dev.acceptedNext f q = none ∧ s.dev.takeEnvelope f q = (s1.dev, some c) ∧ s1.mem = s.mem ∧ s1.pending = s.pending)) ∧
    s1.dev.Clear f q c

/-- Command `c` of a queue begins, bare or in its envelope, and its engine starts in the state `s0`. -/
def State.Begins (s : State) (f : Fn) (q : Fin 8) (c : Cmd) (s0 : State) : Prop :=
  (s.Bare f q c ∧ s0 = s.started f q c) ∨ ∃ s1, s.Accepted f q c s1 ∧ s0 = s1.started f q c

/-- The header and the body of a command hold nothing that a management command leaves unnamed: EXT is 0, no continuation follows, and every byte of the
body outside the named ones is 0 (R546, R547). -/
def Cmd.Plain (c : Cmd) (named : Nat → Bool) : Prop :=
  c.ext = 0 ∧ c.conts = [] ∧ ∀ k < 32, named (32 + k) = false → c.u (32 + k) 1 = 0

/-- What a field holds after a write that no rule refuses. -/
def FieldDesc.after (fd : FieldDesc) (old val : Word) : Nat :=
  match fd.acc with
  | .rw | .rws => fd.of val
  | .w1c => fd.of (old &&& ~~~val)
  | _ => fd.of old

/-- R644 alone decides what a whole-word write of this register does: it is half of no 64-bit register, and no chapter adds a rule. -/
def Reg.plain (r : Reg) (who : Fn) (i : Nat) (val : Word) : Bool :=
  (pairHigh r).isNone && (pairLow r).isNone && (coreWrite who r i val).isNone && (systemWrite who r i val).isNone &&
    (displayWrite who r i val).isNone && (engineWrite who r i val).isNone

/-- No rule refuses a field that the write would change or act on (R14, R15, R644). -/
def Dev.Accepts (d : Dev) (who : Fn) (r : Reg) (i : Nat) (val : Word) : Prop :=
  d.lockedOut who r i = false ∧
    ∀ fd ∈ r.fields, fd.hits (d.reg r i) (d.stored r i val) = true → fd.refused (d.secure who) (d.running r i) = false

/-- Every field of the register holds what a write of `val` that no rule refuses gives it (R644). -/
def Dev.Takes (d t : Dev) (r : Reg) (i : Nat) (val : Word) : Prop :=
  ∀ fd ∈ r.fields, t.f ⟨r, fd.lo, fd.w⟩ i = fd.after (d.reg r i) (d.stored r i val)

/-- Physical place `p` holds the byte of device address `a`: its place, and the second one while its bank migrates (R72). -/
def Dev.Homes (d : Dev) (a p : Nat) : Prop := p = d.place a ∨ d.mirror a = some p

/-- The state in which a host or a peer has won an arbitration round that nothing else entered, and its access is counted (R55, R494): memory and
everything that decides the access are those of `s`. -/
def State.won (s : State) (r : Req) (unit a n : Nat) (read : Bool) (ns : Nat) : State :=
  s.onDev fun d => (d.round (d.arbiterOf a) ⟨6, r.mid, unit, r.sec⟩ []).1.countAccess r a n read ns

/-- A step that neither faults nor is refused. -/
def State.SafeStep (s : State) : Prop := ∃ t, step s = .next t

end Sys2Proof.Machine
end

