-- ==== Sys2Proof/Certificates/Slice0/Obligations.lean ====
section
/-! DEFINITION. The statements for the provers. A statement that a command completes has the form `Does s i P`: `exec i s` answers a next state of which
`P` holds; for a command of a queue, `s.Begins f q c s0` says that command `c` begins, and `s0` is the state in which its engine starts. -/

open Sys2Proof Sys2Proof.Machine


/-- A step takes the command at the front of the queue and runs it on the rest; on an empty queue the block idles (the model's choice, log entry 1). -/
def Obligations.StepRunsTheFrontCommand : Prop :=
  (∀ (s : State) (c : Instr), step { s with pending := c :: s.pending } = exec c s) ∧
    (∀ (s : State) (c : Instr) (cs : List Instr), s.pending = c :: cs → step s = exec c { s with pending := cs }) ∧
    ∀ s : State, s.pending = [] → step s = .next s

/-- Every command and event of the table answers a next state, and none of them touches the queue of the commands that wait. The model's readings that
this rests on: log entries 15, 53. -/
def Obligations.EveryCommandAnswersANextState : Prop :=
  ∀ (i : Instr) (s : State), Does s i fun t => t.pending = s.pending

/-- A step from any state whose memory has its canonical form leaves memory in that form. The model's readings that this rests on: log entry 10. -/
def Obligations.StepKeepsMemoryCanonical : Prop :=
  ∀ s t : State, s.Canonical → step s = .next t → t.Canonical

/-- A step from any state whose registers and tables have their canonical form leaves them in that form: equal contents are equal data. -/
def Obligations.StepKeepsRegistersAndTablesCanonical : Prop :=
  ∀ s t : State, s.dev.regsWf = true → s.dev.tablesWf = true → step s = .next t → t.dev.regsWf = true ∧ t.dev.tablesWf = true

/-- The state after reset (R2, R77): GLB_ID names the part at offset 0 of PF BAR0, every register is at its reset value, memory is zero and unpoisoned,
Acholt does not run, and every table has its canonical form. That LPDDR5X reads zero is the model's choice (log entry 9). The model's readings that
this rests on: log entries 2, 3, 4, 33. -/
def Obligations.ResetLeavesTheSpecifiedState : Prop :=
  (∀ p : Fin 2, (State.reset.dev.hit (.pf p) 0).map (fun h => (h.reg, h.i)) = some (.GLB_ID, 0)) ∧ State.reset.dev.f GLB_ID.DEVICE 0 = 0x0880 ∧
    State.reset.dev.f GLB_ID.REVISION 0 = 0xB0 ∧ State.reset.dev.f GLB_ID.GRADE 0 = 0xE ∧ (State.reset.dev.reg .GLB_ID 0).toNat % 16 = 0 ∧
    (∀ fd ∈ Reg.GLB_ID.fields, fd.acc = .ro) ∧ (∀ r i, State.reset.dev.reg r i = Reg.resetAt r i) ∧
    (∀ p, State.reset.mem.byte p = 0 ∧ State.reset.mem.poison.get p = false) ∧ State.reset.dev.acholtRuns = false ∧ State.reset.pending = [] ∧
    State.reset.Canonical ∧ State.reset.dev.regsWf = true ∧ State.reset.dev.tablesWf = true
/-- KEY_REVOKE, DEBUG_SET, the epoch floor and CONVOY_MEMBERS (R158, R108, R574, R531): the setting takes effect, the command completes with OK
(CONVOY_MEMBERS where no link is up), and device memory is unchanged. -/
def Obligations.ManagementSettingsTakeEffect : Prop :=
  ∀ (s s0 : State) (f : Fn) (q : Fin 8) (c : Cmd), s.Begins f q c s0 → s0.dev.regsWf = true →
    (c.opcode = 0xA6 → c.Plain (· == 34) → c.u 34 1 < 8 → (∃ j < 8, j ≠ c.u 34 1 ∧ s0.dev.holdsRevoke j = true) →
      Tbl.wfD (fun _ => (default : KeySlot)) s0.dev.hrq.keys = true →
      Does s (.keyRevoke f q) fun t => t.dev.Ended ⟨qi f q, c.id⟩ ST_OK 0 ∧ (t.dev.hrq.keys.get (c.u 34 1)).revoked = true ∧
        (∀ j, j ≠ c.u 34 1 → t.dev.hrq.keys.get j = s0.dev.hrq.keys.get j) ∧ t.dev.own = s0.dev.own ∧ s0.Only t told) ∧
    (c.opcode = 0xA3 → c.Plain (· == 34) → c.u 34 1 < 16 →
      Does s (.debugSet f q) fun t => t.dev.Ended ⟨qi f q, c.id⟩ ST_OK 0 ∧ t.dev.debugBits = c.u 34 1 ∧ t.dev.hrq.keys = s0.dev.hrq.keys ∧
        s0.Only t (.OWN_DEBUG_STAT :: told)) ∧
    (c.opcode = 0xA2 → c.u 33 1 = 1 → c.Plain (· == 33) → s0.dev.mgt.epochSteps < 32 → s0.dev.mgt.epochSteps + 1 ≤ s0.dev.f OWN_LOCK_STAT.EPOCH 0 →
      Does s (.epochFloorRaise f q) fun t => t.dev.mgt.epochSteps = s0.dev.mgt.epochSteps + 1 ∧
        t.dev.Ended ⟨qi f q, c.id⟩ ST_OK (s0.dev.mgt.epochSteps + 1) ∧ t.dev.f OWN_LOCK_STAT.EPOCH_FLOOR 0 = s0.dev.mgt.epochSteps + 1 ∧
        t.dev.own = s0.dev.own ∧ s0.Only t [.OWN_LOCK_STAT]) ∧
    (c.opcode = 0xA7 → c.Plain (· == 34) → c.u 34 1 < 16 → s0.dev.mbx.bulk = [] →
      (Does s (.convoyMembers f q) fun t => t.dev.mgt.members = c.u 34 1 ∧ t.dev.f CNV_STAT.MEMBERS 0 = c.u 34 1 ∧
        (∀ k < 3, t.dev.cnvTrains k = false → t.dev.fb CNV_PORT_STAT.UP k = false) ∧ t.mem = s0.mem) ∧
      ((∀ k < 3, s0.dev.fb CNV_PORT_STAT.UP k = false) → Does s (.convoyMembers f q) fun t => t.dev.Ended ⟨qi f q, c.id⟩ ST_OK 0 ∧ t.dev.mgt.members = c.u 34 1 ∧
        t.dev.f CNV_STAT.MEMBERS 0 = c.u 34 1 ∧ s0.Only t ([.CNV_STAT, .CNV_PORT_STAT, .GLB_LTIME_STAT] ++ told)))

/-- CAL_TIME and CAL_OSC_STOP (R571 to R573): the clock is set and becomes VALID, the alarm and the trim are set, and a stopped oscillator clears what a
valid clock holds. -/
def Obligations.CalendarCommandsSetTheClock : Prop :=
  ∀ (s : State), s.dev.regsWf = true →
    (∀ (s0 : State) (f : Fn) (q : Fin 8) (c : Cmd), s.Begins f q c s0 → s0.dev.regsWf = true → c.opcode = 0xAE → mgtSubmitter f = true →
      (c.u 33 1 = 0 → c.Plain (fun b => b == 33 || within 36 41 b) → c.u 40 2 < 0x8000 →
        Does s (.calSetTime f q) fun t => t.dev.Ended ⟨qi f q, c.id⟩ ST_OK 0 ∧ t.dev.reg .MGT_CAL_SEC 0 = BitVec.ofNat 32 (c.u 36 4) ∧
          t.dev.fb MGT_CAL_SUB.VALID 0 = true ∧ t.dev.f MGT_CAL_SUB.CAL_SUB 0 = c.u 40 2 ∧
          s0.Only t ([.MGT_CAL_SEC, .MGT_CAL_SUB] ++ told)) ∧
      (c.u 33 1 = 1 → c.Plain (fun b => b == 33 || b == 34 || within 36 39 b) → c.u 34 1 < 4 →
        Does s (.calSetAlarm f q) fun t => t.dev.Ended ⟨qi f q, c.id⟩ ST_OK 0 ∧ t.dev.reg .MGT_CAL_ALARM 0 = BitVec.ofNat 32 (c.u 36 4) ∧
          t.dev.f MGT_CAL_SUB.ALARM_EN 0 = c.u 34 1 % 2 ∧ t.dev.f MGT_CAL_SUB.WAKE_EN 0 = c.u 34 1 / 2 ∧
          s0.Only t [.MGT_CAL_ALARM, .MGT_CAL_SUB]) ∧
      (c.u 33 1 = 2 → c.Plain (fun b => b == 33 || b == 34) → c.u 34 1 ≠ 0x80 →
        Does s (.calSetTrim f q) fun t => t.dev.Ended ⟨qi f q, c.id⟩ ST_OK 0 ∧ t.dev.f MGT_CAL_SUB.TRIM 0 = c.u 34 1 ∧
          s0.Only t [.MGT_CAL_SUB])) ∧
    (s.dev.fb MGT_CAL_SUB.VALID 0 = true →
      Does s .calOscStop fun t => t.dev.mgt.oscillator = false ∧ t.dev.reg .MGT_CAL_SEC 0 = 0 ∧ t.dev.reg .MGT_CAL_ALARM 0 = 0 ∧
        t.dev.reg .MGT_CAL_SUB 0 = s.dev.reg .MGT_CAL_SUB 0 &&& 0x10000 ∧ t.dev.pend 493 = true ∧
        s.Only t ([.MGT_CAL_SEC, .MGT_CAL_ALARM, .MGT_CAL_SUB] ++ told)) ∧
    (s.dev.fb MGT_CAL_SUB.VALID 0 = false → Does s .calOscStop fun t => t.dev.mgt.oscillator = false ∧ s.Only t [])

/-- Writes of registers (R9, R10, R644): each field takes what its access code gives it, a low word is held for its writer, and a high word forms the
64-bit value with it. Beside the register written, only the power and the clock that it demands change. The model's readings that this rests on: log
entries 36, 37. -/
def Obligations.RegisterWritesApplyFieldByField : Prop :=
  ∀ (s : State) (who : Fn) (off : Nat) (val : Word) (h : Hit), s.dev.regsWf = true → off % 4 = 0 → s.dev.hit who off = some h → h.writable = true →
    (h.reg.plain who h.i val = true → s.dev.Accepts who h.reg h.i val →
      Does s (.registerWrite who off 0xF val) fun t => s.dev.Takes t.dev h.reg h.i val ∧
        (∀ r i, ¬(r = h.reg ∧ i = h.i) → r ≠ .PWR_DOM_STAT → r ≠ .PWR_CLK_STAT → t.dev.reg r i = s.dev.reg r i) ∧ t.mem = s.mem) ∧
    ((pairHigh h.reg).isSome = true → Tbl.wfD (fun _ => (0 : Word)) s.dev.time.held = true →
      Does s (.lowWordWrite who off val) fun t => t.dev.time.held.get (heldKey who h.reg h.i) = val ∧
        (∀ k, k ≠ heldKey who h.reg h.i → t.dev.time.held.get k = s.dev.time.held.get k) ∧ t.dev.regs = s.dev.regs ∧ t.mem = s.mem) ∧
    (∀ lo, pairLow h.reg = some lo → s.dev.Accepts who lo h.i (s.dev.time.held.get (heldKey who lo h.i)) → s.dev.Accepts who h.reg h.i val →
      Does s (.highWordWrite who off val) fun t => s.dev.Takes t.dev h.reg h.i val ∧
        s.dev.Takes t.dev lo h.i (s.dev.time.held.get (heldKey who lo h.i)) ∧
        (∀ r i, ¬((r = h.reg ∨ r = lo) ∧ i = h.i) → t.dev.reg r i = s.dev.reg r i) ∧ t.mem = s.mem)

/-- Reads of registers (R12, R48): a read of a low word captures the high word for its reader alone, the next read of the high word returns what was
captured, and a read clears the RC fields that it returns. Stated: R48. The RC clause is derived, and that a high word never captured reads 0 is not
claimed (log entries 36, 37). -/
def Obligations.RegisterReadsCaptureAndClear : Prop :=
  ∀ (s : State) (who : Fn) (off : Nat) (h : Hit), s.dev.regsWf = true → off % 4 = 0 → s.dev.hit who off = some h → s.dev.mayRead who h.reg h.i = true →
    (∀ hi, snapHigh h.reg = some hi → Tbl.wfD (fun _ => (0 : Word)) s.dev.time.snaps = true →
      Does s (.snapshotRead who off) fun t => t.dev.time.snaps.get (heldKey who h.reg h.i) = s.dev.highNow hi h.i ∧
        (∀ k, k ≠ heldKey who h.reg h.i → t.dev.time.snaps.get k = s.dev.time.snaps.get k) ∧
        (∃ v, t.dev.outbox = .readValue who v :: s.dev.outbox ∧ (h.reg = .GLB_LTIME_LO → v = BitVec.ofNat 32 s.dev.now)) ∧ t.mem = s.mem) ∧
    (∀ lo, snapLow h.reg = some lo → Does s (.snapshotRead who off) fun t =>
      t.dev.outbox = .readValue who (s.dev.time.snaps.get (heldKey who lo h.i)) :: s.dev.outbox ∧ t.dev.time = s.dev.time ∧ t.mem = s.mem) ∧
    (snapHigh .GLB_LTIME_LO = some .GLB_LTIME_HI ∧ snapLow .GLB_LTIME_HI = some .GLB_LTIME_LO ∧ snapHigh .GLB_PTM_OFFSET_LO = some .GLB_PTM_OFFSET_HI ∧
      snapLow .GLB_PTM_OFFSET_HI = some .GLB_PTM_OFFSET_LO ∧ ∀ i, s.dev.highNow .GLB_LTIME_HI i = BitVec.ofNat 32 (s.dev.now / 2 ^ 32)) ∧
    (snapLow h.reg = none → (∃ fd ∈ h.reg.fields, fd.acc = .rc) →
      Does s (.rcRead who off) fun t => (∀ fd ∈ h.reg.fields, t.dev.f ⟨h.reg, fd.lo, fd.w⟩ h.i = if fd.acc = .rc then 0 else fd.of (s.dev.reg h.reg h.i)) ∧
        (∃ v, t.dev.outbox = .readValue who v :: s.dev.outbox) ∧ t.mem = s.mem)

/-- LTIME (R41, R44 to R47, R51): with no rate correction each reference period adds 26 ns and its fraction, each calendar period in DORMANT adds 30,517
ns and 37/64 and sets CARRIED, an exchange stores its offset and the source steers within SLEW_PPM, and a lost source holds its rate. The model's
readings that this rests on: log entries 7, 53. -/
def Obligations.LtimeAdvancesAndIsDisciplined : Prop :=
  ∀ (s : State), s.dev.regsWf = true →
    (s.dev.time.refRunning = true → s.dev.time.rate = 0 →
      Does s .ltimeStep fun t => t.dev.time.ltime * 2 ^ 32 + t.dev.time.frac =
          (s.dev.time.ltime + (s.dev.time.frac + 26 * 2 ^ 32 + 0x0AAAAAAB) / 2 ^ 32) % 2 ^ 64 * 2 ^ 32 + (s.dev.time.frac + 26 * 2 ^ 32 + 0x0AAAAAAB) % 2 ^ 32 ∧
        t.dev.time.rate = 0 ∧ t.dev.hrq = s.dev.hrq ∧ t.mem = s.mem) ∧
    (s.dev.time.refRunning = false →
      Does s .ltimeCarryStep fun t => t.dev.time.ltime = (s.dev.time.ltime + 30517 + (s.dev.time.calFrac + 37) / 64) % 2 ^ 64 ∧
        t.dev.time.calFrac = (s.dev.time.calFrac + 37) % 64 ∧ t.dev.fb GLB_LTIME_STAT.CARRIED 0 = true ∧ t.mem = s.mem) ∧
    (∀ (p : Fin 2) (host : BitVec 64),
      Does s (.ptmExchange p host) fun t =>
        t.dev.reg64 .GLB_PTM_OFFSET_LO .GLB_PTM_OFFSET_HI p.val = ofSigned 64 (toSigned 64 (host.toNat + 2 ^ 64 - s.dev.now)) ∧
        t.dev.now = s.dev.now ∧
        (s.dev.sourcePort ≠ some p.val → t.dev.time = s.dev.time) ∧
        (s.dev.sourcePort = some p.val → s.dev.time.ptmRef = none →
          t.dev.time.ptmRef = some (toSigned 64 (host.toNat + 2 ^ 64 - s.dev.now)) ∧ t.dev.time.rate = s.dev.time.rate) ∧
        (s.dev.sourcePort = some p.val → s.dev.time.ptmRef.isSome = true →
          t.dev.time.rate ≤ s.dev.slewPpm * 1000 ∧ -(s.dev.slewPpm * 1000 : Int) ≤ t.dev.time.rate ∧ t.dev.fb GLB_LTIME_STAT.HOLDOVER 0 = false) ∧
        (∀ ref, s.dev.sourcePort = some p.val → s.dev.time.ptmRef = some ref → 50 < (toSigned 64 (host.toNat + 2 ^ 64 - s.dev.now) - ref).natAbs →
          t.dev.fb GLB_LTIME_STAT.LOCKED 0 = false ∧ t.dev.time.inBand = 0 ∧
          (s.dev.fb GLB_LTIME_STAT.LOCKED 0 = true → t.dev.fb GLB_LTIME_STAT.LOCK_LOST 0 = true)) ∧ t.mem = s.mem) ∧
    (s.dev.sourcePort.isSome = true → s.dev.fb GLB_LTIME_STAT.HOLDOVER 0 = false → s.dev.time.lastPtm + 3 * s.dev.ptmIntervalMs * 1000000 ≤ s.dev.now →
      Does s .ptmHoldover fun t => t.dev.fb GLB_LTIME_STAT.HOLDOVER 0 = true ∧ t.dev.fb GLB_LTIME_STAT.LOCK_LOST 0 = true ∧
        t.dev.fb GLB_LTIME_STAT.LOCKED 0 = false ∧ t.dev.pend 0 = true ∧ t.dev.time.rate = s.dev.time.rate ∧ t.mem = s.mem) ∧
    (∀ (who : Fn) (val : Word), (∀ v, who ≠ .vf v) → s.dev.Accepts who .GLB_LTIME_CTRL 0 val → s.dev.follower = false →
      Does s (.ltimeCtrlWrite who val) fun t => s.dev.Takes t.dev .GLB_LTIME_CTRL 0 val ∧ t.dev.time.rate = s.dev.time.rate ∧
        (t.dev.f GLB_LTIME_CTRL.SRC 0 ≠ s.dev.f GLB_LTIME_CTRL.SRC 0 →
          t.dev.time.ptmRef = none ∧ t.dev.f GLB_LTIME_STAT.SRC_ACTIVE 0 = t.dev.f GLB_LTIME_CTRL.SRC 0 ∧ t.dev.fb GLB_LTIME_STAT.LOCKED 0 = false ∧
          (s.dev.fb GLB_LTIME_STAT.LOCKED 0 = true → t.dev.fb GLB_LTIME_STAT.LOCK_LOST 0 = true)) ∧ t.mem = s.mem)

/-- The pace governor (R25 to R31): probe readings are taken, the setpoint is fixed, raised to the floor or raised a step and no value set passes VMAX_MV,
the regulator's answers end an enable's wait, and silence or a low supply is told. Stated: R30. The other clauses are derived (log entries 15, 19, 120). -/
def Obligations.PaceGovernorSetsTheSupply : Prop :=
  ∀ (s : State), s.dev.regsWf = true →
    (∀ paces : List Nat, s.dev.acholtRuns = true → s.dev.pace.probeWin < s.dev.paceWindow →
      Does s (.probeWindow paces) fun t => (∀ e < 64, t.dev.pace.probes.get e = some (paces.getD e 0 % 2 ^ 16)) ∧
        t.dev.pace.setpoint = s.dev.pace.setpoint ∧ s.Only t [.GPU_SC_STAT]) ∧
    (∀ paces : List Nat, s.dev.paceWindow ≤ s.dev.pace.probeWin → Does s (.probeWindow paces) fun t => t = s) ∧
    (∀ demand margin : List Nat, s.dev.paceWindow ≤ s.dev.pace.govWin → Does s (.governorWindow demand margin) fun t => t = s) ∧
    (∀ demand margin : List Nat, s.dev.acholtRuns = true → s.dev.pace.govWin < s.dev.paceWindow →
      Does s (.governorWindow demand margin) fun t =>
        (s.dev.fb PWR_PACE_STAT.AVS_FAULT 0 = true → t.dev.pace.setpoint = s.dev.pace.setpoint) ∧
        (s.dev.fb PWR_PACE_STAT.AVS_FAULT 0 = false → s.dev.f PWR_PACE_CTRL.MODE 0 = 1 → t.dev.pace.setpoint =
          min (s.dev.floorTarget (clampN (if s.dev.floorHeld then 735 else 600) (s.dev.f PWR_PACE_CTRL.VMAX_MV 0) (s.dev.f PWR_PACE_CTRL.FIXED_MV 0)))
            (s.dev.f PWR_PACE_CTRL.VMAX_MV 0)) ∧
        (s.dev.fb PWR_PACE_STAT.AVS_FAULT 0 = false → s.dev.devIdle = false → 720 ≤ s.dev.pace.setpoint → 720 ≤ s.dev.f PWR_PACE_CTRL.VMAX_MV 0 →
          720 ≤ t.dev.pace.setpoint) ∧
        (s.dev.fb PWR_PACE_STAT.AVS_FAULT 0 = false → s.dev.f PWR_PACE_CTRL.MODE 0 ≠ 1 → s.dev.floorHeld = true → s.dev.pace.setpoint < 735 →
          t.dev.pace.setpoint = min 735 (s.dev.f PWR_PACE_CTRL.VMAX_MV 0)) ∧
        (s.dev.fb PWR_PACE_STAT.AVS_FAULT 0 = false → s.dev.f PWR_PACE_CTRL.MODE 0 ≠ 1 → ¬(s.dev.floorHeld = true ∧ s.dev.pace.setpoint < 735) →
          (∃ e < 60, ∃ p, s.dev.pace.probes.get e = some p ∧ p < s.dev.need demand e) →
          t.dev.pace.setpoint = min (s.dev.pace.setpoint + 10) (s.dev.f PWR_PACE_CTRL.VMAX_MV 0)) ∧
        t.dev.outbox = (if t.dev.pace.setpoint = s.dev.pace.setpoint then .avsCurrentRead :: .avsVoltageRead :: s.dev.outbox
          else .avsCurrentRead :: .avsVoltageRead :: .avsStatus :: .avs t.dev.pace.setpoint :: s.dev.outbox) ∧ t.mem = s.mem) ∧
    (Does s .avsStatusDone fun t => t.dev.f PWR_PACE_STAT.VCORE_MV 0 = s.dev.pace.setpoint % 2 ^ 10 ∧ t.dev.pace.noAnswer = 0 ∧
        (735 ≤ s.dev.pace.setpoint → t.dev.pace.enableWaits = false ∧ t.dev.pace.starts = [] ∧
          ∀ ref ∈ s.dev.pace.starts, s.dev.Running ref → t.dev.Ended ref ST_OK 0) ∧ t.dev.pace.setpoint = s.dev.pace.setpoint ∧ t.mem = s.mem) ∧
    (s.dev.fb PWR_PACE_STAT.AVS_FAULT 0 = false →
      Does s .avsNoAnswer fun t => t.dev.pace.noAnswer = min 3 (s.dev.pace.noAnswer + 1) ∧ t.dev.pace.setpoint = s.dev.pace.setpoint ∧
        t.dev.fb PWR_PACE_STAT.AVS_FAULT 0 = decide (2 ≤ s.dev.pace.noAnswer) ∧ (2 ≤ s.dev.pace.noAnswer → t.dev.pend 489 = true) ∧ t.mem = s.mem) ∧
    (s.dev.fb PWR_PACE_STAT.AVS_FAULT 0 = true → ∀ mv, s.dev.setVcore mv = s.dev) ∧
    (∀ mv : Nat, mv < 720 → s.dev.floorHeld = true →
      Does s (.belowFloor mv) fun t => t.dev.fb PWR_PACE_STAT.BELOW_FLOOR 0 = true ∧ t.dev.pend 490 = true ∧
        t.dev.f PWR_PACE_STAT.VCORE_MEAS_MV 0 = mv % 2 ^ 10 ∧ t.dev.pace = s.dev.pace ∧ t.mem = s.mem)

/-- Performance counters (R496 to R500): an unchained counter wraps to 0 and sets its OVF bit, a window's end shows its counts and starts again at 0, and
a software write of a counter takes effect over a coincident increment or carry, of which LOST_CARRY tells. Stated: R496. The other clauses are
derived (log entries 107, 128). -/
def Obligations.CounterWindowsAndWrites : Prop :=
  ∀ (s : State), s.dev.regsWf = true →
    (∀ (i : Fin 64) (n : Nat) (d : Dev), n < 2 ^ 32 → d = s.dev.pmcAdd i.val n → s.dev.pmcChained i.val = false →
      (i.val % 2 = 0 → s.dev.pmcChained (i.val + 1) = false) → (d.reg .PMC_CNT i.val).toNat = ((s.dev.reg .PMC_CNT i.val).toNat + n) % 2 ^ 32 ∧
        (2 ^ 32 ≤ (s.dev.reg .PMC_CNT i.val).toNat + n →
          bit (if i.val < 32 then d.reg .PMC_OVF_LO 0 else d.reg .PMC_OVF_HI 0).toNat (i.val % 32) = true ∧
            (s.dev.fb PMC_GRP_CTRL.OVF_EV (i.val / 8) = true → d.pend 456 = true))) ∧
    (∀ (g : Fin 8) (t0 : Nat), s.dev.windowed g.val = true → s.dev.pmc.began.get g.val = some t0 → t0 + s.dev.pmcPeriod g.val ≤ s.dev.now →
      Tbl.wfD (fun _ => (0 : Word)) s.dev.pmc.shown = true →
      Does s (.pmcWindowEnd g) fun t => t.dev.pmc.began.get g.val = some (t0 + s.dev.pmcPeriod g.val) ∧ (∀ k < 8, t.dev.pmc.shown.get (8 * g.val + k) = s.dev.reg .PMC_CNT (8 * g.val + k) ∧
          t.dev.reg .PMC_CNT (8 * g.val + k) = 0) ∧
        (∀ i, i / 8 ≠ g.val → t.dev.pmc.shown.get i = s.dev.pmc.shown.get i ∧ t.dev.reg .PMC_CNT i = s.dev.reg .PMC_CNT i) ∧
        t.dev.f PMC_GRP_STAT.WSEQ g.val = (s.dev.f PMC_GRP_STAT.WSEQ g.val + 1) % 2 ^ 24 ∧
        t.dev.fb PMC_GRP_STAT.FROZEN g.val = s.dev.pmc.frozen.get g.val ∧
        (s.dev.fb PMC_GRP_CTRL.WIN_EV g.val = true → t.dev.pend 458 = true) ∧ t.mem = s.mem) ∧
    (∀ (who : Fn) (n : Fin 64) (val : Word) (inc carry : Bool), (∀ v, who ≠ .vf v) →
      (s.dev.pmcMayWrite who (n.val / 8) = true → s.dev.windowed (n.val / 8) = false →
        Does s (.pmcCounterWrite who n val inc carry) fun t => t.dev.reg .PMC_CNT n.val = val ∧
          (carry = true → s.dev.pmcChained n.val = true →
            bit (if n.val < 32 then t.dev.reg .PMC_LC_LO 0 else t.dev.reg .PMC_LC_HI 0).toNat (n.val % 32) = true) ∧ t.mem = s.mem) ∧
      (s.dev.pmcMayWrite who (n.val / 8) = false ∨ s.dev.windowed (n.val / 8) = true →
        Does s (.pmcCounterWrite who n val inc carry) fun t => t.dev.reg .PMC_CNT n.val = s.dev.reg .PMC_CNT n.val ∧
          t.dev.fb PMC_GRP_STAT.WERR (n.val / 8) = true ∧ t.mem = s.mem))

/-- The test walker (R64 to R67): a visit copies its region into the shadow buffer, a timeout abandons the test and counts it, a failing row takes a spare
row, and each restored line reads as it stands in the shadow buffer. The model's readings that this rests on: log entries 10, 15, 124. -/
def Obligations.WalkerTestsAndRestoresRegions : Prop :=
  ∀ (s : State), s.dev.regsWf = true → s.Canonical →
    (∀ (corrected : Nat) (poisoned : List Nat) (b r : Nat) (wrapped : Bool), s.dev.fb MEM_WALK_CTRL.ENABLE 0 = true → s.dev.acholtRuns = true →
      s.dev.msys.walk.phase = .idle → s.dev.msys.walk.due ≤ s.dev.now → s.dev.nextRegion 19 s.dev.msys.walk.next false = some (b, r, wrapped) →
      Does s (.walkRegion corrected poisoned) fun t => t.dev.msys.walk.phase = .testing ∧ t.dev.msys.walk.bank = b ∧ t.dev.msys.walk.region = r ∧
        t.dev.msys.walk.restored = 0 ∧ t.dev.msys.walk.began = s.dev.now ∧
        t.dev.msys.walk.due = s.dev.now + 1000 * s.dev.f MEM_WALK_CTRL.WALK_INTERVAL_US 0 ∧
        (∀ o < 4096, t.mem.byte (shadowBase + 4096 * b + o) = s.mem.byte (b * bankBytes + 4096 * r + o)) ∧
        (∀ p, ¬(shadowBase + 4096 * b ≤ p ∧ p < shadowBase + 4096 * b + 4096) → t.mem.byte p = s.mem.byte p)) ∧
    (s.dev.msys.walk.phase = .testing → s.dev.msys.walk.began + 1000 * max 10 (s.dev.f MEM_WALK_CTRL.REGION_TIMEOUT_US 0) ≤ s.dev.now →
      Does s .walkRegionTimeout fun t => t.dev.msys.walk.phase = .restoring ∧
        t.dev.f MEM_WALK_STAT.SKIPPED 0 = min 255 (s.dev.f MEM_WALK_STAT.SKIPPED 0 + 1) ∧ t.mem = s.mem) ∧
    (∀ failing corrected clean : List Nat, s.dev.msys.walk.phase = .testing →
      Does s (.walkTestEnd failing corrected clean) fun t => t.dev.msys.walk.phase = .restoring ∧
        (s.dev.walkLate = true → t.dev.f MEM_WALK_STAT.SKIPPED 0 = min 255 (s.dev.f MEM_WALK_STAT.SKIPPED 0 + 1) ∧
          t.dev.mgt.spareRows = s.dev.mgt.spareRows) ∧
        (∀ row, s.dev.walkLate = false → failing = [row] → corrected = [] → clean = [] → s.dev.f MEM_BANK_STAT.ROWS_USED s.dev.msys.walk.bank < 32 →
          t.dev.f MEM_BANK_STAT.ROWS_USED s.dev.msys.walk.bank = s.dev.f MEM_BANK_STAT.ROWS_USED s.dev.msys.walk.bank + 1 ∧
          t.dev.mgt.spareRows = (s.dev.msys.walk.bank, row) :: s.dev.mgt.spareRows) ∧ t.mem = s.mem) ∧
    (s.dev.msys.walk.phase = .restoring → s.dev.msys.walk.restored < 64 →
      (∀ rivals : List Rival, (s.dev.round s.dev.msys.walk.bank ⟨7, 0x06, unitWalker, true⟩ rivals).2 = false →
        Does s (.walkRestoreLine rivals) fun t => t.mem = s.mem ∧ t.dev.msys.walk = s.dev.msys.walk) ∧
      Does s (.walkRestoreLine []) fun t => t.dev.msys.walk.restored = s.dev.msys.walk.restored + 1 ∧
        t.dev.msys.walk.phase = (if s.dev.msys.walk.restored = 63 then .idle else .restoring) ∧
        (∀ o < 64, t.mem.byte (s.dev.msys.walk.bank * bankBytes + 4096 * s.dev.msys.walk.region + 64 * s.dev.msys.walk.restored + o) =
          s.mem.byte (shadowBase + 4096 * s.dev.msys.walk.bank + 64 * s.dev.msys.walk.restored + o)) ∧
        (∀ p, ¬(s.dev.msys.walk.bank * bankBytes + 4096 * s.dev.msys.walk.region + 64 * s.dev.msys.walk.restored ≤ p ∧
          p < s.dev.msys.walk.bank * bankBytes + 4096 * s.dev.msys.walk.region + 64 * s.dev.msys.walk.restored + 64) → t.mem.byte p = s.mem.byte p))

/-- The bank swap (R55, R64, R72): a step whose helper loses its round leaves everything; each other step copies one 4 KiB region to the other bank,
in the shadow buffer where the walker redirects a line, and leaves every other byte; the cutover moves the range, raises EV486 and ends the command
that asked for it. The model's readings that this rests on: log entry 10. -/
def Obligations.BankSwapMovesABank : Prop :=
  ∀ (s : State) (sw : SwapSt), s.dev.regsWf = true → s.Canonical → s.dev.msys.swap = some sw → sw.src ≤ 16 → sw.dst ≤ 16 → sw.src ≠ sw.dst →
    (sw.next < 2048 →
      (∀ (corrected : Nat) (poisoned : List Nat) (rivals : List Rival), (s.dev.round sw.src rivalHelper rivals).2 = false →
        Does s (.migrationCopyRegion corrected poisoned rivals) fun t => t.dev.msys.swap = some sw ∧ t.mem = s.mem) ∧
      (∀ (corrected : Nat) (poisoned : List Nat), Does s (.migrationCopyRegion corrected poisoned []) fun t =>
        t.dev.msys.swap = some { sw with next := sw.next + 1 } ∧
        (∀ o < 4096, t.mem.byte (s.dev.bankPlace sw.dst (4096 * sw.next + o)) = s.mem.byte (s.dev.bankPlace sw.src (4096 * sw.next + o))) ∧
        (∀ p, (∀ o < 4096, p ≠ s.dev.bankPlace sw.dst (4096 * sw.next + o)) → t.mem.byte p = s.mem.byte p)) ∧
      ((∀ k < 512, s.mem.poison.get (s.dev.bankPlace sw.src (4096 * sw.next + 8 * k)) = false) →
        Does s (.migrationCopyRegion 0 [] []) fun t => ∀ r i, r ≠ .MEM_BANK_CONFLICT → t.dev.reg r i = s.dev.reg r i)) ∧
    (sw.next = 2048 →
      Does s .bankSwapCutover fun t => t.dev.msys.swap = none ∧ t.dev.fb MEM_BANK_STAT.MIGRATING sw.src = false ∧
        t.dev.fb MEM_BANK_STAT.MIGRATING sw.dst = false ∧ t.dev.fb MEM_BANK_STAT.RETIRED (if sw.back then sw.dst else sw.src) = !sw.back ∧
        t.dev.f MEM_BANK_STAT.REPLACES 16 = (if sw.back then 0x1F else sw.src) ∧ t.dev.pend 486 = true ∧
        (∀ ref, sw.cmd = some ref → s.dev.Running ref → t.dev.Ended ref ST_OK 0) ∧ t.mem = s.mem)

/-- A write inside one line (R63, R72, R85, R91): the bytes that it stores and the page's byte of the ownership table change, every other byte is
left; in a poisoned word of the table nothing is written; outside a migration the stored bytes read back, and DIRTY of the page is set by every master
but a device agent. The model's readings that this rests on: log entry 10. -/
def Obligations.LineWritesStoreTheirBytes : Prop :=
  ∀ (s : State) (r : Req) (a : Nat) (bs : List Byte), s.dev.regsWf = true → s.Canonical → 0 < bs.length → a % 64 + bs.length ≤ 64 →
    (∀ p, (∀ k < bs.length, ¬s.dev.Homes (a + k) p) → ¬s.dev.Homes (s.dev.own.tableBase + ownOffset a) p →
      (s.storeLine r a bs).mem.byte p = s.mem.byte p) ∧
    (s.poisonedAt (s.dev.tableAt a) = true → (∀ b, (s.setOwnByte a b).mem = s.mem) ∧
      (s.markDirty r a).mem = s.mem) ∧
    (s.dev.msys.swap = none → (∀ k < bs.length, s.poisonedAt (a + k) = false) → s.poisonedAt (s.dev.tableAt a) = false →
      (∀ k < bs.length, s.dev.place (s.dev.own.tableBase + ownOffset a) ≠ s.dev.place (a + k)) →
      (∀ k < bs.length, (s.storeLine r a bs).byteAt (a + k) = bs.getD k 0) ∧
      (r.mid ≠ 6 → (s.storeLine r a bs).ownByte a = s.ownByte a ||| 0x80) ∧ (s.storeLine r a bs).dev = s.dev)

/-- A refused access (R90, R115): it is counted and raises EV016, nothing is stored, and the first refusal since VALID was cleared is recorded. -/
def Obligations.RefusedAccessesAreRecorded : Prop :=
  ∀ (s : State) (r : Req) (path a : Nat) (bs : List Byte), s.dev.regsWf = true → 0 < bs.length → r.mid < 256 → path < 13 → a < 2 ^ 64 →
    s.checkAccess r path a true = false →
    (s.writeMem r path a bs).1.mem = s.mem ∧ (s.writeMem r path a bs).2 = false ∧ (s.writeMem r path a bs).1.dev.pend 16 = true ∧
      (s.writeMem r path a bs).1.dev.f OWN_REFUSE_INFO.OWN_REFUSE_COUNT 0 = min 0xFFFF (s.dev.f OWN_REFUSE_INFO.OWN_REFUSE_COUNT 0 + 1) ∧
      (s.writeMem r path a bs).1.dev.fb OWN_REFUSE_INFO.VALID 0 = true ∧
      (s.dev.fb OWN_REFUSE_INFO.VALID 0 = false →
        (s.writeMem r path a bs).1.dev.reg64 .OWN_REFUSE_ADDR_LO .OWN_REFUSE_ADDR_HI 0 = a ∧ (s.writeMem r path a bs).1.dev.f OWN_REFUSE_INFO.MID 0 = r.mid ∧
        (s.writeMem r path a bs).1.dev.fb OWN_REFUSE_INFO.SECURE 0 = r.sec ∧ (s.writeMem r path a bs).1.dev.fb OWN_REFUSE_INFO.WRITE 0 = true ∧
        (s.writeMem r path a bs).1.dev.f OWN_REFUSE_INFO.PATH 0 = path)

/-- Accesses of engines, hosts and JTAG (R54, R88, R90, R108, R109, R120, R121): an access that nothing competes with is granted and stores its line, a
refused one stores nothing, a refused host read returns 0xFF bytes, JTAG reaches nothing without an enable, and a host completion hands its data over.
The model's readings that this rests on: log entries 13, 16, 21, 31, 115. -/
def Obligations.AccessesAreGrantedOrRefused : Prop :=
  ∀ (s : State), s.dev.regsWf = true → s.Canonical →
    (∀ (a a' : Access) (rivals : List Rival) (m : Master), s.dev.master a.work = some m → s.dev.issued a = a' → a'.addr % 64 + a'.data.length ≤ 64 →
      (s.checkAccess m.req m.path a'.addr a'.write m.out = true → rivals = [] → a'.write = true →
        Does s (.memoryAccess a rivals) fun t => t.mem = (s.storeLine m.req a'.addr a'.data).mem) ∧
      (s.checkAccess m.req m.path a'.addr a'.write m.out = true → rivals = [] → a'.write = false → (∀ e ∈ a'.ecc, e = .clean) →
        s.badWords a'.addr (min a'.len (64 - a'.addr % 64)) = [] →
        Does s (.memoryAccess a rivals) fun t => t.mem = s.mem ∧ t.dev.own = s.dev.own) ∧
      (s.checkAccess m.req m.path a'.addr a'.write m.out = true →
        (s.dev.round (s.dev.arbiterOf a'.addr) ⟨m.cls, m.req.mid, a'.work.unit, m.req.sec⟩ rivals).2 = false →
        Does s (.memoryAccess a rivals) fun t => t.mem = s.mem) ∧
      (s.checkAccess m.req m.path a'.addr a'.write m.out = false → Does s (.memoryAccess a rivals) fun t => t.mem = s.mem)) ∧
    (∀ (e : Fin 4) (ch : Fin 16) (x : CpChan) (r : HostReq) (bs : List Byte) (ns k : Nat), x = s.dev.chan (cpeIdx e.val ch.val) → x.run.isSome = true →
      s.dev.hrq.reads.findIdx? (fun r => r.work == .copy e ch && r.sent.isSome) = some k → s.dev.hrq.reads.getD k default = r →
      r.len ≤ (r.got ++ bs).length →
      Does s (.hostCompletion (.copy e ch) (.ok bs) ns) fun t =>
        t.dev.chan (cpeIdx e.val ch.val) = { x with host := x.host ++ (r.got ++ bs).take r.len } ∧ t.mem = s.mem) ∧
    (∀ (f : Fn) (q : Fin 8) (k : Nat), f ≠ .sp0 → (s.dev.queue (qi f q)).reading ≠ 0 →
      s.dev.hrq.reads.findIdx? (fun r => r.work == .fetch f q && s.dev.readLate r) = some k →
      Does s (.hostCompletionTimeout (.fetch f q)) fun t => t.dev.fb HRQ_Q_STAT.HOST_ERR (qi f q) = true ∧ t.dev.fb HRQ_Q_STAT.HALTED (qi f q) = true ∧
        t.dev.pend 35 = true ∧ t.mem = s.mem) ∧
    (∀ ins : JtagInstr,
      Does s (.jtagInstruction ins) fun t => t.dev.outbox = .jtag (match ins with
          | .idcode | .bypass => true
          | .extest | .intest | .haltAcholt _ | .inspectSecure => s.dev.own.invS
          | .traceSecure => s.dev.own.ninvS
          | .traceNormal => s.dev.own.ninvN
          | .memoryAccess => s.dev.own.invS || s.dev.own.invN
          | .haltNormal _ | .stepNormal => s.dev.own.invN
          | .other => s.dev.anyDebug) :: s.dev.outbox ∧ t.dev.regs = s.dev.regs ∧ t.mem = s.mem) ∧
    (∀ (w : Bool) (addr len : Nat) (data : List Byte) (ecc : List Ecc),
      (s.dev.own.invS = false → s.dev.own.invN = false → Does s (.jtagMemoryAccess w addr len data ecc) fun t => t = s) ∧
      (s.dev.own.invS || s.dev.own.invN → w = true →
        Does s (.jtagMemoryAccess w addr len data ecc) fun t => t.mem = (s.writeMem ⟨0x07, s.dev.own.invS⟩ 12 addr data).1.mem) ∧
      (∀ bs, s.dev.own.invS || s.dev.own.invN → w = false → (s.readEcc ⟨0x07, s.dev.own.invS⟩ 12 addr len ecc).2 = .ok bs →
        Does s (.jtagMemoryAccess w addr len data ecc) fun t =>
          t.dev.outbox.head? = some (.readData 0x07 bs) ∧ (ecc = [] → t.mem = s.mem))) ∧
    (∀ (who : Fn) (p a off : Nat) (w : Bool) (len : Nat) (data : List Byte) (ecc : List Ecc) (ns : Nat), s.dev.reaches who = true →
      (∃ k : Fin 2, who = .pf k ∧ p = k.val ∧ a = off ∧ off + (if w then data.length else len) ≤ 0x1000000000) ∨
        (∃ v : Fin 64, who = .vf v ∧ p = v.val / 32 ∧ a = s.dev.reg64 .HRQ_APERTURE_LO .HRQ_APERTURE_HI (0x10 + v.val) + off ∧
          off + (if w then data.length else len) ≤ 0x10000000) →
      (s.checkAccess (s.dev.req who) 10 a w = false → ∀ rivals, Does s (.barMemoryAccess who off w len data ecc rivals ns) fun t =>
        t.mem = s.mem ∧ t.dev.pend 16 = true ∧
          (w = false → t.dev.outbox.head? = some (.readData (s.dev.req who).mid (List.replicate len 0xFF)))) ∧
      (s.checkAccess (s.dev.req who) 10 a w = true →
        (∀ rivals, (s.dev.round (s.dev.arbiterOf a) ⟨6, (s.dev.req who).mid, unitHost p, (s.dev.req who).sec⟩ rivals).2 = false →
          Does s (.barMemoryAccess who off w len data ecc rivals ns) fun t => t.mem = s.mem ∧
            (∀ m bs, .readData m bs ∈ t.dev.outbox → .readData m bs ∈ s.dev.outbox)) ∧
        (w = true → Does s (.barMemoryAccess who off w len data ecc [] ns) fun t =>
          t.mem = ((s.won (s.dev.req who) (unitHost p) a data.length false ns).writeMem (s.dev.req who) 10 a data).1.mem) ∧
        (∀ bs, w = false → ((s.won (s.dev.req who) (unitHost p) a len true ns).readEcc (s.dev.req who) 10 a len ecc).2 = .ok bs →
          Does s (.barMemoryAccess who off w len data ecc [] ns) fun t =>
            t.dev.outbox.head? = some (.readData (s.dev.req who).mid bs) ∧ (ecc = [] → t.mem = s.mem))))

/-- Changing owners (R92 to R96, R508): GO starts an assignment or a move that passes its checks, or ends it with the RESULT of the check that fails;
pages are cleared, and then one change of the whole range takes effect. The model's readings that this rests on: log entries 10, 62. -/
def Obligations.OwnersChangeInOrder : Prop :=
  ∀ (s : State), s.dev.regsWf = true → s.Canonical →
    (∀ (who : Fn) (val : Word), s.dev.acts who OWN_ASSIGN_CTRL.GO 0 val = true → s.dev.Accepts who .OWN_ASSIGN_CTRL 0 val →
      (OWN_ASSIGN_CTRL.CLR_DIRTY.get val = 0 → s.dev.mayAssign who false = true →
        Does s (.ownAssign who val) fun t => t.mem = s.mem ∧
          (let first := s.dev.reg64 .OWN_ASSIGN_ADDR_LO .OWN_ASSIGN_ADDR_HI 0 / 4096
           let count := OWN_ASSIGN_CTRL.COUNT_M1.get val + 1
           let res := s.assignCheck who first count (OWN_ASSIGN_CTRL.OWNER.get val)
           (res = 0 → t.dev.own.assign = some ⟨who, first, count, OWN_ASSIGN_CTRL.OWNER.get val, OWN_ASSIGN_CTRL.KEEP.get val == 1, 0⟩ ∧
             t.dev.fb OWN_ASSIGN_STAT.BUSY 0 = true) ∧
           (res ≠ 0 → t.dev.own.assign = none ∧ t.dev.fb OWN_ASSIGN_STAT.BUSY 0 = false ∧ t.dev.fb OWN_ASSIGN_STAT.DONE 0 = true ∧
             t.dev.f OWN_ASSIGN_STAT.RESULT 0 = res))) ∧
      (OWN_ASSIGN_CTRL.CLR_DIRTY.get val = 1 →
        Does s (.ownClrDirty who val) fun t =>
          let first := s.dev.reg64 .OWN_ASSIGN_ADDR_LO .OWN_ASSIGN_ADDR_HI 0 / 4096
          let count := OWN_ASSIGN_CTRL.COUNT_M1.get val + 1
          let res := s.clrDirtyCheck who first count
          t.dev.fb OWN_ASSIGN_STAT.DONE 0 = true ∧ t.dev.fb OWN_ASSIGN_STAT.BUSY 0 = false ∧ t.dev.f OWN_ASSIGN_STAT.RESULT 0 = res ∧
            t.mem = (if res = 0 then s.clearDirty first count else s).mem)) ∧
    (∀ (op : AssignOp) (k : Nat) (ks : List Nat), s.dev.own.assign = some op → s.toZero op = k :: ks →
      Does s .ownZeroFillPage fun t => t.dev.own.assign = some { op with filled := k + 1 } ∧ t.mem = (s.zeroPage (pageAddr (op.first + k))).mem ∧
        (∀ l < 64, ∀ j < 64, t.mem.byte (s.dev.place (pageAddr (op.first + k) + 64 * l) + j) = 0) ∧ t.dev.regs = s.dev.regs) ∧
    (∀ op : AssignOp, s.dev.own.assign = some op → s.toZero op = [] →
      Does s .ownAssignUpdate fun t => t.dev.own.assign = none ∧ t.dev.fb OWN_ASSIGN_STAT.BUSY 0 = false ∧ t.dev.fb OWN_ASSIGN_STAT.DONE 0 = true ∧
        t.dev.f OWN_ASSIGN_STAT.RESULT 0 = 0 ∧ (op.count = 1 → s.poisonedAt (s.dev.tableAt (pageAddr op.first)) = false →
          t.ownByte (pageAddr op.first) = BitVec.ofNat 8 op.owner) ∧
        (∀ p, (∀ k ∈ pagesOf op.first op.count, ¬s.dev.Homes (s.dev.own.tableBase + ownOffset (pageAddr k)) p) → t.mem.byte p = s.mem.byte p)) ∧
    (∀ (who : Fn) (val : Word), (∀ v, who ≠ .vf v) → s.dev.acts who MEM_MOVE_CTRL.GO 0 val = true → s.dev.Accepts who .MEM_MOVE_CTRL 0 val →
      Does s (.memMove who val) fun t => t.mem = s.mem ∧
        (let src := s.dev.reg64 .MEM_MOVE_SRC_LO .MEM_MOVE_SRC_HI 0 / 4096
         let dst := s.dev.reg64 .MEM_MOVE_DST_LO .MEM_MOVE_DST_HI 0 / 4096
         let n := MEM_MOVE_CTRL.COUNT_M1.get val + 1
         let res := s.moveCheck who src dst n
         (res = 0 → t.dev.part.move = some ⟨src, dst, n⟩ ∧ t.dev.fb MEM_MOVE_STAT.BUSY 0 = true) ∧
         (res ≠ 0 → t.dev.part.move = none ∧ t.dev.fb MEM_MOVE_STAT.DONE 0 = true ∧ t.dev.f MEM_MOVE_STAT.RESULT 0 = res))) ∧
    (∀ (m : MoveOp) (rivals : List Rival), s.dev.part.move = some m →
      (s.dev.round (s.dev.arbiterOf (pageAddr m.src)) rivalHelper rivals).2 = false →
      Does s (.memMoveDone rivals) fun t => t.dev.part.move = some m ∧ t.mem = s.mem) ∧
    (∀ m : MoveOp, s.dev.part.move = some m →
      Does s (.memMoveDone []) fun t => t.dev.part.move = none ∧ t.dev.fb MEM_MOVE_STAT.BUSY 0 = false ∧ t.dev.fb MEM_MOVE_STAT.DONE 0 = true ∧
        t.dev.f MEM_MOVE_STAT.RESULT 0 = 0 ∧ (m.count = 1 → t.mem = (s.movePage (pageAddr m.src) (pageAddr m.dst)).mem ∧
          ∀ l < 64, ∀ j < 64, t.mem.byte (s.dev.place (pageAddr m.src + 64 * l) + j) = 0))

/-- Lock tables and channel worlds (R101, R106): start-up places the ownership table, applies the lock table in force, sets LOCKED and enables the
host ports, or sets LOCK_DEFAULT and waits for LPDDR5X training; a held world of a channel takes effect once nothing of it is in flight. The model's
readings that this rests on: log entries 6, 108. -/
def Obligations.LockTableAndWorldsTakeEffect : Prop :=
  ∀ (s : State), s.dev.regsWf = true →
    (∀ (t : LockImg) (dflt : Bool), s.dev.acholtRuns = true → s.dev.fb OWN_LOCK_STAT.LOCKED 0 = false →
      (s.dev.bootLock = some t ∧ dflt = false ∨ s.dev.bootLock = none ∧ t = s.dev.defaultLock ∧ dflt = true) → (ddrBase ≤ t.tableBase → s.dev.msys.trained = true) →
      Does s .lockTableBootLoad fun u => u.dev.fb OWN_LOCK_STAT.LOCKED 0 = true ∧ u.dev.own.tableBase = t.tableBase ∧
        u.dev.own.secureVf = t.secureVf ∧ u.dev.own.shared = t.shared ∧ u.dev.own.wbGrants = t.wb ∧ u.dev.fb OWN_LOCK_STAT.LOCK_DEFAULT 0 = dflt ∧
        (∀ p < 2, (u.dev.ports.get p).enabled = true) ∧ u.mem = (s.onDev (·.placeTable t.tableBase)).initTable.mem) ∧
    (s.dev.acholtRuns = true → s.dev.fb OWN_LOCK_STAT.LOCKED 0 = false → s.dev.bootLock = none → s.dev.own.bootWaiting = false →
      ddrBase ≤ s.dev.defaultLock.tableBase → s.dev.msys.trained = false →
      Does s .lockTableBootLoad fun u => u.dev.fb OWN_LOCK_STAT.LOCK_DEFAULT 0 = true ∧ u.dev.pend 488 = true ∧ u.dev.own.bootWaiting = true ∧
        u.dev.fb OWN_LOCK_STAT.LOCKED 0 = false ∧ s.Only u (.OWN_LOCK_STAT :: told)) ∧
    (∀ (e : Fin 4) (ch : Fin 16), s.dev.chanWorldHeld e.val ch.val = true →
      (s.dev.chanBusy e.val ch.val = false →
        Does s (.ceWorldChange e ch) fun t => t.dev.chanSecure e.val ch.val = !s.dev.chanSecure e.val ch.val ∧
          (∀ c : Fin 16, c ≠ ch → t.dev.chanSecure e.val c.val = s.dev.chanSecure e.val c.val) ∧ t.mem = s.mem) ∧
      (s.dev.chanBusy e.val ch.val = true → Does s (.ceWorldChange e ch) fun t => t = s))

/-- Doorbells and fetching (R127, R128, R130, R131, R134, R645): an index outside its ring sets DB_ERR and raises EV034, a tail asks for work, a head
releases slots, a fetch never crosses the end of the ring, and a complete descriptor joins its queue; a failed read halts it. The model's readings
that this rests on: log entries 12, 14, 115, 160. -/
def Obligations.DoorbellsAndFetchFillQueues : Prop :=
  ∀ (s : State) (f : Fn) (q : Fin 8), s.dev.regsWf = true → s.dev.tablesWf = true →
    (∀ idx, s.dev.hasQueues f = true →
      (s.dev.sqSize (qi f q) ≤ idx → Does s (.doorbellSqTail f q idx) fun t => t.dev.fb HRQ_Q_STAT.DB_ERR (qi f q) = true ∧ t.dev.pend 34 = true ∧
        t.dev.hrq = s.dev.hrq ∧ s.Only t (.HRQ_Q_STAT :: told)) ∧
      (idx < s.dev.sqSize (qi f q) → s.dev.fb HRQ_Q_CFG.ENABLE (qi f q) = true → Does s (.doorbellSqTail f q idx) fun t =>
        t.dev.queue (qi f q) = { s.dev.queue (qi f q) with tail := idx, bell := s.dev.now } ∧
        (∀ j, j ≠ qi f q → t.dev.queue j = s.dev.queue j) ∧ s.Only t []) ∧
      (s.dev.cqSize (qi f q) ≤ idx → Does s (.doorbellCqHead f q idx) fun t => t.dev.fb HRQ_Q_STAT.DB_ERR (qi f q) = true ∧ t.dev.pend 34 = true ∧
        t.dev.hrq = s.dev.hrq ∧ s.Only t (.HRQ_Q_STAT :: told)) ∧
      (idx < s.dev.cqSize (qi f q) → s.dev.fb HRQ_Q_CFG.ENABLE (qi f q) = true → Does s (.doorbellCqHead f q idx) fun t =>
        (t.dev.queue (qi f q)).cqHead = idx ∧ (t.dev.queue (qi f q)).unreleased = (s.dev.queue (qi f q)).unreleased -
          (idx + s.dev.cqSize (qi f q) - (s.dev.queue (qi f q)).cqHead) % s.dev.cqSize (qi f q) ∧
        (t.dev.queue (qi f q)).cmds = (s.dev.queue (qi f q)).cmds ∧ (∀ j, j ≠ qi f q → t.dev.queue j = s.dev.queue j) ∧ s.Only t [])) ∧
    (∀ n, n = min (if f = .sp0 then 8 else s.dev.readSize f / 64) (min (s.dev.sqSize (qi f q) - s.dev.f HRQ_Q_PTR.SQ_HEAD (qi f q))
        (((s.dev.queue (qi f q)).tail + s.dev.sqSize (qi f q) - s.dev.f HRQ_Q_PTR.SQ_HEAD (qi f q)) % s.dev.sqSize (qi f q))) → n ≠ 0 →
      s.dev.fb HRQ_Q_CFG.ENABLE (qi f q) = true → s.dev.fb HRQ_Q_STAT.HALTED (qi f q) = false → (s.dev.queue (qi f q)).reading = 0 →
      s.dev.inReset f.code = false → s.dev.vfHeld f.code = false →
      Does s (.descriptorFetch f q) fun t => t.dev.queue (qi f q) = { s.dev.queue (qi f q) with reading := n } ∧
        (f ≠ .sp0 → s.dev.tagFree f = true → (∀ r ∈ s.dev.hrq.reads, r.sent.isSome = true) →
          t.dev.outbox = .hostRead f (s.dev.reg64 .HRQ_SQ_BASE_LO .HRQ_SQ_BASE_HI (qi f q) + 64 * s.dev.f HRQ_Q_PTR.SQ_HEAD (qi f q)) (64 * n)
            (s.dev.fb HRQ_Q_CFG.NO_SNOOP (qi f q) && (s.dev.pci.get f.code).noSnoop) :: s.dev.outbox) ∧ s.Only t []) ∧
    (f ≠ .sp0 →
      ((s.dev.queue (qi f q)).reading ≠ 0 → ∀ p ns, Does s (.descriptorData f q none p ns) fun t => t.dev.fb HRQ_Q_STAT.HOST_ERR (qi f q) = true ∧
        t.dev.fb HRQ_Q_STAT.HALTED (qi f q) = true ∧ t.dev.pend 35 = true ∧ (t.dev.queue (qi f q)).reading = 0 ∧ s.Only t (.HRQ_Q_STAT :: told)) ∧
      (∀ ds : List Byte, (s.dev.queue (qi f q)).reading = 1 → (s.dev.queue (qi f q)).skipping = false → (s.dev.queue (qi f q)).chain = [] →
        ds.length = 64 → bit (le ds 1 1) 0 = false → le ds 0 1 ≠ 0xF0 → s.dev.fb HRQ_Q_CFG.SHADOW_EN (qi f q) = false →
        ∀ p ns, Does s (.descriptorData f q (some [ds]) p ns) fun t => (t.dev.queue (qi f q)).reading = 0 ∧
          (t.dev.queue (qi f q)).cmds = (s.dev.queue (qi f q)).cmds ++ [{ lead := ds, id := s.dev.hrq.nextId }] ∧
          t.dev.f HRQ_Q_PTR.SQ_HEAD (qi f q) = (s.dev.f HRQ_Q_PTR.SQ_HEAD (qi f q) + 1) % s.dev.sqSize (qi f q) % 2 ^ 16 ∧
          s.Only t (.HRQ_Q_PTR :: told))) ∧
    (∀ c all, (s.dev.queue (qi f q)).next = some (c, all) →
      (c.env = none → s.dev.opcodeOk (qi f q) c.opcode = false → s.dev.mayStart f (qi f q) = true →
        Does s (.badOpcodeDescriptor f q) fun t => t.dev.Completed (qi f q) c.id ST_BAD_OPCODE errOutside ∧ s.Only t []) ∧
      (∀ l, c.phase = .waiting (some l) → l ≤ s.dev.now → s.dev.fenceReached c = false →
        Does s (.fenceTimeout f q) fun t => t.dev.pend 37 = true ∧ s.Only t told ∧
          (s.dev.behindCtx f ⟨qi f q, c.id⟩ c = none → t.dev.Completed (qi f q) c.id ST_FENCE_TIMEOUT errOutside) ∧
          (∀ g, s.dev.behindCtx f ⟨qi f q, c.id⟩ c = some g → (t.dev.gpu.ctx.get g).cmds =
            (s.dev.gpu.ctx.get g).cmds ++ [(⟨qi f q, c.id⟩, { c with status := ST_FENCE_TIMEOUT, result := errOutside })]))) ∧
    (∀ c, s.Bare f q c → (∃ l, c.phase = .waiting l) → c.ownRow = false →
      Does s (.fenceWaitSatisfied f q) fun t => t = runAny f q ⟨qi f q, c.id⟩ c (s.started f q c))

/-- Completions and the configuration of a queue (R129, R131, R135 to R137, R139, R140, R160): a record goes to the completion ring where there is
room, a full ring holds it back, a command that completes signals its fence (R144, R146), the timer interrupts, and ENABLE and ABORT do what R137 and
R160 say. The model's readings that this rests on: log entries 3, 22, 115. -/
def Obligations.QueuesCompleteAndAreConfigured : Prop :=
  ∀ (s : State) (f : Fn) (q : Fin 8), s.dev.regsWf = true → s.dev.tablesWf = true →
    (∀ c, s.dev.nextRecord (qi f q) = some c → c.recordReady = true →
      (bit (le c.recordHeader 1 1) 2 = true → c.recordStatus = ST_OK →
        Does s (.completionWrite f q false) fun t => t.dev.outbox = s.dev.outbox ∧
          (t.dev.queue (qi f q)).cmds = ((s.dev.queue (qi f q)).cmds.filter fun x => x.id != c.id) ∧ s.Only t [.HRQ_Q_STAT]) ∧
      (¬(bit (le c.recordHeader 1 1) 2 = true ∧ c.recordStatus = ST_OK) → s.dev.cqSize (qi f q) ≤ (s.dev.queue (qi f q)).unreleased →
        Does s (.completionWrite f q false) fun t => t.dev.fb HRQ_Q_STAT.CQ_FULL (qi f q) = true ∧ t.dev.outbox = s.dev.outbox ∧
          s.Only t [.HRQ_Q_STAT]) ∧
      (¬(bit (le c.recordHeader 1 1) 2 = true ∧ c.recordStatus = ST_OK) → (s.dev.queue (qi f q)).unreleased < s.dev.cqSize (qi f q) →
        f ≠ .sp0 →
        (s.dev.canSend f = true →
          Does s (.completionWrite f q false) fun t =>
            .hostWrite f (s.dev.reg64 .HRQ_CQ_BASE_LO .HRQ_CQ_BASE_HI (qi f q) + 16 * s.dev.f HRQ_Q_PTR.CQ_TAIL (qi f q))
              (record (le c.recordHeader 2 2) c.recordStatus (s.dev.queue (qi f q)).phase false c.result c.ltime)
              (s.dev.fb HRQ_Q_CFG.NO_SNOOP (qi f q) && (s.dev.pci.get f.code).noSnoop) ∈ t.dev.outbox ∧
            t.dev.f HRQ_Q_PTR.CQ_TAIL (qi f q) = (s.dev.f HRQ_Q_PTR.CQ_TAIL (qi f q) + 1) % s.dev.cqSize (qi f q) % 2 ^ 16 ∧
            (t.dev.queue (qi f q)).cmds = ((s.dev.queue (qi f q)).cmds.filter fun x => x.id != c.id) ∧
            (t.dev.queue (qi f q)).unreleased = (s.dev.queue (qi f q)).unreleased + 1 ∧ s.Only t (.HRQ_Q_PTR :: .HRQ_Q_STAT :: told)) ∧
        (∀ p, s.dev.canSend f = false ∨ p = true →
          Does s (.completionWrite f q p) fun t => t.dev.fb HRQ_Q_STAT.HOST_ERR (qi f q) = true ∧ t.dev.fb HRQ_Q_STAT.HALTED (qi f q) = true ∧
            t.dev.pend 35 = true ∧
            t.dev.f HRQ_Q_PTR.CQ_TAIL (qi f q) = (s.dev.f HRQ_Q_PTR.CQ_TAIL (qi f q) + 1) % s.dev.cqSize (qi f q) % 2 ^ 16 ∧
            s.Only t (.HRQ_Q_PTR :: .HRQ_Q_STAT :: told)))) ∧
    (∀ (ref : CmdRef) (x : Cmd) (g : Fn) (st res : Nat), s.dev.cmd? ref = some x → x.phase ≠ .ended → queueFn ref.queue = some g →
      x.flag 5 = true → x.env = none → st < 0x40 ∨ x.flag 6 = true → le x.lead 6 2 < 4096 →
      s.dev.maySignal g.code x.secure (le x.lead 6 2) = true →
        (s.dev.endCmd ref st res).Ended ref st (res % 2 ^ 32) ∧
        (s.dev.endCmd ref st res).fence (le x.lead 6 2) = max (s.dev.fence (le x.lead 6 2)) (le x.lead 16 8) ∧
        (∀ k, k ≠ le x.lead 6 2 → (s.dev.endCmd ref st res).fence k = s.dev.fence k) ∧
        (le x.lead 16 8 ≤ s.dev.fence (le x.lead 6 2) → st = ST_OK →
          ∃ y, (s.dev.endCmd ref st res).cmd? ref = some y ∧ y.recordStatus = ST_FENCE_STALE)) ∧
    (s.dev.fb HRQ_Q_IRQ.IRQ_EN (qi f q) = true → s.dev.f HRQ_Q_IRQ.COAL_US (qi f q) ≠ 0 → (s.dev.queue (qi f q)).unsignalled ≠ 0 →
      (s.dev.queue (qi f q)).firstUnsig + 1000 * s.dev.f HRQ_Q_IRQ.COAL_US (qi f q) ≤ s.dev.now →
      Does s (.coalTimerExpire f q) fun t => (t.dev.queue (qi f q)).unsignalled = 0 ∧ (t.dev.queue (qi f q)).cmds = (s.dev.queue (qi f q)).cmds ∧
        (f = .sp0 → (t.dev.queue (qi f q)).spDue = (s.dev.queue (qi f q)).unreleased) ∧ s.Only t [.HRQ_MSIX_PBA]) ∧
    (∀ (who : Fn) (val : Word), mayReachQueue who f = true → s.dev.Accepts who .HRQ_Q_CFG (qi f q) val →
      (s.dev.fb HRQ_Q_CFG.ENABLE (qi f q) = false → s.dev.queueActive (qi f q) = false → HRQ_Q_CFG.ENABLE.get val = 1 →
        Does s (.queueEnable who f q val) fun t => s.dev.Takes t.dev .HRQ_Q_CFG (qi f q) val ∧ t.dev.queue (qi f q) = {} ∧
          t.dev.reg .HRQ_Q_PTR (qi f q) = 0 ∧ t.dev.fb HRQ_Q_STAT.HALTED (qi f q) = false ∧ t.dev.fb HRQ_Q_STAT.CQ_FULL (qi f q) = false ∧
          (∀ j, j ≠ qi f q → t.dev.queue j = s.dev.queue j) ∧ s.Only t [.HRQ_Q_CFG, .HRQ_Q_PTR, .HRQ_Q_STAT]) ∧
      (s.dev.fb HRQ_Q_CFG.ENABLE (qi f q) = true → HRQ_Q_CFG.ENABLE.get val = 0 → s.dev.acts who HRQ_Q_CFG.ABORT (qi f q) val = false →
        Does s (.queueDisable who f q val) fun t => t.dev.fb HRQ_Q_CFG.ENABLE (qi f q) = false ∧
          t.dev.queue (qi f q) = { s.dev.queue (qi f q) with reading := 0, chain := [], skipping := false } ∧
          (∀ j, j ≠ qi f q → t.dev.queue j = s.dev.queue j) ∧ s.Only t [.HRQ_Q_CFG]) ∧
      (s.dev.fb HRQ_Q_CFG.ENABLE (qi f q) = true → s.dev.acts who HRQ_Q_CFG.ABORT (qi f q) val = true →
        Does s (.queueAbort who f q val) fun t =>
          (∀ c ∈ (s.dev.queue (qi f q)).cmds, c.phase ≠ .running → c.phase ≠ .ended → ¬(0x30 ≤ c.opcode ∧ c.opcode ≤ 0x36) → t.dev.Completed (qi f q) c.id ST_ABORTED 0) ∧
          (∀ c ∈ (s.dev.queue (qi f q)).cmds, c.phase = .running → (∀ x ∈ (s.dev.queue (qi f q)).cmds, x.id = c.id → x.phase = .running) →
            c ∈ (t.dev.queue (qi f q)).cmds) ∧ s.Only t [.HRQ_Q_CFG]))

/-- Fences, events, envelopes and SP0 (R101, R123, R124, R143, R144, R147, R149, R151, R152, R155 to R157): who may signal, own, clear and route, which
envelopes are rejected or accepted, and what the four commands of SP0 do. The model's readings that this rests on: log entries 30, 32, 35, 45, 47. -/
def Obligations.FencesEventsEnvelopesAndSp0 : Prop :=
  ∀ (s : State), s.dev.regsWf = true → s.dev.tablesWf = true →
    (∀ (who : Fn) (n : Fin 4096) (val : Word),
      (s.dev.maySignal who.code (s.dev.secure who) n.val = true →
        Does s (.fenceSigWrite who n val) fun t =>
          t.dev.fence n.val = max (s.dev.fence n.val) ((s.dev.time.held.get (heldKey who .HRQ_FENCE_SIG_LO n.val)).toNat + 2 ^ 32 * val.toNat) ∧
          (∀ k, k ≠ n.val → t.dev.fence k = s.dev.fence k) ∧ s.Only t []) ∧
      (s.dev.maySignal who.code (s.dev.secure who) n.val = false → who ≠ .acholt →
        Does s (.fenceSigWrite who n val) fun t => t.dev.fb HRQ_Q_STAT.WERR (idx2 8 who.code 0) = true ∧ s.Only t [.HRQ_Q_STAT])) ∧
    (∀ (who : Fn) (b : Fin 64) (val : Word), (∀ v, who ≠ .vf v) → HRQ_FENCE_OWNER.OWNER.get val ≠ s.dev.f HRQ_FENCE_OWNER.OWNER b.val →
      (s.dev.fenceBlockBusy b.val = false → s.dev.mayGive who (s.dev.f HRQ_FENCE_OWNER.OWNER b.val) = true →
        s.dev.mayGive who (HRQ_FENCE_OWNER.OWNER.get val) = true →
        Does s (.fenceOwnerWrite who b val) fun t => t.dev.f HRQ_FENCE_OWNER.OWNER b.val = HRQ_FENCE_OWNER.OWNER.get val ∧
          (∀ k, t.dev.fence k = if k / 64 = b.val then 0 else s.dev.fence k) ∧
          s.Only t [.HRQ_FENCE_OWNER]) ∧
      (s.dev.fenceBlockBusy b.val = true → who ≠ .acholt →
        Does s (.fenceOwnerWrite who b val) fun t => t.dev.fb HRQ_Q_STAT.WERR (idx2 8 who.code 0) = true ∧ s.Only t [.HRQ_Q_STAT])) ∧
    (∀ (who : Fn) (w : Fin 16) (val : Word), (∀ v, who ≠ .vf v) →
      Does s (.eventPendClear who w val) fun t => s.Only t [.HRQ_EV_PEND] ∧ ∀ j < 32, t.dev.pend (32 * w.val + j) =
        (s.dev.pend (32 * w.val + j) && !(bit val.toNat j && (s.dev.secure who ||
          !(s.dev.fb HRQ_EV_ROUTE.FAULT (32 * w.val + j) || s.dev.fb HRQ_EV_ROUTE.SP_IRQ (32 * w.val + j)))))) ∧
    (∀ (who : Fn) (k : Fin 512) (val : Word), (∀ v, who ≠ .vf v) → s.dev.Accepts who .HRQ_EV_ROUTE k.val val →
      (∀ p c, who = .pf p → c = s.dev.f HRQ_EV_ROUTE.FUNC k.val ∨ c = HRQ_EV_ROUTE.FUNC.get val → c = 0 ∨ inFamily p.val c = true) →
      (s.dev.evSecure k.val = false ∨ s.dev.secure who = true →
        Does s (.eventRouteWrite who k val) fun t => s.dev.Takes t.dev .HRQ_EV_ROUTE k.val val ∧ s.Only t [.HRQ_EV_ROUTE])) ∧
    (∀ (who : Fn) (k : Fin 512) (val : Word), (∀ v, who ≠ .vf v) → s.dev.evSecure k.val = true → s.dev.secure who = false →
      Does s (.eventRouteWrite who k val) fun t => t.dev.f HRQ_EV_ROUTE.MSIX_EN k.val = s.dev.f HRQ_EV_ROUTE.MSIX_EN k.val ∧
        t.dev.f HRQ_EV_ROUTE.FUNC k.val = s.dev.f HRQ_EV_ROUTE.FUNC k.val ∧ t.dev.f HRQ_EV_ROUTE.VECTOR k.val = s.dev.f HRQ_EV_ROUTE.VECTOR k.val ∧
        t.mem = s.mem) ∧
    (∀ (f : Fn) (q : Fin 8) (c : Cmd) (s1 : State), s.Accepted f q c s1 → c.ownRow = false →
      Does s (.envelope f q) fun t => t = runAny f q ⟨qi f q, c.id⟩ c (s1.started f q c)) ∧
    (∀ (f : Fn) (q : Fin 8) (c : Cmd) (all : Bool) (e : Env), (s.dev.queue (qi f q)).next = some (c, all) → c.env = some e → e.accepted = false →
      s.dev.mayStart f (qi f q) = true → s.dev.acholtRuns = true → (c.flag 3 = true → all = true) →
      ((s.dev.hrq.keys.get (le e.header 4 1 % 8)).throttled = true →
        Does s (.envelope f q) fun t => (∃ w ∈ t.dev.hrq.throttleWait, w.1 = le e.header 4 1 % 8) ∧ t.dev.queue (qi f q) = s.dev.queue (qi f q) ∧
          t.dev.hrq.keys = s.dev.hrq.keys ∧ s.Only t []) ∧
      (s.dev.hrq.throttleWait = [] → (s.dev.hrq.keys.get (le e.header 4 1 % 8)).throttled = false →
        (e.fieldsOk s.dev.mgt.serial f.code (s.dev.f HRQ_Q_CFG.TYPE (qi f q)) = false →
          Does s (.envelope f q) fun t => t.dev.Completed (qi f q) c.id ST_BAD_FIELD errOutside ∧ t.dev.pend 32 = true ∧ t.dev.hrq.keys = s.dev.hrq.keys ∧
            (s.dev.cmd? ⟨qi f q, c.id⟩ = some c → t.dev.hrq.fences = s.dev.hrq.fences) ∧ s.Only t told) ∧
        (e.fieldsOk s.dev.mgt.serial f.code (s.dev.f HRQ_Q_CFG.TYPE (qi f q)) = true →
          (s.dev.hrq.keys.get (le e.header 4 1)).verdict e (s.dev.rightsNeeded c) ≠ 0 →
          Does s (.envelope f q) fun t =>
            t.dev.Completed (qi f q) c.id ((s.dev.hrq.keys.get (le e.header 4 1)).verdict e (s.dev.rightsNeeded c)) errOutside ∧ t.dev.pend 32 = true ∧
              (t.dev.hrq.keys.get (le e.header 4 1)).counter = (s.dev.hrq.keys.get (le e.header 4 1)).counter ∧
              (s.dev.cmd? ⟨qi f q, c.id⟩ = some c → t.dev.hrq.fences = s.dev.hrq.fences) ∧ s.Only t told))) ∧
    (∀ (f : Fn) (q : Fin 8) (slot counter : Nat), (s.dev.hrq.toFlash.find? fun x => x.1 == qi f q) = some (qi f q, slot, counter) →
      Does s (.envelopeCounterPersisted f q) fun t => t.dev.mgt.counters.get slot = max (s.dev.mgt.counters.get slot) counter ∧
        t.dev.hrq.toFlash = s.dev.hrq.toFlash.erase (qi f q, slot, counter) ∧
        (t.dev.queue (qi f q)).cmds = (s.dev.queue (qi f q)).cmds.map (fun c => c.persisted slot counter) ∧ s.Only t []) ∧
    (∀ slot : Fin 8, (s.dev.hrq.keys.get slot.val).throttled = true → (s.dev.hrq.keys.get slot.val).lastReject + 100000000 ≤ s.dev.now →
      Does s (.envelopeThrottleExpire slot) fun t => t.dev.hrq.keys.get slot.val = { s.dev.hrq.keys.get slot.val with throttled := false } ∧
        (∀ k, k ≠ slot.val → t.dev.hrq.keys.get k = s.dev.hrq.keys.get k) ∧ s.Only t []) ∧
    (s.dev.spOn = true → ∀ (addr len : Nat), addr + len ≤ 0x40000 →
      Does s (.sp0Read addr len false) fun t => t.dev.outbox = .readData 0x01 (s.dev.winRead addr len) :: s.dev.outbox ∧ s.Only t []) ∧
    (s.dev.spOn = true → ∀ (addr : Nat) (data : List Byte), addr + data.length ≤ 0x40000 → s.dev.mgt.phase ≠ .recovery →
      Does s (.sp0Write addr data false) fun t => t.dev.winRead addr data.length = data ∧
        (∀ a, a < addr ∨ addr + data.length ≤ a → t.dev.winRead a 1 = s.dev.winRead a 1) ∧
        t.dev.hrq.wrCrc = crcOf 2 ((toLe addr 4).reverse ++ data) ∧ s.Only t []) ∧
    (s.dev.spOn = true → ∀ (addr : Nat) (data : List Byte), 0x41000 ≤ addr → addr < 0x1000000 →
      Does s (.sp0Write addr data false) fun t => t.dev.pend 38 = true ∧ t.dev.hrq.window = s.dev.hrq.window ∧ s.Only t told) ∧
    (s.dev.spOn = true → ∀ (addr len : Nat) (data : List Byte) (i : Instr), (i = .sp0Read addr len true ∨ i = .sp0Write addr data true ∨ i = .sp0ReadStatus true) →
      Does s i fun t => t.dev.hrq.protoErr = true ∧ t.dev.pend 38 = true ∧ t.dev.hrq.window = s.dev.hrq.window ∧ s.Only t told) ∧
    (s.dev.spOn = true → Does s (.sp0ReadStatus false) fun t => t.dev.outbox = .readData 0x01 (toLe (s.dev.hrq.wrCrc % 2 ^ 16 + 2 ^ 16 * b2n s.dev.spIrq +
        2 ^ 17 * b2n s.dev.hrq.protoErr) 4) :: s.dev.outbox ∧ t.dev.hrq = { s.dev.hrq with protoErr := false } ∧ s.Only t []) ∧
    (s.dev.spOn = true → Does s .sp0Enter8d fun t => t.dev.hrq = { s.dev.hrq with sp0Octal := true } ∧ s.Only t []) ∧
    (s.dev.spOn = true → Does s .sp0Exit8d fun t => t.dev.hrq = { s.dev.hrq with sp0Octal := false } ∧ s.Only t []) ∧
    (s.dev.spOn = false → ∀ i : Instr, (i = .sp0Enter8d ∨ i = .sp0Exit8d ∨ (∃ m, i = .sp0ReadStatus m) ∨ (∃ a n m, i = .sp0Read a n m) ∨
      ∃ a b m, i = .sp0Write a b m) → Does s i fun t => t = s)

/-- Composing and scanning out (R35, R37, R39, R205, R233, R237, R240, R257, R270, R320): a composed line of HACT pixels joins the runway, or reaches
writeback alone where scan-out has begun it; scan-out takes the oldest line or composes late, and counts blanking lines; a layer or a Canopy whose data is
late is switched off, and a captured frame completes its command. The model's readings that this rests on: log entries 73, 75, 136. -/
def Obligations.LinesAreComposedAndScannedOut : Prop :=
  ∀ (s : State) (n : Fin 12), s.dev.regsWf = true → s.dev.tablesWf = true → s.dev.tgScans n.val = true →
    (∀ rb, s.dev.mayCompose n.val = false → Does s (.composeLine n rb) fun t => t = s) ∧
    (∀ rb, s.dev.mayCompose n.val = true → s.dev.hostWaits n.val (s.dev.out n.val).compose = [] →
      ((s.dev.out n.val).scan ≤ (s.dev.out n.val).compose →
        Does s (.composeLine n rb) fun t => (∃ line, line.length = s.dev.hact n.val ∧ (t.dev.out n.val).runway = (s.dev.out n.val).runway ++ [line]) ∧
          (t.dev.out n.val).compose = (s.dev.out n.val).compose + 1 ∧ (t.dev.out n.val).scan = (s.dev.out n.val).scan ∧
          t.dev.f DSP_RUNWAY_STAT.LEVEL n.val = min 3 ((s.dev.out n.val).runway.length + 1) ∧ t.mem = s.mem) ∧
      ((s.dev.out n.val).compose < (s.dev.out n.val).scan →
        Does s (.composeLine n rb) fun t => (t.dev.out n.val).runway = (s.dev.out n.val).runway ∧
          (t.dev.out n.val).compose = (s.dev.out n.val).compose + 1 ∧ (t.dev.out n.val).scan = (s.dev.out n.val).scan ∧ t.mem = s.mem)) ∧
    (∀ rb inTime, s.dev.latchDue n.val = true → Does s (.lineScanStart n rb inTime) fun t => t = s) ∧
    (∀ rb inTime, s.dev.latchDue n.val = false → s.dev.nextActive n.val = false →
      Does s (.lineScanStart n rb inTime) fun t => t.dev.f DSP_TG_STAT.LINE n.val = (s.dev.f DSP_TG_STAT.LINE n.val + 1) % 2 ^ 14 ∧
        (t.dev.out n.val).scan = (s.dev.out n.val).scan ∧ (t.dev.out n.val).sending = none ∧ t.mem = s.mem) ∧
    (∀ rb inTime, s.dev.latchDue n.val = false → s.dev.nextActive n.val = true →
      (∀ line rest, (s.dev.out n.val).runway = line :: rest →
        Does s (.lineScanStart n rb inTime) fun t => (t.dev.out n.val).runway = rest ∧ (t.dev.out n.val).scan = (s.dev.out n.val).scan + 1 ∧
          (t.dev.out n.val).sending = some line ∧ t.dev.f DSP_TG_STAT.LINE n.val = (s.dev.out n.val).scan % 2 ^ 14 ∧
          t.dev.f DSP_RUNWAY_STAT.LEVEL n.val = min 3 rest.length ∧ (rest.length < s.dev.fl DSP_RUNWAY_CTRL.LOW_MARK n.val →
            s.dev.paced n.val = false → t.dev.fb DSP_RUNWAY_STAT.LOW n.val = true ∧ t.dev.pend (outEv n.val 4) = true) ∧
          s.Only t (.DSP_TG_STAT :: .DSP_RUNWAY_STAT :: .DSP_SLOT_STAT :: .DSP_CMP_STAT :: .DSP_CMP_UR :: .DSP_CMP_UR_LAST :: told)) ∧
      ((s.dev.out n.val).runway = [] →
        Does s (.lineScanStart n rb inTime) fun t => (t.dev.out n.val).scan = (s.dev.out n.val).scan + 1 ∧ t.dev.fb DSP_CMP_STAT.LATE n.val = true ∧
          t.dev.fb DSP_RUNWAY_STAT.EMPTY n.val = true ∧
          t.dev.f DSP_CMP_UR.LATE_LINES n.val = min 0xFFFF (s.dev.f DSP_CMP_UR.LATE_LINES n.val + 1) ∧ t.dev.pend (outEv n.val 5) = true ∧
          t.mem = s.mem)) ∧
    (∀ y, y = (s.dev.out n.val).scan → s.dev.deadlinePast n.val y = true → (s.dev.out n.val).compose ≤ y → y < s.dev.vact n.val →
      (∀ (sl : Fin 384) (r : LRec), s.dev.frameRec sl.val = some r → s.dev.slotOut sl.val = some n.val → r.onLine y = true →
        s.dev.offFrame sl.val = false → s.dev.fb DSP_CNP_STAT.CBLANK n.val = false →
        (s.dev.remoteOf sl.val = none → Does s (.layerDeadline n [sl] false) fun t => t.dev.fb DSP_SLOT_STAT.OFF_FRAME sl.val = true ∧
          t.dev.fb DSP_CMP_STAT.LAYER_UR n.val = true ∧ t.dev.f DSP_CMP_UR.LAYER_UR_COUNT n.val = min 0xFFFF (s.dev.f DSP_CMP_UR.LAYER_UR_COUNT n.val + 1) ∧
          t.dev.pend (outEv n.val 5) = true ∧ s.Only t (.DSP_SLOT_STAT :: .DSP_CMP_STAT :: .DSP_CMP_UR :: .DSP_CMP_UR_LAST :: told)) ∧
        ((s.dev.remoteOf sl.val).isSome = true → Does s (.layerDeadline n [sl] false) fun t => t.dev.fb DSP_SLOT_STAT.OFF_FRAME sl.val = true ∧
          t.dev.pend (outEv n.val 3) = true ∧ s.Only t (.DSP_SLOT_STAT :: told))) ∧
      ((s.dev.out n.val).canopy.onLine y = true → (s.dev.out n.val).failFrame = false → (s.dev.out n.val).failHeld = false →
        Does s (.layerDeadline n [] true) fun t => (t.dev.out n.val).failFrame = true ∧ (t.dev.out n.val).failHeld = false ∧
          t.dev.fb DSP_CNP_STAT.CANOPY_FAULT n.val = true ∧ t.dev.pend (outEv n.val 6) = true ∧ s.Only t (.DSP_CNP_STAT :: told))) ∧
    (∀ (c : Capture) (ref : CmdRef), ((s.dev.out n.val).captures.find? fun c => decide (0 < c.height) && c.written == c.height) = some c →
      c.group.cmds = [ref] → s.dev.Running ref → c.seq < 2 ^ 32 →
      c.group.dropped = false → c.group.tapsRed = false →
      Does s (.writebackDone n) fun t =>
        (c.group.late = true → (∀ x, c.group.decided = some x → x.2.2 = false) → t.dev.Ended ref ST_LANDED_LATE c.seq) ∧
        (c.group.late = false ∨ (∃ x, c.group.decided = some x ∧ x.2.2 = true) → t.dev.Ended ref ST_OK c.seq) ∧
        (t.dev.out n.val).captures = ((s.dev.out n.val).captures.filter fun x => x.group.id != c.group.id) ∧
        s.Only t [.DSP_PEND, .DSP_CMP_STAT, .DSP_CNP_STAT])

/-- Slots and COMMIT groups (R166 to R168, R178 to R183, R187, R192, R196): a slot's assignment is written and takes effect, a COMMIT opens a group, its
validation ends it or gives it its place, WAIT_FRAME and QUERY_FRAME answer FRAME_SEQ, and a waiting release is signalled. The model's readings that
this rests on: log entries 41, 68, 71, 72. -/
def Obligations.SlotsAndGroupsFollowTheirRules : Prop :=
  ∀ (s : State), s.dev.regsWf = true → s.dev.tablesWf = true →
    (∀ (who : Fn) (sl : Fin 384) (val : Word), (∀ v, who ≠ .vf v) →
      (s.dev.mayGive who (s.dev.f DSP_SLOT_ASSIGN.OWNER sl.val) = true → s.dev.mayGive who (DSP_SLOT_ASSIGN.OWNER.get val) = true →
        Does s (.slotAssignWrite who sl val) fun t => t.dev.f DSP_SLOT_ASSIGN.OWNER sl.val = DSP_SLOT_ASSIGN.OWNER.get val ∧
          t.dev.f DSP_SLOT_ASSIGN.OUTPUT sl.val = DSP_SLOT_ASSIGN.OUTPUT.get val ∧
          t.dev.fb DSP_SLOT_ASSIGN.PENDING sl.val = decide (DSP_SLOT_ASSIGN.OWNER.get val ≠ s.dev.slotOwner sl.val ∨
            DSP_SLOT_ASSIGN.OUTPUT.get val ≠ s.dev.fl DSP_SLOT_ASSIGN.OUTPUT sl.val) ∧
          t.dev.slotOwner sl.val = s.dev.slotOwner sl.val ∧ s.Only t [.DSP_SLOT_ASSIGN]) ∧
      ((s.dev.mayGive who (s.dev.f DSP_SLOT_ASSIGN.OWNER sl.val) = false ∨ s.dev.mayGive who (DSP_SLOT_ASSIGN.OWNER.get val) = false) →
        Does s (.slotAssignWrite who sl val) fun t => t.dev.fb DSP_SLOT_STAT.WERR sl.val = true ∧ s.Only t [.DSP_SLOT_STAT])) ∧
    (∀ sl : Fin 384, s.dev.fb DSP_SLOT_ASSIGN.PENDING sl.val = true → (∀ n, s.dev.slotOut sl.val = some n → s.dev.tgScans n = false) →
      Does s (.slotAssignApply sl) fun t => t.dev.slotOwner sl.val = s.dev.f DSP_SLOT_ASSIGN.OWNER sl.val ∧
        t.dev.fl DSP_SLOT_ASSIGN.OUTPUT sl.val = s.dev.f DSP_SLOT_ASSIGN.OUTPUT sl.val ∧ t.dev.fb DSP_SLOT_ASSIGN.PENDING sl.val = false ∧
        (t.dev.layer sl.val).cur = none ∧ t.dev.fb DSP_SLOT_STAT.VISIBLE sl.val = false ∧ t.dev.f DSP_SLOT_STAT.HIDE_CAUSE sl.val = 1 ∧ t.mem = s.mem) ∧
    (∀ (f : Fn) (q : Fin 8) (c : Cmd), s.Bare f q c →
      (c.opcode = 0x10 → s.dev.openGroup (qi f q) = none →
        Does s (.commit f q) fun t => (∃ g ∈ t.dev.disp.groups, g.id = s.dev.disp.nextGroup ∧ g.kind = .commit ∧ g.cmds = [⟨qi f q, c.id⟩] ∧
            g.code = f.code ∧ g.mask = c.u 32 2 % 4096 ∧ g.anchor = c.u 34 1 % 16 ∧ g.recs = c.records 0) ∧
          t.dev.disp.nextGroup = s.dev.disp.nextGroup + 1 ∧ t.dev.Running ⟨qi f q, c.id⟩ ∧
          (s.started f q c).Only t [.DSP_PEND, .DSP_CMP_STAT, .DSP_CNP_STAT]) ∧
      (c.opcode = 0x11 → c.frameErr false = none →
        (seqReached (s.dev.seq (c.u 32 1)) (c.u 36 4) = true →
          Does s (.waitFrame f q) fun t => t.dev.Ended ⟨qi f q, c.id⟩ ST_OK (s.dev.seq (c.u 32 1)) ∧ (s.started f q c).Only t []) ∧
        (seqReached (s.dev.seq (c.u 32 1)) (c.u 36 4) = false →
          Does s (.waitFrame f q) fun t => t.dev.disp.waits = s.dev.disp.waits ++ [(⟨qi f q, c.id⟩, c.u 32 1, c.u 36 4)] ∧
            t.dev.Running ⟨qi f q, c.id⟩ ∧ (s.started f q c).Only t [])) ∧
      (c.opcode = 0x12 → c.frameErr true = none →
        Does s (.queryFrame f q) fun t => t.dev.Ended ⟨qi f q, c.id⟩ ST_OK (s.dev.seq (c.u 32 1)) ∧ (s.started f q c).Only t [])) ∧
    (∀ (f : Fn) (q : Fin 8) (peers : List PeerView) (g : Group) (ref : CmdRef), s.dev.openGroup (qi f q) = none →
      s.dev.validating (qi f q) [.commit] = some g →
      (∀ e, s.dev.validate g peers = some e → g.cmds = [ref] → s.dev.Running ref →
        Does s (.groupValidated f q [] peers) fun t => t.dev.Ended ref e.status (e.result 0) ∧ (∀ x ∈ t.dev.disp.groups, x.id ≠ g.id) ∧
          s.Only t [.DSP_PEND, .DSP_CMP_STAT, .DSP_CNP_STAT]) ∧
      (s.dev.validate g peers = none → g.validateOnly = false →
        Does s (.groupValidated f q [] peers) fun t => (∃ x ∈ t.dev.disp.groups, x.id = g.id ∧ x.phase = .validated ∧
            x.recs = g.recs.map (s.dev.settle peers) ∧ x.ord = s.dev.disp.nextOrd) ∧
          s.Only t [.DSP_PEND, .DSP_CMP_STAT, .DSP_CNP_STAT])) ∧
    (∀ (k : Nat) (r : Release), s.dev.disp.releases[k]? = some r → s.dev.releaseReady r = true → r.value < 2 ^ 64 →
      Does s (.releaseFenceSignal k) fun t => t.dev.fence r.fence = max (s.dev.fence r.fence) r.value ∧
        t.dev.disp.releases = s.dev.disp.releases.eraseIdx k ∧ (∀ j, j ≠ r.fence → t.dev.fence j = s.dev.fence j) ∧
        s.Only t [])

/-- The commands of one output (R220 to R233, R245 to R255, R296): each ends with the first check that it fails, or becomes a group of its output; a table
that is read and a Canopy command that is validated take their place in the order. The model's readings that this rests on: log entries 68, 69, 70,
76, 77. -/
def Obligations.OutputCommandsBecomeGroups : Prop :=
  ∀ (s : State) (f : Fn) (q : Fin 8), s.dev.regsWf = true → s.dev.tablesWf = true →
    (∀ (c : Cmd) (i : Instr) (op : Nat) (kind : GKind) (checks : List (Bool × Nat × Nat)), s.Bare f q c → c.opcode = op →
      (i = .colourSet f q ∧ op = 0x18 ∧ kind = .colour ∧ checks = (s.started f q c).dev.tableChecks f.code c .colour ∨
       i = .scalerSet f q ∧ op = 0x19 ∧ kind = .scaler ∧ checks = (s.started f q c).dev.tableChecks f.code c .scaler ∨
       i = .writeback f q ∧ op = 0x1A ∧ kind = .writeback ∧ checks = (s.started f q c).dev.writebackChecks f.code c ∨
       i = .canopySet f q ∧ op = 0x20 ∧ kind = .canopy ∧ checks = [(c.outputNone, ST_BAD_FIELD, errByte 32)] ∨
       i = .outstageSet f q ∧ op = 0x21 ∧ kind = .outstage ∧ checks = [(c.outputNone, ST_BAD_FIELD, errByte 32)] ∨
       i = .backlightSet f q ∧ op = 0x28 ∧ kind = .backlight ∧ checks = (s.started f q c).dev.backlightChecks f.code c) →
      (firstError checks = none →
        Does s i fun t => (∃ g ∈ t.dev.disp.groups, g.id = s.dev.disp.nextGroup ∧ g.kind = kind ∧ g.cmds = [⟨qi f q, c.id⟩] ∧ g.code = f.code ∧
            g.mask = 2 ^ c.output ∧ g.anchor = c.output ∧ g.body = c.body) ∧
          t.dev.Running ⟨qi f q, c.id⟩ ∧ (s.started f q c).Only t [.DSP_PEND, .DSP_CMP_STAT, .DSP_CNP_STAT]) ∧
      (∀ st res, firstError checks = some (st, res) →
        Does s i fun t => t.dev.Ended ⟨qi f q, c.id⟩ st (res % 2 ^ 32) ∧ t.dev.disp = s.dev.disp ∧ (s.started f q c).Only t [])) ∧
    (∀ (c : Cmd) (s0 : State), s.Begins f q c s0 → c.opcode = 0x22 → c.outputNone = false →
      Does s (.canopyOwn f q) fun t => (∃ g ∈ t.dev.disp.groups, g.id = s0.dev.disp.nextGroup ∧ g.kind = .canopyOwn ∧ g.cmds = [⟨qi f q, c.id⟩] ∧
          g.mask = 2 ^ c.output ∧ g.anchor = c.output ∧ g.body = c.body) ∧ s0.Only t [.DSP_PEND, .DSP_CMP_STAT, .DSP_CNP_STAT]) ∧
    (∀ (g : Group) (ref : CmdRef) (img : List Byte), s.dev.validating (qi f q) [.colour, .scaler] = some g → g.cmds = [ref] → s.dev.Running ref →
      (s.readMem ⟨g.code, g.sec⟩ 13 (le g.body 8 8) (imageBytes g.kind)).2 = .ok img →
      (tableErr g.kind img = none →
        Does s (.tableLoadDone f q) fun t => (∃ x ∈ t.dev.disp.groups, x.id = g.id ∧ x.phase = .validated ∧ x.data = img) ∧
          t.dev.Running ref ∧ t.mem = s.mem) ∧
      (∀ res, tableErr g.kind img = some res →
        Does s (.tableLoadDone f q) fun t => t.dev.Ended ref ST_BAD_FIELD (res % 2 ^ 32) ∧ (∀ x ∈ t.dev.disp.groups, x.id ≠ g.id) ∧ t.mem = s.mem)) ∧
    (∀ (g : Group) (ref : CmdRef), s.dev.validating (qi f q) [.canopy, .outstage, .canopyOwn] = some g → g.cmds = [ref] → s.dev.Running ref →
      (g.canopyRead = none → firstError (if g.kind = .canopy then s.canopyChecks g else if g.kind = .outstage then s.outstageChecks g else s.dev.canopyOwnChecks g) = none →
        Does s (.canopyValidated f q) fun t => (∃ x ∈ t.dev.disp.groups, x.id = g.id ∧ x.phase = .validated) ∧ t.dev.Running ref ∧
          s.Only t [.DSP_PEND, .DSP_CMP_STAT, .DSP_CNP_STAT]) ∧
      (∀ st res, firstError (if g.kind = .canopy then s.canopyChecks g else if g.kind = .outstage then s.outstageChecks g
          else s.dev.canopyOwnChecks g) = some (st, res) →
        Does s (.canopyValidated f q) fun t => t.dev.Ended ref st (res % 2 ^ 32) ∧ (∀ x ∈ t.dev.disp.groups, x.id ≠ g.id) ∧
          s.Only t [.DSP_PEND, .DSP_CMP_STAT, .DSP_CNP_STAT]))

/-- Landings (R189 to R195, R222, R226, R247, R255, R296): while the anchor's generator is stopped, a ready group is decided and lands, each kind with its
effect, its event is raised and its command completes with FRAME_SEQ. -/
def Obligations.ReadyGroupsLandWhileStopped : Prop :=
  ∀ (s : State) (n : Fin 12) (g : Group) (ref : CmdRef), s.dev.regsWf = true → s.dev.tablesWf = true → s.dev.tgScans n.val = false →
    s.dev.disp.groups = [g] → s.dev.ready g = true → g.anchor = n.val → g.mask = 2 ^ n.val → g.landed = 0 → g.part = false → g.kind ≠ .writeback →
    g.cmds = [ref] → s.dev.Running ref →
    Does s (.groupDecideStopped n) fun t => t.dev.disp.groups = [] ∧ t.dev.pend (outEv n.val 1) = true ∧ t.mem = s.mem ∧
      t.dev.Ended ref (if g.tapsRed then ST_TAPS_REDUCED else ST_OK) (s.dev.seq n.val) ∧
      (g.kind = .colour → (t.dev.out n.val).stage = g.data) ∧ (g.kind = .scaler → (t.dev.out n.val).coefs = g.data) ∧
      (g.kind = .outstage → (t.dev.out n.val).final = g.data) ∧
      (g.kind = .canopy → (t.dev.out n.val).canopy.on = bit (le g.body 1 1) 1 ∧ (t.dev.out n.val).failHeld = false) ∧
      (g.kind = .canopyOwn → t.dev.f DSP_CNP_STAT.OWNER n.val = le g.body 1 1 % 128) ∧
      (g.kind = .backlight → t.dev.fl DSP_BL_PWM.DUTY n.val = le g.body 8 2) ∧
      (∀ r, g.kind = .commit → g.recs = [r] → r.landed = false → s.dev.slotOut r.r.slot = some n.val →
        (t.dev.layer r.r.slot).cur = some (s.dev.takenView r.r) ∧
        t.dev.fb DSP_SLOT_STAT.VISIBLE r.r.slot = !r.r.hide ∧ t.dev.reg .DSP_LAND_SEQ n.val = BitVec.ofNat 32 (s.dev.seq n.val) ∧
        t.dev.f DSP_LAND_STAT.FUNC n.val = g.code % 128)

/-- Latches and what happens at them (R16, R188, R242, R243, R264, R265, R274, R276, R283, R295, R568): a running generator starts its next frame with
the DSP_CMP_UCOL and DSP_RUNWAY_CTRL values of that instant, a stopping one enters OFF, a start enters RUNNING, and windows, PWM periods, the spare
compositor and the early view follow. The model's readings that this rests on: log entries 41, 109, 117, 137, 162. -/
def Obligations.LatchesStartTheNextFrame : Prop :=
  ∀ (s : State) (n : Fin 12), s.dev.regsWf = true → s.dev.tablesWf = true →
    (∀ (also : List (Fin 12)) (peers : List PeerView), s.dev.mayLatch n.val = true → (∀ e ∈ s.dev.mgt.early, e.ending = false) →
      (s.dev.f DSP_TG_STAT.STATE n.val = 2 →
        Does s (.latch n also peers) fun t => t.dev.seq n.val = (s.dev.seq n.val + 1) % 2 ^ 32 ∧ (t.dev.out n.val).lastLatch = s.dev.now ∧
          (t.dev.out n.val).scan = 0 ∧ (t.dev.out n.val).runway = [] ∧ t.dev.liveReg .DSP_CMP_UCOL n.val = s.dev.reg .DSP_CMP_UCOL n.val ∧
          t.dev.liveReg .DSP_RUNWAY_CTRL n.val = s.dev.reg .DSP_RUNWAY_CTRL n.val ∧ t.mem = s.mem) ∧
      (s.dev.f DSP_TG_STAT.STATE n.val = 3 →
        Does s (.latch n also peers) fun t => t.dev.f DSP_TG_STAT.STATE n.val = 0 ∧ t.dev.fb DSP_TG_CTRL.ENABLE n.val = false ∧
          t.dev.seq n.val = s.dev.seq n.val ∧ t.mem = s.mem)) ∧
    (∀ peers : List PeerView, s.dev.f DSP_TG_STAT.STATE n.val = 1 → s.dev.pace.enableWaits = false →
      (s.dev.f DSP_TG_GL.SRC_TYPE n.val = 0 →
        Does s (.tgStart n peers) fun t => t.dev.f DSP_TG_STAT.STATE n.val = 2 ∧ t.dev.glState n.val = 0 ∧
          t.dev.seq n.val = (s.dev.seq n.val + 1) % 2 ^ 32 ∧ (t.dev.out n.val).lastLatch = s.dev.now ∧ t.mem = s.mem) ∧
      (s.dev.f DSP_TG_GL.SRC_TYPE n.val ≠ 0 →
        (s.dev.startCome n.val = true →
          Does s (.tgStart n peers) fun t => t.dev.f DSP_TG_STAT.STATE n.val = 2 ∧ t.dev.glState n.val = 1 ∧
            t.dev.seq n.val = (s.dev.seq n.val + 1) % 2 ^ 32 ∧ t.mem = s.mem) ∧
        (s.dev.startCome n.val = false → Does s (.tgStart n peers) fun t => t = s) ∧
        ((s.dev.out n.val).startAt = none → (s.dev.out n.val).enabledAt + 50000 + 2 * s.dev.sourcePeriod n.val ≤ s.dev.now →
         Does s (.tgStartTimeout n peers) fun t => t.dev.f DSP_TG_STAT.STATE n.val = 2 ∧ t.dev.glState n.val = 3 ∧ t.dev.pend (outEv n.val 7) = true ∧
          t.dev.seq n.val = (s.dev.seq n.val + 1) % 2 ^ 32 ∧ t.mem = s.mem))) ∧
    (∀ (w : Fin 16) (r : CwDue), ((s.dev.out n.val).cwDue.find? fun r => r.w == w.val) = some r →
      Does s (.checkWindowResult n w) fun t => t.dev.f DSP_CW_RES.RESULT (idx2 16 n.val w.val) = r.result % 4 ∧
        t.dev.fb DSP_CW_RES.VALID (idx2 16 n.val w.val) = true ∧ t.dev.reg .DSP_CW_CRC (idx2 16 n.val w.val) = BitVec.ofNat 32 r.crc ∧
        t.dev.f DSP_CW_RES.SEQ_LO (idx2 16 n.val w.val) = r.seq % 2 ^ 16 ∧ (bit r.react 0 = true → t.dev.pend (outEv n.val 0) = true) ∧
        (bit r.react 1 = true → t.dev.fb DSP_CNP_STAT.FAULT_OUT n.val = true ∧ t.dev.fb DSP_CW_RES.FAULT_LATCH (idx2 16 n.val w.val) = true) ∧
        (bit r.react 2 = true → t.dev.fb DSP_CNP_STAT.CBLANK n.val = true) ∧ (t.dev.out n.val).cwDue = (s.dev.out n.val).cwDue.erase r ∧
        s.Only t (.DSP_CW_RES :: .DSP_CW_CRC :: .DSP_CW_CNT :: .DSP_CNP_STAT :: told)) ∧
    (∀ w : Fin 16, ((s.dev.out n.val).cwDue.find? fun r => r.w == w.val) = none → s.dev.cwComplete n.val w.val = true →
      Does s (.checkWindowResult n w) fun t => t.dev.f DSP_CW_RES.RESULT (idx2 16 n.val w.val) = s.dev.cwResult n.val w.val ∧
        t.dev.fb DSP_CW_RES.VALID (idx2 16 n.val w.val) = true ∧ ((t.dev.out n.val).cw.get w.val).decided = true ∧
        s.Only t (.DSP_CW_RES :: .DSP_CW_CRC :: .DSP_CW_CNT :: .DSP_CNP_STAT :: told)) ∧
    ((s.dev.out n.val).pwmPeriod ≤ s.dev.pwmTicks n.val → Does s (.pwmPeriodStart n) fun t =>
      (t.dev.out n.val).pwmPeriod = s.dev.fl DSP_BL_PWM.PERIOD n.val ∧ (t.dev.out n.val).pwmDuty = s.dev.fl DSP_BL_PWM.DUTY n.val ∧
      (t.dev.out n.val).pwmAt = s.dev.now ∧ s.Only t []) ∧
    (s.dev.swapInstant n.val = false → Does s (.compositorSwap n) fun t => t = s) ∧
    (∀ r : SwapReq, s.dev.swapInstant n.val = true → (s.dev.out n.val).swapReq = some r →
      (r.back = false → (∀ m < 12, m ≠ n.val → s.dev.fb DSP_CMP_STAT.SPARE m = false) →
        Does s (.compositorSwap n) fun t => t.dev.fb DSP_CMP_STAT.SPARE n.val = true ∧ t.dev.pend 486 = true ∧ (t.dev.out n.val).swapReq = none ∧
          (∀ ref, r.cmd = some ref → s.dev.Running ref → t.dev.Ended ref ST_OK 0) ∧ s.Only t (.DSP_CMP_STAT :: .MGT_BENCH :: told)) ∧
      (r.back = true → Does s (.compositorSwap n) fun t => t.dev.fb DSP_CMP_STAT.SPARE n.val = false ∧
        (∀ ref, r.cmd = some ref → s.dev.Running ref → t.dev.Ended ref ST_OK 0) ∧ s.Only t (.DSP_CMP_STAT :: .MGT_BENCH :: told)) ∧
      (∀ ref m, r.back = false → m < 12 → m ≠ n.val → s.dev.fb DSP_CMP_STAT.SPARE m = true → r.cmd = some ref → s.dev.Running ref →
        Does s (.compositorSwap n) fun t => t.dev.Ended ref ST_BENCH_EXHAUSTED errOutside ∧ s.Only t [])) ∧
    (s.dev.acholtRuns = true → s.dev.own.acholtSecure = true → s.dev.fb OWN_LOCK_STAT.LOCKED 0 = true → s.dev.mgt.earlyDue = true →
      ∀ len img, len = le (s.dev.flashBytes earlyArea 64) 8 4 → img = s.dev.flashBytes earlyArea len →
        (64 ≤ len → len ≤ earlyRoom → earlyImageOk img earlyRoom = true →
          Does s .earlyViewApply fun t => t = (List.range (le img 6 1)).foldl (fun s k => s.earlyApply img k)
            (s.onDev fun d => { d with mgt := { d.mgt with earlyDue := false } })) ∧
        (¬(64 ≤ len ∧ len ≤ earlyRoom ∧ earlyImageOk img earlyRoom = true) →
          Does s .earlyViewApply fun t => t.dev.mgt = { s.dev.mgt with earlyDue := false } ∧ s.Only t []))

/-- Timing generators (R268, R271 to R281, R283, R284): ENABLE starts a generator whose settings are legal, ends a running one at its next latch, and
STOP_NOW ends it at once; routes and genlock settings that R278, R280 and R281 forbid are ignored; references lock, unlock and release a follower. The
model's readings that this rests on: log entries 79, 81, 117, 137, 138. -/
def Obligations.GeneratorsStartStopAndLock : Prop :=
  ∀ (s : State) (n : Fin 12), s.dev.regsWf = true → s.dev.tablesWf = true →
    (∀ (who : Fn) (val : Word), (∀ v, who ≠ .vf v) →
      (s.dev.Accepts who .DSP_TG_CTRL n.val val →
        (s.dev.f DSP_TG_STAT.STATE n.val = 0 → DSP_TG_CTRL.ENABLE.get val = 1 → s.dev.acts who DSP_TG_CTRL.ENABLE n.val val = true →
          s.dev.acts who DSP_TG_CTRL.STOP_NOW n.val val = false → DSP_TG_CTRL.LATCH_OFS.get val = s.dev.f DSP_TG_CTRL.LATCH_OFS n.val →
          (s.dev.timingOk n.val = true → s.dev.aggregateOk n.val = true →
            Does s (.tgEnable who n val) fun t => t.dev.f DSP_TG_STAT.STATE n.val = 1 ∧ s.dev.Takes t.dev .DSP_TG_CTRL n.val val ∧
              (t.dev.out n.val).enabledAt = s.dev.now ∧ t.mem = s.mem) ∧
          (s.dev.timingOk n.val = false →
            Does s (.tgEnable who n val) fun t => t.dev.f DSP_TG_STAT.STATE n.val = 0 ∧ t.dev.fb DSP_TG_STAT.WERR n.val = true ∧
              t.dev.fb DSP_TG_STAT.TIMING_ERR n.val = true ∧ s.Only t [.DSP_TG_STAT]) ∧
          (s.dev.aggregateOk n.val = false →
            Does s (.tgEnable who n val) fun t => t.dev.f DSP_TG_STAT.STATE n.val = 0 ∧ t.dev.fb DSP_TG_STAT.WERR n.val = true ∧
              t.dev.fb DSP_TG_STAT.AGG_LIMIT n.val = true ∧ s.Only t [.DSP_TG_STAT])) ∧
        (s.dev.f DSP_TG_STAT.STATE n.val = 2 → DSP_TG_CTRL.ENABLE.get val = 0 → s.dev.acts who DSP_TG_CTRL.ENABLE n.val val = true →
          s.dev.acts who DSP_TG_CTRL.STOP_NOW n.val val = false →
          Does s (.tgDisable who n val) fun t => t.dev.f DSP_TG_STAT.STATE n.val = 3 ∧ s.dev.Takes t.dev .DSP_TG_CTRL n.val val ∧
            (t.dev.out n.val).scan = (s.dev.out n.val).scan ∧ t.mem = s.mem) ∧
        (s.dev.tgOn n.val = true → s.dev.acts who DSP_TG_CTRL.STOP_NOW n.val val = true → s.dev.acts who DSP_TG_CTRL.ENABLE n.val val = false →
          Does s (.tgStopNow who n val) fun t => t.dev.f DSP_TG_STAT.STATE n.val = 0 ∧ t.dev.fb DSP_TG_CTRL.ENABLE n.val = false ∧
            t.dev.glState n.val = 0 ∧ t.dev.f DSP_TG_STAT.LINE n.val = 0 ∧ t.mem = s.mem)) ∧
      (s.dev.routeBad n.val (DSP_TG_ROUTE.PORT.get val) (DSP_TG_ROUTE.STREAM.get val) = true →
        Does s (.tgRouteWrite who n val) fun t => t.dev.f DSP_TG_ROUTE.PORT n.val = s.dev.f DSP_TG_ROUTE.PORT n.val ∧
          t.dev.f DSP_TG_ROUTE.STREAM n.val = s.dev.f DSP_TG_ROUTE.STREAM n.val ∧
          (DSP_TG_ROUTE.PORT.get val ≠ s.dev.f DSP_TG_ROUTE.PORT n.val → t.dev.fb DSP_TG_STAT.WERR n.val = true) ∧
          s.Only t [.DSP_TG_ROUTE, .DSP_TG_STAT, .PWR_DOM_STAT]) ∧
      (s.dev.Accepts who .DSP_TG_ROUTE n.val val → s.dev.routeBad n.val (DSP_TG_ROUTE.PORT.get val) (DSP_TG_ROUTE.STREAM.get val) = false →
        Does s (.tgRouteWrite who n val) fun t => s.dev.Takes t.dev .DSP_TG_ROUTE n.val val ∧ s.Only t [.DSP_TG_ROUTE, .PWR_DOM_STAT]) ∧
      (s.dev.glBad n.val val = true →
        Does s (.tgGlWrite who n val) fun t => t.dev.f DSP_TG_GL.SRC_TYPE n.val = s.dev.f DSP_TG_GL.SRC_TYPE n.val ∧
          t.dev.f DSP_TG_GL.SRC_IDX n.val = s.dev.f DSP_TG_GL.SRC_IDX n.val ∧ t.dev.f DSP_TG_GL.HARD n.val = s.dev.f DSP_TG_GL.HARD n.val ∧
          s.Only t [.DSP_TG_GL, .DSP_TG_STAT, .PWR_DOM_STAT]) ∧
      (s.dev.Accepts who .DSP_TG_GL n.val val → s.dev.glBad n.val val = false →
        Does s (.tgGlWrite who n val) fun t => s.dev.Takes t.dev .DSP_TG_GL n.val val ∧ s.Only t [.DSP_TG_GL, .PWR_DOM_STAT]) ∧
      (∀ w : Fin 16, s.dev.Accepts who .DSP_CW_CTRL (idx2 16 n.val w.val) val → s.dev.acts who DSP_CW_CTRL.INJ_REF (idx2 16 n.val w.val) val = true →
        Does s (.cwInjectRef who n w val) fun t => (t.dev.out n.val).cwBad.get w.val = true ∧
          s.dev.Takes t.dev .DSP_CW_CTRL (idx2 16 n.val w.val) val ∧ s.Only t [.DSP_CW_CTRL, .DSP_CW_RES, .DSP_CW_CNT, .PWR_DOM_STAT])) ∧
    (∀ ref : Nat, s.dev.sourceRef n.val = some ref → (s.dev.out n.val).lastRef ≠ some ref → s.dev.f DSP_TG_STAT.STATE n.val = 1 →
      (s.dev.out n.val).startAt = none → (((s.dev.out n.val).enabledAt + 50000 : Nat) : Int) ≤ (ref : Int) + s.dev.glOffset n.val →
      Does s (.genlockReference n) fun t => (t.dev.out n.val).startAt = some ((ref : Int) + s.dev.glOffset n.val).toNat ∧ s.Only t []) ∧
    (∀ (ref : Nat) (e : Int) (p : Nat), s.dev.sourceRef n.val = some ref → p = (match (s.dev.out n.val).lastRef with | some l => ref - l | none => 0) → (s.dev.out n.val).lastRef ≠ some ref →
      e = (ref : Int) + s.dev.glOffset n.val - s.dev.nearLatch n.val ((ref : Int) + s.dev.glOffset n.val) → s.dev.tgScans n.val = true →
      s.dev.glState n.val ≠ 0 →
      Does s (.genlockReference n) fun t => t.dev.reg .DSP_TG_PHASE n.val = BitVec.ofInt 32 (satS 32 e) ∧
        (t.dev.out n.val).lastRef = some ref ∧ (t.dev.out n.val).steer = s.dev.steerFor n.val e p ∧
        t.dev.glState n.val = (if s.dev.glState n.val = 2 ∧ 10000 < e.natAbs then 1
          else if s.dev.glState n.val = 1 ∧ e.natAbs ≤ 2000 ∧ 3 ≤ (s.dev.out n.val).refs then 2
          else if s.dev.glState n.val = 3 then 1 else s.dev.glState n.val) ∧
        (s.dev.glState n.val ≠ 3 → t.dev.glState n.val ≠ s.dev.glState n.val → t.dev.pend (outEv n.val 7) = true) ∧
        s.Only t (.DSP_TG_PHASE :: .DSP_TG_STAT :: .DSP_TG_EVSTAT :: told)) ∧
    (∀ l, (s.dev.out n.val).lastRef = some l → (s.dev.glState n.val = 1 ∨ s.dev.glState n.val = 2) →
      l + 2 * (if (s.dev.out n.val).refPeriod = 0 then s.dev.sourcePeriod n.val else (s.dev.out n.val).refPeriod) ≤ s.dev.now →
      Does s (.genlockHoldover n) fun t => t.dev.glState n.val = 3 ∧ (t.dev.out n.val).refs = 0 ∧ (t.dev.out n.val).onClock = false ∧
        bit (t.dev.f DSP_TG_EVSTAT.CAUSE n.val) 1 = true ∧ t.dev.pend (outEv n.val 7) = true ∧ s.Only t (.DSP_TG_STAT :: .DSP_TG_EVSTAT :: told))

/-- Display ports (R288 to R293, R302): ENABLE brings a link up or is refused for its bandwidth, hot plug, training and loss of lock move LINK_UP, and a
side-channel transaction runs or ends at once with RESULT 3. The model's readings that this rests on: log entries 23, 40, 80. -/
def Obligations.PortsTrainAndTransact : Prop :=
  ∀ (s : State), s.dev.regsWf = true → s.dev.tablesWf = true →
    (∀ (who : Fn) (p : Fin 16) (val : Word), (∀ v, who ≠ .vf v) → s.dev.portExists p.val = true →
      (s.dev.Accepts who .DSP_PORT_CFG p.val val → s.dev.acts who DSP_PORT_CFG.ENABLE p.val val = true → DSP_PORT_CFG.ENABLE.get val = 1 →
        ((s.dev.write who .DSP_PORT_CFG p.val val).bandwidthOk p.val = true →
          Does s (.portEnable who p val) fun t => s.dev.Takes t.dev .DSP_PORT_CFG p.val val ∧ t.mem = s.mem ∧
            (isDsi p.val = true → t.dev.fb DSP_PORT_STAT.LINK_UP p.val = true) ∧
            (isDp p.val = true → s.dev.fb DSP_PORT_STAT.HPD p.val = true → t.dev.fb DSP_PORT_STAT.TRAINING p.val = true)) ∧
        ((s.dev.write who .DSP_PORT_CFG p.val val).bandwidthOk p.val = false →
          Does s (.portEnable who p val) fun t => t.dev.fb DSP_PORT_CFG.ENABLE p.val = false ∧ t.dev.fb DSP_PORT_STAT.BW_LIMIT p.val = true ∧
            s.Only t [.DSP_PORT_CFG, .DSP_PORT_STAT, .PWR_DOM_STAT, .PWR_CLK_STAT])) ∧
      (s.dev.Accepts who .DSP_PORT_SC_CMD p.val val → s.dev.acts who DSP_PORT_SC_CMD.GO p.val val = true →
        (s.dev.fb DSP_PORT_SC_STAT.BUSY p.val = true →
          Does s (.sideChannelGo who p val) fun t => t.dev.fb DSP_PORT_STAT.WERR p.val = true ∧ t.dev.outbox = s.dev.outbox ∧ t.mem = s.mem) ∧
        (s.dev.fb DSP_PORT_SC_STAT.BUSY p.val = false →
          (s.dev.fb DSP_PORT_STAT.TRAINING p.val = false →
            (isDp p.val = true ∧ DSP_PORT_SC_CMD.KIND.get val ≤ 3 ∨ isDsi p.val = true ∧ DSP_PORT_SC_CMD.KIND.get val = 4) →
            Does s (.sideChannelGo who p val) fun t => t.dev.fb DSP_PORT_SC_STAT.BUSY p.val = true ∧ t.mem = s.mem ∧
              ((isDsi p.val && (s.dev.routed p.val).any s.dev.tgScans) = false →
                ∃ bs k, t.dev.outbox = .sideChannel p.val (DSP_PORT_SC_CMD.KIND.get val) (DSP_PORT_SC_CMD.ADDR.get val) bs k :: s.dev.outbox) ∧
              ((isDsi p.val && (s.dev.routed p.val).any s.dev.tgScans) = true →
                t.dev.outbox = s.dev.outbox ∧ ∃ x, (t.dev.disp.ports.get p.val).side = some x ∧ x.waits = true)) ∧
          (s.dev.fb DSP_PORT_STAT.TRAINING p.val = true →
            Does s (.sideChannelGo who p val) fun t => t.dev.fb DSP_PORT_SC_STAT.DONE p.val = true ∧ t.dev.f DSP_PORT_SC_STAT.RESULT p.val = 3 ∧
              t.dev.fb DSP_PORT_SC_STAT.BUSY p.val = false ∧ t.dev.outbox = s.dev.outbox ∧ t.mem = s.mem)))) ∧
    (∀ (p : Fin 16) (x : SideTxn), (s.dev.disp.ports.get p.val).side = some x → x.waits = false →
      (∀ (reply : SideReply) (result : Nat), ((∃ data, reply = .ack data ∧ result = 0) ∨ reply = .nack ∧ result = 1 ∨ reply = .timeout ∧ result = 2 ∨
          reply = .defer ∧ 7 ≤ x.defers ∧ result = 2) →
        Does s (.sideChannelDone p reply) fun t => t.dev.fb DSP_PORT_SC_STAT.BUSY p.val = false ∧ t.dev.fb DSP_PORT_SC_STAT.DONE p.val = true ∧
          t.dev.f DSP_PORT_SC_STAT.RESULT p.val = result ∧ (t.dev.disp.ports.get p.val).side = none ∧
          s.Only t [.DSP_PORT_SC_STAT, .DSP_PORT_SC_DATA]) ∧
      (x.defers < 7 → Does s (.sideChannelDone p .defer) fun t => t.dev.outbox = .sideChannel p.val x.kind x.addr x.bytes x.count :: s.dev.outbox ∧
        (t.dev.disp.ports.get p.val).side = some { x with defers := x.defers + 1 } ∧ s.Only t [])) ∧
    (∀ p : Fin 4,
      (Does s (.hpdRise p) fun t => t.dev.fb DSP_PORT_STAT.HPD p.val = true ∧
        (s.dev.fb DSP_PORT_CFG.ENABLE p.val = true → s.dev.fb DSP_PORT_STAT.LINK_UP p.val = false →
          (s.dev.disp.ports.get p.val).dead = false → t.dev.fb DSP_PORT_STAT.TRAINING p.val = true) ∧ s.Only t [.DSP_PORT_STAT]) ∧
      (Does s (.hpdUnplug p) fun t => t.dev.fb DSP_PORT_STAT.HPD p.val = false ∧ t.dev.fb DSP_PORT_STAT.TRAINING p.val = false ∧
        (s.dev.fb DSP_PORT_CFG.ENABLE p.val = true → t.dev.fb DSP_PORT_STAT.LINK_UP p.val = false ∧ t.dev.fb DSP_PORT_STAT.LINK_LOST p.val = true) ∧
        s.Only t (.DSP_PORT_STAT :: .DSP_TG_EVSTAT :: told)) ∧
      (s.dev.fb DSP_PORT_STAT.LINK_UP p.val = true →
        Does s (.hpdIrq p true) fun t => t.dev.fb DSP_PORT_STAT.LINK_UP p.val = false ∧ t.dev.fb DSP_PORT_STAT.TRAINING p.val = true ∧
          t.dev.f DSP_PORT_STAT.RETRAINS p.val = min 255 (s.dev.f DSP_PORT_STAT.RETRAINS p.val + 1) ∧ (t.dev.disp.ports.get p.val).retriesLeft = 3 ∧
          s.Only t (.DSP_PORT_STAT :: .DSP_TG_EVSTAT :: told)) ∧
      (s.dev.fb DSP_PORT_STAT.TRAINING p.val = true →
        (Does s (.portTrainingDone p true) fun t => t.dev.fb DSP_PORT_STAT.LINK_UP p.val = true ∧ t.dev.fb DSP_PORT_STAT.TRAINING p.val = false ∧
          s.Only t (.DSP_PORT_STAT :: .DSP_TG_EVSTAT :: told)) ∧
        ((s.dev.disp.ports.get p.val).retriesLeft = 0 →
          Does s (.portTrainingDone p false) fun t => t.dev.fb DSP_PORT_STAT.TRAIN_FAIL p.val = true ∧ t.dev.fb DSP_PORT_STAT.TRAINING p.val = false ∧
            t.dev.fb DSP_PORT_STAT.LINK_UP p.val = s.dev.fb DSP_PORT_STAT.LINK_UP p.val ∧ s.Only t (.DSP_PORT_STAT :: .DSP_TG_EVSTAT :: told)) ∧
        ((s.dev.disp.ports.get p.val).retriesLeft = 1 →
          Does s (.portTrainingDone p false) fun t => t.dev.fb DSP_PORT_STAT.TRAIN_FAIL p.val = true ∧ t.dev.fb DSP_PORT_STAT.TRAINING p.val = false ∧
            (t.dev.disp.ports.get p.val).dead = true ∧ s.Only t (.DSP_PORT_STAT :: .DSP_TG_EVSTAT :: told)) ∧
        (∀ k, (s.dev.disp.ports.get p.val).retriesLeft = k + 2 →
          Does s (.portTrainingDone p false) fun t => t.dev.fb DSP_PORT_STAT.TRAINING p.val = true ∧ (t.dev.disp.ports.get p.val).retriesLeft = k + 1 ∧
            t.dev.f DSP_PORT_STAT.RETRAINS p.val = min 255 (s.dev.f DSP_PORT_STAT.RETRAINS p.val + 1) ∧ s.Only t [.DSP_PORT_STAT]))) ∧
    (∀ k : Fin 8,
      (s.dev.aphyRx (8 + k.val) = true →
        (s.dev.fb VIN_RX_CFG.ENABLE (8 + k.val) = true → Does s (.aphyLinkUp k) fun t => t.dev.fb VIN_RX_STAT.LINK_UP (8 + k.val) = true ∧
          s.Only t [.VIN_RX_STAT]) ∧
        (Does s (.aphyLossOfLock k) fun t => t.dev.fb VIN_RX_STAT.LINK_UP (8 + k.val) = false ∧ s.Only t [.VIN_RX_STAT])) ∧
      (s.dev.aphyRx (8 + k.val) = false →
        (s.dev.fb DSP_PORT_CFG.ENABLE (8 + k.val) = true → s.dev.fb DSP_PORT_STAT.LINK_UP (8 + k.val) = false →
          Does s (.aphyLinkUp k) fun t => t.dev.fb DSP_PORT_STAT.LINK_UP (8 + k.val) = true ∧ s.Only t (.DSP_PORT_STAT :: .DSP_TG_EVSTAT :: told)) ∧
        (Does s (.aphyLossOfLock k) fun t => t.dev.fb DSP_PORT_STAT.LINK_UP (8 + k.val) = false ∧
          s.Only t (.DSP_PORT_STAT :: .DSP_TG_EVSTAT :: told))))

/-- Stream contexts and their commands (R302 to R304, R308 to R310, R314): an owner is changed or the write is ignored, a STREAM_SET that passes R309
replaces the configuration, a context starts and stops, and a frame is held and released. The model's readings that this rests on: log entries 82, 83. -/
def Obligations.StreamCommandsConfigureContexts : Prop :=
  ∀ (s : State), s.dev.regsWf = true → s.dev.tablesWf = true →
    (∀ (who : Fn) (c : Fin 16) (val : Word), (∀ v, who ≠ .vf v) → VIN_CS_ASSIGN.OWNER.get val ≠ s.dev.csOwner c.val →
      (s.dev.mayGive who (s.dev.csOwner c.val) = true → s.dev.mayGive who (VIN_CS_ASSIGN.OWNER.get val) = true →
        Does s (.csAssignWrite who c val) fun t => t.dev.csOwner c.val = VIN_CS_ASSIGN.OWNER.get val ∧ t.dev.csState c.val = 0 ∧
          t.dev.fb VIN_CS_STAT.CONFIGURED c.val = false ∧ t.dev.fb VIN_CS_STAT.PINNED c.val = false ∧ (t.dev.cs c.val).cfg = [] ∧
          (t.dev.cs c.val).standing = none ∧ (t.dev.cs c.val).viewOn = false ∧ (∀ k, k ≠ c.val → t.dev.csOwner k = s.dev.csOwner k) ∧ t.mem = s.mem) ∧
      ((s.dev.mayGive who (s.dev.csOwner c.val) = false ∨ s.dev.mayGive who (VIN_CS_ASSIGN.OWNER.get val) = false) →
        Does s (.csAssignWrite who c val) fun t => t.dev.fb VIN_CS_STAT.WERR c.val = true ∧ t.dev.vin = s.dev.vin ∧
          s.Only t [.VIN_CS_STAT, .PWR_DOM_STAT])) ∧
    (∀ (f : Fn) (q : Fin 8) (c : Cmd) (n : Nat) (ref : CmdRef), s.Bare f q c → n = c.u 32 1 % 16 → ref = ⟨qi f q, c.id⟩ →
      (c.opcode = 0x50 →
        (s.dev.streamSetErr c f.code = none →
          Does s (.vinStreamSet f q) fun t => t.dev.Ended ref ST_OK 0 ∧ (t.dev.cs n).cfg = (c.lead.drop 32).take 32 ∧
            (t.dev.cs n).cont = (c.conts.headD []).drop 2 ∧ (t.dev.cs n).viewOn = bit (c.u 38 2) 15 ∧ t.dev.fb VIN_CS_STAT.CONFIGURED n = true ∧
            t.dev.reg .VIN_CS_FRAMES n = 0 ∧ (∀ k, k ≠ n → t.dev.cs k = s.dev.cs k) ∧
            (s.started f q c).Only t [.VIN_CS_STAT, .VIN_CS_FRAMES, .VIN_CS_LL_TRIM]) ∧
        (∀ st res, s.dev.streamSetErr c f.code = some (st, res) →
          Does s (.vinStreamSet f q) fun t => t.dev.Ended ref st (res % 2 ^ 32) ∧ t.dev.vin = s.dev.vin ∧ (s.started f q c).Only t [])) ∧
      (c.opcode = 0x51 → s.dev.csCmdErr c f.code false = none →
        (s.dev.fb VIN_CS_STAT.CONFIGURED n = true → s.dev.csState n = 0 → s.dev.csClash n = false →
          (735 ≤ s.dev.f PWR_PACE_STAT.VCORE_MV 0 → 735 ≤ s.dev.pace.setpoint → s.dev.pace.enableWaits = false →
            Does s (.streamStart f q) fun t => t.dev.Ended ref ST_OK 0 ∧ t.dev.csState n = 1 ∧ t.dev.pend (csEv n 0) = true ∧
              t.dev.reg .VIN_CS_FRAMES n = 0 ∧ (t.dev.cs n).newest = none ∧ (∀ k, k ≠ n → t.dev.cs k = s.dev.cs k) ∧ t.mem = s.mem) ∧
          (s.dev.f PWR_PACE_STAT.VCORE_MV 0 < 735 ∨ s.dev.pace.setpoint < 735 →
            Does s (.streamStart f q) fun t => t.dev.Running ref ∧ ref ∈ t.dev.pace.starts ∧ t.dev.pace.enableWaits = true ∧ t.dev.csState n = 1 ∧
              (s.dev.pace.setpoint < 735 → s.dev.fb PWR_PACE_STAT.AVS_FAULT 0 = false → t.dev.pace.setpoint = 735) ∧ t.mem = s.mem)) ∧
        (s.dev.csState n ≠ 0 ∨ s.dev.csClash n = true → s.dev.fb VIN_CS_STAT.CONFIGURED n = true →
          Does s (.streamStart f q) fun t => t.dev.Ended ref ST_BUSY (errByte 32) ∧ t.dev.vin = s.dev.vin ∧ (s.started f q c).Only t []) ∧
        (s.dev.fb VIN_CS_STAT.CONFIGURED n = false →
          Does s (.streamStart f q) fun t => t.dev.Ended ref ST_BAD_FIELD (errByte 32) ∧ t.dev.vin = s.dev.vin ∧ (s.started f q c).Only t [])) ∧
      (c.opcode = 0x52 → s.dev.csCmdErr c f.code false = none → (∀ h ∈ (s.dev.cs n).holds, h.1 ≠ ref) →
        Does s (.streamStop f q) fun t => t.dev.Ended ref ST_OK 0 ∧ t.dev.csState n = 0 ∧ (t.dev.cs n).inFrame = false ∧ (t.dev.cs n).holds = [] ∧
          (∀ h ∈ (s.dev.cs n).holds, s.dev.Running h.1 → t.dev.Ended h.1 ST_ABORTED 0) ∧ (t.dev.cs n).cfg = (s.dev.cs n).cfg ∧ t.mem = s.mem) ∧
      (c.opcode = 0x53 → s.dev.csCmdErr c f.code true = none → (s.dev.cs n).lineLocked = false → (s.dev.cs n).pinned = none →
        (∀ k, s.dev.holdReady n (c.u 36 4) = some k →
          Does s (.frameHold f q) fun t => t.dev.Ended ref ST_OK (k % 4 + 4 * ((s.dev.reg .VIN_CS_FRAMES n).toNat % 2 ^ 30)) ∧
            (t.dev.cs n).pinned = some k ∧ t.dev.fb VIN_CS_STAT.PINNED n = true ∧ (s.started f q c).Only t [.VIN_CS_STAT]) ∧
        (s.dev.holdReady n (c.u 36 4) = none →
          Does s (.frameHold f q) fun t => t.dev.Running ref ∧ (t.dev.cs n).holds = (s.dev.cs n).holds ++ [(ref, c.u 36 4)] ∧
            (s.started f q c).Only t [])) ∧
      (c.opcode = 0x54 → s.dev.csCmdErr c f.code false = none →
        Does s (.frameRelease f q) fun t => t.dev.Ended ref ST_OK 0 ∧ (t.dev.cs n).pinned = none ∧ t.dev.fb VIN_CS_STAT.PINNED n = false ∧
          (s.started f q c).Only t [.VIN_CS_STAT])) ∧
    (∀ (c : Fin 16) (h : CmdRef × Nat) (k : Nat), ((s.dev.cs c.val).holds.find? fun h => (s.dev.holdReady c.val h.2).isSome) = some h →
      s.dev.holdReady c.val h.2 = some k → s.dev.Running h.1 →
      ((s.dev.cs c.val).pinned = none →
        Does s (.frameHoldSatisfied c) fun t => t.dev.Ended h.1 ST_OK (k % 4 + 4 * ((s.dev.reg .VIN_CS_FRAMES c.val).toNat % 2 ^ 30)) ∧
          (t.dev.cs c.val).pinned = some k ∧ (t.dev.cs c.val).holds = (s.dev.cs c.val).holds.erase h ∧ s.Only t [.VIN_CS_STAT]) ∧
      ((s.dev.cs c.val).pinned.isSome = true →
        Does s (.frameHoldSatisfied c) fun t => t.dev.Ended h.1 ST_BUSY (errByte 32) ∧ (t.dev.cs c.val).pinned = (s.dev.cs c.val).pinned ∧ s.Only t []))

/-- Frames arrive (R301, R305, R306, R311, R312, R315, R336): an enabled port tells of every packet, a frame starts where its header is good, its
lines of its channel and type are counted and stored in its buffer, a complete frame becomes the newest and moves FILL to LIVE, and a bad line or a
timeout discards it. The model's readings that this rests on: log entries 5, 83. -/
def Obligations.FramesFillAndComplete : Prop :=
  ∀ (s : State) (p : Fin 20) (c : Fin 16) (x : CsSt), s.dev.regsWf = true → s.dev.tablesWf = true → x = s.dev.cs c.val →
    (s.dev.receives p.val = true → s.dev.csReceives p.val c.val = false → ∀ (corrected good : Bool) (l : VideoLine) (i : Instr),
      (i = .frameStart p c corrected good ∨ i = .frameEnd p c corrected good ∨ i = .lineReceived p c l ∧ corrected = l.corrected ∧ good = (l.headerOk && l.crcOk)) →
      Does s i fun t => t.dev.fb VIN_RX_STAT.LINK_UP p.val = true ∧ t.dev.vin = s.dev.vin ∧
        t.dev.f VIN_RX_STAT.ECC_CORR p.val = min 255 (s.dev.f VIN_RX_STAT.ECC_CORR p.val + b2n corrected) ∧
        t.dev.f VIN_RX_STAT.CRC_ERR p.val = min 255 (s.dev.f VIN_RX_STAT.CRC_ERR p.val + b2n (!good)) ∧ s.Only t [.VIN_RX_STAT]) ∧
    (s.dev.csReceives p.val c.val = true →
      (∀ corrected : Bool, Does s (.frameStart p c corrected true) fun t => (t.dev.cs c.val).inFrame = true ∧ (t.dev.cs c.val).lines = 0 ∧
        (t.dev.cs c.val).begun = x.begun + 1 ∧ (t.dev.cs c.val).lastStart = some s.dev.now ∧ t.dev.fb VIN_RX_STAT.LINK_UP p.val = true ∧
        t.dev.csState c.val = (if s.dev.csState c.val = 1 ∧ (t.dev.cs c.val).buf.isSome = true then 2 else s.dev.csState c.val) ∧
        (x.lineLocked = true → (t.dev.cs c.val).buf = some 0) ∧
        ((t.dev.cs c.val).buf = none →
          t.dev.f VIN_CS_CNT.DROP_COUNT c.val = min 255 (s.dev.f VIN_CS_CNT.DROP_COUNT c.val + 1)) ∧
        s.Only t (.VIN_RX_STAT :: .VIN_CS_STAT :: .VIN_CS_CNT :: told)) ∧
      (∀ corrected : Bool, Does s (.frameStart p c corrected false) fun t => t.dev.vin = s.dev.vin ∧
        t.dev.f VIN_RX_STAT.CRC_ERR p.val = min 255 (s.dev.f VIN_RX_STAT.CRC_ERR p.val + 1) ∧ s.Only t [.VIN_RX_STAT]) ∧
      (∀ l : VideoLine, x.takes l = false → Does s (.lineReceived p c l) fun t => t.dev.vin = s.dev.vin ∧ s.Only t [.VIN_RX_STAT]) ∧
      (∀ l : VideoLine, x.awaits = true → x.inFrame = true → x.takes l = true → x.lines < x.height → l.pixels.length = x.width →
        l.headerOk = true → l.crcOk = true →
        (Does s (.lineReceived p c l) fun t => (t.dev.cs c.val).lines = x.lines + 1 ∧ (t.dev.cs c.val).lastLine = s.dev.now ∧
          (x.buf = none → s.Only t (.VIN_RX_STAT :: .VIN_CS_LINE :: told)) ∧
          ∀ k ws, x.buf = some k → ws = x.lineWrites (x.buffer k) x.lines l (fun i => Config.freeValue (s.dev.free + i)) →
            ∀ b, (∀ w ∈ ws, ∀ j < w.2.length, ¬s.dev.Homes (w.1 + j) b ∧ ¬s.dev.Homes (s.dev.own.tableBase + ownOffset (w.1 + j)) b) →
              t.mem.byte b = s.mem.byte b)) ∧
      (∀ (l : VideoLine) (k : Nat), x.awaits = true → x.inFrame = true → x.takes l = true → x.buf = some k →
        (l.headerOk = false ∨ l.crcOk = false →
          Does s (.lineReceived p c l) fun t => (t.dev.cs c.val).inFrame = false ∧ (t.dev.cs c.val).lastLine = s.dev.now ∧
            t.dev.f VIN_CS_CNT.INC_COUNT c.val = min 255 (s.dev.f VIN_CS_CNT.INC_COUNT c.val + 1) ∧
            t.dev.f VIN_RX_STAT.CRC_ERR p.val = min 255 (s.dev.f VIN_RX_STAT.CRC_ERR p.val + 1) ∧ t.dev.pend (csEv c.val 3) = true ∧
            s.Only t (.VIN_RX_STAT :: .VIN_CS_CNT :: told)) ∧
        (l.headerOk = true → l.crcOk = true → l.pixels.length ≠ x.width ∨ x.height ≤ x.lines →
          Does s (.lineReceived p c l) fun t => (t.dev.cs c.val).inFrame = false ∧
            t.dev.f VIN_CS_CNT.INC_COUNT c.val = min 255 (s.dev.f VIN_CS_CNT.INC_COUNT c.val + 1) ∧
            t.dev.f VIN_RX_STAT.CRC_ERR p.val = s.dev.f VIN_RX_STAT.CRC_ERR p.val ∧ t.dev.pend (csEv c.val 3) = true ∧
            s.Only t (.VIN_RX_STAT :: .VIN_CS_CNT :: told))) ∧
      (∀ (corrected : Bool) (k : Nat), x.awaits = true → x.inFrame = true → x.buf = some k →
        (x.lines = x.height →
          Does s (.frameEnd p c corrected true) fun t => (t.dev.cs c.val).inFrame = false ∧ (t.dev.cs c.val).awaits = false ∧
            (t.dev.cs c.val).newest = (if x.lineLocked then none else some k) ∧
            t.dev.reg .VIN_CS_FRAMES c.val = s.dev.reg .VIN_CS_FRAMES c.val + 1 ∧ t.dev.reg64 .VIN_CS_FE_LO .VIN_CS_FE_HI c.val = s.dev.now % 2 ^ 64 ∧
            (s.dev.csState c.val = 2 → t.dev.csState c.val = 3 ∧ t.dev.pend (csEv c.val 1) = true) ∧
            s.Only t ([.VIN_RX_STAT, .VIN_CS_STAT, .VIN_CS_CNT, .VIN_CS_FRAMES, .VIN_CS_FE_LO, .VIN_CS_FE_HI] ++ told)) ∧
        (x.lines ≠ x.height →
          Does s (.frameEnd p c corrected true) fun t => (t.dev.cs c.val).inFrame = false ∧ (t.dev.cs c.val).newest = x.newest ∧
            t.dev.f VIN_CS_CNT.INC_COUNT c.val = min 255 (s.dev.f VIN_CS_CNT.INC_COUNT c.val + 1) ∧ t.dev.pend (csEv c.val 3) = true ∧
            s.Only t (.VIN_RX_STAT :: .VIN_CS_CNT :: told))) ∧
      (∀ corrected : Bool, Does s (.frameEnd p c corrected false) fun t => t.dev.vin = s.dev.vin ∧ s.Only t [.VIN_RX_STAT])) ∧
    (s.dev.csState c.val ≠ 0 → x.source ≠ 0x1E → x.awaits = true → x.lastLine + 1000 * x.lineToUs ≤ s.dev.now →
      Does s (.lineTimeout c) fun t => t.dev.csState c.val = 1 ∧ (t.dev.cs c.val).inFrame = false ∧ (t.dev.cs c.val).awaits = false ∧
        (s.dev.csState c.val ≠ 1 → t.dev.pend (csEv c.val 0) = true) ∧ s.Only t ([.VIN_CS_STAT, .VIN_CS_CNT, .DSP_TG_STAT, .DSP_TG_EVSTAT] ++ told)) ∧
    (∀ start : Nat, s.dev.csState c.val = 3 → x.lastStart = some start → start + 1000000 * x.frameToMs ≤ s.dev.now →
      Does s (.frameTimeout c) fun t => t.dev.csState c.val = 1 ∧ t.dev.pend (csEv c.val 0) = true ∧ t.dev.vin = s.dev.vin ∧
        s.Only t ([.VIN_CS_STAT, .DSP_TG_STAT, .DSP_TG_EVSTAT] ++ told))

/-- Warp jobs (R324 to R333): WARP queues a job, WARP_STANDING installs one on its context and WARP_CANCEL removes it, an engine starts what waits and
a standing run pre-empts a one-shot job, and a job that ends completes its command. The model's readings that this rests on: log entries 24, 84, 85,
139. -/
def Obligations.WarpJobsQueueRunAndEnd : Prop :=
  ∀ (s : State), s.dev.regsWf = true → s.dev.tablesWf = true →
    (∀ (f : Fn) (q : Fin 8) (c : Cmd) (ref : CmdRef), s.Bare f q c → ref = ⟨qi f q, c.id⟩ →
      (c.opcode = 0x55 →
        (s.dev.warpErr c f.code false = none →
          Does s (.warp f q) fun t => (t.dev.we (s.dev.warpEngine (c.u 32 1 % 4))).queue =
              (s.dev.we (s.dev.warpEngine (c.u 32 1 % 4))).queue ++ [warpJobOf (some ref) f.code c false] ∧
            t.dev.Running ref ∧ (s.started f q c).Only t [.VIN_WE_STAT]) ∧
        (∀ st res, s.dev.warpErr c f.code false = some (st, res) →
          Does s (.warp f q) fun t => t.dev.Ended ref st (res % 2 ^ 32) ∧ t.dev.vin = s.dev.vin ∧ (s.started f q c).Only t [])) ∧
      (c.opcode = 0x56 → s.dev.warpErr c f.code true = none →
        Does s (.warpStanding f q) fun t => (∃ x, (t.dev.cs (c.u 35 1 % 16)).standing = some x ∧ x.job = { warpJobOf none f.code c true with serial := s.dev.vin.installed + 1 } ∧
            x.trigger = c.ext % 16 ∧ x.engine = s.dev.warpEngine (c.u 32 1 % 4) ∧ x.cancel = []) ∧
          (∀ x, (s.dev.cs (c.u 35 1 % 16)).standing = some x →
            (t.dev.cs (c.u 35 1 % 16)).cancels = (s.dev.cs (c.u 35 1 % 16)).cancels ++ x.cancel) ∧
          (∀ e r, r ∈ (t.dev.we e).runs → r.1 = c.u 35 1 % 16 → e = s.dev.warpEngine (c.u 32 1 % 4) ∨ 2 ≤ e) ∧
          t.dev.fb VIN_CS_STAT.STANDING (c.u 35 1 % 16) = true ∧
          t.dev.Ended ref (if (s.dev.cs (c.u 35 1 % 16)).standing.isSome then ST_REPLACED else ST_OK) 0 ∧
          (s.started f q c).Only t [.VIN_CS_STAT, .VIN_WE_STAT]) ∧
      (c.opcode = 0x57 → s.dev.csCmdErr c f.code false = none →
        (s.dev.standingRuns (c.u 32 1 % 16) = false →
          Does s (.warpCancel f q) fun t => t.dev.Ended ref ST_OK 0 ∧ (t.dev.cs (c.u 32 1 % 16)).standing = none ∧
            (s.started f q c).Only t [.VIN_CS_STAT]) ∧
        (∀ x, s.dev.standingRuns (c.u 32 1 % 16) = true → (s.dev.cs (c.u 32 1 % 16)).standing = some x →
          Does s (.warpCancel f q) fun t => t.dev.Running ref ∧
            (t.dev.cs (c.u 32 1 % 16)).standing = some { x with cancel := x.cancel ++ [ref] } ∧ (s.started f q c).Only t []))) ∧
    (∀ e : Fin 2,
      (∀ j, (s.dev.we e.val).runs = [] → (s.dev.we e.val).job = none → (s.dev.we e.val).preempted = none →
        ((s.dev.we e.val).parked.find? fun j => !s.dev.vfHeld j.code) = none → ((s.dev.we e.val).queue.find? fun j => !s.dev.vfHeld j.code) = some j →
        Does s (.warpJobStart e) fun t => (∃ j1, (t.dev.we e.val).job = some j1 ∧ j1.cmd = j.cmd ∧ j1.body = j.body ∧ j1.passes = j.passes) ∧
          (t.dev.we e.val).queue = (s.dev.we e.val).queue.erase j ∧ t.dev.fb VIN_WE_STAT.BUSY e.val = true ∧ t.mem = s.mem) ∧
      (∀ (o n : Nat) (rest : List (Nat × Nat)) (j j1 : WarpJob) (x : Standing) (u : State), (s.dev.we e.val).runs ≠ [] → (s.dev.we e.val).job = some j →
        j.standing = false → u = s.warpCut e.val (fun j => !j.standing) → (u.dev.we e.val).job = some j1 → (u.dev.we e.val).runs = (o, n) :: rest →
        (u.dev.cs o).standing = some x → u.dev.csState o ≠ 0 → (u.dev.chooseBuffer o).isSome = true →
        Does s (.warpJobStart e) fun t => (t.dev.we e.val).preempted = some j1 ∧ j1 = { j with lines := j1.lines } ∧ j.lines ≤ j1.lines ∧
          (t.dev.we e.val).runs = rest ∧ (∃ j2, (t.dev.we e.val).job = some j2 ∧ j2.body = x.job.body) ∧
          t.dev.fb VIN_WE_STAT.PREEMPTED e.val = true ∧ t.mem = u.mem) ∧
      (∀ o n rest x, (s.dev.we e.val).runs = (o, n) :: rest → (s.dev.we e.val).job = none → (s.dev.cs o).standing = some x →
        s.dev.csState o ≠ 0 → s.dev.chooseBuffer o = none →
        Does s (.warpJobStart e) fun t => (t.dev.we e.val).job = none ∧ (t.dev.we e.val).runs = rest ∧
          t.dev.f VIN_CS_CNT.DROP_COUNT o = min 255 (s.dev.f VIN_CS_CNT.DROP_COUNT o + 1) ∧ t.mem = s.mem) ∧
      (∀ j, (s.dev.we e.val).runs = [] → (s.dev.we e.val).job = none → (s.dev.we e.val).preempted = some j →
        Does s (.warpJobStart e) fun t => (t.dev.we e.val).job = some j ∧ (t.dev.we e.val).preempted = none ∧ s.Only t [.VIN_WE_STAT]) ∧
      (∀ j ref, (s.dev.we e.val).job = some j → j.cmd = some ref → j.toCs = false → s.dev.Running ref →
        Does s (.warpJobEnd e) fun t => t.dev.Ended ref ((s.warpCompute e.val j j.outH).2.1.getD ST_OK) 0 ∧
          t.mem = (s.warpCompute e.val j j.outH).1.mem ∧
          (t.dev.we e.val).job = (if (s.dev.we e.val).runs.isEmpty then (s.dev.we e.val).preempted else none)))

/-- Graphics commands (R341, R343, R348, R353 to R368): a command of the queue that feeds a context joins it; CTX_SET, PIPE_LOAD, PIPE_FREE and
PASS_BEGIN take effect, and DRAW, PASS_END and DISPATCH become work for the clusters, which the boundaries, slices and deadlines move. The model's
readings that this rests on: log entries 25, 89, 92, 169. -/
def Obligations.GraphicsCommandsJoinTheirContext : Prop :=
  (∀ (s : State) (k : Fin 8) (g : Fin 128), s.dev.regsWf = true → s.dev.tablesWf = true →
    (∀ (st : GpuStep) (ref : CmdRef) (c : Cmd), (s.dev.cluster k.val).run = some g.val → (s.dev.gctx g.val).cmds = [(ref, c)] →
      (s.dev.gctx g.val).active = true → s.dev.stopped g.val = false → s.dev.ctxHalted g.val = false → s.dev.Running ref → c.opcode = 0x36 →
      st.fault = false → st.accs = [] → (s.dev.gctx g.val).todo ≤ st.groups → Does s (.preemptionBoundary k st) fun t => t.dev.Ended ref ST_OK 0) ∧
    ((s.dev.cluster k.val).run = some g.val → (s.dev.cluster k.val).since + 1000 * s.dev.timeslice ≤ s.dev.now →
      Does s (.timesliceExpire k) fun t => (t.dev.cluster k.val).expired = true) ∧
    (s.dev.ctxReady g.val = true → (s.dev.gctx g.val).deadline ≠ 0 → (s.dev.gctx g.val).fired = false →
      (s.dev.gctx g.val).deadline ≤ s.dev.now + 1000 * (s.dev.gctx g.val).guard → Does s (.deadlineGuard g) fun t => (t.dev.gctx g.val).fired = true) ∧
    (s.dev.ctxReady g.val = true → (s.dev.gctx g.val).deadline ≠ 0 → (s.dev.gctx g.val).deadline ≤ s.dev.now → s.dev.holdsClusters g.val = [] →
      (∀ j < 8, (s.dev.cluster j).req = some g.val → j = k.val) → (s.dev.cluster k.val).req = some g.val → (s.dev.cluster k.val).run = none →
      bit (s.dev.ctxMask g.val) k.val = true → s.dev.levelFits k.val g.val = true →
      Does s (.startDeadlineExpire g) fun t => (t.dev.cluster k.val).run = some g.val) ∧
    (∀ (p : Pipe) (ref : CmdRef) (c : Cmd) (h : Nat), (s.dev.gctx g.val).loading = some p → (s.dev.gctx g.val).cmds = [(ref, c)] → s.dev.Running ref →
      p.pin = false → p.kib ≤ 1024 → ((List.range 256).find? fun h => ((s.dev.gctx g.val).pipes.get h).isNone) = some h →
      Does s (.pipeTranslated g) fun t => t.dev.Ended ref ST_OK h)) ∧
  ∀ (s : State) (f : Fn) (q : Fin 8) (c : Cmd) (g : Nat) (ref : CmdRef) (u : State), s.dev.regsWf = true → s.dev.tablesWf = true → s.Bare f q c →
    g = c.u 32 2 % 128 → ref = ⟨qi f q, c.id⟩ →
    u = (s.started f q c).onDev (fun d => d.updCtx g fun x => { x with cmds := x.cmds ++ [(ref, c)] }) →
    (∀ i : Instr, (i = .ctxSet f q ∧ c.opcode = 0x30 ∨ i = .pipeLoad f q ∧ c.opcode = 0x31 ∨ i = .pipeFree f q ∧ c.opcode = 0x32 ∨
        i = .passBegin f q ∧ c.opcode = 0x33 ∨ i = .draw f q ∧ c.opcode = 0x34 ∨ i = .passEnd f q ∧ c.opcode = 0x35 ∨
        i = .dispatch f q ∧ c.opcode = 0x36) →
      (s.dev.ctxOwner g ≠ f.code ∨ s.dev.f GPU_CTX_ASSIGN.QUEUE g ≠ q.val) →
      Does s i fun t => t.dev.Ended ref ST_NOT_OWNER (errByte 32) ∧ t.dev.gpu = s.dev.gpu ∧ (s.started f q c).Only t []) ∧
    (s.dev.ctxOwner g = f.code → s.dev.f GPU_CTX_ASSIGN.QUEUE g = q.val → s.dev.vfHeld f.code = false → (s.dev.gctx g).cmds = [] →
      (s.dev.gctx g).active = false → (s.dev.gctx g).loading = none → c.status = 0 →
      (c.opcode = 0x30 → u.dev.ctxSetErr g c = none →
        Does s (.ctxSet f q) fun t => t.dev.Ended ref (if s.dev.f GPU_CTX_ASSIGN.MAX_PRIO g < c.u 34 1 ∨ c.u 36 2 < 10 ∨ 10000 < c.u 36 2 ∨
            popcount (s.dev.ctxMask g) < c.u 38 1 then ST_CLAMPED else ST_OK) 0 ∧ (t.dev.gctx g).need = c.u 38 1 ∧ (t.dev.gctx g).guard = clampN 10 10000 (c.u 36 2) ∧
          (t.dev.gctx g).arenaBase = c.u 40 8 ∧ (t.dev.gctx g).arenaKib = c.u 48 4 ∧ (t.dev.gctx g).basketMib = c.u 52 4 ∧
          t.dev.ctxPrio g = min (c.u 34 1) (s.dev.f GPU_CTX_ASSIGN.MAX_PRIO g) ∧ t.dev.f GPU_CTX_STAT.STATE g = 0 ∧
          t.dev.fb GPU_CTX_STAT.EVICTED g = false ∧ (∀ e, s.dev.ctxOwner e = t.dev.ctxOwner e) ∧ t.mem = s.mem) ∧
      (s.dev.stopped g = false →
        (∀ p, c.opcode = 0x31 → (u.pipeLoad g c).2 = .inl p →
          Does s (.pipeLoad f q) fun t => (t.dev.gctx g).loading = some p ∧ (t.dev.gctx g).cmds = [(ref, c)] ∧ t.dev.Running ref ∧ t.mem = s.mem) ∧
        (∀ st res, c.opcode = 0x31 → (u.pipeLoad g c).2 = .inr (st, res) →
          Does s (.pipeLoad f q) fun t => t.dev.Ended ref st (res % 2 ^ 32) ∧ (t.dev.gctx g).loading = none ∧ (t.dev.gctx g).cmds = [] ∧ t.mem = s.mem) ∧
        (c.opcode = 0x32 → firstError (u.dev.gpuHead g c ++ [(!c.conts.isEmpty, ST_BAD_FIELD, errAt 32), (!c.zero 35 63, ST_BAD_FIELD, errByte 35),
            (((s.dev.gctx g).pipes.get (c.u 34 1)).isNone, ST_BAD_FIELD, errByte 34)]) = none →
          Does s (.pipeFree f q) fun t => t.dev.Ended ref ST_OK 0 ∧ (t.dev.gctx g).pipes = (s.dev.gctx g).pipes.put (c.u 34 1) none ∧ t.mem = s.mem) ∧
        (∀ raw, c.opcode = 0x33 → u.dev.passFieldErr g c = none → (u.readMem (u.dev.gpuReq g) 4 (c.u 40 8) (32 * c.u 34 1)).2 = .ok raw →
          u.dev.targetErr g c raw = none →
          Does s (.passBegin f q) fun t => t.dev.Ended ref ST_OK 0 ∧ (∃ p, (t.dev.gctx g).pass = some p ∧ p.width = c.u 36 2 ∧ p.height = c.u 38 2 ∧
            p.targets = (List.range (c.u 34 1)).map (fun i => GTarget.parse (raw.drop (32 * i))) ∧ p.drawn = [] ∧ p.renders = 0 ∧ p.flags = c.u 35 1 ∧
            (∀ x y k ws, (p.start x y k ws).depth = c.u 48 4 ∧ (p.start x y k ws).stencil = c.u 52 1)) ∧
            t.dev.fb GPU_CTX_STAT.PASS_OPEN g = true ∧ t.mem = s.mem) ∧
        (∀ p, c.opcode = 0x34 → u.dev.drawErr g c = none → (s.dev.gctx g).pipes.get (c.u 34 1) = some p → s.dev.cached f.code p = true →
          Does s (.draw f q) fun t => (t.dev.gctx g).active = true ∧ (t.dev.gctx g).cmds = [(ref, c)] ∧ t.dev.Running ref ∧ t.mem = s.mem) ∧
        (∀ p (v w : State) ds, c.opcode = 0x36 → u.dev.dispatchErr g c = none → (s.dev.gctx g).pipes.get (c.u 34 1) = some p → s.dev.cached f.code p = true →
          v = u.onDev (·.cachePut f.code p) → v.dispatchDims g c = (w, none, ds) →
          (∀ tbl, (∀ n ∈ ds, 1 ≤ n ∧ n ≤ 65535) → (w.readTable g (c.u 48 8) p.setSize).2 = (none, tbl) →
            Does s (.dispatch f q) fun t => (t.dev.gctx g).active = true ∧ (t.dev.gctx g).cmds = [(ref, c)] ∧ (t.dev.gctx g).todo = ds.foldl (· * ·) 1 ∧
              (t.dev.gctx g).res = tbl ∧ t.dev.Running ref ∧ t.mem = s.mem) ∧
          ((∃ n ∈ ds, n = 0 ∨ 65535 < n) →
            Does s (.dispatch f q) fun t => t.dev.Ended ref ST_BAD_FIELD (errByte 56) ∧ (t.dev.gctx g).cmds = [] ∧ t.mem = s.mem)) ∧
        (c.opcode = 0x35 → u.dev.passEndErr g c = none →
          Does s (.passEnd f q) fun t => (t.dev.gctx g).active = true ∧ (t.dev.gctx g).cmds = [(ref, c)] ∧ t.dev.Running ref ∧ t.mem = s.mem)))

/-- The clusters (R340, R342, R344 to R351, R355, R364 to R373, R383): work goes on from boundary to boundary and completes its command when it ends,
a fault or a full arena stops it, fragments blend in the order of their draws, a slice expires, the guard requests clusters and at START_DEADLINE
their work is evicted, a translation gives a handle, and spares and owners change. The model's readings that this rests on: log entries 25, 41, 91,
92, 126, 141, 142, 144, 169. -/
def Obligations.ClustersRunAndEvict : Prop :=
  ∀ (s : State), s.dev.regsWf = true → s.dev.tablesWf = true →
    (∀ (k : Fin 8) (st : GpuStep) (g : Nat) (ref : CmdRef) (c : Cmd) (v : State), (s.dev.cluster k.val).run = some g → (s.dev.gctx g).cmds = [(ref, c)] →
      (s.dev.gctx g).active = true → s.dev.stopped g = false → s.dev.ctxHalted g = false → s.dev.Running ref →
      v = s.onDev (fun d => ((d.ctxStep g).ctxLatch g).updCtx g fun x => { x with got := [] }) →
      (c.opcode = 0x36 → st.fault = false → st.accs = [] →
        ((s.dev.gctx g).todo ≤ st.groups →
          Does s (.preemptionBoundary k st) fun t => t.dev.Ended ref ST_OK 0 ∧ (t.dev.gctx g).cmds = [] ∧ (t.dev.gctx g).active = false ∧ t.mem = s.mem) ∧
        (st.groups < (s.dev.gctx g).todo →
          Does s (.preemptionBoundary k st) fun t => t.dev.Running ref ∧ (t.dev.gctx g).cmds = [(ref, c)] ∧
            (t.dev.gctx g).todo = (s.dev.gctx g).todo - st.groups ∧ t.mem = s.mem)) ∧
      (∀ p pipe args res w, c.opcode = 0x34 → st.fault = false → st.accs = [] → st.prims = [] → (s.dev.gctx g).pass = some p →
        (s.dev.gctx g).pipes.get (c.u 34 1) = some pipe → v.drawArgs g c = (w, none, args) →
        (w.readTable g (c.u 56 8) pipe.setSize).2 = (none, res) → ((w.readTable g (c.u 56 8) pipe.setSize).1.drawFetch g c pipe args).2 = none →
        Does s (.preemptionBoundary k st) fun t => t.dev.Ended ref ST_OK 0 ∧ t.mem = s.mem ∧
          ∃ dr, (t.dev.gctx g).pass = some { p with drawn := p.drawn ++ [dr] } ∧ dr.raster = pipe.raster ∧ dr.blend = pipe.blend ∧ dr.res = res) ∧
      (c.opcode = 0x35 → st.fault = false → (v.passTiles g st).2 = (none, true) →
        Does s (.preemptionBoundary k st) fun t => t.dev.Ended ref ST_OK 0 ∧ (t.dev.gctx g).pass = none ∧ t.mem = (v.passTiles g st).1.mem) ∧
      (c.opcode = 0x34 → st.fault = false → (v.drawBin g c st).2 = some ST_TILE_OOM →
        Does s (.preemptionBoundary k st) fun t => t.dev.Ended ref ST_TILE_OOM 0 ∧ t.dev.stopped g = true ∧ t.dev.fb GPU_CTX_STAT.TILE_OOM g = true ∧
          t.dev.pend 259 = true ∧ (t.dev.gctx g).pass = none) ∧
      (st.fault = true →
        Does s (.preemptionBoundary k st) fun t => t.dev.Ended ref ST_ENGINE_FAULT 0 ∧ t.dev.pend 261 = true ∧ (t.dev.gctx g).pass = none ∧
          t.dev.stopped g = false ∧ t.mem = s.mem)) ∧
    (∀ fs : List Frag, (orderFrags fs).Perm fs ∧ (orderFrags fs).Pairwise fun a b => a.draw < b.draw ∨ a.draw = b.draw ∧ a.prim ≤ b.prim) ∧
    (∀ (x : GpuCtx) (p : PassSt) (n a : Nat) (p1 : PassSt), x.binPlace p n = some (a, p1) →
      (x.arenaBase ≤ a ∧ a + n ≤ x.arenaBase + 1024 * x.arenaKib) ∨ (x.basketBase ≤ a ∧ a + n + p.area ≤ x.basketBase + 2 ^ 20 * x.basketMib)) ∧
    (∀ k : Fin 8, (s.dev.cluster k.val).run.isSome = true → (s.dev.cluster k.val).since + 1000 * s.dev.timeslice ≤ s.dev.now →
      Does s (.timesliceExpire k) fun t => t.dev.cluster k.val = { s.dev.cluster k.val with expired := true } ∧
        (∀ j, j ≠ k.val → t.dev.cluster j = s.dev.cluster j) ∧ s.Only t [.GPU_SC_STAT]) ∧
    (∀ g : Fin 128, s.dev.ctxReady g.val = true → (s.dev.gctx g.val).deadline ≠ 0 → (s.dev.gctx g.val).fired = false →
      (s.dev.gctx g.val).deadline ≤ s.dev.now + 1000 * (s.dev.gctx g.val).guard →
      Does s (.deadlineGuard g) fun t => (t.dev.gctx g.val).fired = true ∧ t.mem = s.mem ∧
        ((s.dev.holdsClusters g.val).length < s.dev.ctxNeed g.val → t.dev.pend 256 = true ∧
          ∀ k ∈ (s.dev.guardOrder g.val).take (s.dev.ctxNeed g.val - (s.dev.holdsClusters g.val).length), (t.dev.cluster k).req = some g.val)) ∧
    (∀ (g : Fin 128) (k h : Nat) (ref : CmdRef) (c : Cmd), k < 8 → s.dev.ctxReady g.val = true → (s.dev.gctx g.val).deadline ≠ 0 →
      (s.dev.gctx g.val).deadline ≤ s.dev.now → s.dev.holdsClusters g.val = [] → (s.dev.cluster k).req = some g.val → bit (s.dev.ctxMask g.val) k = true → s.dev.levelFits k g.val = true →
      (∀ j < 8, j ≠ k → (s.dev.cluster j).req ≠ some g.val) → (s.dev.cluster k).run = some h → h < 128 → s.dev.noEvict h = false → s.dev.stopped h = false →
      (s.dev.gctx h).cmds = [(ref, c)] → s.dev.Running ref →
      Does s (.startDeadlineExpire g) fun t => (t.dev.cluster k).run = some g.val ∧ t.dev.Ended ref ST_EVICTED 0 ∧ t.dev.stopped h = true ∧
        t.dev.fb GPU_CTX_STAT.EVICTED h = true ∧ t.dev.fb GPU_CTX_STAT.GUILTY h = true ∧ t.dev.pend 257 = true ∧ t.mem = s.mem) ∧
    (∀ (g : Fin 128) (p : Pipe) (ref : CmdRef) (c : Cmd) (h : Nat), (s.dev.gctx g.val).loading = some p → (s.dev.gctx g.val).cmds = [(ref, c)] →
      s.dev.Running ref → p.pin = false →
      (p.kib ≤ 1024 → ((List.range 256).find? fun h => ((s.dev.gctx g.val).pipes.get h).isNone) = some h →
        Does s (.pipeTranslated g) fun t => t.dev.Ended ref ST_OK h ∧ (t.dev.gctx g.val).pipes.get h = some p ∧ (t.dev.gctx g.val).loading = none ∧
          t.mem = s.mem) ∧
      (1024 < p.kib → Does s (.pipeTranslated g) fun t => t.dev.Ended ref ST_RESOURCE_LIMIT 0 ∧
        (t.dev.gctx g.val).pipes = (s.dev.gctx g.val).pipes ∧ t.mem = s.mem)) ∧
    (∀ (k : Fin 8) (r : SwapReq) (p : Nat), (s.dev.cluster k.val).swap = some r →
      (r.back = false → ((List.range 10).find? fun p => s.dev.f GPU_SC_STAT.ROLE p == 1) = some p → s.dev.physOf k.val ≠ p →
        Does s (.clusterSwap k) fun t => t.dev.f GPU_SC_STAT.ROLE p = 0 ∧ t.dev.f GPU_SC_STAT.LOGICAL p = k.val ∧
          t.dev.f GPU_SC_STAT.ROLE (s.dev.physOf k.val) = 2 ∧ (t.dev.cluster k.val).run = (s.dev.cluster k.val).run ∧ t.dev.pend 486 = true ∧
          (∀ ref, r.cmd = some ref → s.dev.Running ref → t.dev.Ended ref ST_OK 0) ∧ s.Only t (.GPU_SC_STAT :: .MGT_BENCH :: told)) ∧
      (∀ u us, r.back = true → (s.dev.mgt.bench.filter fun u => u.kind == 2 && u.resource == k.val) = u :: us →
        p = (match us with | v :: _ => v.spare | [] => k.val) → s.dev.physOf k.val ≠ p →
        Does s (.clusterSwap k) fun t => t.dev.f GPU_SC_STAT.ROLE p = 0 ∧ t.dev.f GPU_SC_STAT.LOGICAL p = k.val ∧
          t.dev.f GPU_SC_STAT.ROLE (s.dev.physOf k.val) = 1 ∧ (t.dev.cluster k.val).run = (s.dev.cluster k.val).run ∧
          (∀ ref, r.cmd = some ref → s.dev.Running ref → t.dev.Ended ref ST_OK 0) ∧
          s.Only t (.GPU_SC_STAT :: .MGT_BENCH :: told))) ∧
    (∀ (who : Fn) (g : Fin 128) (val : Word), assigner who = true → s.dev.holdsClusters g.val = [] →
      (s.dev.Accepts who .GPU_CTX_ASSIGN g.val val → s.dev.mayGive who (s.dev.ctxOwner g.val) = true →
        s.dev.mayGive who (GPU_CTX_ASSIGN.OWNER.get val) = true → bit val.toNat 21 = false ∨ s.dev.secureCtx (GPU_CTX_ASSIGN.OWNER.get val) = true →
        Does s (.ctxAssignWrite who g val) fun t => s.dev.Takes t.dev .GPU_CTX_ASSIGN g.val val ∧
          t.dev.ctxMask g.val = GPU_CTX_ASSIGN.CLUSTER_MASK.get val ∧
          (GPU_CTX_ASSIGN.OWNER.get val ≠ s.dev.ctxOwner g.val → t.dev.gctx g.val = {} ∧ t.dev.f GPU_CTX_STAT.STATE g.val = 0) ∧ t.mem = s.mem) ∧
      ((s.dev.mayGive who (s.dev.ctxOwner g.val) = false ∨ s.dev.mayGive who (GPU_CTX_ASSIGN.OWNER.get val) = false) →
        GPU_CTX_ASSIGN.OWNER.get val ≠ s.dev.ctxOwner g.val →
        Does s (.ctxAssignWrite who g val) fun t => t.dev.ctxOwner g.val = s.dev.ctxOwner g.val ∧ t.dev.fb GPU_CTX_STAT.WERR g.val = true ∧
          t.dev.gctx g.val = s.dev.gctx g.val ∧ t.mem = s.mem))

/-- Copy channels (R106, R376, R378, R380, R381, R539): a copy command that passes the checks runs on its channel or waits, behind the one that runs
or for a change of world; when its last transfer retires it completes, having written its destination rows alone; and a change of owner waits for the
command that runs. The model's readings that this rests on: log entries 66, 87, 88. -/
def Obligations.CopyCommandsRunOnTheirChannels : Prop :=
  ∀ (s : State), s.dev.regsWf = true → s.dev.tablesWf = true →
    (∀ (i : Instr) (f : Fn) (q : Fin 8) (c : Cmd) (ref : CmdRef), s.Bare f q c → ref = ⟨qi f q, c.id⟩ →
      (i = .copy f q ∧ c.opcode = 0x60 ∨ i = .copy2d f q ∧ c.opcode = 0x61 ∨ i = .fill f q ∧ c.opcode = 0x62 ∨ i = .convert f q ∧ c.opcode = 0x63 ∨
        i = .crcFeed f q ∧ c.opcode = 0x64) →
      (∀ st res, s.dev.copyErr f c = some (st, res) →
        Does s i fun t => t.dev.Ended ref st (res % 2 ^ 32) ∧ t.dev.gpu = s.dev.gpu ∧ (s.started f q c).Only t []) ∧
      (s.dev.copyErr f c = none → s.dev.vfHeld f.code = false →
        ((s.dev.chan c.cpChan).run = none → (s.dev.chan c.cpChan).queue = [] → s.dev.chanWorldHeld (c.cpChan / 16) (c.cpChan % 16) = false →
          (c.opcode = 0x64 → s.dev.fb CVU_CTRL.BUSY (c.u 34 1 % 8) = false) →
          Does s i fun t => t.dev.chan c.cpChan = { run := some { ref := ref, cmd := c, code := f.code }, queue := [], host := [] } ∧
            t.dev.fb CPE_CH_STAT.BUSY c.cpChan = true ∧ (c.opcode = 0x64 → t.dev.fb CVU_CTRL.BUSY (c.u 34 1 % 8) = true) ∧ t.dev.Running ref ∧
            (∀ y, y ≠ c.cpChan → t.dev.chan y = s.dev.chan y) ∧ (s.started f q c).Only t [.CPE_CH_STAT, .CVU_CTRL]) ∧
        ((s.dev.chan c.cpChan).run.isSome = true →
          (∀ j ∈ (s.dev.chan c.cpChan).queue, j.cmd.secure = s.dev.chanSecure (c.cpChan / 16) (c.cpChan % 16)) →
          Does s i fun t => t.dev.chan c.cpChan = { s.dev.chan c.cpChan with queue := (s.dev.chan c.cpChan).queue ++ [{ ref := ref, cmd := c, code := f.code }] } ∧
            t.dev.Running ref ∧ (s.started f q c).Only t []) ∧
        ((s.dev.chan c.cpChan).run = none → s.dev.chanWorldHeld (c.cpChan / 16) (c.cpChan % 16) = true →
          Does s i fun t => (t.dev.chan c.cpChan).run = none ∧
            (t.dev.chan c.cpChan).queue = (s.dev.chan c.cpChan).queue ++ [{ ref := ref, cmd := c, code := f.code }] ∧ t.dev.Running ref ∧ (s.started f q c).Only t []))) ∧
    (∀ (e : Fin 4) (ch : Fin 16) (peer : PeerReply) (x : Nat) (j : CpJob), x = cpeIdx e.val ch.val → (s.dev.chan x).run = some j →
      (s.dev.chan x).queue = [] → s.dev.Running j.ref → s.dev.f CPE_CH_ASSIGN.OWNER x = s.dev.cpOwner x →
      (s.dev.vfHeld j.code = false → s.dev.cpSrcPeer x = none → s.dev.cpDstPeer x = none → j.cmd.srcHost = false →
        0x60 ≤ j.cmd.opcode → j.cmd.opcode ≤ 0x64 →
        Does s (.copyDone e ch peer) fun t => t.mem = (s.cpMove x j).1.mem ∧ t.dev.Ended j.ref ((s.cpMove x j).2.1.getD ST_OK) 0 ∧
          t.dev.chan x = {} ∧ t.dev.fb CPE_CH_STAT.BUSY x = false ∧
          ((s.cpMove x j).2.1.isSome = true → t.dev.fb CPE_CH_STAT.FAULT x = true ∧ t.dev.pend (288 + e.val) = true) ∧
          ∀ p, (∀ k < j.cmd.shape.rows, ∀ o < j.cmd.shape.dbytes, ¬s.dev.Homes (j.cmd.cpDst + k * j.cmd.shape.dstride + o) p ∧
              ¬s.dev.Homes (s.dev.own.tableBase + ownOffset (j.cmd.cpDst + k * j.cmd.shape.dstride + o)) p) → t.mem.byte p = s.mem.byte p) ∧
      (∀ st, s.dev.cpPeerFault x j.cmd peer = some st →
        Does s (.copyDone e ch peer) fun t => t.dev.Ended j.ref st 0 ∧ t.dev.chan x = {} ∧ t.dev.fb CPE_CH_STAT.BUSY x = false ∧
          t.dev.fb CPE_CH_STAT.FAULT x = true ∧ t.dev.pend (288 + e.val) = true ∧ t.mem = s.mem)) ∧
    (∀ (who : Fn) (g : Fin 128) (val : Word), assigner who = true → s.dev.holdsClusters g.val = [] → s.dev.Accepts who .GPU_CTX_ASSIGN g.val val →
      s.dev.mayGive who (s.dev.ctxOwner g.val) = true → s.dev.mayGive who (GPU_CTX_ASSIGN.OWNER.get val) = true → bit val.toNat 21 = false →
      Does s (.ctxAssignWrite who g val) fun t => t.dev.ctxOwner g.val = GPU_CTX_ASSIGN.OWNER.get val ∧ t.mem = s.mem) ∧
    (∀ (who : Fn) (e : Fin 4) (ch : Fin 16) (val : Word) (x new : Nat), x = cpeIdx e.val ch.val → new = CPE_CH_ASSIGN.OWNER.get val →
      assigner who = true → new ≠ s.dev.f CPE_CH_ASSIGN.OWNER x →
      (s.dev.mayGive who (s.dev.f CPE_CH_ASSIGN.OWNER x) = true → s.dev.mayGive who new = true →
        (s.dev.fb CPE_CH_STAT.BUSY x = false → new ≠ s.dev.cpOwner x →
          Does s (.channelOwnerWrite who e ch val) fun t => t.dev.f CPE_CH_ASSIGN.OWNER x = new ∧ t.dev.cpOwner x = new ∧ t.dev.chan x = {} ∧
            t.dev.fb CPE_CH_STAT.PENDING x = false ∧
            (∀ j ∈ (s.dev.chan x).queue, s.dev.Running j.ref → t.dev.Ended j.ref ST_NOT_OWNER (errByte 32)) ∧
            s.Only t [.CPE_CH_ASSIGN, .CPE_CH_STAT, .PWR_DOM_STAT]) ∧
        (s.dev.fb CPE_CH_STAT.BUSY x = true →
          Does s (.channelOwnerWrite who e ch val) fun t => t.dev.f CPE_CH_ASSIGN.OWNER x = new ∧ t.dev.cpOwner x = s.dev.cpOwner x ∧
            t.dev.fb CPE_CH_STAT.PENDING x = (new != s.dev.cpOwner x) ∧ t.dev.gpu = s.dev.gpu ∧
            s.Only t [.CPE_CH_ASSIGN, .CPE_CH_STAT, .PWR_DOM_STAT])) ∧
      ((s.dev.mayGive who (s.dev.f CPE_CH_ASSIGN.OWNER x) = false ∨ s.dev.mayGive who new = false) →
        Does s (.channelOwnerWrite who e ch val) fun t => t.dev.fb CPE_CH_STAT.WERR x = true ∧ t.dev.gpu = s.dev.gpu ∧
          s.Only t [.CPE_CH_STAT, .PWR_DOM_STAT]))

/-- Touch commands (R404 to R407): a touch engine takes its image, starts, stops and rebases at once while it is OFF and at its next boundary while it
scans. The model's readings that this rests on: log entries 99, 100. -/
def Obligations.TouchCommandsConfigureEngines : Prop :=
  ∀ (s : State) (f : Fn) (q : Fin 8) (c : Cmd) (e : Nat) (ref : CmdRef), s.dev.regsWf = true → s.dev.tablesWf = true → s.Bare f q c →
    e = c.u 32 1 % 4 → ref = ⟨qi f q, c.id⟩ →
    (∀ i errs, (i = .touchSet f q ∧ c.opcode = 0x80 ∧ errs = [(decide (2 ≤ c.u 33 1) || (f == .sp0 && c.u 33 1 != 0), ST_BAD_FIELD, errByte 33),
          (!c.zero 34 39, ST_BAD_FIELD, errByte 34), (c.u 40 8 % 64 != 0, ST_BAD_FIELD, errByte 40), (!c.zero 48 63, ST_BAD_FIELD, errByte 48)] ∨
        i = .touchStart f q ∧ c.opcode = 0x81 ∧ errs = [(!c.zero 33 63, ST_BAD_FIELD, errByte 33),
          (!s.dev.fb TCH_TE_STAT.CONFIGURED e, ST_BAD_FIELD, errByte 32), (s.dev.tchState e != 0, ST_BUSY, errByte 32)] ∨
        i = .touchStop f q ∧ c.opcode = 0x82 ∧ errs = [(!c.zero 33 63, ST_BAD_FIELD, errByte 33)] ∨
        i = .touchRebase f q ∧ c.opcode = 0x83 ∧ errs = [(!c.zero 33 35, ST_BAD_FIELD, errByte 33), (!c.zero 40 63, ST_BAD_FIELD, errByte 40)]) →
      (∀ st res, firstError (s.dev.tchHead f c ++ errs) = some (st, res) →
        Does s i fun t => t.dev.Ended ref st (res % 2 ^ 32) ∧ t.dev.tch = s.dev.tch ∧ (s.started f q c).Only t []) ∧
      (firstError (s.dev.tchHead f c ++ errs) = none →
        (∀ img, c.opcode = 0x80 → c.u 33 1 = 0 → ((s.started f q c).readMem ⟨f.code, c.secure⟩ 13 (c.u 40 8) 608).2 = .ok img →
          (∀ k, TchCfg.fault img = some k →
            Does s i fun t => t.dev.Ended ref ST_BAD_FIELD (errAt 0xFFFF k) ∧ t.dev.tch = s.dev.tch ∧ (s.started f q c).Only t []) ∧
          (TchCfg.fault img = none → (if TchCfg.ringHost img then f ≠ .sp0
              else s.dev.inDevice (le img 16 8) (le img 16 8 + 32 * TchCfg.ringSize img - 1) = true) →
            (s.dev.tchState e = 0 →
              Does s i fun t => t.dev.Ended ref ST_OK 0 ∧ (t.dev.eng e).cfg = img ∧ t.dev.fb TCH_TE_STAT.CONFIGURED e = true ∧
                t.dev.fb TCH_TE_MODE.GLOVE e = TchCfg.glove img ∧ t.dev.fb TCH_TE_MODE.HOVER e = TchCfg.hover img ∧
                (∀ k, k ≠ e → t.dev.eng k = s.dev.eng k) ∧
                (s.started f q c).Only t [.TCH_TE_STAT, .TCH_TE_MODE, .TCH_KEY_STATE, .TCH_RPT_HEAD, .TCH_RPT_STAT]) ∧
            (s.dev.tchState e ≠ 0 →
              Does s i fun t => t.dev.Running ref ∧ t.dev.eng e = { s.dev.eng e with work := (s.dev.eng e).work ++ [.set ref img] } ∧
                (s.started f q c).Only t []))) ∧
        (c.opcode = 0x80 → c.u 33 1 = 1 →
          Does s i fun t => t.dev.Running ref ∧ t.dev.eng e = { s.dev.eng e with hostSet := (s.dev.eng e).hostSet ++ [(ref, [])] } ∧
            (s.started f q c).Only t []) ∧
        (c.opcode = 0x81 →
          Does s i fun t => t.dev.Ended ref ST_OK 0 ∧ t.dev.tchState e = 1 ∧ t.dev.reg .TCH_TE_SCAN e = 0 ∧ t.dev.f TCH_RPT_STAT.TAIL e = 0 ∧
            t.dev.fb TCH_RPT_STAT.PHASE e = true ∧ t.dev.reg .TCH_RPT_HEAD e = 0 ∧ (t.dev.eng e).pts = [] ∧ (t.dev.eng e).cfg = (s.dev.eng e).cfg ∧
            (s.started f q c).Only t [.TCH_TE_SCAN, .TCH_RPT_HEAD, .TCH_RPT_STAT, .TCH_KEY_STATE, .TCH_TE_STAT]) ∧
        (c.opcode = 0x82 →
          (s.dev.tchState e = 0 →
            Does s i fun t => t.dev.Ended ref ST_OK 0 ∧ t.dev.tchState e = 0 ∧ t.dev.f TCH_TE_STAT.CONTACTS e = 0 ∧ (t.dev.eng e).inScan = false ∧
              (s.started f q c).Only t [.TCH_TE_STAT]) ∧
          (s.dev.tchState e ≠ 0 →
            Does s i fun t => t.dev.Running ref ∧ t.dev.eng e = { s.dev.eng e with work := (s.dev.eng e).work ++ [.stop ref] } ∧
              (s.started f q c).Only t [])) ∧
        (c.opcode = 0x83 →
          (s.dev.tchState e = 0 →
            Does s i fun t => t.dev.Ended ref ST_OK ((s.dev.tchRebase e (c.u 36 4)).2 % 2 ^ 32) ∧
              t.dev.tch = (s.dev.tchRebase e (c.u 36 4)).1.tch ∧ (s.started f q c).Only t []) ∧
          (s.dev.tchState e ≠ 0 →
            Does s i fun t => t.dev.Running ref ∧ t.dev.eng e = { s.dev.eng e with work := (s.dev.eng e).work ++ [.rebase ref (c.u 36 4)] } ∧
              (s.started f q c).Only t []))))

/-- Touch scans (R390, R392, R403, R405, R409, R410): SCAN_US starts a scan or waits for the end of the one in progress, which has overrun where it
takes longer than SCAN_US, a boundary counts the scan, moves every point by R392 and reports into the ring alone, and at a boundary a stop, a quiesce
or a new owner takes effect. The model's readings that this rests on: log entries 97, 98, 99, 101, 146. -/
def Obligations.TouchScansMovePointsAndReport : Prop :=
  ∀ (s : State) (e : Fin 4) (x : TchEng), s.dev.regsWf = true → s.dev.tablesWf = true → x = s.dev.eng e.val → s.dev.tchState e.val = 1 →
    (s.dev.now < x.nextAt → Does s (.scanStart e) fun t => t = s) ∧
    (x.nextAt ≤ s.dev.now → x.inScan = false → Does s (.scanStart e) fun t =>
      t.dev.eng e.val = { x with inScan := true, due := false, startedAt := s.dev.now, nextAt := x.nextAt + TchCfg.periodNs x.cfg } ∧ s.Only t []) ∧
    (x.nextAt ≤ s.dev.now → x.inScan = true → Does s (.scanStart e) fun t =>
      t.dev.eng e.val = { x with due := true, nextAt := x.nextAt + TchCfg.periodNs x.cfg } ∧
      (TchCfg.scanLong x.cfg = true → t.dev.fb TCH_TE_STAT.OVERRUN e.val = true ∧ t.dev.pend (304 + 8 * e.val + 6) = true ∧
        s.Only t (.TCH_TE_STAT :: told)) ∧
      (TchCfg.scanLong x.cfg = false → s.Only t [])) ∧
    (∀ counts, s.dev.now < x.startedAt + 1000 * TchCfg.scanUs x.cfg → Does s (.scanBoundary e counts) fun t => t = s) ∧
    (∀ counts, x.inScan = true → x.startedAt + 1000 * TchCfg.scanUs x.cfg ≤ s.dev.now →
      (s.dev.tchOwnerDue e.val = true →
        Does s (.scanBoundary e counts) fun t => t.dev.tchOwner e.val = s.dev.f TCH_TE_ASSIGN.OWNER e.val ∧ t.dev.tchState e.val = 0 ∧
          t.dev.fb TCH_TE_STAT.CONFIGURED e.val = false ∧ (t.dev.eng e.val).cfg = [] ∧
          (x.toSpare = [] → ∀ w ∈ x.work, s.dev.Running w.ref → t.dev.Ended w.ref ST_NOT_OWNER (errByte 32)) ∧
          t.dev.reg .TCH_TE_SCAN e.val = s.dev.reg .TCH_TE_SCAN e.val + 1 ∧ t.mem = s.mem) ∧
      (s.dev.tchOwnerDue e.val = false → x.work = [] →
        ((x.quiet = true ∨ x.frozen = true) →
          Does s (.scanBoundary e counts) fun t => t.dev.tchState e.val = 0 ∧ (t.dev.eng e.val).inScan = false ∧ (t.dev.eng e.val).pts = x.pts ∧
            (TchCfg.scanLong x.cfg = true → x.due = false →
              t.dev.fb TCH_TE_STAT.OVERRUN e.val = true ∧ t.dev.pend (304 + 8 * e.val + 6) = true) ∧
            t.dev.reg .TCH_TE_SCAN e.val = s.dev.reg .TCH_TE_SCAN e.val + 1 ∧
            s.Only t ([.TCH_TE_SCAN, .TCH_TE_TIME, .TCH_TE_STAT] ++ if TchCfg.scanLong x.cfg = true then told else [])) ∧
        (x.quiet = false → x.frozen = false → x.toSpare = [] →
          Does s (.scanBoundary e counts) fun t => t.dev.reg .TCH_TE_SCAN e.val = s.dev.reg .TCH_TE_SCAN e.val + 1 ∧
            (t.dev.eng e.val).pts = (tchStep x.cfg s.dev.now (s.dev.tchPoints e.val x.cfg counts) x.pts).1 ∧ (t.dev.eng e.val).cfg = x.cfg ∧
            ∀ p, (∀ o < 131072, ¬s.dev.Homes (le x.cfg 16 8 + o) p ∧ ¬s.dev.Homes (s.dev.own.tableBase + ownOffset (le x.cfg 16 8 + o)) p) →
              t.mem.byte p = s.mem.byte p)) ∧
      (∀ ref, s.dev.tchOwnerDue e.val = false → x.work = [.stop ref] → s.dev.Running ref →
        Does s (.scanBoundary e counts) fun t => t.dev.Ended ref ST_OK 0 ∧ t.dev.tchState e.val = 0 ∧ (t.dev.eng e.val).work = [] ∧
          (t.dev.eng e.val).pts = x.pts ∧
          s.Only t ([.TCH_TE_SCAN, .TCH_TE_TIME, .TCH_TE_STAT] ++ if TchCfg.scanLong x.cfg = true then told else []))) ∧
    (∀ (p : Point) (cfg : TchCfg) (o : TObj) (now count : Nat),
      (p.st = .init → p.n = 3 → (p.next cfg o now count).1.st = .track ∧ (p.next cfg o now count).1.base = min p.kept count) ∧
      (p.st = .recal → p.n = 0 → (p.next cfg o now count).1 = { p with n := 1, kept := count, delta := (count : Int) - p.base }) ∧
      (p.st = .recal → p.n ≠ 0 → (p.next cfg o now count).1.st = .track ∧ (p.next cfg o now count).1.base = (p.kept + count) / 2) ∧
      (p.st = .track → (le cfg 10 1) ≤ p.deb + 1 → ((if cfg.glove then o.gloveTh else o.touchTh : Nat) : Int) ≤ (count : Int) - p.base →
        -(le cfg 12 2 : Int) < (count : Int) - p.base → (p.next cfg o now count).1.st = .touched ∧ (p.next cfg o now count).1.since = now) ∧
      (p.st = .touched → (count : Int) - p.base < (o.relTh : Int) → (p.neg + 1 < 2 ∨ -(le cfg 12 2 : Int) < (count : Int) - p.base) →
        (p.next cfg o now count).1.st = .track ∧ (p.next cfg o now count).1.base = p.base)) ∧
    (∀ (who : Fn) (val : Word) (k : Fin 4), s.dev.tchState k.val = 0 → assigner who = true → TCH_TE_ASSIGN.OWNER.get val ≠ s.dev.tchOwner k.val →
      TCH_TE_ASSIGN.OWNER.get val ≠ s.dev.f TCH_TE_ASSIGN.OWNER k.val → s.dev.mayGive who (s.dev.f TCH_TE_ASSIGN.OWNER k.val) = true →
      s.dev.mayGive who (TCH_TE_ASSIGN.OWNER.get val) = true →
      Does s (.teAssignWrite who k val) fun t => t.dev.tchOwner k.val = TCH_TE_ASSIGN.OWNER.get val) ∧
    (∀ (who : Fn) (val : Word), s.dev.reachesEngine who e.val = true → s.dev.Accepts who .TCH_RPT_HEAD e.val val →
      Does s (.reportHeadWrite who e val) fun t => s.dev.Takes t.dev .TCH_RPT_HEAD e.val val) ∧
    (∀ ls, s.dev.acholtRuns = true → s.dev.checkDue e.val = true → Does s (.frontEndCheck e ls) fun t =>
      (t.dev.eng e.val).checkAt = s.dev.now + 10000000000)

/-- Touch owners, the report ring and spare front ends (R401, R409, R411, R414): an engine that is OFF changes owner at once, a write of TCH_RPT_HEAD
releases entries, and a failed front end takes a spare, or marks its line failed when no spare is left. The model's readings that this rests on: log
entries 99, 101. -/
def Obligations.TouchOwnersHeadsAndSpares : Prop :=
  ∀ (s : State) (e : Fin 4), s.dev.regsWf = true → s.dev.tablesWf = true →
    (∀ (who : Fn) (val : Word) (new : Nat), assigner who = true → new = TCH_TE_ASSIGN.OWNER.get val → new ≠ s.dev.f TCH_TE_ASSIGN.OWNER e.val →
      (s.dev.mayGive who (s.dev.f TCH_TE_ASSIGN.OWNER e.val) = true → s.dev.mayGive who new = true →
        (s.dev.tchState e.val = 0 → new ≠ s.dev.tchOwner e.val →
          Does s (.teAssignWrite who e val) fun t => t.dev.f TCH_TE_ASSIGN.OWNER e.val = new ∧ t.dev.tchOwner e.val = new ∧
            t.dev.fb TCH_TE_STAT.CONFIGURED e.val = false ∧ (t.dev.eng e.val).cfg = [] ∧ t.dev.reg .TCH_WAKE_MASK e.val = 0 ∧
            (∀ w ∈ (s.dev.eng e.val).work, s.dev.Running w.ref → t.dev.Ended w.ref ST_NOT_OWNER (errByte 32)) ∧
            (∀ k, k ≠ e.val → t.dev.eng k = s.dev.eng k) ∧ t.mem = s.mem) ∧
        (s.dev.tchState e.val ≠ 0 →
          Does s (.teAssignWrite who e val) fun t => t.dev.f TCH_TE_ASSIGN.OWNER e.val = new ∧ t.dev.tchOwner e.val = s.dev.tchOwner e.val ∧
            t.dev.tch = s.dev.tch ∧ s.Only t [.TCH_TE_ASSIGN, .PWR_DOM_STAT])) ∧
      ((s.dev.mayGive who (s.dev.f TCH_TE_ASSIGN.OWNER e.val) = false ∨ s.dev.mayGive who new = false) →
        Does s (.teAssignWrite who e val) fun t => t.dev.fb TCH_TE_STAT.WERR e.val = true ∧ t.dev.pend (304 + 8 * e.val + 6) = true ∧
          t.dev.tch = s.dev.tch ∧ s.Only t (.TCH_TE_STAT :: .PWR_DOM_STAT :: told))) ∧
    (∀ (who : Fn) (val : Word),
      (s.dev.reachesEngine who e.val = true → s.dev.Accepts who .TCH_RPT_HEAD e.val val →
        Does s (.reportHeadWrite who e val) fun t => s.dev.Takes t.dev .TCH_RPT_HEAD e.val val ∧
          (t.dev.eng e.val).unreleased = (s.dev.eng e.val).unreleased -
            (t.dev.f TCH_RPT_HEAD.HEAD e.val + 4096 - s.dev.f TCH_RPT_HEAD.HEAD e.val) % TchCfg.ringSize (s.dev.eng e.val).cfg ∧
          s.Only t [.TCH_RPT_HEAD, .PWR_DOM_STAT]) ∧
      (s.dev.reachesEngine who e.val = false → Does s (.reportHeadWrite who e val) fun t => t = s)) ∧
    (∀ ls, s.dev.checkDue e.val = false → Does s (.frontEndCheck e ls) fun t => t = s) ∧
    (∀ l : Fin 64, s.dev.acholtRuns = true → s.dev.checkDue e.val = true → s.dev.autoBench 6 = true → s.dev.lineFailed e.val l.val = false → (s.dev.eng e.val).toSpare = [] →
      (s.dev.tchState e.val = 0 →
        (s.dev.f TCH_TE_STAT.SPARES_USED e.val < 4 →
          Does s (.frontEndCheck e [l]) fun t => t.dev.f TCH_TE_STAT.SPARES_USED e.val = s.dev.f TCH_TE_STAT.SPARES_USED e.val + 1 ∧
            t.dev.pend (304 + 8 * e.val + 4) = true ∧ t.dev.lineFailed e.val l.val = false ∧ (t.dev.eng e.val).toSpare = [] ∧
            s.Only t (.TCH_TE_STAT :: .MGT_BENCH :: told)) ∧
        (4 ≤ s.dev.f TCH_TE_STAT.SPARES_USED e.val →
          Does s (.frontEndCheck e [l]) fun t => t.dev.lineFailed e.val l.val = true ∧ t.dev.pend (304 + 8 * e.val + 4) = true ∧
            t.dev.pend 487 = true ∧ s.Only t (.TCH_FAIL_LO :: .TCH_FAIL_HI :: told))) ∧
      (s.dev.tchState e.val ≠ 0 →
        Does s (.frontEndCheck e [l]) fun t => (t.dev.eng e.val).toSpare = [(l.val, ⟨1, none, false⟩)] ∧
          (t.dev.eng e.val).checkAt = s.dev.now + 10000000000 ∧ s.Only t []))

/-- Cold reset, thermal trip and the calendar state (R77, R579 to R582, R594): every register but those that R582 keeps returns to its reset value, device
SRAM is cleared as PORST_n rises and straps are sampled, and a trip keeps the device in reset while it is hot. The model's readings that this rests
on: log entries 2, 10, 52, 54, 56. -/
def Obligations.ColdResetsTripsAndCalendar : Prop :=
  ∀ (s : State), s.dev.regsWf = true → s.dev.tablesWf = true →
    (Does s .porstAssert fun t => t.dev.pwr.phase = .reset ∧
      (∀ r i, r ≠ .PWR_STATE_STAT → r ≠ .OWN_LOCK_STAT → t.dev.reg r i = (if coldKeeps r then s.dev.reg r i else Reg.resetAt r i)) ∧
      t.dev.f OWN_LOCK_STAT.EPOCH_FLOOR 0 = s.dev.mgt.epochSteps % 64 ∧
      (∀ r i, t.dev.liveReg r i = Reg.resetAt r i) ∧ t.dev.fb PWR_STATE_STAT.TRIP 0 = s.dev.fb PWR_STATE_STAT.TRIP 0 ∧ t.dev.hrq.queues = [] ∧
      t.dev.mgt.flash = s.dev.mgt.flash ∧ t.dev.mgt.log = s.dev.mgt.log ∧ t.mem = s.mem) ∧
    (∀ st : Straps, (s.dev.pwr.phase = .reset ∨ s.dev.pwr.phase = .calendar) →
      (s.dev.pwr.held = true → st.hot = true → Does s (.porstDeassert st) fun t => t.dev.pwr.phase = .tripped ∧ s.Only t []) ∧
      ((s.dev.pwr.held = false ∨ st.hot = false) →
        Does s (.porstDeassert st) fun t => t.dev.pwr.phase = .on ∧ t.dev.pwr.held = false ∧ t.dev.mgt.phase = .starting ∧
          t.dev.msys.ddrBytes = ddrSize st.gib st.ecc ∧ t.dev.f MGT_STAT.BOOT_SEL 0 = st.bootSel.val ∧ t.dev.f CNV_STAT.POSITION 0 = st.convoyId.val ∧
          t.dev.fb MEM_DDR_STAT.ECC_EN 0 = st.ecc ∧ t.dev.fb MEM_DDR_STAT.ECC_EN 1 = st.ecc ∧ t.dev.mgt.flash = s.dev.mgt.flash ∧
          t.dev.acholtRuns = false ∧
          ∀ p, t.mem.byte p = (if ddrBase ≤ p then s.mem.byte p else 0) ∧ (p < ddrBase → t.mem.poison.get p = false))) ∧
    (∀ (site : Fin 24) (temp : BitVec 12),
      (s.dev.pwr.phase = .calendar → Does s (.thermalTrip site temp) fun t => t = s) ∧
      (s.dev.pwr.phase ≠ .calendar → Does s (.thermalTrip site temp) fun t =>
        t.dev.pwr.phase = (if s.dev.pwr.phase = .reset then .reset else .tripped) ∧ t.dev.pwr.held = true ∧ t.dev.fb PWR_STATE_STAT.TRIP 0 = true ∧
        t.dev.pwr.rail = railPin (s.dev.reg .PWR_STATE_CTRL 0) ∧ t.dev.mgt.trips = s.dev.mgt.trips ++ [(site.val, temp.toNat)] ∧
        (∀ r i, r ≠ .PWR_STATE_STAT → r ≠ .OWN_LOCK_STAT → t.dev.reg r i = (if coldKeeps r then s.dev.reg r i else Reg.resetAt r i)) ∧
        t.mem = s.mem)) ∧
    (Does s .calendarEntry fun t => t.dev.pwr.phase = .calendar ∧ (∀ p, t.mem.byte p = 0) ∧ t.dev.mgt.log = [] ∧
      t.dev.fb PWR_STATE_STAT.TRIP 0 = false ∧ t.dev.reg .MGT_CAL_SEC 0 = s.dev.reg .MGT_CAL_SEC 0 ∧
      t.dev.reg .MGT_CAL_ALARM 0 = s.dev.reg .MGT_CAL_ALARM 0 ∧ t.dev.mgt.flash = s.dev.mgt.flash ∧
      ∀ k, (t.dev.hrq.keys.get k).counter = 0 ∧ (t.dev.hrq.keys.get k).key = (s.dev.hrq.keys.get k).key) ∧
    ((s.dev.fb MGT_CAL_SUB.VALID 0 = true → ∀ sec, sec = ((s.dev.reg .MGT_CAL_SEC 0).toNat + 1) % 2 ^ 32 →
        Does s .calendarSecond fun t => (t.dev.reg .MGT_CAL_SEC 0).toNat = sec ∧ t.dev.f MGT_CAL_SUB.CAL_SUB 0 = 0 ∧
          (s.dev.fb MGT_CAL_SUB.ALARM_EN 0 = true → (s.dev.reg .MGT_CAL_ALARM 0).toNat = sec →
            t.dev.fb MGT_CAL_SUB.ALARM 0 = true ∧ t.dev.pend 492 = true ∧
            (s.dev.fb MGT_CAL_SUB.WAKE_EN 0 = true → s.dev.pwr.phase = .dormant → bit (s.dev.liveReg .PWR_WAKE_EN 0).toNat 1 = true →
              t.dev.pwr.phase = .railWait ∧ t.dev.f PWR_STATE_STAT.WAKE_SRC 0 = 2)) ∧
          s.Only t (.MGT_CAL_SEC :: .MGT_CAL_SUB :: .PWR_STATE_STAT :: told)) ∧
      (s.dev.fb MGT_CAL_SUB.VALID 0 = false → Does s .calendarSecond fun t => t = s))

/-- DORMANT (R590 to R593, R412): a request is held, busy or begins the entry, the entry stops the reference and Acholt, a wake source begins the exit,
and once the rails are in range the halves that are not retained are cleared and the device resumes. The model's readings that this rests on: log
entries 50, 51, 52, 54. -/
def Obligations.DormantIsEnteredAndLeft : Prop :=
  ∀ (s : State), s.dev.regsWf = true → s.dev.tablesWf = true →
    (∀ (who : Fn) (val : Word) (held : Bool), notVf who = true → bit val.toNat 0 = true → s.dev.pwr.phase = .on →
      held = (!s.dev.secure who && bit (s.dev.reg .OWN_HOLD_PWR 0).toNat 23) →
      (held = true → Does s (.dormReq who val) fun t => t.dev.f PWR_STATE_STAT.RESULT 0 = 1 ∧ t.dev.pwr = s.dev.pwr ∧
        s.Only t [.PWR_STATE_CTRL, .PWR_STATE_STAT]) ∧
      (held = false → s.dev.dormBusy = true → Does s (.dormReq who val) fun t => t.dev.f PWR_STATE_STAT.RESULT 0 = 2 ∧ t.dev.pwr = s.dev.pwr ∧
        s.Only t [.PWR_STATE_CTRL, .PWR_STATE_STAT]) ∧
      (held = false → s.dev.dormBusy = false → Does s (.dormReq who val) fun t => t.dev.f PWR_STATE_STAT.RESULT 0 = 0 ∧
        t.dev.f PWR_STATE_STAT.STATE 0 = 2 ∧ t.dev.pwr = { s.dev.pwr with phase := .entering } ∧ s.Only t [.PWR_STATE_CTRL, .PWR_STATE_STAT])) ∧
    (s.dev.pwr.phase = .entering → s.dev.msys.walk.phase = .idle → s.dev.msys.swap = none →
      Does s .dormantEnter fun t => t.dev.pwr.phase = .dormant ∧ t.dev.pwr.acholt = s.dev.mgt.phase ∧ t.dev.mgt.phase = .off ∧
        t.dev.time.refRunning = false ∧ t.dev.msys.trained = false ∧ t.dev.pwr.rail = railPin (s.dev.reg .PWR_STATE_CTRL 0) ∧
        t.dev.liveReg .PWR_WAKE_EN 0 = s.dev.reg .PWR_WAKE_EN 0 ∧
        (∀ e : Fin 4, s.dev.fb TCH_WAKE_CFG.WAKE_EN e.val = true → s.dev.tchState e.val ≠ 0 →
          (∀ k < 4, k ≠ e.val → s.dev.fb TCH_WAKE_CFG.WAKE_EN k = false) → t.dev.tchState e.val = 2) ∧ s.Only t [.TCH_TE_STAT]) ∧
    (∀ (srcs : List WakeSrc) (k : Nat),
      (s.dev.pwr.phase = .dormant → wakeOf (s.dev.liveReg .PWR_WAKE_EN 0).toNat (srcs.map s.dev.wakeNum) = some k →
        Does s (.wakeEvent srcs) fun t => t.dev.pwr = { s.dev.pwr with phase := .railWait, railAt := s.dev.now + s.dev.railWait, rail := none } ∧
          t.dev.f PWR_STATE_STAT.STATE 0 = 3 ∧ t.dev.f PWR_STATE_STAT.WAKE_SRC 0 = k ∧ s.Only t [.PWR_STATE_STAT]) ∧
      (s.dev.pwr.phase = .entering → wakeOf (s.dev.reg .PWR_WAKE_EN 0).toNat (srcs.map s.dev.wakeNum) = some k →
        Does s (.wakeEvent srcs) fun t => t.dev.pwr = { s.dev.pwr with phase := .on } ∧ t.dev.f PWR_STATE_STAT.STATE 0 = 0 ∧
          t.dev.f PWR_STATE_STAT.WAKE_SRC 0 = 7 ∧ s.Only t [.PWR_STATE_STAT])) ∧
    (∀ (counts : ScanCounts) (e : Nat) (w : Dev × List Nat), s.dev.wakeEngine = some e → s.dev.pwr.phase = .dormant →
      w = (s.dev.updEng e fun x => { x with nextAt := x.nextAt + s.dev.wakePeriod e }).wakeStep e counts →
      (s.dev.now < (s.dev.eng e).nextAt → Does s (.wakeScan counts) fun t => t = s) ∧
      ((s.dev.eng e).nextAt ≤ s.dev.now → w.2 = [] → Does s (.wakeScan counts) fun t => t.dev = w.1 ∧ s.Only t []) ∧
      ((s.dev.eng e).nextAt ≤ s.dev.now → w.2 ≠ [] → bit (s.dev.liveReg .PWR_WAKE_EN 0).toNat 0 = true →
        Does s (.wakeScan counts) fun t => t.dev.pend (304 + 8 * e + 5) = true ∧ t.dev.pwr.phase = .railWait ∧ t.dev.f PWR_STATE_STAT.WAKE_SRC 0 = 1 ∧
          t.dev.tch = w.1.tch ∧ (s.dev.fl TCH_WAKE_CFG.PIN_EN e = 1 → t.dev.fb TCH_WAKE_CFG.PIN_ASSERTED e = true) ∧
          s.Only t (.TCH_WAKE_CFG :: .PWR_STATE_STAT :: told))) ∧
    (s.dev.pwr.phase = .railWait → s.dev.pwr.railAt ≤ s.dev.now →
      (Does s (.railWaitExpire false) fun t => t.dev.pwr = { s.dev.pwr with railAt := s.dev.now + 1000000 } ∧ s.Only t []) ∧
      (s.dev.tableKept = true →
        Does s (.railWaitExpire true) fun t => t.dev.pwr.phase = .resuming ∧ t.dev.f PWR_STATE_STAT.STATE 0 = 3 ∧ t.dev.mgt.phase = s.dev.pwr.acholt ∧
          (∀ i, t.dev.reg .OWN_LOCK_STAT i = s.dev.reg .OWN_LOCK_STAT i ∧ t.dev.reg .OWN_DEBUG_STAT i = s.dev.reg .OWN_DEBUG_STAT i ∧
            t.dev.reg .MGT_CAL_SEC i = s.dev.reg .MGT_CAL_SEC i ∧ t.dev.reg .DSP_TG_SEQ i = s.dev.reg .DSP_TG_SEQ i) ∧ t.dev.hrq.queues = [] ∧
          ∀ p, t.mem.byte p = (if ddrBase ≤ p ∨ s.dev.retained.contains (p / 0x400000) = true then s.mem.byte p else 0)) ∧
      (s.dev.tableKept = false →
        Does s (.railWaitExpire true) fun t => t.dev.pwr.phase = .resuming ∧ t.dev.fb OWN_LOCK_STAT.TABLE_REINIT 0 = true)) ∧
    (s.dev.pwr.phase = .resuming → s.dev.msys.trained = true →
      Does s .dormantExitDone fun t => t.dev.pwr = { s.dev.pwr with phase := .on } ∧ t.dev.f PWR_STATE_STAT.STATE 0 = 0 ∧
        t.dev.fb PWR_STATE_STAT.DORM_DONE 0 = true ∧ s.Only t [.PWR_STATE_STAT])

/-- Power domains and interface clocks (R107, R595 to R597): an off request has no effect on bits that the Secure world holds or that are in use, an on
request takes effect at once, and PWR_REQ_STAT shows which. The model's readings that this rests on: log entry 49. -/
def Obligations.DomainsAndClocksFollowRequests : Prop :=
  ∀ (s : State) (who : Fn) (val : Word) (off on : Instr) (stat hold : Reg) (n : Nat) (idle : Nat → Bool), s.dev.regsWf = true → notVf who = true →
    (off = .pwrDomOff who val ∧ on = .pwrDomOn who val ∧ stat = .PWR_DOM_STAT ∧ hold = .OWN_HOLD_PWR ∧ n = 23 ∧ idle = s.dev.domIdle ∨
      off = .pwrClkOff who val ∧ on = .pwrClkOn who val ∧ stat = .PWR_CLK_STAT ∧ hold = .OWN_HOLD_CLK ∧ n = 31 ∧ idle = s.dev.clkIdle) →
    val.toNat % 2 ^ n ≠ 0 →
    (Does s off fun t =>
      (∀ b < 32, bit (t.dev.reg stat 0).toNat b = (bit (s.dev.reg stat 0).toNat b &&
        !(decide (b < n) && bit val.toNat b && !(!s.dev.secure who && bit (s.dev.reg hold 0).toNat b) && idle b))) ∧
      t.dev.fb PWR_REQ_STAT.DONE 0 = true ∧
      (∀ b < n, bit val.toNat b = true → s.dev.secure who = false → bit (s.dev.reg hold 0).toNat b = true → t.dev.fb PWR_REQ_STAT.HELD 0 = true) ∧
      (∀ b < n, bit val.toNat b = true → s.dev.secure who = true → idle b = false → t.dev.fb PWR_REQ_STAT.BUSY_REF 0 = true) ∧
      s.Only t [stat, .PWR_REQ_STAT]) ∧
    (Does s on fun t => (∀ b < 32, bit (t.dev.reg stat 0).toNat b = (bit (s.dev.reg stat 0).toNat b || (decide (b < n) && bit val.toNat b))) ∧
      t.dev.fb PWR_REQ_STAT.DONE 0 = true ∧ s.Only t [stat, .PWR_REQ_STAT])

/-- The host ports (R118, R583, R587, R592, R645): a port reset takes down its link and its functions' configuration, its release lets the link train and
wakes the device, and a configuration request takes effect once device memory is ready. The model's readings that this rests on: log entries 50, 51,
115, 116. -/
def Obligations.HostPortsResetAndAnswer : Prop :=
  ∀ (s : State) (p : Fin 2), s.dev.regsWf = true → s.dev.tablesWf = true →
    (Does s (.perstAssert p) fun t => (t.dev.ports.get p.val).linkUp = false ∧ (t.dev.ports.get p.val).inReset = true ∧
      (t.dev.ports.get p.val).vfEnable = false ∧ (t.dev.ports.get p.val).numVfs = 0 ∧
      (∀ c ∈ portCodes p.val, t.dev.busMaster.get c = false ∧ t.dev.notD0.get c = false) ∧ t.dev.inReset (4 + p.val) = true ∧
      ((∀ e < 2, ∀ j, (s.dev.we e).job = some j → (portCodes p.val).contains j.code = false) →
        (∀ x < 64, ∀ j, (s.dev.chan x).run = some j → (portCodes p.val).contains j.code = false) → s.dev.mbx.bulk = [] → t.mem = s.mem)) ∧
    (s.dev.pwr.phase ≠ .entering →
      Does s (.perstDeassert p) fun t => (t.dev.ports.get p.val).inReset = false ∧
        (t.dev.ports.get p.val).linkUp = (s.dev.ports.get p.val).enabled ∧ (t.dev.ports.get p.val).l2 = false ∧
        (s.dev.pwr.phase = .dormant → bit (s.dev.liveReg .PWR_WAKE_EN 0).toNat (2 + p.val) = true →
          t.dev.pwr.phase = .railWait ∧ t.dev.f PWR_STATE_STAT.STATE 0 = 3 ∧ t.dev.f PWR_STATE_STAT.WAKE_SRC 0 = 3 + p.val) ∧
        s.Only t [.PWR_STATE_STAT]) ∧
    (∀ l2 : Bool, Does s (.pcieLinkDown p l2) fun t => t.dev.ports.get p.val = { s.dev.ports.get p.val with linkUp := false, l2 := l2 } ∧
      (∀ k, k ≠ p.val → t.dev.ports.get k = s.dev.ports.get k) ∧ s.Only t []) ∧
    (∀ r : CfgReq, s.dev.msys.trained = false → Does s (.configurationRequest p r) fun t => t = { s with dev := s.dev.emit (.configDone p.val true) }) ∧
    (s.dev.msys.trained = true →
      (∀ n, (s.dev.ports.get p.val).vfEnable = false →
        Does s (.configurationRequest p (.numVfs n)) fun t => t.dev.ports.get p.val = { s.dev.ports.get p.val with numVfs := n.val } ∧
          t.dev.outbox = .configDone p.val false :: s.dev.outbox ∧ s.Only t []) ∧
      ((s.dev.ports.get p.val).vfEnable = false →
        Does s (.configurationRequest p (.vfEnable true)) fun t => (t.dev.ports.get p.val).vfEnable = true ∧
          (∀ v, v < (s.dev.ports.get p.val).numVfs → t.dev.vfState (32 * p.val + v) =
            if s.dev.vfState (32 * p.val + v) = 0 then 1 else s.dev.vfState (32 * p.val + v)) ∧ s.Only t [.GLB_VF_STAT]) ∧
      (∀ (f : Fn) (on : Bool), (portCodes p.val).contains f.code = true →
        (Does s (.configurationRequest p (.busMaster f on)) fun t => t.dev.busMaster.get f.code = on ∧ s.Only t []) ∧
        (Does s (.configurationRequest p (.powerState f on)) fun t => t.dev.notD0.get f.code = !on ∧ s.Only t []) ∧
        (∀ c, Does s (.configurationRequest p (.maxReadRequest f c)) fun t =>
          t.dev.pci.get f.code = { (s.dev.pci.get f.code) with maxRead := c.val } ∧ s.Only t []) ∧
        (∀ c, Does s (.configurationRequest p (.completionTimeout f c)) fun t =>
          t.dev.pci.get f.code = { (s.dev.pci.get f.code) with timeout := c.val } ∧ s.Only t [])) ∧
      (Does s (.configurationRequest p .readSriov) fun t => t.dev.outbox = .configDone p.val false :: .sriov p.val 32 1 1 :: s.dev.outbox ∧
        s.Only t [])) ∧
    (s.dev.own.bootWaiting = false → Does s .ddrTrainingDone fun t => t.dev.msys.trained = true ∧ s.Only t [])

/-- Haptic commands and pin triggers (R422 to R427, R430): HAP_SET makes a channel IDLE, a trigger starts, queues, replaces, drops or is denied, HAP_STOP
brakes and waits, and HAP_EFF_LOAD loads a well-formed effect. The model's readings that this rests on: log entries 95, 96, 147. -/
def Obligations.HapticCommandsAndTriggers : Prop :=
  ∀ (s : State), s.dev.regsWf = true → s.dev.tablesWf = true →
    (∀ (f : Fn) (q : Fin 8) (c : Cmd) (ref : CmdRef) (k : Nat), s.Bare f q c → ref = ⟨qi f q, c.id⟩ → k = c.u 32 1 % 8 →
      (∀ i errs, (i = .hapSet f q ∧ c.opcode = 0x88 ∧ errs = hapSetErr c ++ [(s.dev.hapBusy k, ST_BUSY, errByte 32)] ∨
          i = .hapPlay f q ∧ c.opcode = 0x89 ∧ errs = [(c.u 33 1 / 2 != 0, ST_BAD_FIELD, errByte 33), (decide (160 ≤ c.u 34 1), ST_BAD_FIELD, errByte 34),
            (!c.zero 35 63, ST_BAD_FIELD, errByte 35)] ∨
          i = .hapStop f q ∧ c.opcode = 0x8A ∧ errs = [(!c.zero 33 63, ST_BAD_FIELD, errByte 33)]) →
        (∀ st res, firstError (s.dev.hapHead f c ++ errs) = some (st, res) →
          Does s i fun t => t.dev.Ended ref st (res % 2 ^ 32) ∧ t.dev.hap = s.dev.hap ∧ (s.started f q c).Only t []) ∧
        (firstError (s.dev.hapHead f c ++ errs) = none →
          (c.opcode = 0x88 → s.dev.f HAP_CH_ASSIGN.OWNER k = s.dev.hapOwner k →
            Does s i fun t => t.dev.Ended ref ST_OK 0 ∧ t.dev.hapState k = 1 ∧ (t.dev.hapCh k).cfg = c.lead.drop 32 ∧
              t.dev.f HAP_CH_MEAS.F0_MEAS k = c.u 36 2 ∧ t.dev.f HAP_CH_MEAS.RDC_MEAS k = c.u 38 2 / 2 ∧ t.dev.f HAP_CH_MEAS.TCOIL k = 75 ∧
              (∀ j, j ≠ k → t.dev.hapCh j = s.dev.hapCh j) ∧ (s.started f q c).Only t [.HAP_CH_STAT, .HAP_CH_MEAS]) ∧
          (c.opcode = 0x89 →
            (s.dev.effectOk k (c.u 34 1) = false → Does s i fun t => t.dev.Ended ref ST_NOT_OWNER (errByte 34) ∧ t.dev.hap = s.dev.hap ∧
              (s.started f q c).Only t []) ∧
            (s.dev.effectOk k (c.u 34 1) = true →
              ((s.dev.hapState k = 0 ∨ s.dev.hapState k = 5) → Does s i fun t => t.dev.Ended ref ST_BUSY (errByte 32) ∧
                t.dev.f HAP_CH_CNT.DROP_COUNT k = min 255 (s.dev.f HAP_CH_CNT.DROP_COUNT k + 1) ∧ t.dev.hap = s.dev.hap ∧
                (s.started f q c).Only t [.HAP_CH_CNT]) ∧
              (s.dev.vfHeld f.code = false →
                (c.u 34 1 = 120 → (s.dev.hapState k = 1 ∨ s.dev.hapState k = 4) → Does s i fun t => t.dev.Ended ref ST_OK 0 ∧
                  t.dev.hapState k = s.dev.hapState k ∧ t.dev.fb HAP_CH_STAT.QUEUED k = false ∧ t.dev.hap = s.dev.hap ∧
                  (s.started f q c).Only t [.HAP_CH_STAT]) ∧
                (s.dev.hapState k = 1 → c.u 34 1 ≠ 120 → s.dev.hapLimit k = 0 → Does s i fun t => t.dev.Ended ref ST_OK 0 ∧ t.dev.hapState k = 2 ∧
                  t.dev.f HAP_CH_STAT.EFFECT k = c.u 34 1 ∧ t.dev.f HAP_CH_STAT.CAUSE k = 0 ∧ (t.dev.hapCh k).pos = 0 ∧
                  (t.dev.hapCh k).driveFrom = s.dev.now ∧ (t.dev.hapCh k).cfg = (s.dev.hapCh k).cfg ∧ (s.started f q c).Only t [.HAP_CH_STAT]) ∧
                (s.dev.hapState k = 2 → c.u 34 1 ≠ 120 → bit (c.u 33 1) 0 = false →
                  (s.dev.fb HAP_CH_STAT.QUEUED k = false → Does s i fun t => t.dev.Ended ref ST_OK 1 ∧ t.dev.fb HAP_CH_STAT.QUEUED k = true ∧
                    t.dev.f HAP_CH_STAT.QEFFECT k = c.u 34 1 ∧ t.dev.hap = s.dev.hap ∧ (s.started f q c).Only t [.HAP_CH_STAT]) ∧
                  (s.dev.fb HAP_CH_STAT.QUEUED k = true → Does s i fun t => t.dev.Ended ref ST_REPLACED 2 ∧
                    t.dev.f HAP_CH_STAT.QEFFECT k = c.u 34 1 ∧ t.dev.f HAP_CH_CNT.REPL_COUNT k = min 255 (s.dev.f HAP_CH_CNT.REPL_COUNT k + 1) ∧
                    t.dev.hap = s.dev.hap ∧ (s.started f q c).Only t [.HAP_CH_STAT, .HAP_CH_CNT]))))) ∧
          (c.opcode = 0x8A →
            (s.dev.hapState k = 2 → Does s i fun t => t.dev.Running ref ∧ t.dev.hapState k = 3 ∧ t.dev.fb HAP_CH_STAT.QUEUED k = false ∧
              (t.dev.hapCh k).stops = (s.dev.hapCh k).stops ++ [ref] ∧ (s.started f q c).Only t [.HAP_CH_STAT]) ∧
            (s.dev.hapState k ≠ 2 → s.dev.hapState k ≠ 3 → Does s i fun t => t.dev.Ended ref ST_OK 0 ∧ t.dev.hapState k = s.dev.hapState k ∧
              t.dev.fb HAP_CH_STAT.QUEUED k = false ∧ t.dev.hap = s.dev.hap ∧ (s.started f q c).Only t [.HAP_CH_STAT])))) ∧
      (c.opcode = 0x8B → ∀ s0, s0 = s.started f q c →
        (∀ st res, (s0.hapLoad f c).2 = (st, res) → Does s (.hapEffLoad f q) fun t => t.dev.Ended ref st (res % 2 ^ 32) ∧
          (st ≠ ST_OK → t.dev.hap = s.dev.hap) ∧ t.mem = s.mem) ∧
        (∀ h bs, c.ext = 0 → c.conts = [] → c.zero 32 33 = true → 128 ≤ c.u 34 1 → c.u 34 1 < 160 → c.zero 35 39 = true → c.u 40 8 % 64 = 0 →
          c.zero 48 63 = true → s.dev.fl HAP_EFF_ASSIGN.OWNER (c.u 34 1 - 128) = f.code → s.dev.inDevice (c.u 40 8) (c.u 40 8 + 7) = true →
          (s0.readMem ⟨f.code, c.secure⟩ 13 (c.u 40 8) 8).2 = .ok h → 1 ≤ le h 0 1 → le h 0 1 ≤ 63 →
          s.dev.inDevice (c.u 40 8) (c.u 40 8 + 8 * le h 0 1 + 7) = true →
          (s0.readMem ⟨f.code, c.secure⟩ 13 (c.u 40 8) (8 + 8 * le h 0 1)).2 = .ok bs → hapBad bs = none → s.dev.effectUsed (c.u 34 1) = false →
          Does s (.hapEffLoad f q) fun t => t.dev.Ended ref ST_OK 0 ∧ t.dev.hap.effects.get (c.u 34 1 - 128) = bs ∧
            t.dev.hap.chans = s.dev.hap.chans ∧ s0.Only t []))) ∧
    (∀ (n : Fin 8) (held : Bool) (k e : Nat), s.dev.fb HAP_TRIG_CFG.EN n.val = true → (s.dev.fb HAP_TRIG_CFG.FILT n.val = true → held = true) →
      s.dev.f HAP_TRIG_CFG.EDGE n.val ≠ 1 → k = s.dev.f HAP_TRIG_CFG.CH n.val → e = s.dev.f HAP_TRIG_CFG.EFFECT n.val →
      (s.dev.effectOk k e = false → Does s (.htrigEdge n true held) fun t => t.dev.fb HAP_CH_STAT.EFF_DENIED k = true ∧
        t.dev.pend (337 + 2 * k) = true ∧ t.dev.hap = s.dev.hap ∧ s.Only t (.HAP_CH_STAT :: told)) ∧
      (s.dev.effectOk k e = true → s.dev.vfHeld (s.dev.hapOwner k) = false → s.dev.hapState k = 1 → e ≠ 120 → s.dev.hapLimit k = 0 →
        Does s (.htrigEdge n true held) fun t => t.dev.hapState k = 2 ∧ t.dev.f HAP_CH_STAT.EFFECT k = e ∧ s.Only t [.HAP_CH_STAT])) ∧
    (∀ (n : Fin 8) (rising held : Bool), s.dev.fb HAP_TRIG_CFG.EN n.val = false → Does s (.htrigEdge n rising held) fun t => t = s)

/-- The states of a haptic channel (R425, R428, R429): an effect that ends brakes, braking ends in a short, and then the queued effect, IDLE or HOLD
follows; faults and limits stop the channel. The model's readings that this rests on: log entries 95, 147. -/
def Obligations.HapticChannelsMoveThroughStates : Prop :=
  ∀ (s : State) (k : Fin 8), s.dev.regsWf = true → s.dev.tablesWf = true → s.dev.f HAP_CH_ASSIGN.OWNER k.val = s.dev.hapOwner k.val →
    (s.dev.hapState k.val = 2 → s.dev.effectOver k.val = false → Does s (.effectEnd k) fun t => t = s) ∧
    (s.dev.hapState k.val = 2 → s.dev.effectOver k.val = true → s.dev.noBrake (s.dev.f HAP_CH_STAT.EFFECT k.val) = false →
      Does s (.effectEnd k) fun t => t.dev.hapState k.val = 3 ∧ (t.dev.hapCh k.val).shorting = false ∧
        (t.dev.hapCh k.val).stops = (s.dev.hapCh k.val).stops ∧ s.Only t [.HAP_CH_STAT]) ∧
    ((s.dev.hapCh k.val).brakeOver = false → Does s (.brakeEnd k) fun t => t = s) ∧
    (s.dev.hapState k.val = 3 → (s.dev.hapCh k.val).brakeOver = true → Does s (.brakeEnd k) fun t =>
      (t.dev.hapCh k.val).shorting = true ∧ (t.dev.hapCh k.val).ticks = 0 ∧ (t.dev.hapCh k.val).bridge = .short ∧ (t.dev.hapCh k.val).width = 0 ∧
      (t.dev.hapCh k.val).dead ≤ (s.dev.hapCh k.val).u 34 1 ∧ (t.dev.hapCh k.val).stops = (s.dev.hapCh k.val).stops ∧
      (∀ j, j ≠ k.val → t.dev.hapCh j = s.dev.hapCh j) ∧ s.Only t []) ∧
    (∀ i, (i = .shortEnd k ∧ s.dev.hapState k.val = 3 ∧ (s.dev.hapCh k.val).shorting = true ∧ 2000 ≤ 16 * (s.dev.hapCh k.val).ticks ∨
        i = .effectEnd k ∧ s.dev.hapState k.val = 2 ∧ s.dev.effectOver k.val = true ∧ s.dev.noBrake (s.dev.f HAP_CH_STAT.EFFECT k.val) = true) →
      (s.dev.hapLimit k.val = 0 → s.dev.fb HAP_CH_STAT.QUEUED k.val = false → Does s i fun t => t.dev.hapState k.val = 1 ∧
        (∀ r ∈ (s.dev.hapCh k.val).stops, s.dev.Running r → t.dev.Ended r ST_OK 0) ∧ (t.dev.hapCh k.val).bridge = .off ∧ s.Only t [.HAP_CH_STAT]) ∧
      (s.dev.hapLimit k.val = 0 → s.dev.fb HAP_CH_STAT.QUEUED k.val = true → Does s i fun t => t.dev.hapState k.val = 2 ∧
        t.dev.f HAP_CH_STAT.EFFECT k.val = s.dev.f HAP_CH_STAT.QEFFECT k.val ∧ t.dev.fb HAP_CH_STAT.QUEUED k.val = false ∧ s.Only t [.HAP_CH_STAT]) ∧
      (s.dev.hapLimit k.val ≠ 0 → Does s i fun t => t.dev.hapState k.val = 4 ∧
        t.dev.f HAP_CH_STAT.CAUSE k.val = s.dev.hapLimit k.val ∧ t.dev.pend (337 + 2 * k.val) = true ∧ s.Only t (.HAP_CH_STAT :: told))) ∧
    (∀ (mo : Nat) (r0 temp : Int), s.dev.hapState k.val = 4 → r0 = ((max 1 ((s.dev.hapCh k.val).u 38 2) : Nat) : Int) →
      temp = 25 + ((mo : Int) - r0) * 100000 / (393 * r0) →
      (s.dev.f HAP_CH_STAT.CAUSE k.val = 1 → ((s.dev.hapCh k.val).u 59 1 : Int) - 10 < temp →
        Does s (.holdClear k mo) fun t => t.dev.hapState k.val = 4 ∧ (t.dev.hapCh k.val).temp = temp ∧ (t.dev.hapCh k.val).res = mo ∧
          t.dev.f HAP_CH_MEAS.RDC_MEAS k.val = mo / 2 % 2 ^ 14 ∧ s.Only t [.HAP_CH_MEAS]) ∧
      (temp ≤ ((s.dev.hapCh k.val).u 59 1 : Int) - 10 → (s.dev.hapCh k.val).squareSum < 25000 * ((s.dev.hapCh k.val).u 48 2) ^ 2 →
        s.dev.driveTime k.val < (s.dev.hapCh k.val).u 58 1 * 10000000 → s.dev.fb HAP_CH_STAT.QUEUED k.val = false →
        Does s (.holdClear k mo) fun t => t.dev.hapState k.val = 1 ∧ t.dev.f HAP_CH_STAT.CAUSE k.val = 0 ∧
          s.Only t [.HAP_CH_STAT, .HAP_CH_MEAS])) ∧
    (∀ ma : Int,
      (2 * ma.natAbs ≤ 3 * (s.dev.hapCh k.val).u 46 2 → Does s (.overcurrent k ma) fun t => t = s) ∧
      (3 * (s.dev.hapCh k.val).u 46 2 < 2 * ma.natAbs → s.dev.hapState k.val ≠ 0 → s.dev.hapState k.val ≠ 5 →
        Does s (.overcurrent k ma) fun t => t.dev.hapState k.val = 5 ∧ t.dev.f HAP_CH_STAT.CAUSE k.val = 4 ∧
          t.dev.fb HAP_CH_STAT.QUEUED k.val = false ∧ t.dev.pend (336 + 2 * k.val) = true ∧ (t.dev.hapCh k.val).bridge = .off ∧
          s.Only t (.HAP_CH_STAT :: told)) ∧
      (ma.natAbs < (s.dev.hapCh k.val).u 46 2 → Does s (.peakCurrentCut k ma) fun t => t = s) ∧
      ((s.dev.hapCh k.val).u 46 2 ≤ ma.natAbs → ((s.dev.hapCh k.val).bridge = .push ∨ (s.dev.hapCh k.val).bridge = .pull) →
        Does s (.peakCurrentCut k ma) fun t => t.dev.hapCh k.val = (s.dev.hapCh k.val).turnOff ∧ (t.dev.hapCh k.val).bridge = .off ∧
          (t.dev.hapCh k.val).width = 0 ∧ t.dev.f HAP_CH_CNT.ILIM_COUNT k.val = min 255 (s.dev.f HAP_CH_CNT.ILIM_COUNT k.val + 1) ∧
          s.Only t [.HAP_CH_CNT])) ∧
    (s.dev.hapState k.val = 2 → 1000 ≤ 4 * (s.dev.hapCh k.val).weak → Does s (.openCoil k) fun t => t.dev.hapState k.val = 5 ∧
      t.dev.f HAP_CH_STAT.CAUSE k.val = 5 ∧ t.dev.pend (336 + 2 * k.val) = true ∧ s.Only t (.HAP_CH_STAT :: told))

/-- Closed-loop control of a haptic channel and its owners (R416 to R421, R430, R432): a PWM period takes the samples and its width lies within the
period after its dead time, the tracking gap and the accelerometer are measured, and owners and pin triggers are set. The width is a free value (log
entry 5). The model's readings that this rests on: log entries 5, 93, 94, 96, 147, 166. -/
def Obligations.HapticMeasurementsAndOwners : Prop :=
  ∀ (s : State), s.dev.regsWf = true → s.dev.tablesWf = true →
    (∀ (k : Fin 8) (h : HapCh), h = s.dev.hapCh k.val →
      (∀ (samples : List HapSample) (xs : List (Int × Int)), xs = samples.map (fun x => ((x.volts.toInt * (h.u 52 2 : Int)).tdiv 32768,
          (x.amps.toInt * (h.u 50 2 : Int)).tdiv 32768)) →
        ((∃ x ∈ xs, 3 * h.u 46 2 < 2 * x.2.natAbs) → s.dev.f HAP_CH_ASSIGN.OWNER k.val = s.dev.hapOwner k.val → s.dev.hapState k.val ≠ 0 →
          s.dev.hapState k.val ≠ 5 → Does s (.hapticPwmPeriod k samples) fun t => t.dev.hapState k.val = 5 ∧ t.dev.f HAP_CH_STAT.CAUSE k.val = 4 ∧
            (t.dev.hapCh k.val).bridge = .off ∧ t.dev.pend (336 + 2 * k.val) = true ∧ s.Only t (.HAP_CH_STAT :: told)) ∧
        ((∀ x ∈ xs, 2 * x.2.natAbs ≤ 3 * h.u 46 2) →
          ((∃ x ∈ xs, h.cutBy x.2 = true) → s.dev.hapState k.val ≠ 0 → Does s (.hapticPwmPeriod k samples) fun t =>
            t.dev.f HAP_CH_CNT.ILIM_COUNT k.val = min 255 (s.dev.f HAP_CH_CNT.ILIM_COUNT k.val + 1) ∧ s.Only t [.HAP_CH_CNT]) ∧
          ((∀ x ∈ xs, h.cutBy x.2 = false) →
            (s.dev.hapState k.val = 1 → Does s (.hapticPwmPeriod k samples) fun t => t.dev.hapCh k.val = h.period k.val xs ∧ s.Only t []) ∧
            (s.dev.hapState k.val = 2 → h.gapping = false → h.gapNow = true → Does s (.hapticPwmPeriod k samples) fun t =>
              (t.dev.hapCh k.val).gapping = true ∧ (t.dev.hapCh k.val).bridge = .off ∧ (t.dev.hapCh k.val).width = 0 ∧
              (t.dev.hapCh k.val).pos = h.pos + 1 ∧ s.Only t []) ∧
            (s.dev.hapState k.val = 2 → h.gapping = false → h.gapNow = false → Does s (.hapticPwmPeriod k samples) fun t =>
              (∀ ys y mv ma slope, xs = ys ++ [(mv, ma)] → y = ys.foldl HapCh.sample h → slope = 250 * (ma - y.ma) →
                (t.dev.hapCh k.val).vel = 1000 * (1000 * mv - ma * h.res - slope * h.u 40 2) / (max 1 (h.u 42 2) : Nat)) ∧
              (t.dev.hapCh k.val).squares = (xs.foldl (fun n x => n + x.2.natAbs ^ 2) 0 :: h.squares).take 6250 ∧
              (t.dev.hapCh k.val).pos = h.pos + 1 ∧ (t.dev.hapCh k.val).dead + (t.dev.hapCh k.val).width ≤ 3072 ∧
              ((t.dev.hapCh k.val).width = 0 → (t.dev.hapCh k.val).bridge = .off) ∧
              (∀ e lv ph, e = s.dev.f HAP_CH_STAT.EFFECT k.val → e < 128 → romLevel e (16 * h.pos) = some lv →
                ph = romFreq e (s.dev.hapF0 k.val) (h.u 36 2) (16 * h.pos) * (16 * h.pos) % 1000000 →
                (t.dev.hapCh k.val).target.natAbs = lv * h.u 44 2 * (Config.halfSine (ph % 500000) % 32768) / (255 * 32767) ∧
                (ph < 500000 → 0 ≤ (t.dev.hapCh k.val).target) ∧ (500000 ≤ ph → (t.dev.hapCh k.val).target ≤ 0)) ∧ s.Only t []))) ∧
        (s.dev.hapState k.val = 2 → h.gapping = true → (∀ x ∈ xs, 2 * x.2.natAbs ≤ 3 * h.u 46 2) →
          Does s (.trackingGap k samples) fun t => (t.dev.hapCh k.val).gapping = false ∧ (t.dev.hapCh k.val).gapAt = h.pos + 2 ∧
            (t.dev.hapCh k.val).pos = h.pos + 3 ∧ (t.dev.hapCh k.val).dead + (t.dev.hapCh k.val).width ≤ 3072 ∧
            (h.gapVels (16 * h.pos - 16) xs = [] → s.Only t []) ∧
            (∀ v mo, (h.gapVels (16 * h.pos - 16) xs).getLast? = some v →
              mo = Config.coilResistance h.res h.mv h.ma h.slope ((h.gapVels (16 * h.pos - 16) xs).map (·.2)) % 32768 →
              (t.dev.hapCh k.val).vel = v.2 ∧ (t.dev.hapCh k.val).res = mo ∧ t.dev.f HAP_CH_MEAS.RDC_MEAS k.val = mo / 2 ∧
              (∀ t0 t1, zeroCross (h.gapVels (16 * h.pos - 16) xs) = some t1 → h.cross = some t0 → t0 < t1 →
                t.dev.f HAP_CH_MEAS.F0_MEAS k.val = crossHz (s.dev.f HAP_CH_MEAS.F0_MEAS k.val) (t1 - t0)) ∧ s.Only t [.HAP_CH_MEAS])) ∧
        (s.dev.hapState k.val ≠ 2 ∨ h.gapping = false → Does s (.trackingGap k samples) fun t => t = s)) ∧
      (s.dev.hapState k.val ≠ 0 → bit (h.u 33 1) 1 = true → h.fallback = false → 125 ≤ h.accUs →
        (∀ (low high : BitVec 8) (v : BitVec 16), v = high ++ low → Does s (.accRead k (some (low, high))) fun t => (t.dev.hapCh k.val).accFails = 0 ∧
          (t.dev.hapCh k.val).acc = (if bit (h.u 33 1) 3 then -(v.toInt * (200 * 2 ^ (h.u 63 1) : Nat) / 32768)
            else v.toInt * (200 * 2 ^ (h.u 63 1) : Nat) / 32768) ∧
          t.dev.outbox = .serial 0 (h.u 35 1) (toLe (h.u 62 1) 1) 2 :: s.dev.outbox ∧ s.Only t []) ∧
        (h.accFails < 2 → Does s (.accRead k none) fun t => t.dev.hapCh k.val = { h with accFails := h.accFails + 1, accUs := h.accUs - 125 } ∧ s.Only t []) ∧
        (2 ≤ h.accFails → Does s (.accRead k none) fun t => (t.dev.hapCh k.val).fallback = true ∧ t.dev.fb HAP_CH_STAT.ACC_FALLBACK k.val = true ∧
          t.dev.pend (337 + 2 * k.val) = true ∧ s.Only t (.HAP_CH_STAT :: told)))) ∧
    (∀ (who : Fn) (k : Fin 8) (val : Word) (new : Nat), assigner who = true → new = HAP_CH_ASSIGN.OWNER.get val →
      new ≠ s.dev.f HAP_CH_ASSIGN.OWNER k.val →
      (s.dev.mayGive who (s.dev.f HAP_CH_ASSIGN.OWNER k.val) = true → s.dev.mayGive who new = true → new ≠ s.dev.hapOwner k.val →
        ((s.dev.hapState k.val = 0 ∨ s.dev.hapState k.val = 1 ∨ s.dev.hapState k.val = 5) →
          Does s (.hapChAssignWrite who k val) fun t => t.dev.f HAP_CH_ASSIGN.OWNER k.val = new ∧ t.dev.hapOwner k.val = new ∧
            t.dev.hapState k.val = 0 ∧ t.dev.f HAP_CH_STAT.CAUSE k.val = 0 ∧ t.dev.fb HAP_CH_STAT.QUEUED k.val = false ∧ t.mem = s.mem) ∧
        (s.dev.hapState k.val = 2 →
          Does s (.hapChAssignWrite who k val) fun t => t.dev.f HAP_CH_ASSIGN.OWNER k.val = new ∧ t.dev.hapOwner k.val = s.dev.hapOwner k.val ∧
            t.dev.hapState k.val = 3 ∧ t.dev.fb HAP_CH_STAT.QUEUED k.val = false ∧ s.Only t [.HAP_CH_ASSIGN, .HAP_CH_STAT, .PWR_DOM_STAT])) ∧
      ((s.dev.mayGive who (s.dev.f HAP_CH_ASSIGN.OWNER k.val) = false ∨ s.dev.mayGive who new = false) →
        Does s (.hapChAssignWrite who k val) fun t => t.dev.fb HAP_CH_STAT.WERR k.val = true ∧ t.dev.pend (337 + 2 * k.val) = true ∧
          t.dev.hap = s.dev.hap ∧ s.Only t (.HAP_CH_STAT :: .PWR_DOM_STAT :: told))) ∧
    (∀ (who : Fn) (k : Fin 32) (val : Word) (new : Nat), assigner who = true → new = HAP_EFF_ASSIGN.OWNER.get val →
      (s.dev.mayGive who (s.dev.f HAP_EFF_ASSIGN.OWNER k.val) = true → s.dev.mayGive who new = true →
        Does s (.hapEffAssignWrite who k val) fun t => t.dev.f HAP_EFF_ASSIGN.OWNER k.val = new ∧
          t.dev.fl HAP_EFF_ASSIGN.OWNER k.val = (if s.dev.effectUsed (128 + k.val) then s.dev.fl HAP_EFF_ASSIGN.OWNER k.val else new) ∧
          s.Only t [.HAP_EFF_ASSIGN, .PWR_DOM_STAT]) ∧
      ((s.dev.mayGive who (s.dev.f HAP_EFF_ASSIGN.OWNER k.val) = false ∨ s.dev.mayGive who new = false) →
        Does s (.hapEffAssignWrite who k val) fun t => t.dev.hap = s.dev.hap ∧ s.Only t [.PWR_DOM_STAT])) ∧
    (∀ (who : Fn) (n : Fin 8) (val : Word), assigner who = true →
      (((s.dev.htrigSecure n.val = true ∧ s.dev.secure who = false) ∨
          s.dev.htrigSecure n.val ≠ s.dev.secureCode (s.dev.hapOwner (HAP_TRIG_CFG.CH.get val))) →
        Does s (.hapTrigCfgWrite who n val) fun t => t.dev.fb HAP_CH_STAT.WERR (HAP_TRIG_CFG.CH.get val) = true ∧
          s.Only t (.HAP_CH_STAT :: told)) ∧
      ((s.dev.htrigSecure n.val = true → s.dev.secure who = true) →
        s.dev.htrigSecure n.val = s.dev.secureCode (s.dev.hapOwner (HAP_TRIG_CFG.CH.get val)) → s.dev.Accepts who .HAP_TRIG_CFG n.val val →
        Does s (.hapTrigCfgWrite who n val) fun t => s.dev.Takes t.dev .HAP_TRIG_CFG n.val val ∧ t.dev.hap = s.dev.hap ∧
          s.Only t [.HAP_TRIG_CFG, .PWR_DOM_STAT]))

/-- Audio commands (R456 to R459, R463, R465): a HAMPER that passes its checks waits for its swap, and stream and chime commands wait for the next sample
boundary; one that does not pass completes with its error. The model's readings that this rests on: log entries 104, 105. -/
def Obligations.AudioCommandsWaitForTheBoundary : Prop :=
  ∀ (s : State) (f : Fn) (q : Fin 8) (c : Cmd) (ref : CmdRef) (s0 : State), s.dev.regsWf = true → s.dev.tablesWf = true → s.Bare f q c →
    ref = ⟨qi f q, c.id⟩ → s0 = s.started f q c →
    (∀ i errs w,
      (i = .audStreamSet f q ∧ c.opcode = 0x71 ∧ w = AudWork.stream ref (c.u 32 1 % 16) (c.u 33 1 % 2 == 1) (c.u 40 8) (c.u 48 4) (bit (c.u 33 1) 1) ∧
        errs = [(decide (12 ≤ c.u 32 1 % 16) || c.u 32 1 / 16 != 0, ST_BAD_FIELD, errByte 32),
          (!s.dev.ownsStream f.code (c.u 32 1 % 16), ST_NOT_OWNER, errByte 32), (c.ext != 0, ST_BAD_FIELD, errOutside),
          (!c.conts.isEmpty, ST_BAD_FIELD, errAt 32), (decide (4 ≤ c.u 33 1) || (f == .sp0 && bit (c.u 33 1) 1), ST_BAD_FIELD, errByte 33),
          (!c.zero 34 39, ST_BAD_FIELD, errByte 34), (c.u 33 1 % 2 == 1 && c.u 40 8 % 64 != 0, ST_BAD_FIELD, errByte 40),
          (c.u 33 1 % 2 == 1 && (decide (c.u 48 4 < 4096 ∨ 4194304 < c.u 48 4) || c.u 48 4 % 64 != 0), ST_BAD_FIELD, errByte 48),
          (!c.zero 52 63, ST_BAD_FIELD, errByte 52), (c.u 33 1 % 2 == 1 && s.dev.streamOn (c.u 32 1 % 16), ST_BUSY, errByte 32)] ∨
       i = .chimePlay f q ∧ c.opcode = 0x72 ∧ w = AudWork.play ref (c.u 32 1 % 8) (c.u 40 8) (c.u 48 4) (c.u 33 1) (c.u 52 2) ∧
        errs = [(c.u 32 1 / 8 != 0, ST_BAD_FIELD, errByte 32), (s.dev.srcOwner (88 + c.u 32 1 % 8) != f.code, ST_NOT_OWNER, errByte 32),
          (c.ext != 0, ST_BAD_FIELD, errOutside), (!c.conts.isEmpty, ST_BAD_FIELD, errAt 32), (!c.zero 34 39, ST_BAD_FIELD, errByte 34),
          (decide (c.u 48 4 < 1 ∨ 1048576 < c.u 48 4), ST_BAD_FIELD, errByte 48), (!c.zero 54 63, ST_BAD_FIELD, errByte 54),
          (!inBanks (c.u 40 8) (c.u 40 8 + 2 * c.u 48 4 - 1), ST_BAD_GEOMETRY, errByte 40)] ∨
       i = .chimeStop f q ∧ c.opcode = 0x73 ∧ w = AudWork.stop ref (c.u 32 1 % 8) ∧
        errs = [(c.u 32 1 / 8 != 0, ST_BAD_FIELD, errByte 32), (s.dev.srcOwner (88 + c.u 32 1 % 8) != f.code, ST_NOT_OWNER, errByte 32),
          (c.ext != 0, ST_BAD_FIELD, errOutside), (!c.conts.isEmpty, ST_BAD_FIELD, errAt 32), (!c.zero 33 63, ST_BAD_FIELD, errByte 33)]) →
      (firstError errs = none → Does s i fun t => t.dev.Running ref ∧ t.dev.aud = { s.dev.aud with work := s.dev.aud.work ++ [w] } ∧ s0.Only t []) ∧
      (∀ st res, firstError errs = some (st, res) →
        Does s i fun t => t.dev.Ended ref st (res % 2 ^ 32) ∧ t.dev.aud = s.dev.aud ∧ s0.Only t [])) ∧
    (c.opcode = 0x70 →
      (∀ st res, firstError [(!c.conts.isEmpty, ST_BAD_FIELD, errAt 32), (!c.zero 32 39, ST_BAD_FIELD, errByte 32),
          (!c.zero 48 63, ST_BAD_FIELD, errByte 48), (c.u 40 8 % 64 != 0, ST_BAD_FIELD, errByte 40),
          (!s.dev.inDevice (c.u 40 8) (c.u 40 8 + 63), ST_BAD_GEOMETRY, errByte 40)] = some (st, res) →
        Does s (.hamper f q) fun t => t.dev.Ended ref st (res % 2 ^ 32) ∧ t.dev.aud = s.dev.aud ∧ s0.Only t []) ∧
      (∀ hd h, c.conts = [] → c.zero 32 39 = true → c.zero 48 63 = true → c.u 40 8 % 64 = 0 → s.dev.inDevice (c.u 40 8) (c.u 40 8 + 63) = true →
        (s0.readMem ⟨f.code, c.secure⟩ 13 (c.u 40 8) 64).2 = .ok hd →
        s.dev.inDevice (c.u 40 8) (c.u 40 8 + 64 + 384 * hNbus hd + 32 * hNsink hd - 1) = true →
        (s0.readMem ⟨f.code, c.secure⟩ 13 (c.u 40 8) (64 + 384 * hNbus hd + 32 * hNsink hd)).2 = .ok h →
        (∀ i, s.dev.hamperOwner f.code h = some i → Does s (.hamper f q) fun t => t.dev.Ended ref ST_NOT_OWNER (errAt 0xFFFF i) ∧
          t.dev.aud = s.dev.aud ∧ s0.Only t []) ∧
        (∀ i, s.dev.hamperOwner f.code h = none → s.dev.hamperFields f.code h = some i →
          Does s (.hamper f q) fun t => t.dev.Ended ref ST_BAD_FIELD (errAt 0xFFFF i) ∧ t.dev.aud = s.dev.aud ∧ s0.Only t []) ∧
        (∀ i, s.dev.hamperOwner f.code h = none → s.dev.hamperFields f.code h = none → s.dev.hamperRights f.code h = some i →
          Does s (.hamper f q) fun t => t.dev.Ended ref ST_NOT_PERMITTED (errAt 0xFFFF i) ∧ t.dev.aud = s.dev.aud ∧ s0.Only t []) ∧
        (s.dev.hamperOwner f.code h = none → s.dev.hamperFields f.code h = none → s.dev.hamperRights f.code h = none →
          Does s (.hamper f q) fun t => t.dev.Running ref ∧
            t.dev.aud = { s.dev.aud with hampers := s.dev.aud.hampers ++ [⟨ref, f.code, h, c.ext⟩] } ∧ s0.Only t [])))

/-- Sample boundaries, clocks, owners and amplifiers (R436, R437, R443, R445, R463, R468): a boundary counts the sample, completes what waits for it and
stores the capture streams alone; a lost clock, an owner change and an amplifier's timer take effect. The model's readings that this rests on: log
entries 102, 103, 104, 105, 148. -/
def Obligations.AudioBoundariesClocksAndOwners : Prop :=
  ∀ (s : State), s.dev.regsWf = true → s.dev.tablesWf = true →
    (∀ ins : AudioIn,
      ((s.dev.fb AUD_GLB_CTRL.RUN 0 = false ∨ s.dev.pace.enableWaits = true) → Does s (.sampleBoundary ins) fun t => t = s) ∧
      (s.dev.fb AUD_GLB_CTRL.RUN 0 = true → s.dev.pace.enableWaits = false →
        Does s (.sampleBoundary ins) fun t => t.dev.reg64 .AUD_SAMPLE_LO .AUD_SAMPLE_HI 0 = s.dev.aud.n % 2 ^ 64 ∧
          t.dev.reg64 .AUD_SAMPLE_LTIME_LO .AUD_SAMPLE_LTIME_HI 0 = s.dev.now % 2 ^ 64 ∧ t.dev.aud.n = s.dev.aud.n + 1 ∧ t.dev.aud.work = [] ∧
          (∀ r, ((∃ n run base size host, AudWork.stream r n run base size host ∈ s.dev.aud.work) ∨
              (∃ n clip len rep gap, AudWork.play r n clip len rep gap ∈ s.dev.aud.work) ∨ (∃ n, AudWork.stop r n ∈ s.dev.aud.work)) →
            s.dev.Running r → t.dev.Ended r ST_OK 0) ∧
          ∀ p, (∀ n, 8 ≤ n → n < 12 → ∀ o < 2 ^ 22 + 8, ¬s.dev.Homes ((t.dev.stream n).base + o) p ∧
              ¬s.dev.Homes (s.dev.own.tableBase + ownOffset ((t.dev.stream n).base + o)) p) → t.mem.byte p = s.mem.byte p)) ∧
    (∀ p : Fin 8,
      (s.dev.fb AUD_TDM_CFG.ENABLE p.val = true → s.dev.fb AUD_TDM_CFG.MASTER p.val = false →
        ((s.dev.fb AUD_GLB_CTRL.RUN 0 = true ∧ s.dev.clockPort = some p.val) →
          Does s (.tdmClockLoss p) fun t => t.dev.fb AUD_TDM_STAT.CLK_LOST p.val = true ∧ t.dev.pend 353 = true ∧ t.dev.aud.fallback = true ∧
            t.dev.fb AUD_GLB_STAT.CLK_FALLBACK 0 = true ∧ t.dev.pend 358 = true ∧ s.Only t (.AUD_TDM_STAT :: .AUD_GLB_STAT :: told)) ∧
        ((s.dev.fb AUD_GLB_CTRL.RUN 0 = false ∨ s.dev.clockPort ≠ some p.val) →
          Does s (.tdmClockLoss p) fun t => t.dev.fb AUD_TDM_STAT.CLK_LOST p.val = true ∧ t.dev.pend 353 = true ∧ t.dev.aud = s.dev.aud ∧
            s.Only t (.AUD_TDM_STAT :: told))) ∧
      ((s.dev.fb AUD_TDM_CFG.ENABLE p.val = false ∨ s.dev.fb AUD_TDM_CFG.MASTER p.val = true) → Does s (.tdmClockLoss p) fun t => t = s)) ∧
    (∀ (k : Fin 8) (off : Nat), (s.dev.aud.amps.get k.val).offAt = some off →
      (off ≤ s.dev.now → Does s (.ampOffTimer k) fun t => t.dev.aud.amps.get k.val = {} ∧
        (∀ j, j ≠ k.val → t.dev.aud.amps.get j = s.dev.aud.amps.get j) ∧ s.Only t []) ∧
      (s.dev.now < off → Does s (.ampOffTimer k) fun t => t = s)) ∧
    (∀ (who : Fn) (val : Word), assigner who = true →
      (∀ (i : Fin 96) (held : Word), held = (if i.val < 64 then val else val &&& 0xFF) →
        (s.dev.ownerOk who (s.dev.srcOwner i.val) (AUD_SRC_CFG.OWNER.get val) = true → s.dev.Accepts who .AUD_SRC_CFG i.val held →
          Does s (.audioOwnerWrite who (.source i) val) fun t => s.dev.Takes t.dev .AUD_SRC_CFG i.val held ∧
            (∀ j, j ≠ i.val → t.dev.reg .AUD_SRC_CFG j = s.dev.reg .AUD_SRC_CFG j) ∧ t.mem = s.mem) ∧
        (s.dev.ownerOk who (s.dev.srcOwner i.val) (AUD_SRC_CFG.OWNER.get val) = false →
          Does s (.audioOwnerWrite who (.source i) val) fun t => t.dev.fb AUD_GLB_STAT.WERR 0 = true ∧
            t.dev.f AUD_SRC_CFG.OWNER i.val = s.dev.f AUD_SRC_CFG.OWNER i.val ∧
            (∀ j, j ≠ i.val → t.dev.reg .AUD_SRC_CFG j = s.dev.reg .AUD_SRC_CFG j) ∧ t.mem = s.mem)) ∧
      (∀ b : Fin 24, s.dev.ownerOk who (s.dev.busOwner b.val) (AUD_BUS_ASSIGN.OWNER.get val) = true → s.dev.Accepts who .AUD_BUS_ASSIGN b.val val →
        AUD_BUS_ASSIGN.OWNER.get val ≠ s.dev.busOwner b.val →
        Does s (.audioOwnerWrite who (.bus b) val) fun t => t.dev.busOwner b.val = AUD_BUS_ASSIGN.OWNER.get val ∧
          ((s.dev.bus b.val).cur ≠ [] → (s.dev.bus b.val).dying = 0 → (t.dev.bus b.val).dying = 1) ∧
          s.Only t (.AUD_BUS_ASSIGN :: .AUD_BUS_STAT :: .AUD_SNK_STAT :: .PWR_DOM_STAT :: told)) ∧
      (∀ j : Fin 64, s.dev.ownerOk who (s.dev.snkOwner j.val) (AUD_SNK_CFG.OWNER.get val) = true → s.dev.placeTaken j.val val = false →
        s.dev.Accepts who .AUD_SNK_CFG j.val val → AUD_SNK_CFG.OWNER.get val ≠ s.dev.snkOwner j.val →
        Does s (.audioOwnerWrite who (.sink j) val) fun t => t.dev.snkOwner j.val = AUD_SNK_CFG.OWNER.get val ∧
          ((s.dev.sink j.val).cur ≠ [] → (s.dev.sink j.val).dying = 0 → (t.dev.sink j.val).dying = 1) ∧
          s.Only t (.AUD_SNK_CFG :: .AUD_BUS_STAT :: .AUD_SNK_STAT :: .PWR_DOM_STAT :: told)))

/-- Messages of a mailbox channel (R475 to R478, R481, R484, R485): GO posts a free slot behind those already posted, or discards it while its
receiver is in reset, POP frees the oldest, a timeout discards, and the bulk commands of the channel post and take messages. The model's readings that
this rests on: log entries 66, 86. -/
def Obligations.MailboxMessagesArePostedAndPopped : Prop :=
  ∀ (s : State) (c : Fin 64), s.dev.regsWf = true → s.dev.tablesWf = true →
    ((∀ b ∈ s.dev.mbx.bulk, b.chan ≠ c.val) →
    (∀ (who : Fn) (val : Word), s.dev.mbxSide c.val who.code = none →
      (Does s (.mbxGo who c val) fun t => t = s) ∧ (Does s (.mbxPop who c val) fun t => t = s)) ∧
    (∀ (who : Fn) (val : Word) (e : Nat) (k : Fin 4), s.dev.mbxSide c.val who.code = some e → val.toNat % 16 = 2 ^ k.val →
      ((s.dev.mbxSlot c.val e k.val).posted = true →
        Does s (.mbxGo who c val) fun t => (t.dev.mbxEnd c.val e).werr = true ∧ t.dev.mbx.slots = s.dev.mbx.slots ∧ s.Only t []) ∧
      ((s.dev.mbxSlot c.val e k.val).posted = false →
        (s.dev.rxResets c.val e = false →
          Does s (.mbxGo who c val) fun t => (t.dev.mbxSlot c.val e k.val).posted = true ∧
            (t.dev.mbxSlot c.val e k.val).data = (s.dev.mbxSlot c.val e k.val).data ∧
            (t.dev.mbxSlot c.val e k.val).deadline = (if (s.dev.mbxEnd c.val e).timeout = 0 then none
              else some (s.dev.now + 1000 * (s.dev.mbxEnd c.val e).timeout)) ∧
            (t.dev.mbxEnd c.val e).order = (s.dev.mbxEnd c.val e).order ++ [k.val] ∧
            ((s.dev.mbxEnd c.val (1 - e)).rxNotice = false → s.Only t []) ∧ t.mem = s.mem) ∧
        (s.dev.rxResets c.val e = true → (s.dev.mbxEnd c.val e).txNotice = false →
          Does s (.mbxGo who c val) fun t => (t.dev.mbxSlot c.val e k.val).posted = false ∧
            (t.dev.mbxEnd c.val e).rxReset = (s.dev.mbxEnd c.val e).rxReset ||| 2 ^ k.val ∧
            ((s.dev.mbxEnd c.val (1 - e)).resetEv = false → t.dev.pend (384 + c.val) = true) ∧ s.Only t told))) ∧
    (∀ (who : Fn) (val : Word) (e : Nat), s.dev.mbxSide c.val who.code = some e → bit val.toNat 0 = true →
      (∀ k rest, (s.dev.mbxEnd c.val (1 - e)).order = k :: rest → (s.dev.mbxSlot c.val (1 - e) k).bulk = none →
        Does s (.mbxPop who c val) fun t => (t.dev.mbxSlot c.val (1 - e) k).posted = false ∧
          (t.dev.mbxEnd c.val (1 - e)).order = rest.filter (· != k) ∧ s.Only t []) ∧
      ((s.dev.mbxEnd c.val (1 - e)).order = [] →
        Does s (.mbxPop who c val) fun t => (t.dev.mbxEnd c.val e).werr = true ∧ t.dev.mbx.slots = s.dev.mbx.slots ∧ s.Only t [])) ∧
    (∀ (e : Fin 2) (k : Fin 4) (at' : Nat), (s.dev.mbxSlot c.val e.val k.val).deadline = some at' → (s.dev.mbxSlot c.val e.val k.val).posted = true →
      (at' ≤ s.dev.now → (s.dev.mbxSlot c.val e.val k.val).bulk = none → (s.dev.mbxEnd c.val e.val).txNotice = false →
        Does s (.mbxTimeout c e k) fun t => (t.dev.mbxSlot c.val e.val k.val).posted = false ∧
          (t.dev.mbxEnd c.val e.val).timedOut = (s.dev.mbxEnd c.val e.val).timedOut ||| 2 ^ k.val ∧
          (t.dev.mbxEnd c.val e.val).order = (s.dev.mbxEnd c.val e.val).order.filter (· != k.val) ∧ s.Only t []) ∧
      (s.dev.now < at' → Does s (.mbxTimeout c e k) fun t => t = s))) ∧
    (∀ (f : Fn) (q : Fin 8) (x : Cmd) (ref : CmdRef) (s0 : State) (e : Nat), s.Bare f q x → ref = ⟨qi f q, x.id⟩ → s0 = s.started f q x →
      x.u 32 1 = c.val → x.u 33 1 = 1 → bit (x.u 34 1) 0 = false → s.dev.mbxSide c.val f.code = some e → (∀ b ∈ s.dev.mbx.bulk, b.chan ≠ c.val) →
      (∀ bs, x.opcode = 0x90 → s.dev.mbxErr f x false = none → (s.dev.mbxSlot c.val e 0).posted = false → s.dev.rxResets c.val e = false →
        (s0.readMem ⟨f.code, x.secure⟩ 13 (x.u 40 8) 64).2 = .ok bs → Does s (.mbxSend f q) fun t => (t.dev.mbxSlot c.val e 0).posted = true) ∧
      (∀ k rest m, x.opcode = 0x91 → s.dev.mbxErr f x true = none → (s.dev.mbxEnd c.val (1 - e)).order = k :: rest → m = s.dev.mbxSlot c.val (1 - e) k →
        m.bulk = none → (s0.writeMem ⟨f.code, x.secure⟩ 13 (x.u 40 8) ((List.range 16).map fun w => toLe (m.data.get w).toNat 4).flatten).2 = true →
        Does s (.mbxRecv f q) fun t => t.dev.Ended ref ST_OK (1 + 2 ^ 16 * b2n m.senderReset))) ∧
    (∀ (e : Fin 2) (b : MbxBulk), (s.dev.mbx.bulk.find? fun b => !b.send && b.chan == c.val && b.side == e.val &&
        (match b.deadline with | some t => decide (t ≤ s.dev.now) | none => false)) = some b → s.dev.Running b.ref →
      Does s (.mbxRecvTimeout c e) fun t => t.dev.Ended b.ref ST_OK (b.recvResult % 2 ^ 32))

/-- Messages in bulk (R483 to R485): MBX_SEND posts from a buffer in device memory, MBX_RECV takes a message into its buffer and completes, or waits for
one until its time is out. The model's readings that this rests on: log entry 86. -/
def Obligations.BulkMessagesMoveThroughBuffers : Prop :=
  ∀ (s : State), s.dev.regsWf = true → s.dev.tablesWf = true →
    (∀ (f : Fn) (q : Fin 8) (c : Cmd) (ref : CmdRef) (s0 : State) (ch e : Nat), s.Bare f q c → ref = ⟨qi f q, c.id⟩ → s0 = s.started f q c →
      ch = c.u 32 1 % 64 →
      (∀ i recv, (i = .mbxSend f q ∧ c.opcode = 0x90 ∧ recv = false ∨ i = .mbxRecv f q ∧ c.opcode = 0x91 ∧ recv = true) →
        ∀ st res, s.dev.mbxErr f c recv = some (st, res) →
          Does s i fun t => t.dev.Ended ref st (res % 2 ^ 32) ∧ t.dev.mbx = s.dev.mbx ∧ s0.Only t []) ∧
      (s.dev.mbxSide ch f.code = some e → (∀ b ∈ s.dev.mbx.bulk, b.chan ≠ ch) → bit (c.u 34 1) 0 = false → c.u 33 1 = 1 →
        (∀ bs, c.opcode = 0x90 → s.dev.mbxErr f c false = none → (s.dev.mbxSlot ch e 0).posted = false → s.dev.rxResets ch e = false →
          (s0.readMem ⟨f.code, c.secure⟩ 13 (c.u 40 8) 64).2 = .ok bs →
          Does s (.mbxSend f q) fun t => t.dev.Running ref ∧ (t.dev.mbxSlot ch e 0).posted = true ∧ (t.dev.mbxSlot ch e 0).bulk = some ref ∧
            (∀ w < 16, (t.dev.mbxSlot ch e 0).data.get w = BitVec.ofNat 32 (le bs (4 * w) 4)) ∧
            (t.dev.mbxEnd ch e).order = (s.dev.mbxEnd ch e).order ++ [0] ∧ t.mem = s.mem) ∧
        (c.opcode = 0x91 → s.dev.mbxErr f c true = none →
          ((s.dev.mbxEnd ch (1 - e)).order = [] →
            Does s (.mbxRecv f q) fun t => t.dev.Running ref ∧ (∃ b ∈ t.dev.mbx.bulk, b.ref = ref ∧ b.send = false ∧ b.chan = ch ∧ b.side = e ∧
              b.deadline = (if c.u 36 4 = 0 then none else some (s.dev.now + 1000 * c.u 36 4))) ∧ s0.Only t []) ∧
          (∀ k rest m w, (s.dev.mbxEnd ch (1 - e)).order = k :: rest → m = s.dev.mbxSlot ch (1 - e) k → m.bulk = none →
            w = s0.writeMem ⟨f.code, c.secure⟩ 13 (c.u 40 8) ((List.range 16).map fun w => toLe (m.data.get w).toNat 4).flatten → w.2 = true →
            Does s (.mbxRecv f q) fun t => t.dev.Ended ref ST_OK (1 + 2 ^ 16 * b2n m.senderReset) ∧ t.mem = w.1.mem ∧
              (t.dev.mbxSlot ch (1 - e) k).posted = false ∧ (t.dev.mbxEnd ch (1 - e)).order = rest.filter (· != k))))) ∧
    (∀ (c : Fin 64) (e : Fin 2) (b : MbxBulk), (s.dev.mbx.bulk.find? fun b => !b.send && b.chan == c.val && b.side == e.val &&
        (match b.deadline with | some t => decide (t ≤ s.dev.now) | none => false)) = some b → s.dev.Running b.ref →
      Does s (.mbxRecvTimeout c e) fun t => t.dev.Ended b.ref ST_OK (b.recvResult % 2 ^ 32) ∧
        t.dev.mbx.bulk = s.dev.mbx.bulk.filter (fun x => x.ref != b.ref) ∧ s.Only t []) ∧
    (∀ (who : Fn) (c : Fin 64) (val : Word) (e : Nat), s.dev.mbxSide c.val who.code = some e → (∀ b ∈ s.dev.mbx.bulk, b.chan ≠ c.val) →
      (∀ k : Fin 4, val.toNat % 16 = 2 ^ k.val → (s.dev.mbxSlot c.val e k.val).posted = false → s.dev.rxResets c.val e = false →
        Does s (.mbxGo who c val) fun t => (t.dev.mbxSlot c.val e k.val).posted = true) ∧
      (∀ k rest, bit val.toNat 0 = true → (s.dev.mbxEnd c.val (1 - e)).order = k :: rest → (s.dev.mbxSlot c.val (1 - e) k).bulk = none →
        Does s (.mbxPop who c val) fun t => (t.dev.mbxSlot c.val (1 - e) k).posted = false)) ∧
    (∀ (c : Fin 64) (e : Fin 2) (k : Fin 4) (at' : Nat), (∀ b ∈ s.dev.mbx.bulk, b.chan ≠ c.val) → (s.dev.mbxSlot c.val e.val k.val).deadline = some at' →
      (s.dev.mbxSlot c.val e.val k.val).posted = true → (s.dev.mbxSlot c.val e.val k.val).bulk = none → at' ≤ s.dev.now →
      Does s (.mbxTimeout c e k) fun t => (t.dev.mbxSlot c.val e.val k.val).posted = false)

/-- Check-value units (R487 to R490, R493): the owner's feeds run through the CRC in order, a feed while BUSY is ignored with WERR, INIT and a change of
POLY start anew, and a new owner takes the unit once no feed is in progress. The model's readings that this rests on: log entry 39. -/
def Obligations.CheckValueUnitsFollowTheirOwner : Prop :=
  ∀ (s : State) (who : Fn) (u : Fin 8) (val : Word), s.dev.regsWf = true → s.dev.tablesWf = true →
    (∀ i n, (i = .cvuFeed8 who u val ∧ n = 1 ∨ i = .cvuFeed32 who u val ∧ n = 4) →
      (s.dev.holds who (s.dev.cvuOwner u.val) = true →
        (s.dev.fb CVU_CTRL.BUSY u.val = false → Does s i fun t =>
          t.dev.mbx.cvu.get u.val = some ((toLe val.toNat n).foldl (crcFeed (s.dev.f CVU_CTRL.POLY u.val)) (s.dev.cvuVal u.val)) ∧
          (∀ k, k ≠ u.val → t.dev.mbx.cvu.get k = s.dev.mbx.cvu.get k) ∧ s.Only t []) ∧
        (s.dev.fb CVU_CTRL.BUSY u.val = true → Does s i fun t => t.dev.fb CVU_CTRL.WERR u.val = true ∧ t.dev.pend (448 + u.val) = true ∧
          t.dev.mbx = s.dev.mbx ∧ s.Only t (.CVU_CTRL :: told))) ∧
      (s.dev.holds who (s.dev.cvuOwner u.val) = false → Does s i fun t => t = s)) ∧
    (∀ i, (i = .cvuInit who u val ∨ i = .cvuPolyChange who u val) → s.dev.holds who (s.dev.cvuOwner u.val) = false →
      (s.dev.mayCvu who u.val = true → bit val.toNat 2 = true →
        (s.dev.fb CVU_CTRL.BUSY u.val = false → Does s i fun t => t.dev.mbx.cvu.get u.val = none ∧ s.Only t []) ∧
        (s.dev.fb CVU_CTRL.BUSY u.val = true → Does s i fun t => t.dev.fb CVU_CTRL.WERR u.val = true ∧ t.dev.mbx = s.dev.mbx ∧
          s.Only t (.CVU_CTRL :: told))) ∧
      (s.dev.mayCvu who u.val = false ∨ bit val.toNat 2 = false → Does s i fun t => t = s)) ∧
    (∀ i, (i = .cvuInit who u val ∨ i = .cvuPolyChange who u val) → s.dev.holds who (s.dev.cvuOwner u.val) = true → s.dev.Accepts who .CVU_CTRL u.val val →
      Does s i fun t => s.dev.Takes t.dev .CVU_CTRL u.val val ∧
        ((bit val.toNat 2 = true ∨ t.dev.f CVU_CTRL.POLY u.val ≠ s.dev.f CVU_CTRL.POLY u.val) →
          t.dev.mbx.cvu.get u.val = none ∧ t.dev.cvuVal u.val = crcInit (t.dev.f CVU_CTRL.POLY u.val)) ∧
        (bit val.toNat 2 = false → t.dev.f CVU_CTRL.POLY u.val = s.dev.f CVU_CTRL.POLY u.val → t.dev.mbx = s.dev.mbx) ∧ s.Only t [.CVU_CTRL]) ∧
    (∀ new, assigner who = true → new = CVU_ASSIGN.OWNER.get val → new ≠ s.dev.f CVU_ASSIGN.OWNER u.val →
      (s.dev.mayGive who (s.dev.f CVU_ASSIGN.OWNER u.val) = true → s.dev.mayGive who new = true →
        (s.dev.fb CVU_CTRL.BUSY u.val = false → new ≠ s.dev.cvuOwner u.val →
          Does s (.cvuAssignWrite who u val) fun t => t.dev.f CVU_ASSIGN.OWNER u.val = new ∧ t.dev.cvuOwner u.val = new ∧
            t.dev.mbx.cvu.get u.val = none ∧ s.Only t [.CVU_ASSIGN, .HRQ_EV_ROUTE]) ∧
        (s.dev.fb CVU_CTRL.BUSY u.val = true →
          Does s (.cvuAssignWrite who u val) fun t => t.dev.f CVU_ASSIGN.OWNER u.val = new ∧ t.dev.cvuOwner u.val = s.dev.cvuOwner u.val ∧
            t.dev.mbx = s.dev.mbx ∧ s.Only t [.CVU_ASSIGN])) ∧
      ((s.dev.mayGive who (s.dev.f CVU_ASSIGN.OWNER u.val) = false ∨ s.dev.mayGive who new = false) →
        Does s (.cvuAssignWrite who u val) fun t => t.dev.fb CVU_CTRL.WERR u.val = true ∧ t.dev.pend (448 + u.val) = true ∧
          t.dev.mbx = s.dev.mbx ∧ s.Only t (.CVU_CTRL :: told)))

/-- Function-level reset (R510, R511, R513, R514): it begins once, clears the function's queues and holds it in reset, and at reset-done the registers
of the function's page have their reset values and GLB_VF_STAT says so. The model's readings that this rests on: log entries 2, 61, 139, 168. -/
def Obligations.FunctionsResetAndReturn : Prop :=
  ∀ (s : State), s.dev.regsWf = true → s.dev.tablesWf = true →
    (∀ v : Fin 64, (s.dev.vfState v.val = 0 ∨ s.dev.inReset (0x10 + v.val) = true → Does s (.flrStart (.vf v)) fun t => t = s) ∧
      (s.dev.vfState v.val ≠ 0 → s.dev.inReset (0x10 + v.val) = false → Does s (.flrStart (.vf v)) fun t =>
        t.dev.part.resets.get (0x10 + v.val) = some s.dev.now ∧ t.dev.vfState v.val = 2 ∧ (∀ q < 8, t.dev.queue (idx2 8 (0x10 + v.val) q) = {}) ∧
          ((∀ e < 2, ∀ j, (s.dev.we e).job = some j → j.code ≠ 0x10 + v.val) → (∀ x < 64, ∀ j, (s.dev.chan x).run = some j → j.code ≠ 0x10 + v.val) →
            s.dev.mbx.bulk = [] → t.mem = s.mem)) ∧
      (s.dev.inReset (0x10 + v.val) = false → Does s (.flrDone (.vf v)) fun t => t = s) ∧
      (∀ t0, s.dev.part.resets.get (0x10 + v.val) = some t0 → Does s (.flrDone (.vf v)) fun t => t.dev.inReset (0x10 + v.val) = false ∧
        (∀ x ∈ fnRegs (0x10 + v.val), x.1 ≠ .HRQ_MSIX_PBA → t.dev.reg x.1 x.2 = Reg.resetAt x.1 x.2) ∧
        t.dev.vfState v.val = b2n (s.dev.exists? (.vf v)) ∧ t.dev.fb GLB_VF_STAT.RESET_DONE v.val = true ∧
        t.dev.f GLB_VF_STAT.LAST_RESET_US v.val = min 255 ((s.dev.now - t0) / 1000) ∧ t.dev.part.ran.get (0x10 + v.val) = false ∧
        (∀ k, k / 2 ^ 40 = 0x10 + v.val → t.dev.time.held.get k = 0) ∧
        (∀ q < 8, t.dev.queue (idx2 8 (0x10 + v.val) q) = {}) ∧ t.mem = s.mem)) ∧
    (∀ p : Fin 2, (s.dev.inReset (4 + p.val) = false → Does s (.flrStart (.pf p)) fun t => t.dev.part.resets.get (4 + p.val) = some s.dev.now ∧
        (∀ v, v / 32 = p.val → s.dev.vfState v ≠ 0 → t.dev.inReset (0x10 + v) = true ∧ (s.dev.inReset (0x10 + v) = false → t.dev.vfState v = 2)) ∧
        (∀ q < 8, t.dev.queue (idx2 8 (4 + p.val) q) = {}) ∧
        ((∀ e < 2, ∀ j, (s.dev.we e).job = some j → j.code ∉ s.dev.flrCodes (.pf p)) →
          (∀ x < 64, ∀ j, (s.dev.chan x).run = some j → j.code ∉ s.dev.flrCodes (.pf p)) → s.dev.mbx.bulk = [] → t.mem = s.mem)) ∧
      (∀ t0, s.dev.part.resets.get (4 + p.val) = some t0 →
        ((∀ v, v / 32 = p.val → s.dev.vfState v ≠ 0 → s.dev.inReset (0x10 + v) = false) → Does s (.flrDone (.pf p)) fun t =>
          t.dev.inReset (4 + p.val) = false ∧ (∀ x ∈ fnRegs (4 + p.val), x.1 ≠ .HRQ_MSIX_PBA → t.dev.reg x.1 x.2 = Reg.resetAt x.1 x.2) ∧ t.mem = s.mem) ∧
        ((∃ v, v / 32 = p.val ∧ s.dev.vfState v ≠ 0 ∧ s.dev.inReset (0x10 + v) = true) → Does s (.flrDone (.pf p)) fun t => t = s)))

/-- Freezing (R516 to R519): VF_FREEZE enters FREEZING, ends at rest as FROZEN, or at its limit as RUNNING with BUSY; VF_THAW returns to RUNNING; a
frozen VF can be saved, restored and harvested. The model's readings that this rests on: log entries 58, 59. -/
def Obligations.VfsFreezeAndThaw : Prop :=
  ∀ (s : State), s.dev.regsWf = true → s.dev.tablesWf = true →
    (∀ (f : Fn) (q : Fin 8) (c : Cmd) (ref : CmdRef) (v : Nat) (s0 : State), s.Bare f q c → ref = ⟨qi f q, c.id⟩ → s0 = s.started f q c → v = c.u 32 1 % 64 →
      (∀ i errs, (i = .vfFreeze f q ∧ c.opcode = 0xA8 ∧ errs = [s0.dev.vfAborts c, (!c.zero 33 35, ST_BAD_FIELD, errByte 33), (!c.zero 40 63, ST_BAD_FIELD, errByte 40),
            (s0.dev.vfState v == 3 || s0.dev.vfState v == 5, ST_BUSY, errByte 32)] ∨
          i = .vfThaw f q ∧ c.opcode = 0xA9 ∧ errs = [(!c.zero 33 63, ST_BAD_FIELD, errByte 33), (s0.dev.vfState v != 4, ST_BAD_FIELD, errByte 32)]) →
        (∀ st res, firstError (s0.dev.vfHead f c ++ errs) = some (st, res) →
          Does s i fun t => t.dev.Ended ref st (res % 2 ^ 32) ∧ t.dev.part = s.dev.part ∧ s0.Only t []) ∧
        (firstError (s0.dev.vfHead f c ++ errs) = none →
          (i = .vfFreeze f q → s.dev.vfState v = 4 → Does s i fun t => t.dev.Ended ref ST_OK 0 ∧ t.dev.part = s.dev.part ∧ s0.Only t []) ∧
          (i = .vfFreeze f q → s.dev.vfState v ≠ 4 → Does s i fun t => t.dev.vfState v = 3 ∧
            t.dev.part.freezes.get v = some (ref, if c.u 36 4 = 0 then none else some (s.dev.now + 1000 * c.u 36 4)) ∧
            (∀ w, w ≠ v → t.dev.part.freezes.get w = s.dev.part.freezes.get w ∧ t.dev.vfState w = s.dev.vfState w) ∧
            ((∀ e < 2, ∀ j, (s.dev.we e).job = some j → j.code ≠ 0x10 + v) → (∀ x < 64, ∀ j, (s.dev.chan x).run = some j → j.code ≠ 0x10 + v) →
              t.mem = s.mem)) ∧
          (i = .vfThaw f q → (∀ g, ∀ x ∈ (s.dev.gctx g).cmds, x.1 ≠ ref) → (∀ x, ∀ j ∈ (s.dev.chan x).queue, j.ref ≠ ref) →
            (∀ g ∈ s.dev.disp.groups, ref ∉ g.cmds) → (∀ b ∈ s.dev.mbx.bulk, b.ref ≠ ref) → Does s i fun t => t.dev.vfState v = 1 ∧ t.dev.Ended ref ST_OK 0 ∧
            (∀ w, w ≠ v → t.dev.vfState w = s.dev.vfState w))))) ∧
    (∀ (v : Fin 64) (x : CmdRef × Option Nat), s.dev.part.freezes.get v.val = some x →
      (s.dev.atRest (0x10 + v.val) = true → s.dev.Running x.1 → Does s (.freezeAtRest v) fun t => t.dev.vfState v.val = 4 ∧
        t.dev.part.freezes.get v.val = none ∧ t.dev.Ended x.1 ST_OK 0 ∧ s.Only t [.GLB_VF_STAT]) ∧
      (s.dev.atRest (0x10 + v.val) = false → Does s (.freezeAtRest v) fun t => t = s) ∧
      (∀ at', x.2 = some at' → at' ≤ s.dev.now → s.dev.atRest (0x10 + v.val) = false → s.dev.Running x.1 →
        Does s (.freezeLimit v) fun t => t.dev.vfState v.val = 1 ∧ t.dev.part.freezes.get v.val = none ∧ t.dev.Ended x.1 ST_BUSY (errByte 32) ∧
          t = (s.onDev fun d => (d.updPart fun p => { p with freezes := p.freezes.put v.val none }).endCmd x.1 ST_BUSY (errByte 32)).thaw v.val) ∧
      ((∀ at', x.2 = some at' → s.dev.now < at') → Does s (.freezeLimit v) fun t => t = s)) ∧
    (∀ (f : Fn) (q : Fin 8) (c : Cmd) (ref : CmdRef) (v : Nat) (s0 : State), s.Bare f q c → ref = ⟨qi f q, c.id⟩ → s0 = s.started f q c → v = c.u 32 1 % 64 →
      bit (c.u 33 1) 0 = true →
      (c.opcode = 0xAA → firstError (s0.dev.sackErr f c ++ [(s0.dev.vfState v != 4, ST_BAD_FIELD, errByte 32)]) = none → s0.dev.canSend f = true →
        (s0.rucksack v).length ≤ min (c.u 48 4) sackMost → Does s (.rucksackSave f q) fun t => t.dev.Ended ref ST_OK (s0.rucksack v).length) ∧
      (c.opcode = 0xAB → firstError (s0.dev.sackErr f c ++ [(decide (c.u 48 4 < 64), ST_BAD_FIELD, errAt 0xFFFF)]) = none →
        Does s (.rucksackRestore f q) fun t => t.dev.part.fetches = s.dev.part.fetches ++ [⟨ref, c.u 48 4, []⟩]) ∧
      (c.opcode = 0xAC → s0.harvestErr f c = none → s0.dev.canSend f = true → c.u 48 4 ≤ 512 →
        Does s (.dirtyHarvest f q) fun t => t.dev.Ended ref ST_OK 0))

/-- Rucksacks and dirty harvests (R520, R523 to R525): a save writes the image, a restore applies one that passes every check, and a harvest writes
the bits DIRTY of its pages and clears them. The model's readings that this rests on: log entries 26, 60, 62, 63, 129, 168. -/
def Obligations.RucksacksAndHarvestsMoveState : Prop :=
  ∀ (s : State) (f : Fn) (q : Fin 8) (c : Cmd) (ref : CmdRef) (v : Nat) (s0 : State), s.dev.regsWf = true → s.dev.tablesWf = true → s.Bare f q c →
    ref = ⟨qi f q, c.id⟩ → s0 = s.started f q c → v = c.u 32 1 % 64 →
    (∀ e, c.opcode = 0xAA → e = firstError (s0.dev.sackErr f c ++ [(s0.dev.vfState v != 4, ST_BAD_FIELD, errByte 32)]) →
      (∀ st res, e = some (st, res) → Does s (.rucksackSave f q) fun t => t.dev.Ended ref st (res % 2 ^ 32) ∧ s0.Only t []) ∧
      (∀ img, e = none → img = s0.rucksack v →
        (bit (c.u 33 1) 0 = false → s0.ownsBuffer f (c.u 40 8) (c.u 48 4) = false →
          Does s (.rucksackSave f q) fun t => t.dev.Ended ref ST_NOT_OWNER (errByte 40) ∧ s0.Only t []) ∧
        (bit (c.u 33 1) 0 = true ∨ s0.ownsBuffer f (c.u 40 8) (c.u 48 4) = true →
          (min (c.u 48 4) sackMost < img.length → Does s (.rucksackSave f q) fun t => t.dev.Ended ref ST_RESOURCE_LIMIT (img.length % 2 ^ 32) ∧ s0.Only t []) ∧
          (img.length ≤ min (c.u 48 4) sackMost →
            (∀ k, bit (c.u 33 1) 0 = true → s0.dev.canSend f = true → k = 128 * 2 ^ (s0.dev.pci.get f.code).maxPayload →
              Does s (.rucksackSave f q) fun t => t.dev.Ended ref ST_OK img.length ∧ (∃ l, t.dev.outbox = l ++ s0.dev.outbox ∧
                ∀ j < (img.length + k - 1) / k, .hostWrite f (c.u 40 8 + k * j) ((img.drop (k * j)).take k) false ∈ l) ∧ t.mem = s.mem) ∧
            (∀ w, bit (c.u 33 1) 0 = false → w = s0.writeMem ⟨f.code, c.secure⟩ 9 (c.u 40 8) img → w.2 = true →
              Does s (.rucksackSave f q) fun t => t.dev.Ended ref ST_OK img.length ∧ t.mem = w.1.mem ∧
                ∀ p, (∀ o < img.length, ¬s.dev.Homes (c.u 40 8 + o) p ∧ ¬s.dev.Homes (s.dev.own.tableBase + ownOffset (c.u 40 8 + o)) p) →
                  t.mem.byte p = s.mem.byte p))))) ∧
    (∀ e, c.opcode = 0xAB → e = firstError (s0.dev.sackErr f c ++ [(decide (c.u 48 4 < 64), ST_BAD_FIELD, errAt 0xFFFF)]) →
      (∀ st res, e = some (st, res) → Does s (.rucksackRestore f q) fun t => t.dev.Ended ref st (res % 2 ^ 32) ∧ s0.Only t []) ∧
      (∀ k mine, e = none → bit (c.u 33 1) 0 = true → k = s0.dev.readSize f → mine = (fun r : HostReq => r.ref == some ref) →
        Does s (.rucksackRestore f q) fun t => t.dev.Running ref ∧
        t.dev.part.fetches = s.dev.part.fetches ++ [⟨ref, c.u 48 4, []⟩] ∧ t.dev.vfState v = (if s.dev.vfState v = 1 then 5 else s.dev.vfState v) ∧
        (t.dev.hrq.reads.filter mine).map (fun r => (r.f, r.addr, r.len)) = (s0.dev.hrq.reads.filter mine).map (fun r => (r.f, r.addr, r.len)) ++
          (List.range ((c.u 48 4 + k - 1) / k)).map (fun j => (f, c.u 40 8 + k * j, min k (c.u 48 4 - k * j))) ∧ s0.Only t [.GLB_VF_STAT]) ∧
      (∀ img, e = none → bit (c.u 33 1) 0 = false → s0.ownsBuffer f (c.u 40 8) (c.u 48 4) = true →
        (s0.readMem ⟨f.code, c.secure⟩ 9 (c.u 40 8) (c.u 48 4)).2 = .ok img →
        (∀ st i, s0.dev.imgErr img (c.u 48 4) = some (st, i) → Does s (.rucksackRestore f q) fun t => t.dev.Ended ref st (errAt 0xFFFF i) ∧ t.mem = s.mem) ∧
        (s0.dev.imgErr img (c.u 48 4) = none → s0.dev.restorable v = false →
          Does s (.rucksackRestore f q) fun t => t.dev.Ended ref ST_BUSY (errAt 0xFFFF 0xFFFF) ∧ t.mem = s.mem) ∧
        (∀ p, s0.dev.imgErr img (c.u 48 4) = none → s0.dev.restorable v = true → bit (le img 13 1) 0 = s.dev.secureVf v →
          (s.dev.secureVf v = true → c.secure = true) → (∀ x ∈ imgSections img, s0.ownsAll (0x10 + v) x.1 (x.2.2.getD []) = true) →
          p = Config.unpackSections ((imgSections img).map fun x => (x.1, x.2.2.getD [])) → s0.dev.partErr (0x10 + v) (s.dev.secureVf v) p = none →
          Does s (.rucksackRestore f q) fun t => t.dev.vfState v = 4 ∧ t.dev.part.ran.get (0x10 + v) = true ∧ t.mem = s.mem ∧
            (p.groups = [] → f.code ≠ 0x10 + v → t.dev.Ended ref ST_OK (le img 8 4))))) ∧
    (c.opcode = 0xAC →
      (∀ st res, s0.harvestErr f c = some (st, res) → Does s (.dirtyHarvest f q) fun t => t.dev.Ended ref st (res % 2 ^ 32) ∧ s0.Only t []) ∧
      (s0.harvestErr f c = none →
        (bit (c.u 33 1) 0 = true → s0.dev.canSend f = true → c.u 48 4 ≤ 512 → Does s (.dirtyHarvest f q) fun t => t.dev.Ended ref ST_OK 0 ∧
          (∃ l, t.dev.outbox = l ++ s0.dev.outbox ∧ .hostWrite f (c.u 56 8) (s0.dirtyBits (c.u 40 8) (c.u 48 4)) false ∈ l) ∧
          (∀ p, (∀ k < c.u 48 4, ¬s.dev.Homes (s.dev.own.tableBase + ownOffset (c.u 40 8 + 4096 * k)) p) → t.mem.byte p = s.mem.byte p)) ∧
        (bit (c.u 33 1) 0 = false → ∀ r, r = s0.harvest f c.secure false (c.u 48 4 / 512 + 1) (c.u 40 8) (c.u 48 4) (c.u 56 8) → r.2 = none →
          Does s (.dirtyHarvest f q) fun t => t.dev.Ended ref ST_OK 0 ∧ t.mem = r.1.mem ∧
            ∀ p, (∀ k < c.u 48 4, ¬s.dev.Homes (s.dev.own.tableBase + ownOffset (c.u 40 8 + 4096 * k)) p) →
              (∀ o < 64 * ((c.u 48 4 + 511) / 512), ¬s.dev.Homes (c.u 56 8 + o) p ∧ ¬s.dev.Homes (s.dev.own.tableBase + ownOffset (c.u 56 8 + o)) p) →
              t.mem.byte p = s.mem.byte p)))

/-- Convoy links (R531 to R537): a link comes up to the member that its port expects, a lost link retrains, a failing lane is replaced or degrades it,
and the link carries the leader's time and the peer's latches and views. The model's readings that this rests on: log entries 65, 66, 138. -/
def Obligations.ConvoyLinksTrainAndFail : Prop :=
  ∀ (s : State) (k : Fin 3), s.dev.regsWf = true → s.dev.tablesWf = true →
    (∀ peer : PeerInfo,
      (s.dev.cnvTrains k.val = false ∨ s.dev.fb CNV_PORT_STAT.UP k.val = true → Does s (.convoyLinkUp k peer) fun t => t = s) ∧
      (s.dev.cnvTrains k.val = true → s.dev.fb CNV_PORT_STAT.UP k.val = false →
        (peer.member = false ∨ peer.pos.val ≠ s.dev.peerAt k.val → Does s (.convoyLinkUp k peer) fun t =>
          t.dev.fb CNV_PORT_STAT.POS_CONFLICT k.val = true ∧ t.dev.fb CNV_PORT_STAT.UP k.val = false ∧ t.dev.pend (464 + k.val) = true ∧
            s.Only t (.CNV_PORT_STAT :: told)) ∧
        (peer.member = true → peer.pos.val = s.dev.peerAt k.val → Does s (.convoyLinkUp k peer) fun t =>
          t.dev.fb CNV_PORT_STAT.UP k.val = true ∧ t.dev.fb CNV_PORT_STAT.TRAINING k.val = false ∧ t.dev.f CNV_PORT_STAT.LANES k.val = peer.lanes.val ∧
            t.dev.f CNV_PEER_INFO.REVISION k.val = peer.revision.toNat ∧ t.dev.f CNV_PEER_INFO.MEM_GIB k.val = peer.memGib.toNat ∧
            t.dev.pend (464 + k.val) = true ∧ (∀ c ∈ s.dev.spanning peer.pos.val, c ∈ peer.chans.map (·.val) → t.dev.fb MBX_BIND.UP c = true) ∧
            (s.dev.leaderPort = some k.val → s.dev.time.adopted = false → t.dev.now = peer.ltime % 2 ^ 64 ∧ t.dev.time.adopted = true ∧
              t.dev.f GLB_LTIME_STAT.SRC_ACTIVE 0 = 3) ∧
            (s.dev.leaderPort ≠ some k.val ∨ s.dev.time.adopted = true → t.dev.now = s.dev.now) ∧
            ((∀ c ∈ s.dev.spanning peer.pos.val, s.dev.fb MBX_BIND.UP c = false) →
              s.Only t ([.CNV_PORT_STAT, .CNV_PEER_INFO, .MBX_BIND, .GLB_LTIME_STAT] ++ told))))) ∧
    (s.dev.fb CNV_PORT_STAT.UP k.val = true → Does s (.convoyLinkLoss k) fun t => t.dev.fb CNV_PORT_STAT.UP k.val = false ∧
      t.dev.f CNV_PORT_STAT.LANES k.val = 0 ∧ t.dev.fb CNV_PORT_STAT.TRAINING k.val = true ∧
      t.dev.f CNV_PORT_STAT.RETRAINS k.val = min 255 (s.dev.f CNV_PORT_STAT.RETRAINS k.val + 1) ∧ t.dev.pend (464 + k.val) = true ∧
      (s.dev.leaderPort = some k.val → s.dev.time.adopted = true → t.dev.fb CNV_STAT.LEADER_LOST 0 = true ∧ t.dev.pend 468 = true) ∧ (s.dev.mbx.bulk = [] → t.mem = s.mem) ∧
      (s.dev.mbx.bulk = [] → s.dev.spanning (s.dev.peerAt k.val) = [] → s.Only t ([.CNV_PORT_STAT, .CNV_STAT, .DSP_TG_STAT, .DSP_TG_EVSTAT] ++ told))) ∧
    (s.dev.fb CNV_PORT_STAT.UP k.val = false → Does s (.convoyLinkLoss k) fun t => t = s) ∧
    (∀ lane : Fin 8, s.dev.acholtRuns = true → s.dev.cnvTrains k.val = true →
      (s.dev.fb CNV_PORT_STAT.SPARE_USED k.val = false → s.dev.autoBench 4 = true → Does s (.laneSwap k lane) fun t =>
        t.dev.fb CNV_PORT_STAT.SPARE_USED k.val = true ∧ t.dev.pend 467 = true ∧ t.dev.pend 486 = true ∧
          t.dev.f CNV_PORT_STAT.LANES k.val = s.dev.f CNV_PORT_STAT.LANES k.val ∧ t.dev.mgt.bench = ⟨4, 9 * k.val + lane.val, 8⟩ :: s.dev.mgt.bench ∧
          s.Only t (.CNV_PORT_STAT :: .MGT_BENCH :: told)) ∧
      (s.dev.fb CNV_PORT_STAT.SPARE_USED k.val = true ∨ s.dev.autoBench 4 = false → Does s (.laneSwap k lane) fun t =>
        t.dev.f CNV_PORT_STAT.LANES k.val = (if s.dev.fb CNV_PORT_STAT.UP k.val then 4 else s.dev.f CNV_PORT_STAT.LANES k.val) ∧
          t.dev.fb CNV_PORT_STAT.DEGRADED k.val = true ∧ t.dev.pend (464 + k.val) = true ∧ t.dev.pend 487 = true ∧
          t.dev.mgt.bench = s.dev.mgt.bench ∧ s.Only t (.CNV_PORT_STAT :: told))) ∧
    (∀ offset : Int, s.dev.leaderPort = some k.val → s.dev.time.adopted = true → s.dev.fb CNV_PORT_STAT.UP k.val = true →
      Does s (.convoyOffsetExchange offset) fun t => t.dev.reg .CNV_OFFSET 0 = BitVec.ofInt 32 (clampI (-(2 ^ 31)) (2 ^ 31 - 1) offset)) ∧
    (∀ (p : Fin 4), s.dev.peerUp? p.val = true →
      (∀ (n src : Fin 12) (stamp : Nat), s.dev.f DSP_TG_GL.SRC_TYPE n.val = 3 → s.dev.f DSP_TG_GL.PEER n.val = p.val →
        s.dev.f DSP_TG_GL.SRC_IDX n.val = src.val → s.dev.tgScans n.val = true → s.dev.glState n.val ≠ 0 →
        Does s (.peerLatchStamp p src stamp) fun t => (t.dev.out n.val).lastRef = some stamp) ∧
      (∀ (b : Fin 32) (cs : Fin 16) j rivals, (s.dev.cs cs.val).newest = some j →
        Does s (.peerRequest p (.view b (some cs)) rivals) fun t => (t.dev.cs cs.val).peerViews.get (32 * p.val + b.val) = some j))

/-- Shared time and peers (R536 to R541): a follower steers its rate to the leader and says when it is locked, a peer's latch serves the generators
that follow it, and a peer's accesses, messages and views are served while its link is up. The model's readings that this rests on: log entries 64,
66, 115, 137, 138, 149. -/
def Obligations.ConvoyTimeAndPeersAreServed : Prop :=
  ∀ (s : State), s.dev.regsWf = true → s.dev.tablesWf = true →
    (∀ (offset : Int) (k : Nat), s.dev.leaderPort = some k → s.dev.time.adopted = true → s.dev.fb CNV_PORT_STAT.UP k = true →
      Does s (.convoyOffsetExchange offset) fun t => t.dev.reg .CNV_OFFSET 0 = BitVec.ofInt 32 (clampI (-(2 ^ 31)) (2 ^ 31 - 1) offset) ∧
        -100000 ≤ t.dev.time.rate ∧ t.dev.time.rate ≤ 100000 ∧
        t.dev.fb CNV_STAT.LOCKED 0 = (s.dev.fb CNV_STAT.LOCKED 0 || decide (-8 ≤ offset ∧ offset ≤ 8)) ∧
        (s.dev.fb CNV_STAT.LOCKED 0 = false → -8 ≤ offset → offset ≤ 8 → t.dev.pend 469 = true) ∧
        s.Only t ([.CNV_OFFSET, .CNV_STAT, .GLB_LTIME_RATE] ++ told)) ∧
    (∀ (peer : Fin 4) (src : Fin 12) (stamp : Nat),
      (s.dev.peerUp? peer.val = false → Does s (.peerLatchStamp peer src stamp) fun t => t = s) ∧
      (∀ (n : Fin 12) (e : Int) (period : Nat), s.dev.peerUp? peer.val = true →
        period = (match (s.dev.out n.val).lastRef with | some l => stamp - l | none => 0) → s.dev.f DSP_TG_GL.SRC_TYPE n.val = 3 → s.dev.f DSP_TG_GL.PEER n.val = peer.val →
        s.dev.f DSP_TG_GL.SRC_IDX n.val = src.val →
        (∀ m, m < 12 → m ≠ n.val → ¬(s.dev.f DSP_TG_GL.SRC_TYPE m = 3 ∧ s.dev.f DSP_TG_GL.PEER m = peer.val ∧ s.dev.f DSP_TG_GL.SRC_IDX m = src.val)) →
        (s.dev.out n.val).lastRef ≠ some stamp →
        e = (stamp : Int) + s.dev.glOffset n.val - s.dev.nearLatch n.val ((stamp : Int) + s.dev.glOffset n.val) → s.dev.tgScans n.val = true →
        s.dev.glState n.val ≠ 0 →
        Does s (.peerLatchStamp peer src stamp) fun t => t.dev.reg .DSP_TG_PHASE n.val = BitVec.ofInt 32 (satS 32 e) ∧
          (t.dev.out n.val).lastRef = some stamp ∧ (t.dev.out n.val).steer = s.dev.steerFor n.val e period ∧
          t.dev.glState n.val = (if s.dev.glState n.val = 2 ∧ 10000 < e.natAbs then 1
            else if s.dev.glState n.val = 1 ∧ e.natAbs ≤ 2000 ∧ 3 ≤ (s.dev.out n.val).refs then 2
            else if s.dev.glState n.val = 3 then 1 else s.dev.glState n.val) ∧
          s.Only t ([.DSP_TG_PHASE, .DSP_TG_STAT, .DSP_TG_EVSTAT] ++ told))) ∧
    (∀ (p : Fin 4),
      (∀ r rivals, s.dev.peerUp? p.val = false → Does s (.peerRequest p r rivals) fun t => t = s) ∧
      (s.dev.peerUp? p.val = true →
        (∀ sec w addr len data ecc ns (r : Req) (unit : Nat), r = ⟨0x60 + p.val, sec⟩ → unit = unitPeer (s.dev.peerPort p.val) →
          (s.checkAccess r 8 addr w = false → ∀ rivals, Does s (.peerRequest p (.access sec w addr len data ecc ns) rivals) fun t =>
            t.dev.outbox.head? = some (.peerRefused p.val) ∧ t.mem = s.mem) ∧
          (s.checkAccess r 8 addr w = true →
            (∀ rivals, (s.dev.round (s.dev.arbiterOf addr) ⟨6, r.mid, unit, sec⟩ rivals).2 = false →
              Does s (.peerRequest p (.access sec w addr len data ecc ns) rivals) fun t => t.mem = s.mem ∧
                (∀ m bs, .readData m bs ∈ t.dev.outbox → .readData m bs ∈ s.dev.outbox)) ∧
            (w = true → Does s (.peerRequest p (.access sec w addr len data ecc ns) []) fun t =>
              t.mem = ((s.won r unit addr data.length false ns).writeMem r 8 addr data).1.mem) ∧
            (∀ bs, w = false → ((s.won r unit addr len true ns).readEcc r 8 addr len ecc).2 = .ok bs →
              Does s (.peerRequest p (.access sec w addr len data ecc ns) []) fun t =>
                t.dev.outbox.head? = some (.readData r.mid bs) ∧ (ecc = [] → t.mem = s.mem)))) ∧
        (∀ (b : Fin 32) (cs : Fin 16) k rivals, (s.dev.cs cs.val).newest = some k → Does s (.peerRequest p (.view b (some cs)) rivals) fun t =>
          (t.dev.cs cs.val).peerViews.get (32 * p.val + b.val) = some k ∧ s.Only t []) ∧
        (∀ (c : Fin 64) (k : Fin 4) data go rivals, (∀ b ∈ s.dev.mbx.bulk, b.chan ≠ c.val) →
          (s.dev.spansTo c.val p.val = false ∨ (s.dev.mbxSlot c.val 1 k.val).posted = true →
            Does s (.peerRequest p (.mail c k data go) rivals) fun t => t = s) ∧
          (s.dev.spansTo c.val p.val = true → (s.dev.mbxSlot c.val 1 k.val).posted = false → s.dev.rxResets c.val 1 = false →
            Does s (.peerRequest p (.mail c k data go) rivals) fun t => (t.dev.mbxSlot c.val 1 k.val).posted = true ∧
              (∀ w < 16, (t.dev.mbxSlot c.val 1 k.val).data.get w = data.getD w 0) ∧
              (t.dev.mbxEnd c.val 1).order = (s.dev.mbxEnd c.val 1).order ++ [k.val] ∧ t.mem = s.mem) ∧
          (∀ st, s.dev.spansTo c.val p.val = true → (s.dev.mbxSlot c.val 0 k.val).posted = true →
            Does s (.peerRequest p (.mailEnd c k st) rivals) fun t => (t.dev.mbxSlot c.val 0 k.val).posted = false ∧
              (t.dev.mbxEnd c.val 0).order = (s.dev.mbxEnd c.val 0).order.filter (· != k.val) ∧ t.mem = s.mem) ∧
          ((s.dev.spansTo c.val p.val = false ∨ (s.dev.mbxSlot c.val 1 k.val).posted = false → Does s (.peerRequest p (.mailGone c k) rivals) fun t => t = s) ∧
            (s.dev.spansTo c.val p.val = true → (s.dev.mbxSlot c.val 1 k.val).posted = true → Does s (.peerRequest p (.mailGone c k) rivals) fun t =>
              t.dev.mbxSlot c.val 1 k.val = {} ∧ (t.dev.mbxEnd c.val 1).order = (s.dev.mbxEnd c.val 1).order.filter (· != k.val) ∧ s.Only t [])) ∧
          (∀ can, s.dev.spansTo c.val p.val = true → Does s (.peerRequest p (.mailOpen c can) rivals) fun t => (t.dev.mbxEnd c.val 1).opened = can ∧
            t.dev.peerUp c.val 0 = can ∧ s.Only t []) ∧
          (s.dev.spansTo c.val p.val = true → (∀ j ∈ (s.dev.mbxEnd c.val 0).order, j < 4) → Does s (.peerRequest p (.mailReset c) rivals) fun t =>
            (t.dev.mbxEnd c.val 1).opened = false ∧ (∀ j < 4, (s.dev.mbxSlot c.val 1 j).posted = false → t.dev.mbxSlot c.val 1 j = {}) ∧
              (∀ j < 4, (s.dev.mbxSlot c.val 1 j).posted = true → (t.dev.mbxSlot c.val 1 j).senderReset = true) ∧ t.mem = s.mem)))) ∧
    (∀ k : Fin 3,
      (∀ peer : PeerInfo, s.dev.cnvTrains k.val = true → s.dev.fb CNV_PORT_STAT.UP k.val = false → peer.member = true → peer.pos.val = s.dev.peerAt k.val →
        Does s (.convoyLinkUp k peer) fun t => t.dev.fb CNV_PORT_STAT.UP k.val = true) ∧
      (s.dev.fb CNV_PORT_STAT.UP k.val = true → Does s (.convoyLinkLoss k) fun t => t.dev.fb CNV_PORT_STAT.UP k.val = false) ∧
      (∀ lane : Fin 8, s.dev.acholtRuns = true → s.dev.cnvTrains k.val = true → s.dev.fb CNV_PORT_STAT.SPARE_USED k.val = false → s.dev.autoBench 4 = true →
        Does s (.laneSwap k lane) fun t => t.dev.fb CNV_PORT_STAT.SPARE_USED k.val = true))

/-- Command errors of Acholt (R135, R546, R547): a management command whose checks fail completes with the status and the RESULT of the first that fails,
and no register changes but those in which the log and events are told. The model's readings that this rests on: log entries 77, 112. -/
def Obligations.ManagementErrorsAreReported : Prop :=
  ∀ (s s0 : State) (f : Fn) (q : Fin 8) (c : Cmd), s.Begins f q c s0 → s0.dev.regsWf = true → s0.dev.tablesWf = true →
    ∀ (i : Instr) (errs : List (Bool × Nat × Nat)) (st res : Nat),
      ((i = .sensorRead f q ∧ c.opcode = 0xA0 ∧ errs = mgtHead f c false (within 40 47) ++ [s0.dev.mgtBuf c 552]) ∨
       (i = .logRead f q ∧ c.opcode = 0xA1 ∧ errs = mgtHead f c false (within 36 51) ++
          [(!decide (1 ≤ c.u 48 4 ∧ c.u 48 4 ≤ 2048), ST_BAD_FIELD, errByte 48), s0.dev.mgtBuf c (32 * c.u 48 4)]) ∨
       (i = .epochFloorRaise f q ∧ c.opcode = 0xA2 ∧ c.u 33 1 = 1 ∧ errs = mgtHead f c true (· == 33) ++
          [(s0.dev.mgt.epochSteps == 32 || decide (s0.dev.f OWN_LOCK_STAT.EPOCH 0 < s0.dev.mgt.epochSteps + 1), ST_BAD_FIELD, errByte 33)]) ∨
       (i = .debugSet f q ∧ c.opcode = 0xA3 ∧ errs = mgtHead f c true (· == 34) ++ [(decide (16 ≤ c.u 34 1), ST_BAD_FIELD, errByte 34)]) ∨
       (i = .fwVerify f q ∧ c.opcode = 0xA4 ∧ c.u 33 1 = 1 ∧ errs = mgtHead f c true (· == 33) ++
          [(!(s0.dev.fwForm (s0.dev.fwHeader s0.dev.fwOther) && fwSigned (s0.dev.fwImage s0.dev.fwOther)), ST_BAD_FIELD, errOutside),
           (!s0.dev.fwLevel (s0.dev.fwHeader s0.dev.fwOther), ST_VERSION, errOutside)]) ∨
       (i = .fwActivate f q ∧ c.opcode = 0xA4 ∧ c.u 33 1 = 2 ∧ errs = mgtHead f c true (fun b => b == 33 || b == 34) ++
          [(decide (2 ≤ c.u 34 1), ST_BAD_FIELD, errByte 34), (!s0.dev.mgt.verified, ST_BAD_FIELD, errOutside)]) ∨
       (i = .fwConfirm f q ∧ c.opcode = 0xA4 ∧ c.u 33 1 = 3 ∧ errs = mgtHead f c true (· == 33) ++ [(!s0.dev.onTrial, ST_BAD_FIELD, errOutside)]) ∨
       ((∃ bad, i = .fwRollbackStep f q bad) ∧ c.opcode = 0xA4 ∧ c.u 33 1 = 4 ∧ errs = mgtHead f c true (· == 33) ++
          [(s0.dev.mgt.trial, ST_BAD_FIELD, errOutside), (decide (s0.dev.mgt.imageRollback ≤ s0.dev.mgt.fwSteps), ST_BAD_FIELD, errOutside)]) ∨
       (i = .keyRevoke f q ∧ c.opcode = 0xA6 ∧ errs = mgtHead f c true (· == 34) ++ [(decide (8 ≤ c.u 34 1), ST_BAD_FIELD, errByte 34),
          (!((List.range 8).any fun j => j != c.u 34 1 && s0.dev.holdsRevoke j), ST_NOT_PERMITTED, errByte 34)]) ∨
       (i = .convoyMembers f q ∧ c.opcode = 0xA7 ∧ errs = mgtHead f c true (· == 34) ++ [(decide (16 ≤ c.u 34 1), ST_BAD_FIELD, errByte 34)]) ∨
       (i = .earlyViewClear f q ∧ c.opcode = 0xAD ∧ c.u 33 1 = 2 ∧ errs = mgtHead f c true (· == 33)) ∨
       (i = .calSetTime f q ∧ c.opcode = 0xAE ∧ c.u 33 1 ≠ 1 ∧ c.u 33 1 ≠ 2 ∧ errs = mgtHead f c false (fun b => b == 33 || within 36 41 b) ++
          [(c.u 33 1 != 0, ST_BAD_FIELD, errByte 33), (decide (0x8000 ≤ c.u 40 2), ST_BAD_FIELD, errByte 40)]) ∨
       (i = .calSetAlarm f q ∧ c.opcode = 0xAE ∧ c.u 33 1 = 1 ∧ errs = mgtHead f c false (fun b => b == 33 || b == 34 || within 36 39 b) ++
          [(decide (4 ≤ c.u 34 1), ST_BAD_FIELD, errByte 34)]) ∨
       (i = .calSetTrim f q ∧ c.opcode = 0xAE ∧ c.u 33 1 = 2 ∧ errs = mgtHead f c false (fun b => b == 33 || b == 34) ++
          [(c.u 34 1 == 0x80, ST_BAD_FIELD, errByte 34)])) →
      firstError errs = some (st, res) → Does s i fun t => t.dev.Ended ⟨qi f q, c.id⟩ st (res % 2 ^ 32) ∧ s0.Only t told

/-- Sensors and the log (R557 to R563): readings are stored and their levels raise events, and the two read commands write what is held to a buffer.
Stated: R563. The clauses on sensors, ageing and the mirror are derived (log entries 110, 113, 119, 150). -/
def Obligations.SensorsAndLogsAreRead : Prop :=
  ∀ (s : State), s.dev.regsWf = true → s.dev.tablesWf = true →
    (∀ (s0 : State) (f : Fn) (q : Fin 8) (c : Cmd) (ref : CmdRef) (i : Instr) (bs : List Byte) (st res : Nat), s.Begins f q c s0 → s0.dev.regsWf = true →
      s0.dev.tablesWf = true → ref = ⟨qi f q, c.id⟩ →
      (i = .sensorRead f q ∧ c.opcode = 0xA0 ∧ firstError (mgtHead f c false (within 40 47) ++ [s0.dev.mgtBuf c 552]) = none ∧
          bs = (s0.dev.mgt.sensorWindow ++ List.replicate 552 0).take 552 ∧ st = ST_OK ∧ res = 0 ∨
        i = .logRead f q ∧ c.opcode = 0xA1 ∧ firstError (mgtHead f c false (within 36 51) ++
            [(!decide (1 ≤ c.u 48 4 ∧ c.u 48 4 ≤ 2048), ST_BAD_FIELD, errByte 48), s0.dev.mgtBuf c (32 * c.u 48 4)]) = none ∧
          res = min (c.u 48 4) (s0.dev.mgt.nextSeq - max (c.u 36 4) s0.dev.logOldest) ∧
          st = (if c.u 36 4 < s0.dev.logOldest then ST_CLAMPED else ST_OK) ∧
          bs = ((List.range res).map fun j => logShow c.secure (s0.dev.logBytes (max (c.u 36 4) s0.dev.logOldest + j))).flatten) →
      (s0.refusedLine (cmdReq f c) (c.u 40 8) bs.length true = none → Does s i fun t => t.dev.Ended ref st res ∧
        t.mem = (s0.writeMem (cmdReq f c) 13 (c.u 40 8) bs).1.mem ∧ t.dev.mgt = s0.dev.mgt ∧
        ∀ p, (∀ o < bs.length, ¬s0.dev.Homes (c.u 40 8 + o) p ∧ ¬s0.dev.Homes (s0.dev.own.tableBase + ownOffset (c.u 40 8 + o)) p) →
          t.mem.byte p = s0.mem.byte p) ∧
      (∀ x, s0.refusedLine (cmdReq f c) (c.u 40 8) bs.length true = some x → Does s i fun t => t.dev.Ended ref ST_OWN_REFUSED 0 ∧ t.dev.pend 16 = true ∧
        t.mem = s0.mem)) ∧
    (∀ (temps : List (BitVec 12)) (mvs : List Nat), (s.dev.acholtRuns = false ∨ s.dev.now < s.dev.mgt.sensorDue →
        Does s (.sensorUpdate temps mvs) fun t => t = s) ∧
      (s.dev.acholtRuns = true → s.dev.mgt.sensorDue ≤ s.dev.now → Does s (.sensorUpdate temps mvs) fun t =>
        t.dev.mgt.sensorDue = s.dev.now + 1000000 ∧ t.dev.mgt.sensorWindow = t.dev.sensorImage ∧
        (∀ core, mvs ≠ [] → core = (mvs.take 5).foldl min 1023 → t.dev.f PWR_PACE_STAT.VCORE_MEAS_MV 0 = core ∧
          (core < 720 → s.dev.floorHeld = true → t.dev.fb PWR_PACE_STAT.BELOW_FLOOR 0 = true ∧ t.dev.pend 490 = true)) ∧
        (∀ (i : Nat) (v : BitVec 12) (warn crit : Int), i < 24 → temps[i]? = some v → warn = 8 * (s.dev.f MGT_THERM_CFG.WARN_C 0 : Int) →
          crit = 8 * (s.dev.f MGT_THERM_CFG.CRIT_C 0 : Int) → t.dev.f MGT_THERM.TEMP i = v.toNat ∧
          t.dev.fb MGT_THERM.WARN i = (decide (warn ≤ v.toInt) || (s.dev.fb MGT_THERM.WARN i && decide (warn - 40 < v.toInt))) ∧
          t.dev.fb MGT_THERM.CRIT i = (decide (crit ≤ v.toInt) || (s.dev.fb MGT_THERM.CRIT i && decide (crit - 40 < v.toInt))) ∧
          (warn ≤ v.toInt → s.dev.fb MGT_THERM.WARN i = false → t.dev.pend 482 = true) ∧
          (crit ≤ v.toInt → s.dev.fb MGT_THERM.CRIT i = false → t.dev.pend 483 = true)) ∧
        (∀ i v, i < 16 → mvs[i]? = some v → t.dev.f MGT_VMON.MV i = min 8191 v ∧
          (min 8191 v < (s.dev.vmonWindow i).1 → t.dev.fb MGT_VMON.LOW i = true ∧ t.dev.pend 484 = true) ∧
          ((s.dev.vmonWindow i).1 ≤ min 8191 v → (s.dev.vmonWindow i).2 < min 8191 v → t.dev.fb MGT_VMON.HIGH i = true ∧ t.dev.pend 484 = true)) ∧
        s.Only t ([.MGT_THERM, .MGT_VMON, .PWR_PACE_STAT] ++ told))) ∧
    (s.dev.acholtRuns = false ∨ s.dev.now < s.dev.mgt.ageDue → ∀ drifts, Does s (.agingUpdate drifts) fun t => t = s) ∧
    (s.dev.acholtRuns = false ∨ s.dev.mgt.recovery = true → ∀ ok, Does s (.logMirror ok) fun t => t = s) ∧
    (∀ drifts : List (BitVec 16), s.dev.acholtRuns = true → s.dev.mgt.ageDue ≤ s.dev.now → Does s (.agingUpdate drifts) fun t =>
      t.dev.mgt.ageDue = s.dev.now + 1000000000 ∧ s.Only t (.MGT_AGE :: told) ∧
      ∀ i v, i < 32 → drifts[i]? = some v → t.dev.f MGT_AGE.DRIFT i = v.toNat ∧
        t.dev.fb MGT_AGE.OVER i = decide (s.dev.f MGT_AGE_CFG.AGE_LIMIT 0 ≤ v.toNat) ∧
        (s.dev.f MGT_AGE_CFG.AGE_LIMIT 0 ≤ v.toNat → s.dev.fb MGT_AGE.OVER i = false → t.dev.pend 485 = true)) ∧
    (s.dev.acholtRuns = true → s.dev.mgt.recovery = false → s.dev.mgt.nextMirror < s.dev.mgt.nextSeq →
      (Does s (.logMirror true) fun t => t.dev.mgt.nextMirror = s.dev.mgt.nextSeq ∧
        t.dev.reg .MGT_LOG_MIRROR 0 = BitVec.ofNat 32 (s.dev.mgt.nextSeq - 1) ∧ t.dev.mgt.log = s.dev.mgt.log ∧
        (∀ n, n = s.dev.mgt.nextMirror → s.dev.mgt.nextSeq = n + 1 →
          t.dev.mgt.flash = flashPut (flashErase s.dev.mgt.flash (mirrorAt n) 32) (mirrorAt n) (s.dev.logBytes n)) ∧ s.Only t [.MGT_LOG_MIRROR]) ∧
      (Does s (.logMirror false) fun t => t.dev.pend 494 = true ∧ t.dev.mgt = s.dev.mgt ∧ s.Only t told))

/-- Firmware (R550 to R556): a slot is written, verified, activated and confirmed, the rollback steps are programmed up to the level of the running image,
Acholt starts the slot that is selected, and the watchdog restarts it. The model's readings that this rests on: log entries 6, 111, 113, 114, 151. -/
def Obligations.FirmwareIsUpdatedAndStarted : Prop :=
  ∀ (s : State), s.dev.regsWf = true → s.dev.tablesWf = true →
    (∀ (s0 : State) (f : Fn) (q : Fin 8) (c : Cmd) (ref : CmdRef) (v : Nat), s.Begins f q c s0 → s0.dev.regsWf = true → s0.dev.tablesWf = true →
      ref = ⟨qi f q, c.id⟩ → v = le (s0.dev.fwHeader s0.dev.fwOther) 8 4 → c.opcode = 0xA4 →
      (∀ bs errs, errs = mgtHead f c true (fun b => b == 33 || within 36 51 b) ++
          [(c.u 33 1 != 0, ST_BAD_FIELD, errByte 33), (s0.dev.mgt.trial, ST_BUSY, errOutside), (c.u 36 4 % 4096 != 0, ST_BAD_FIELD, errByte 36),
           (c.u 48 4 % 4096 != 0 || !decide (4096 ≤ c.u 48 4 ∧ c.u 48 4 ≤ 0x100000), ST_BAD_FIELD, errByte 48),
           (decide (0x800000 < c.u 36 4 + c.u 48 4), ST_BAD_FIELD, errByte 36), s0.dev.mgtBuf c (c.u 48 4)] →
        (c.u 33 1 = 0 → firstError errs = none → (s0.readMem (cmdReq f c) 13 (c.u 40 8) (c.u 48 4)).2 = .ok bs → Does s (.fwWrite f q) fun t =>
          t.dev.Ended ref ST_OK 0 ∧ t.dev.mgt.verified = false ∧ t.dev.mgt.flash = flashPut (flashErase s0.dev.mgt.flash
            (fwSlotAt s0.dev.fwOther + c.u 36 4) (c.u 48 4)) (fwSlotAt s0.dev.fwOther + c.u 36 4) bs ∧ s0.Only t told) ∧
        (∀ st res, c.u 33 1 = 0 ∨ 4 < c.u 33 1 → firstError errs = some (st, res) → Does s (.fwWrite f q) fun t =>
          t.dev.Ended ref st (res % 2 ^ 32) ∧ t.dev.mgt.flash = s0.dev.mgt.flash ∧ s0.Only t told)) ∧
      (c.u 33 1 = 1 → c.Plain (· == 33) → s0.dev.fwForm (s0.dev.fwHeader s0.dev.fwOther) = true → fwSigned (s0.dev.fwImage s0.dev.fwOther) = true →
        s0.dev.fwLevel (s0.dev.fwHeader s0.dev.fwOther) = true → Does s (.fwVerify f q) fun t =>
          t.dev.Ended ref ST_OK v ∧ t.dev.mgt.verified = true ∧ t.dev.mgt.flash = s0.dev.mgt.flash ∧ s0.Only t told) ∧
      (c.u 33 1 = 2 → c.Plain (fun b => b == 33 || b == 34) → c.u 34 1 < 2 → s0.dev.mgt.verified = true → Does s (.fwActivate f q) fun t =>
        t.dev.Ended ref ST_OK 0 ∧ t.dev.mgt.active = s0.dev.fwOther ∧ t.dev.mgt.trial = true ∧ t.dev.mgt.tries = 0 ∧ (c.u 34 1 = 0 ∨ s0.dev.mbx.bulk = [] → t.mem = s0.mem) ∧
          (c.u 34 1 = 0 → t.dev.mgt.phase = s0.dev.mgt.phase ∧ s0.Only t ([.MGT_STAT, .MGT_FW_VER, .MGT_FW_RB] ++ told)) ∧
          (c.u 34 1 = 1 → t.dev.mgt.phase = .starting ∧ t.dev.mgt.restartCause = some 0 ∧ t.dev.pend 480 = true ∧
            t.dev.f MGT_STAT.RESTARTS 0 = min 255 (s0.dev.f MGT_STAT.RESTARTS 0 + 1))) ∧
      (c.u 33 1 = 3 → c.Plain (· == 33) → s0.dev.onTrial = true → Does s (.fwConfirm f q) fun t => t.dev.Ended ref ST_OK 0 ∧ t.dev.mgt.trial = false ∧
        t.dev.fb MGT_STAT.TRIAL 0 = false ∧ t.dev.mgt.active = s0.dev.mgt.active ∧ s0.Only t ([.MGT_STAT, .MGT_FW_VER, .MGT_FW_RB] ++ told)) ∧
      (c.u 33 1 = 4 → c.Plain (· == 33) → s0.dev.mgt.trial = false → s0.dev.mgt.fwSteps < s0.dev.mgt.imageRollback →
        (∀ n, n = max s0.dev.mgt.fwSteps (min 64 s0.dev.mgt.imageRollback) → Does s (.fwRollbackStep f q []) fun t => t.dev.mgt.fwSteps = n ∧
          t.dev.mgt.fusesUsed = s0.dev.mgt.fusesUsed ∧ t.dev.Ended ref ST_OK (n % 2 ^ 32) ∧ s0.Only t ([.MGT_STAT, .MGT_FW_VER, .MGT_FW_RB] ++ told)) ∧
        (∀ bad : List (Fin 64), (∃ b ∈ bad, b.val = s0.dev.mgt.fwSteps) → 8 ≤ s0.dev.mgt.fusesUsed → s0.dev.mgt.fwSteps < 64 →
          Does s (.fwRollbackStep f q bad) fun t => t.dev.mgt.fwSteps = s0.dev.mgt.fwSteps ∧ t.dev.Ended ref ST_BENCH_EXHAUSTED errOutside ∧
            s0.Only t ([.MGT_STAT, .MGT_FW_VER, .MGT_FW_RB] ++ told)) ∧
        (∀ bad : List (Fin 64), (∃ b ∈ bad, b.val = s0.dev.mgt.fwSteps) → s0.dev.mgt.fusesUsed < 8 → min 64 s0.dev.mgt.imageRollback = s0.dev.mgt.fwSteps + 1 →
          Does s (.fwRollbackStep f q bad) fun t => t.dev.mgt.fwSteps = s0.dev.mgt.fwSteps + 1 ∧ t.dev.mgt.fusesUsed = s0.dev.mgt.fusesUsed + 1 ∧
            t.dev.mgt.bench = ⟨7, s0.dev.mgt.fwSteps, s0.dev.mgt.fusesUsed⟩ :: s0.dev.mgt.bench ∧ t.dev.Ended ref ST_OK (s0.dev.mgt.fwSteps + 1) ∧
            t.mem = s0.mem))) ∧
    (∀ octal : Bool,
      (s.dev.mgt.phase = .starting → s.dev.mgt.bootSel = 2 → Does s (.acholtStart octal) fun t => t.dev.mgt.phase = .recovery ∧
        t.dev.mgt.fspiOctal = octal ∧ s.Only t []) ∧
      (∀ a h, s.dev.mgt.phase = .starting → s.dev.mgt.bootSel ≠ 2 → (s.dev.mgt.trial && s.dev.mgt.tries == 3) = false → a = s.dev.mgt.active % 2 →
        h = s.dev.fwHeader a → s.dev.slotValid a = true → Does s (.acholtStart octal) fun t => t.dev.mgt.phase = .running ∧ t.dev.mgt.slot = a ∧
          t.dev.mgt.version = le h 8 4 ∧ t.dev.mgt.imageRollback = le h 6 1 ∧ t.dev.mgt.recovery = false ∧ t.dev.mgt.restartCause = none ∧
          t.dev.mgt.tries = (if s.dev.mgt.trial then min 3 (s.dev.mgt.tries + 1) else s.dev.mgt.tries) ∧ t.mem = s.mem) ∧
      (∀ a, s.dev.mgt.phase = .starting → s.dev.mgt.bootSel ≠ 2 → a = s.dev.mgt.active % 2 → s.dev.slotValid (1 - a) = true →
        ((s.dev.mgt.trial && s.dev.mgt.tries == 3) = true → Does s (.acholtStart octal) fun t => t.dev.mgt.phase = .running ∧ t.dev.mgt.slot = 1 - a ∧
          t.dev.mgt.active = 1 - a ∧ t.dev.mgt.trial = false ∧ t.dev.pend 481 = true ∧ t.mem = s.mem) ∧
        ((s.dev.mgt.trial && s.dev.mgt.tries == 3) = false → s.dev.slotValid a = false → Does s (.acholtStart octal) fun t =>
          t.dev.mgt.phase = .running ∧ t.dev.mgt.slot = 1 - a ∧ t.dev.mgt.active = 1 - a ∧ t.dev.mgt.trial = false ∧ t.mem = s.mem)) ∧
      (s.dev.mgt.phase = .starting → s.dev.mgt.bootSel ≠ 2 → s.dev.slotValid 0 = false → s.dev.slotValid 1 = false →
        Does s (.acholtStart octal) fun t => t.dev.mgt.phase = .recovery ∧ t.mem = s.mem) ∧
      (∀ go, s.dev.mgt.phase = .recovery → (go ↔ le (s.dev.winRead 0x3FFFC 4) 0 4 = 0x52454356 ∧ s.dev.fwForm (s.dev.winRead 0 64) = true ∧
          s.dev.fwLevel (s.dev.winRead 0 64) = true ∧ le (s.dev.winRead 0 64) 12 4 + 96 ≤ 0x3FFFC ∧
          fwSigned (s.dev.winRead 0 (le (s.dev.winRead 0 64) 12 4 + 96)) = true) →
        (go → Does s (.acholtStart octal) fun t => t.dev.mgt.phase = .running ∧ t.dev.mgt.recovery = true ∧ t.dev.mgt.slot = s.dev.mgt.active ∧
          t.dev.mgt.version = le (s.dev.winRead 0 64) 8 4 ∧ t.mem = s.mem) ∧
        (¬go → Does s (.acholtStart octal) fun t => t = s)) ∧
      (s.dev.mgt.phase = .running → Does s (.acholtStart octal) fun t => t = s)) ∧
    (s.dev.acholtRuns = true → s.dev.mgt.watchdogAt + 100000000 ≤ s.dev.now → Does s .watchdogExpire fun t => t.dev.mgt.phase = .starting ∧ t.dev.mgt.restartCause = some 1 ∧ t.dev.pend 480 = true ∧
      t.dev.f MGT_STAT.RESTARTS 0 = min 255 (s.dev.f MGT_STAT.RESTARTS 0 + 1) ∧ (s.dev.mbx.bulk = [] → t.mem = s.mem)) ∧
    (s.dev.acholtRuns = false ∨ s.dev.now < s.dev.mgt.watchdogAt + 100000000 → Does s .watchdogExpire fun t => t = s)

/-- The Bench (R564 to R566): a forced swap of a lane takes place at once, every other waits for the boundary of its kind, and Acholt benches a die-to-die
lane while one of its four spares is left. -/
def Obligations.BenchSwapsAreForced : Prop :=
  ∀ (s : State), s.dev.regsWf = true → s.dev.tablesWf = true →
    (∀ (s0 : State) (f : Fn) (q : Fin 8) (c : Cmd) (ref : CmdRef) (kind index : Nat) (back : Bool) (r : SwapReq) (e : Option (Nat × Nat)),
      s.Begins f q c s0 → s0.dev.regsWf = true → s0.dev.tablesWf = true → ref = ⟨qi f q, c.id⟩ → c.opcode = 0xA5 → kind = c.u 34 1 → index = c.u 36 2 →
      back = (c.u 35 1 == 1) → r = ⟨3, some ref, back⟩ → e = firstError (mgtHead f c true (within 34 37) ++
        [(!([0, 2, 3, 4, 6] : List Nat).contains kind, ST_BAD_FIELD, errByte 34), (decide (2 ≤ c.u 35 1), ST_BAD_FIELD, errByte 35),
         (!forcedOk kind index, ST_BAD_FIELD, errByte 36), (back && !s0.dev.benchRetired kind index, ST_BAD_FIELD, errByte 36),
         (s0.dev.swapBusy kind, ST_BUSY, errOutside), (!back && !s0.dev.spareFree kind index, ST_BENCH_EXHAUSTED, errOutside)] ) →
      (∀ st res, e = some (st, res) → Does s (.benchSwap f q) fun t => t.dev.Ended ref st (res % 2 ^ 32) ∧ t.dev.mgt = s0.dev.mgt ∧ s0.Only t []) ∧
      (e = none → Does s (.benchSwap f q) fun t =>
        (kind = 0 → t.dev.msys.swap = some ⟨if back then 16 else index, if back then index else 16, 0, back, 3, some ref⟩ ∧ t.dev.Running ref ∧
          t.dev.fb MEM_BANK_STAT.MIGRATING index = true ∧ t.dev.fb MEM_BANK_STAT.MIGRATING 16 = true ∧ s0.Only t [.MEM_BANK_STAT]) ∧
        (kind = 2 → (t.dev.cluster index).swap = some r ∧ t.dev.Running ref ∧ s0.Only t [.GPU_SC_STAT]) ∧
        (kind = 3 → (t.dev.out index).swapReq = some r ∧ t.dev.Running ref ∧ s0.Only t []) ∧
        (kind = 4 → t.dev.fb CNV_PORT_STAT.SPARE_USED (index / 9) = !back ∧ t.dev.pend 467 = true ∧ t.dev.Ended ref ST_OK 0 ∧
          s0.Only t ([.CNV_PORT_STAT, .MGT_BENCH] ++ told)) ∧
        (kind = 6 → s0.dev.tchState (index / 64) ≠ 0 → (index % 64, r) ∈ (t.dev.eng (index / 64)).toSpare ∧ t.dev.Running ref ∧ s0.Only t []))) ∧
    (∀ (k : Fin 8) (ref : CmdRef) (p : Nat), (s.dev.cluster k.val).swap = some ⟨3, some ref, false⟩ → s.dev.Running ref →
      ((List.range 10).find? fun p => s.dev.f GPU_SC_STAT.ROLE p == 1) = some p → s.dev.physOf k.val ≠ p →
      Does s (.clusterSwap k) fun t => t.dev.f GPU_SC_STAT.ROLE p = 0 ∧ t.dev.f GPU_SC_STAT.LOGICAL p = k.val ∧ t.dev.Ended ref ST_OK 0 ∧ t.mem = s.mem) ∧
    (∀ (lane : Nat) (training : Bool), (s.dev.autoBench 5 = false ∨ s.dev.benchRetired 5 lane = true → Does s (.d2dLaneSwap lane training) fun t => t = s) ∧
      (∀ used, used = (s.dev.mgt.bench.filter fun u => u.kind == 5).length → s.dev.autoBench 5 = true → s.dev.benchRetired 5 lane = false →
        (used < 4 → Does s (.d2dLaneSwap lane training) fun t => t.dev.mgt.bench = ⟨5, lane, used⟩ :: s.dev.mgt.bench ∧
          t.dev.f MGT_BENCH.IN_USE 5 = used + 1 ∧ t.dev.f MGT_BENCH.RETIRED 5 = used + 1 ∧ t.dev.pend 486 = true ∧ s.Only t (.MGT_BENCH :: told)) ∧
        (4 ≤ used → Does s (.d2dLaneSwap lane training) fun t => t.dev.mgt.bench = s.dev.mgt.bench ∧ t.dev.pend 487 = true ∧ s.Only t told)))

/-- Early-view images, lock tables and serial buses (R100, R102, R570, R574): an image is stored or erased, running entries are marked to end at the
latches of their outputs, a valid lock table takes effect, and a transfer on a serial bus leaves the device. The model's readings that this rests on:
log entries 6, 29, 108, 109, 112, 150. -/
def Obligations.EarlyViewsLocksAndBusesAreServed : Prop :=
  ∀ (s s0 : State) (f : Fn) (q : Fin 8) (c : Cmd) (ref : CmdRef), s.Begins f q c s0 → s0.dev.regsWf = true → s0.dev.tablesWf = true →
    ref = ⟨qi f q, c.id⟩ →
    (∀ e, c.opcode = 0xAD → c.u 33 1 = 0 → e = firstError (mgtHead f c true (fun b => b == 33 || within 40 51 b) ++
        [(!decide (64 ≤ c.u 48 4 ∧ c.u 48 4 ≤ earlyRoom), ST_BAD_FIELD, errByte 48), s0.dev.mgtBuf c (c.u 48 4)]) →
      (∀ st res, e = some (st, res) → Does s (.earlyViewStore f q) fun t => t.dev.Ended ref st (res % 2 ^ 32) ∧ t.dev.mgt = s0.dev.mgt ∧ s0.Only t []) ∧
      (∀ img, e = none → (s0.readMem (cmdReq f c) 13 (c.u 40 8) (c.u 48 4)).2 = .ok img → Does s (.earlyViewStore f q) fun t => s0.Only t [] ∧
        (earlyImageOk img (c.u 48 4) = true → t.dev.Ended ref ST_OK 0 ∧ t.dev.mgt.flash = (if s0.dev.mgt.recovery then s0.dev.mgt.flash
          else flashPut (flashErase s0.dev.mgt.flash earlyArea earlyRoom) earlyArea img)) ∧
        (earlyImageOk img (c.u 48 4) = false → t.dev.Ended ref ST_BAD_FIELD errOutside ∧ t.dev.mgt = s0.dev.mgt))) ∧
    (c.opcode = 0xAD → c.u 33 1 = 2 → c.Plain (· == 33) → Does s (.earlyViewClear f q) fun t => t.dev.Ended ref ST_OK 0 ∧ s0.Only t [] ∧
      (s0.dev.mgt.recovery = true → t.dev.mgt.flash = s0.dev.mgt.flash) ∧
      (∀ a, s0.dev.mgt.recovery = false → earlyArea ≤ a → a < earlyArea + earlyRoom → Tbl.getD flashDefault t.dev.mgt.flash a = flashDefault a) ∧
      (∀ a, a < earlyArea ∨ earlyArea + earlyRoom ≤ a → Tbl.getD flashDefault t.dev.mgt.flash a = Tbl.getD flashDefault s0.dev.mgt.flash a)) ∧
    (∀ mask e, c.opcode = 0xAD → c.u 33 1 ≠ 0 → c.u 33 1 ≠ 2 → mask = c.u 36 2 →
      e = firstError ([(c.u 33 1 == 1 && !s0.dev.mayEndEarly f c mask, ST_NOT_PERMITTED, errByte 36)] ++
        mgtHead f c true (fun b => b == 33 || b == 36 || b == 37) ++
        [(c.u 33 1 != 1, ST_BAD_FIELD, errByte 33), (decide (4096 ≤ mask), ST_BAD_FIELD, errByte 36)]) →
      (∀ st res, e = some (st, res) → Does s (.earlyViewEnd f q) fun t => t.dev.Ended ref st (res % 2 ^ 32) ∧ t.dev.mgt = s0.dev.mgt ∧ s0.Only t []) ∧
      (e = none → (∀ x ∈ s0.dev.mgt.early, x.ending = false ∧ bit mask x.output = false) → Does s (.earlyViewEnd f q) fun t =>
        t.dev.Ended ref ST_OK 0 ∧ t.dev.mgt.early = s0.dev.mgt.early ∧ s0.Only t []) ∧
      (e = none → s0.dev.mgt.earlyEnds = [] → (∀ x ∈ s0.dev.mgt.early, x.ending = true ∨ bit mask x.output = true → s0.dev.tgScans x.output = true) →
        (∃ x ∈ s0.dev.mgt.early, bit mask x.output = true) → Does s (.earlyViewEnd f q) fun t => t.dev.Running ref ∧
          t.dev.mgt.early = (s0.dev.mgt.early.map fun x => if bit mask x.output then { x with ending := true } else x) ∧
          t.dev.mgt.earlyEnds = [(ref, mask)] ∧ s0.Only t [])) ∧
    (∀ e, c.opcode = 0xA2 → c.u 33 1 ≠ 1 → e = firstError (mgtHead f c true (fun b => b == 33 || within 40 51 b) ++
        [(c.u 33 1 != 0, ST_BAD_FIELD, errByte 33), (decide (lockRoom < c.u 48 4), ST_BAD_FIELD, errByte 48), s0.dev.mgtBuf c (c.u 48 4)]) →
      (∀ st res, e = some (st, res) → Does s (.lockLoad f q) fun t => t.dev.Ended ref st (res % 2 ^ 32) ∧ t.dev.own = s0.dev.own ∧ s0.Only t []) ∧
      (∀ img, e = none → (s0.readMem (cmdReq f c) 13 (c.u 40 8) (c.u 48 4)).2 = .ok img →
        ((le img 8 4 ≠ c.u 48 4 ∨ s0.dev.lockValid img lockRoom = false ∨ (LockImg.parse img).tableBase ≠ s0.dev.own.tableBase ∨
            s0.dev.marksOk (LockImg.parse img).secureVf = false) →
          Does s (.lockLoad f q) fun t => t.dev.Ended ref ST_LOCK_INVALID errOutside ∧ t.dev.own = s0.dev.own ∧ s0.Only t []) ∧
        (le img 8 4 = c.u 48 4 → s0.dev.lockValid img lockRoom = true → (LockImg.parse img).tableBase = s0.dev.own.tableBase →
          s0.dev.marksOk (LockImg.parse img).secureVf = true → (∀ b ∈ s0.dev.mbx.bulk, b.ref ≠ ref) → Does s (.lockLoad f q) fun t =>
            t.dev.Ended ref ST_OK 0 ∧ t.dev.own.secureVf = (LockImg.parse img).secureVf ∧ t.dev.own.shared = (LockImg.parse img).shared ∧
              t.dev.own.wbGrants = (LockImg.parse img).wb ∧ t.dev.f OWN_LOCK_STAT.EPOCH 0 = (LockImg.parse img).epoch % 2 ^ 16 ∧
              t.dev.fb OWN_LOCK_STAT.LOCK_DEFAULT 0 = false ∧ (s0.dev.mbx.bulk = [] → t.mem = s0.mem)))) ∧
    (∀ e reply, c.opcode = 0xAF → e = firstError (mgtHead f c false (fun b => within 34 37 b || within 40 63 b) ++
        [(decide (2 ≤ c.u 34 1), ST_BAD_FIELD, errByte 34), (decide (128 ≤ c.u 35 1), ST_BAD_FIELD, errByte 35),
         (decide (16 < c.u 36 1), ST_BAD_FIELD, errByte 36), (decide (16 < c.u 37 1), ST_BAD_FIELD, errByte 37)] ++
        (if c.u 37 1 = 0 then [] else [s0.dev.mgtBuf c (c.u 37 1)])) →
      (∀ st res, e = some (st, res) → Does s (.i3cXfer f q reply) fun t => t.dev.Ended ref st (res % 2 ^ 32) ∧ t.dev.outbox = s0.dev.outbox ∧ s0.Only t []) ∧
      (e = none → (c.u 37 1 = 0 ∨ s0.refusedLine (cmdReq f c) (c.u 40 8) (c.u 37 1) true = none) →
        (reply = none ∨ c.u 37 1 = 0 → Does s (.i3cXfer f q reply) fun t => t.dev.Ended ref ST_OK (b2n reply.isNone) ∧
          t.dev.outbox = .serial (c.u 34 1) (c.u 35 1) ((c.lead.drop 48).take (c.u 36 1)) (c.u 37 1) :: s0.dev.outbox ∧ s0.Only t [.PWR_CLK_STAT]) ∧
        (∀ bs w, reply = some bs → c.u 37 1 ≠ 0 → w = s0.writeMem (cmdReq f c) 13 (c.u 40 8) ((bs ++ List.replicate 16 0).take (c.u 37 1)) →
          Does s (.i3cXfer f q reply) fun t => t.dev.Ended ref ST_OK 0 ∧ t.mem = w.1.mem ∧
            ∀ p, (∀ o < c.u 37 1, ¬s0.dev.Homes (c.u 40 8 + o) p ∧ ¬s0.dev.Homes (s0.dev.own.tableBase + ownOffset (c.u 40 8 + o)) p) →
              t.mem.byte p = s0.mem.byte p)))
end

