-- ==== Sys2Proof/Laws/Tbl.lean ====
section
/-! SUPPORT. Laws of the sorted tables: a read after a write, and the canonical form, which every write keeps. -/

namespace Sys2Proof.Machine

variable {α : Type} [DecidableEq α]

/-- A read of another key is not changed by a write. -/
theorem Tbl.getD_putD_ne (d : Nat → α) (t : List (Nat × α)) {j k : Nat} (v : α) (h : j ≠ k) :
    Tbl.getD d (Tbl.putD d t k v) j = Tbl.getD d t j := by
  induction t with
  | nil => by_cases hv : v = d k <;> simp [Tbl.putD, Tbl.getD, hv, h]
  | cons p t ih =>
    obtain ⟨k', v'⟩ := p
    unfold Tbl.putD
    split
    · split <;> simp [Tbl.getD, h]
    · split
      · rename_i hk
        subst hk
        split <;> simp [Tbl.getD, h]
      · simp only [Tbl.getD, ih]

theorem Tbl.getD_above (d : Nat → α) (t : List (Nat × α)) {k j : Nat} (hw : Tbl.wfD d t = true) (ha : Tbl.above k t = true) (hj : j ≤ k) :
    Tbl.getD d t j = d j := by
  induction t with
  | nil => rfl
  | cons p t ih =>
    obtain ⟨k', v'⟩ := p
    simp only [Tbl.wfD, Bool.and_eq_true, Tbl.above, decide_eq_true_eq] at hw ha
    have h1 : Tbl.above k t = true := by
      cases t with
      | nil => rfl
      | cons q t =>
        have := hw.1.2
        simp only [Tbl.above, decide_eq_true_eq] at this ⊢
        omega
    have h2 : j ≠ k' := by omega
    simp [Tbl.getD, h2, ih hw.2 h1]

/-- A read of the key written gives the value, in a canonical table. -/
theorem Tbl.getD_putD_same (d : Nat → α) (t : List (Nat × α)) (k : Nat) (v : α) (hw : Tbl.wfD d t = true) :
    Tbl.getD d (Tbl.putD d t k v) k = v := by
  induction t with
  | nil => by_cases hv : v = d k <;> simp [Tbl.putD, Tbl.getD, hv]
  | cons p t ih =>
    obtain ⟨k', v'⟩ := p
    have hc := hw
    simp only [Tbl.wfD, Bool.and_eq_true, decide_eq_true_eq] at hw
    unfold Tbl.putD
    split
    · rename_i hk
      split
      · rename_i hv
        rw [Tbl.getD_above d _ hc (k := k) (by simp [Tbl.above, hk]) (Nat.le_refl k), hv]
      · simp [Tbl.getD]
    · split
      · rename_i hk
        subst hk
        split
        · rename_i hv
          rw [Tbl.getD_above d t hw.2 hw.1.2 (Nat.le_refl k), hv]
        · simp [Tbl.getD]
      · rename_i hk
        simp [Tbl.getD, hk, ih hw.2]

/-- A value other than the default is read back from any table. -/
theorem Tbl.getD_putD_listed (d : Nat → α) (t : List (Nat × α)) (k : Nat) (v : α) (hv : v ≠ d k) :
    Tbl.getD d (Tbl.putD d t k v) k = v := by
  induction t with
  | nil => simp [Tbl.putD, Tbl.getD, hv]
  | cons p t ih =>
    obtain ⟨k', v'⟩ := p
    unfold Tbl.putD
    rw [if_neg hv, if_neg hv]
    split
    · simp [Tbl.getD]
    · split
      · simp [Tbl.getD]
      · rename_i hk
        simp [Tbl.getD, hk, ih]

theorem Tbl.above_putD (d : Nat → α) (t : List (Nat × α)) {a k : Nat} (v : α) (ha : Tbl.above a t = true) (hk : a < k)
    (hw : Tbl.wfD d t = true) : Tbl.above a (Tbl.putD d t k v) = true := by
  cases t with
  | nil =>
    unfold Tbl.putD
    split <;> simp [Tbl.above, hk]
  | cons p t =>
    obtain ⟨k', v'⟩ := p
    unfold Tbl.putD
    split
    · split
      · exact ha
      · simp [Tbl.above, hk]
    · split
      · split
        · cases t with
          | nil => rfl
          | cons q t =>
            simp only [Tbl.wfD, Tbl.above, Bool.and_eq_true, decide_eq_true_eq] at hw ha ⊢
            omega
        · simp [Tbl.above, hk]
      · exact ha

/-- Writing a key keeps the canonical form. -/
theorem Tbl.wfD_putD (d : Nat → α) (t : List (Nat × α)) (k : Nat) (v : α) (hw : Tbl.wfD d t = true) :
    Tbl.wfD d (Tbl.putD d t k v) = true := by
  induction t with
  | nil => by_cases hv : v = d k <;> simp [Tbl.putD, Tbl.wfD, Tbl.above, hv]
  | cons p t ih =>
    obtain ⟨k', v'⟩ := p
    have hc := hw
    simp only [Tbl.wfD, Bool.and_eq_true, decide_eq_true_eq] at hw
    unfold Tbl.putD
    split
    · rename_i hk
      split
      · exact hc
      · rename_i hv
        rw [Tbl.wfD, hc]
        simp [Tbl.above, hv, hk]
    · split
      · split
        · exact hw.2
        · rename_i hv
          subst_vars
          simp [Tbl.wfD, hv, hw]
      · rename_i h1 h2
        have hk : k' < k := by omega
        simp [Tbl.wfD, hw.1.1, ih hw.2, Tbl.above_putD d t v hw.1.2 hk hw.2]

theorem Tbl.above_filter (d : Nat → α) (t : List (Nat × α)) (p : Nat × α → Bool) {a : Nat} (ha : Tbl.above a t = true)
    (hw : Tbl.wfD d t = true) : Tbl.above a (t.filter p) = true := by
  induction t with
  | nil => rfl
  | cons q t ih =>
    obtain ⟨k', v'⟩ := q
    simp only [Tbl.wfD, Tbl.above, Bool.and_eq_true, decide_eq_true_eq] at hw ha
    rw [List.filter_cons]
    split
    · simp [Tbl.above, ha]
    · refine ih ?_ hw.2
      cases t with
      | nil => rfl
      | cons r t =>
        have := hw.1.2
        simp only [Tbl.above, decide_eq_true_eq] at this ⊢
        omega

/-- Dropping entries keeps the canonical form. -/
theorem Tbl.wfD_filter (d : Nat → α) (t : List (Nat × α)) (p : Nat × α → Bool) (hw : Tbl.wfD d t = true) :
    Tbl.wfD d (t.filter p) = true := by
  induction t with
  | nil => rfl
  | cons q t ih =>
    obtain ⟨k', v'⟩ := q
    simp only [Tbl.wfD, Bool.and_eq_true, decide_eq_true_eq] at hw
    rw [List.filter_cons]
    split
    · simp [Tbl.wfD, hw.1.1, ih hw.2, Tbl.above_filter d t p hw.1.2 hw.2]
    · exact ih hw.2

variable [Inhabited α]

@[simp] theorem Tbl.get_put_ne (t : Tbl α) {j k : Nat} (v : α) (h : j ≠ k) : (t.put k v).get j = t.get j :=
  Tbl.getD_putD_ne _ t v h

theorem Tbl.get_put_listed (t : Tbl α) (k : Nat) (v : α) (hv : v ≠ default) : (t.put k v).get k = v :=
  Tbl.getD_putD_listed _ t k v hv

theorem Tbl.get_put_same (t : Tbl α) (k : Nat) (v : α) (hw : Tbl.wfD (fun _ => (default : α)) t = true) : (t.put k v).get k = v :=
  Tbl.getD_putD_same _ t k v hw

theorem Tbl.get_upd_ne (t : Tbl α) {j k : Nat} (f : α → α) (h : j ≠ k) : (t.upd k f).get j = t.get j :=
  Tbl.getD_putD_ne _ t _ h

theorem Tbl.get_upd_listed (t : Tbl α) (k : Nat) (f : α → α) (hv : f (t.get k) ≠ default) : (t.upd k f).get k = f (t.get k) :=
  Tbl.getD_putD_listed _ t k _ hv

end Sys2Proof.Machine
end

