-- ==== Sys2Proof/Laws/Regs.lean ====
section
/-! SUPPORT. Laws of the registers and their fields: a read after a write, for the same and for another register or field, and the canonical form
of the register tables. -/

namespace Sys2Proof.Machine

/-! Keys. -/

theorem Reg.ctorIdx_lt (r : Reg) : r.ctorIdx < 512 := by cases r <;> decide

theorem Reg.ofNat_ctorIdx' (r : Reg) : Reg.ofNat r.ctorIdx = r := by cases r <;> rfl

theorem Reg.ctorIdx_inj {r r' : Reg} (h : r.ctorIdx = r'.ctorIdx) : r = r' := by
  rw [← Reg.ofNat_ctorIdx' r, h, Reg.ofNat_ctorIdx']

/-- Two members share a key only if they are the same member of the same register. -/
theorem Reg.key_inj {r r' : Reg} {i j : Nat} (h : r.key i = r'.key j) : r = r' ∧ i = j := by
  have h1 := Reg.ctorIdx_lt r
  have h2 := Reg.ctorIdx_lt r'
  unfold Reg.key at h
  have h3 : r.ctorIdx = r'.ctorIdx := by omega
  exact ⟨Reg.ctorIdx_inj h3, by omega⟩

/-- An unlisted register reads as its reset value. -/
theorem regDefault_key (r : Reg) (i : Nat) : regDefault (r.key i) = r.resetAt i := by
  have h1 := Reg.ctorIdx_lt r
  unfold regDefault Reg.key
  have h2 : (i * 512 + r.ctorIdx) % 512 = r.ctorIdx := by omega
  have h3 : (i * 512 + r.ctorIdx) / 512 = i := by omega
  rw [h2, h3, Reg.ofNat_ctorIdx']

/-! Whole registers. -/

theorem Dev.reg_setReg_ne (d : Dev) {r r' : Reg} {i j : Nat} (v : Word) (h : ¬(r' = r ∧ j = i)) : (d.setReg r i v).reg r' j = d.reg r' j :=
  Tbl.getD_putD_ne _ _ v fun e => h (Reg.key_inj e)

theorem Dev.reg_setReg_same (d : Dev) (r : Reg) (i : Nat) (v : Word) (hw : d.regsWf = true) : (d.setReg r i v).reg r i = v := by
  simp only [Dev.regsWf, Bool.and_eq_true] at hw
  exact Tbl.getD_putD_same _ _ _ v hw.1

@[simp] theorem Dev.liveReg_setReg (d : Dev) (r r' : Reg) (i j : Nat) (v : Word) : (d.setReg r i v).liveReg r' j = d.liveReg r' j := rfl

theorem Dev.liveReg_latch_ne (d : Dev) {r r' : Reg} {i j : Nat} (h : ¬(r' = r ∧ j = i)) : (d.latch r i).liveReg r' j = d.liveReg r' j :=
  Tbl.getD_putD_ne _ _ _ fun e => h (Reg.key_inj e)

/-- The stored value of a register is in force after its latch. -/
theorem Dev.liveReg_latch_same (d : Dev) (r : Reg) (i : Nat) (hw : d.regsWf = true) : (d.latch r i).liveReg r i = d.reg r i := by
  simp only [Dev.regsWf, Bool.and_eq_true] at hw
  exact Tbl.getD_putD_same _ _ _ _ hw.2

@[simp] theorem Dev.reg_latch (d : Dev) (r r' : Reg) (i j : Nat) : (d.latch r i).reg r' j = d.reg r' j := rfl

@[simp] theorem Dev.reg_setFl (d : Dev) (F : Fld) (r : Reg) (i j n : Nat) : (d.setFl F i n).reg r j = d.reg r j := rfl

/-! Fields. -/

/-- A field holds what was put into it, cut to its width. -/
theorem Fld.get_put (F : Fld) (v : Word) (n : Nat) (hF : F.lo + F.w ≤ 32) : F.get (F.put v n) = n % 2 ^ F.w := by
  have hv := v.isLt
  have h1 : 2 ^ (F.lo + F.w) = 2 ^ F.lo * 2 ^ F.w := Nat.pow_add 2 F.lo F.w
  have h2 : (2 : Nat) ^ 32 = 2 ^ F.lo * 2 ^ F.w * 2 ^ (32 - F.lo - F.w) := by
    rw [← Nat.pow_add, ← Nat.pow_add]
    congr 1
    omega
  have hL : 0 < 2 ^ F.lo := Nat.two_pow_pos _
  have hW : 0 < 2 ^ F.w := Nat.two_pow_pos _
  have hlow : v.toNat % 2 ^ F.lo < 2 ^ F.lo := Nat.mod_lt _ hL
  have hmid : n % 2 ^ F.w < 2 ^ F.w := Nat.mod_lt _ hW
  unfold Fld.get Fld.put
  rw [BitVec.toNat_ofNat, h1, h2]
  generalize 2 ^ F.lo = L at *
  generalize 2 ^ F.w = W at *
  generalize v.toNat % L = c at *
  generalize n % W = b at *
  generalize v.toNat / (L * W) = a at *
  rw [Nat.mul_assoc L W, Nat.mod_mul_right_div_self, Nat.mod_mul_right_mod]
  have h3 : (a * (L * W) + b * L + c) / L = a * W + b := by
    have : a * (L * W) + b * L + c = c + L * (a * W + b) := by
      rw [Nat.mul_add, Nat.mul_comm L b, Nat.mul_left_comm L a W]
      omega
    rw [this, Nat.add_mul_div_left _ _ hL, Nat.div_eq_of_lt hlow]
    omega
  rw [h3, Nat.mul_comm a W, Nat.mul_add_mod, Nat.mod_eq_of_lt hmid]

/-- A put leaves the bits below and above its field. -/
theorem Fld.put_mod_div (F : Fld) (v : Word) (n : Nat) (hF : F.lo + F.w ≤ 32) :
    (F.put v n).toNat % 2 ^ F.lo = v.toNat % 2 ^ F.lo ∧ (F.put v n).toNat / 2 ^ (F.lo + F.w) = v.toNat / 2 ^ (F.lo + F.w) := by
  have hv := v.isLt
  have h1 : 2 ^ (F.lo + F.w) = 2 ^ F.lo * 2 ^ F.w := Nat.pow_add 2 F.lo F.w
  have h2 : (2 : Nat) ^ 32 = 2 ^ (F.lo + F.w) * 2 ^ (32 - F.lo - F.w) := by
    rw [← Nat.pow_add]
    congr 1
    omega
  have hL : 0 < 2 ^ F.lo := Nat.two_pow_pos _
  have hW : 0 < 2 ^ F.w := Nat.two_pow_pos _
  have hlow : v.toNat % 2 ^ F.lo < 2 ^ F.lo := Nat.mod_lt _ hL
  have hmid : n % 2 ^ F.w < 2 ^ F.w := Nat.mod_lt _ hW
  have hhi : v.toNat / 2 ^ (F.lo + F.w) < 2 ^ (32 - F.lo - F.w) := by
    apply Nat.div_lt_of_lt_mul
    omega
  unfold Fld.put
  rw [BitVec.toNat_ofNat]
  generalize v.toNat % 2 ^ F.lo = c at *
  generalize v.toNat / 2 ^ (F.lo + F.w) = a at *
  generalize n % 2 ^ F.w = b at *
  rw [h1] at h2 ⊢
  rw [h2]
  generalize 2 ^ F.lo = L at *
  generalize 2 ^ F.w = W at *
  generalize 2 ^ (32 - F.lo - F.w) = H at *
  have hbc : b * L + c < L * W := by
    have : b * L + L ≤ W * L := by
      rw [← Nat.succ_mul]
      exact Nat.mul_le_mul_right L hmid
    rw [Nat.mul_comm L W]
    omega
  have hx : a * (L * W) + b * L + c < L * W * H := by
    have : a * (L * W) + L * W ≤ H * (L * W) := by
      rw [← Nat.succ_mul]
      exact Nat.mul_le_mul_right _ hhi
    rw [Nat.mul_comm (L * W) H]
    omega
  rw [Nat.mod_eq_of_lt hx]
  constructor
  · have : a * (L * W) + b * L + c = c + L * (a * W + b) := by
      rw [Nat.mul_add, Nat.mul_comm L b, Nat.mul_left_comm L a W]
      omega
    rw [this, Nat.add_mul_mod_self_left, Nat.mod_eq_of_lt hlow]
  · have : a * (L * W) + b * L + c = b * L + c + L * W * a := by
      rw [Nat.mul_comm a]
      omega
    rw [this, Nat.add_mul_div_left _ _ (Nat.mul_pos hL hW), Nat.div_eq_of_lt hbc, Nat.zero_add]

/-- A put leaves every field that does not meet its own. -/
theorem Fld.get_put_apart (F G : Fld) (v : Word) (n : Nat) (hF : F.lo + F.w ≤ 32) (h : G.lo + G.w ≤ F.lo ∨ F.lo + F.w ≤ G.lo) :
    G.get (F.put v n) = G.get v := by
  obtain ⟨h1, h2⟩ := Fld.put_mod_div F v n hF
  unfold Fld.get
  rcases h with h | h
  · have hd : (2 : Nat) ^ F.lo = 2 ^ G.lo * 2 ^ G.w * 2 ^ (F.lo - G.lo - G.w) := by
      rw [← Nat.pow_add, ← Nat.pow_add]
      congr 1
      omega
    have e : ∀ x : Nat, x / 2 ^ G.lo % 2 ^ G.w = x % 2 ^ F.lo / 2 ^ G.lo % 2 ^ G.w := by
      intro x
      rw [hd, Nat.mul_assoc, Nat.mod_mul_right_div_self, Nat.mod_mul_right_mod]
    rw [e, h1, ← e]
  · have e : ∀ x : Nat, x / 2 ^ G.lo = x / 2 ^ (F.lo + F.w) / 2 ^ (G.lo - F.lo - F.w) := by
      intro x
      rw [Nat.div_div_eq_div_mul, ← Nat.pow_add]
      congr 2
      omega
    rw [e, h2, ← e]

theorem Dev.f_setF_same (d : Dev) (F : Fld) (i n : Nat) (hF : F.lo + F.w ≤ 32) (hw : d.regsWf = true) : (d.setF F i n).f F i = n % 2 ^ F.w := by
  unfold Dev.f Dev.setF
  rw [Dev.reg_setReg_same _ _ _ _ hw, Fld.get_put _ _ _ hF]

theorem Dev.f_setF_other (d : Dev) {F G : Fld} {i j : Nat} (n : Nat) (h : ¬(G.reg = F.reg ∧ j = i)) : (d.setF F i n).f G j = d.f G j := by
  unfold Dev.f Dev.setF
  rw [Dev.reg_setReg_ne _ _ h]

/-- A write of a field leaves every field that does not meet it, in the same register too. -/
theorem Dev.f_setF_apart (d : Dev) {F G : Fld} (i j n : Nat) (hF : F.lo + F.w ≤ 32) (h : G.lo + G.w ≤ F.lo ∨ F.lo + F.w ≤ G.lo)
    (hw : d.regsWf = true) : (d.setF F i n).f G j = d.f G j := by
  by_cases e : G.reg = F.reg ∧ j = i
  · obtain ⟨e1, rfl⟩ := e
    unfold Dev.f Dev.setF
    rw [e1, Dev.reg_setReg_same _ _ _ _ hw, Fld.get_put_apart _ _ _ _ hF h]
  · exact Dev.f_setF_other d n e

/-- A write of a field leaves the fields of other registers. -/
theorem Dev.f_setF_reg (d : Dev) {F G : Fld} (i j n : Nat) (h : G.reg ≠ F.reg) : (d.setF F i n).f G j = d.f G j :=
  Dev.f_setF_other d n fun e => h e.1

theorem Dev.fb_setF_reg (d : Dev) {F G : Fld} (i j n : Nat) (h : G.reg ≠ F.reg) : (d.setF F i n).fb G j = d.fb G j := by
  unfold Dev.fb
  rw [Dev.f_setF_reg d i j n h]

theorem Dev.reg_setF_reg (d : Dev) {F : Fld} {r : Reg} (i j n : Nat) (h : r ≠ F.reg) : (d.setF F i n).reg r j = d.reg r j :=
  Dev.reg_setReg_ne d _ fun e => h e.1

theorem Dev.reg_setReg_reg (d : Dev) {r r' : Reg} (i j : Nat) (v : Word) (h : r' ≠ r) : (d.setReg r i v).reg r' j = d.reg r' j :=
  Dev.reg_setReg_ne d v fun e => h e.1

theorem Dev.f_setReg_reg (d : Dev) {G : Fld} {r : Reg} (i j : Nat) (v : Word) (h : G.reg ≠ r) : (d.setReg r i v).f G j = d.f G j := by
  unfold Dev.f
  rw [Dev.reg_setReg_reg d i j v h]

theorem Dev.fb_setReg_reg (d : Dev) {G : Fld} {r : Reg} (i j : Nat) (v : Word) (h : G.reg ≠ r) : (d.setReg r i v).fb G j = d.fb G j := by
  unfold Dev.fb
  rw [Dev.f_setReg_reg d i j v h]

theorem Dev.fb_setF_apart (d : Dev) {F G : Fld} (i j n : Nat) (hF : F.lo + F.w ≤ 32) (h : G.lo + G.w ≤ F.lo ∨ F.lo + F.w ≤ G.lo)
    (hw : d.regsWf = true) : (d.setF F i n).fb G j = d.fb G j := by
  unfold Dev.fb
  rw [Dev.f_setF_apart d i j n hF h hw]

theorem Dev.fb_setF_same (d : Dev) (F : Fld) (i n : Nat) (hF : F.lo + F.w ≤ 32) (hw : d.regsWf = true) :
    (d.setF F i n).fb F i = (n % 2 ^ F.w == 1) := by
  unfold Dev.fb
  rw [Dev.f_setF_same d F i n hF hw]

theorem Dev.f_setReg_other (d : Dev) {G : Fld} {r : Reg} {i j : Nat} (v : Word) (h : ¬(G.reg = r ∧ j = i)) : (d.setReg r i v).f G j = d.f G j := by
  unfold Dev.f
  rw [Dev.reg_setReg_ne _ _ h]

@[simp] theorem Dev.f_latch (d : Dev) (F : Fld) (r : Reg) (i j : Nat) : (d.latch r i).f F j = d.f F j := rfl

@[simp] theorem Dev.f_setFl (d : Dev) (F G : Fld) (i j n : Nat) : (d.setFl G i n).f F j = d.f F j := rfl

@[simp] theorem Dev.fl_setReg (d : Dev) (F : Fld) (r : Reg) (i j : Nat) (v : Word) : (d.setReg r i v).fl F j = d.fl F j := rfl

@[simp] theorem Dev.fl_setF (d : Dev) (F G : Fld) (i j n : Nat) : (d.setF G i n).fl F j = d.fl F j := rfl

theorem Dev.fl_latch_same (d : Dev) (F : Fld) (i : Nat) (hw : d.regsWf = true) : (d.latch F.reg i).fl F i = d.f F i := by
  unfold Dev.fl Dev.f
  rw [Dev.liveReg_latch_same _ _ _ hw]

/-- A one-bit field that was set reads as set. -/
theorem Dev.fb_setF_one (d : Dev) (F : Fld) (i : Nat) (hF : F.lo + F.w ≤ 32) (h1 : F.w = 1) (hw : d.regsWf = true) : (d.setF F i 1).fb F i = true := by
  unfold Dev.fb
  rw [Dev.f_setF_same _ _ _ _ hF hw, h1]
  rfl

/-! The canonical form of the register tables. -/

@[simp] theorem Dev.regsWf_setReg (d : Dev) (r : Reg) (i : Nat) (v : Word) (hw : d.regsWf = true) : (d.setReg r i v).regsWf = true := by
  simp only [Dev.regsWf, Bool.and_eq_true] at *
  exact ⟨Tbl.wfD_putD _ _ _ _ hw.1, hw.2⟩

@[simp] theorem Dev.regsWf_setF (d : Dev) (F : Fld) (i n : Nat) (hw : d.regsWf = true) : (d.setF F i n).regsWf = true :=
  Dev.regsWf_setReg _ _ _ _ hw

@[simp] theorem Dev.regsWf_latch (d : Dev) (r : Reg) (i : Nat) (hw : d.regsWf = true) : (d.latch r i).regsWf = true := by
  simp only [Dev.regsWf, Bool.and_eq_true] at *
  exact ⟨hw.1, Tbl.wfD_putD _ _ _ _ hw.2⟩

@[simp] theorem Dev.regsWf_setFl (d : Dev) (F : Fld) (i n : Nat) (hw : d.regsWf = true) : (d.setFl F i n).regsWf = true := by
  simp only [Dev.regsWf, Bool.and_eq_true] at *
  exact ⟨hw.1, Tbl.wfD_putD _ _ _ _ hw.2⟩

end Sys2Proof.Machine
end

