-- ==== Sys2Proof/Laws/State.lean ====
section
/-! SUPPORT. What each update of the state leaves: one lemma for each field and update. -/

namespace Sys2Proof.Machine

@[simp] theorem State.onDev_dev (s : State) (g : Dev → Dev) : (s.onDev g).dev = g s.dev := rfl
@[simp] theorem State.onDev_mem (s : State) (g : Dev → Dev) : (s.onDev g).mem = s.mem := rfl
@[simp] theorem State.onDev_pending (s : State) (g : Dev → Dev) : (s.onDev g).pending = s.pending := rfl

@[simp] theorem Dev.setReg_live (d : Dev) (r : Reg) (i : Nat) (v : Word) : (d.setReg r i v).live = d.live := rfl
@[simp] theorem Dev.setReg_time (d : Dev) (r : Reg) (i : Nat) (v : Word) : (d.setReg r i v).time = d.time := rfl
@[simp] theorem Dev.setReg_pace (d : Dev) (r : Reg) (i : Nat) (v : Word) : (d.setReg r i v).pace = d.pace := rfl
@[simp] theorem Dev.setReg_msys (d : Dev) (r : Reg) (i : Nat) (v : Word) : (d.setReg r i v).msys = d.msys := rfl
@[simp] theorem Dev.setReg_own (d : Dev) (r : Reg) (i : Nat) (v : Word) : (d.setReg r i v).own = d.own := rfl
@[simp] theorem Dev.setReg_hrq (d : Dev) (r : Reg) (i : Nat) (v : Word) : (d.setReg r i v).hrq = d.hrq := rfl
@[simp] theorem Dev.setReg_ports (d : Dev) (r : Reg) (i : Nat) (v : Word) : (d.setReg r i v).ports = d.ports := rfl
@[simp] theorem Dev.setReg_busMaster (d : Dev) (r : Reg) (i : Nat) (v : Word) : (d.setReg r i v).busMaster = d.busMaster := rfl
@[simp] theorem Dev.setReg_notD0 (d : Dev) (r : Reg) (i : Nat) (v : Word) : (d.setReg r i v).notD0 = d.notD0 := rfl
@[simp] theorem Dev.setReg_pci (d : Dev) (r : Reg) (i : Nat) (v : Word) : (d.setReg r i v).pci = d.pci := rfl
@[simp] theorem Dev.setReg_mgt (d : Dev) (r : Reg) (i : Nat) (v : Word) : (d.setReg r i v).mgt = d.mgt := rfl
@[simp] theorem Dev.setReg_disp (d : Dev) (r : Reg) (i : Nat) (v : Word) : (d.setReg r i v).disp = d.disp := rfl
@[simp] theorem Dev.setReg_vin (d : Dev) (r : Reg) (i : Nat) (v : Word) : (d.setReg r i v).vin = d.vin := rfl
@[simp] theorem Dev.setReg_gpu (d : Dev) (r : Reg) (i : Nat) (v : Word) : (d.setReg r i v).gpu = d.gpu := rfl
@[simp] theorem Dev.setReg_mbx (d : Dev) (r : Reg) (i : Nat) (v : Word) : (d.setReg r i v).mbx = d.mbx := rfl
@[simp] theorem Dev.setReg_tch (d : Dev) (r : Reg) (i : Nat) (v : Word) : (d.setReg r i v).tch = d.tch := rfl
@[simp] theorem Dev.setReg_hap (d : Dev) (r : Reg) (i : Nat) (v : Word) : (d.setReg r i v).hap = d.hap := rfl
@[simp] theorem Dev.setReg_aud (d : Dev) (r : Reg) (i : Nat) (v : Word) : (d.setReg r i v).aud = d.aud := rfl
@[simp] theorem Dev.setReg_pmc (d : Dev) (r : Reg) (i : Nat) (v : Word) : (d.setReg r i v).pmc = d.pmc := rfl
@[simp] theorem Dev.setReg_part (d : Dev) (r : Reg) (i : Nat) (v : Word) : (d.setReg r i v).part = d.part := rfl
@[simp] theorem Dev.setReg_pwr (d : Dev) (r : Reg) (i : Nat) (v : Word) : (d.setReg r i v).pwr = d.pwr := rfl
@[simp] theorem Dev.setReg_free (d : Dev) (r : Reg) (i : Nat) (v : Word) : (d.setReg r i v).free = d.free := rfl
@[simp] theorem Dev.setReg_outbox (d : Dev) (r : Reg) (i : Nat) (v : Word) : (d.setReg r i v).outbox = d.outbox := rfl
@[simp] theorem Dev.setReg_now (d : Dev) (r : Reg) (i : Nat) (v : Word) : (d.setReg r i v).now = d.now := rfl

@[simp] theorem Dev.setF_live (d : Dev) (F : Fld) (i n : Nat) : (d.setF F i n).live = d.live := rfl
@[simp] theorem Dev.setF_time (d : Dev) (F : Fld) (i n : Nat) : (d.setF F i n).time = d.time := rfl
@[simp] theorem Dev.setF_pace (d : Dev) (F : Fld) (i n : Nat) : (d.setF F i n).pace = d.pace := rfl
@[simp] theorem Dev.setF_msys (d : Dev) (F : Fld) (i n : Nat) : (d.setF F i n).msys = d.msys := rfl
@[simp] theorem Dev.setF_own (d : Dev) (F : Fld) (i n : Nat) : (d.setF F i n).own = d.own := rfl
@[simp] theorem Dev.setF_hrq (d : Dev) (F : Fld) (i n : Nat) : (d.setF F i n).hrq = d.hrq := rfl
@[simp] theorem Dev.setF_ports (d : Dev) (F : Fld) (i n : Nat) : (d.setF F i n).ports = d.ports := rfl
@[simp] theorem Dev.setF_busMaster (d : Dev) (F : Fld) (i n : Nat) : (d.setF F i n).busMaster = d.busMaster := rfl
@[simp] theorem Dev.setF_notD0 (d : Dev) (F : Fld) (i n : Nat) : (d.setF F i n).notD0 = d.notD0 := rfl
@[simp] theorem Dev.setF_pci (d : Dev) (F : Fld) (i n : Nat) : (d.setF F i n).pci = d.pci := rfl
@[simp] theorem Dev.setF_mgt (d : Dev) (F : Fld) (i n : Nat) : (d.setF F i n).mgt = d.mgt := rfl
@[simp] theorem Dev.setF_disp (d : Dev) (F : Fld) (i n : Nat) : (d.setF F i n).disp = d.disp := rfl
@[simp] theorem Dev.setF_vin (d : Dev) (F : Fld) (i n : Nat) : (d.setF F i n).vin = d.vin := rfl
@[simp] theorem Dev.setF_gpu (d : Dev) (F : Fld) (i n : Nat) : (d.setF F i n).gpu = d.gpu := rfl
@[simp] theorem Dev.setF_mbx (d : Dev) (F : Fld) (i n : Nat) : (d.setF F i n).mbx = d.mbx := rfl
@[simp] theorem Dev.setF_tch (d : Dev) (F : Fld) (i n : Nat) : (d.setF F i n).tch = d.tch := rfl
@[simp] theorem Dev.setF_hap (d : Dev) (F : Fld) (i n : Nat) : (d.setF F i n).hap = d.hap := rfl
@[simp] theorem Dev.setF_aud (d : Dev) (F : Fld) (i n : Nat) : (d.setF F i n).aud = d.aud := rfl
@[simp] theorem Dev.setF_pmc (d : Dev) (F : Fld) (i n : Nat) : (d.setF F i n).pmc = d.pmc := rfl
@[simp] theorem Dev.setF_part (d : Dev) (F : Fld) (i n : Nat) : (d.setF F i n).part = d.part := rfl
@[simp] theorem Dev.setF_pwr (d : Dev) (F : Fld) (i n : Nat) : (d.setF F i n).pwr = d.pwr := rfl
@[simp] theorem Dev.setF_free (d : Dev) (F : Fld) (i n : Nat) : (d.setF F i n).free = d.free := rfl
@[simp] theorem Dev.setF_outbox (d : Dev) (F : Fld) (i n : Nat) : (d.setF F i n).outbox = d.outbox := rfl
@[simp] theorem Dev.setF_now (d : Dev) (F : Fld) (i n : Nat) : (d.setF F i n).now = d.now := rfl

@[simp] theorem Dev.setFl_regs (d : Dev) (F : Fld) (i n : Nat) : (d.setFl F i n).regs = d.regs := rfl
@[simp] theorem Dev.setFl_time (d : Dev) (F : Fld) (i n : Nat) : (d.setFl F i n).time = d.time := rfl
@[simp] theorem Dev.setFl_pace (d : Dev) (F : Fld) (i n : Nat) : (d.setFl F i n).pace = d.pace := rfl
@[simp] theorem Dev.setFl_msys (d : Dev) (F : Fld) (i n : Nat) : (d.setFl F i n).msys = d.msys := rfl
@[simp] theorem Dev.setFl_own (d : Dev) (F : Fld) (i n : Nat) : (d.setFl F i n).own = d.own := rfl
@[simp] theorem Dev.setFl_hrq (d : Dev) (F : Fld) (i n : Nat) : (d.setFl F i n).hrq = d.hrq := rfl
@[simp] theorem Dev.setFl_ports (d : Dev) (F : Fld) (i n : Nat) : (d.setFl F i n).ports = d.ports := rfl
@[simp] theorem Dev.setFl_busMaster (d : Dev) (F : Fld) (i n : Nat) : (d.setFl F i n).busMaster = d.busMaster := rfl
@[simp] theorem Dev.setFl_notD0 (d : Dev) (F : Fld) (i n : Nat) : (d.setFl F i n).notD0 = d.notD0 := rfl
@[simp] theorem Dev.setFl_pci (d : Dev) (F : Fld) (i n : Nat) : (d.setFl F i n).pci = d.pci := rfl
@[simp] theorem Dev.setFl_mgt (d : Dev) (F : Fld) (i n : Nat) : (d.setFl F i n).mgt = d.mgt := rfl
@[simp] theorem Dev.setFl_disp (d : Dev) (F : Fld) (i n : Nat) : (d.setFl F i n).disp = d.disp := rfl
@[simp] theorem Dev.setFl_vin (d : Dev) (F : Fld) (i n : Nat) : (d.setFl F i n).vin = d.vin := rfl
@[simp] theorem Dev.setFl_gpu (d : Dev) (F : Fld) (i n : Nat) : (d.setFl F i n).gpu = d.gpu := rfl
@[simp] theorem Dev.setFl_mbx (d : Dev) (F : Fld) (i n : Nat) : (d.setFl F i n).mbx = d.mbx := rfl
@[simp] theorem Dev.setFl_tch (d : Dev) (F : Fld) (i n : Nat) : (d.setFl F i n).tch = d.tch := rfl
@[simp] theorem Dev.setFl_hap (d : Dev) (F : Fld) (i n : Nat) : (d.setFl F i n).hap = d.hap := rfl
@[simp] theorem Dev.setFl_aud (d : Dev) (F : Fld) (i n : Nat) : (d.setFl F i n).aud = d.aud := rfl
@[simp] theorem Dev.setFl_pmc (d : Dev) (F : Fld) (i n : Nat) : (d.setFl F i n).pmc = d.pmc := rfl
@[simp] theorem Dev.setFl_part (d : Dev) (F : Fld) (i n : Nat) : (d.setFl F i n).part = d.part := rfl
@[simp] theorem Dev.setFl_pwr (d : Dev) (F : Fld) (i n : Nat) : (d.setFl F i n).pwr = d.pwr := rfl
@[simp] theorem Dev.setFl_free (d : Dev) (F : Fld) (i n : Nat) : (d.setFl F i n).free = d.free := rfl
@[simp] theorem Dev.setFl_outbox (d : Dev) (F : Fld) (i n : Nat) : (d.setFl F i n).outbox = d.outbox := rfl
@[simp] theorem Dev.setFl_now (d : Dev) (F : Fld) (i n : Nat) : (d.setFl F i n).now = d.now := rfl

@[simp] theorem Dev.latch_regs (d : Dev) (r : Reg) (i : Nat) : (d.latch r i).regs = d.regs := rfl
@[simp] theorem Dev.latch_time (d : Dev) (r : Reg) (i : Nat) : (d.latch r i).time = d.time := rfl
@[simp] theorem Dev.latch_pace (d : Dev) (r : Reg) (i : Nat) : (d.latch r i).pace = d.pace := rfl
@[simp] theorem Dev.latch_msys (d : Dev) (r : Reg) (i : Nat) : (d.latch r i).msys = d.msys := rfl
@[simp] theorem Dev.latch_own (d : Dev) (r : Reg) (i : Nat) : (d.latch r i).own = d.own := rfl
@[simp] theorem Dev.latch_hrq (d : Dev) (r : Reg) (i : Nat) : (d.latch r i).hrq = d.hrq := rfl
@[simp] theorem Dev.latch_ports (d : Dev) (r : Reg) (i : Nat) : (d.latch r i).ports = d.ports := rfl
@[simp] theorem Dev.latch_busMaster (d : Dev) (r : Reg) (i : Nat) : (d.latch r i).busMaster = d.busMaster := rfl
@[simp] theorem Dev.latch_notD0 (d : Dev) (r : Reg) (i : Nat) : (d.latch r i).notD0 = d.notD0 := rfl
@[simp] theorem Dev.latch_pci (d : Dev) (r : Reg) (i : Nat) : (d.latch r i).pci = d.pci := rfl
@[simp] theorem Dev.latch_mgt (d : Dev) (r : Reg) (i : Nat) : (d.latch r i).mgt = d.mgt := rfl
@[simp] theorem Dev.latch_disp (d : Dev) (r : Reg) (i : Nat) : (d.latch r i).disp = d.disp := rfl
@[simp] theorem Dev.latch_vin (d : Dev) (r : Reg) (i : Nat) : (d.latch r i).vin = d.vin := rfl
@[simp] theorem Dev.latch_gpu (d : Dev) (r : Reg) (i : Nat) : (d.latch r i).gpu = d.gpu := rfl
@[simp] theorem Dev.latch_mbx (d : Dev) (r : Reg) (i : Nat) : (d.latch r i).mbx = d.mbx := rfl
@[simp] theorem Dev.latch_tch (d : Dev) (r : Reg) (i : Nat) : (d.latch r i).tch = d.tch := rfl
@[simp] theorem Dev.latch_hap (d : Dev) (r : Reg) (i : Nat) : (d.latch r i).hap = d.hap := rfl
@[simp] theorem Dev.latch_aud (d : Dev) (r : Reg) (i : Nat) : (d.latch r i).aud = d.aud := rfl
@[simp] theorem Dev.latch_pmc (d : Dev) (r : Reg) (i : Nat) : (d.latch r i).pmc = d.pmc := rfl
@[simp] theorem Dev.latch_part (d : Dev) (r : Reg) (i : Nat) : (d.latch r i).part = d.part := rfl
@[simp] theorem Dev.latch_pwr (d : Dev) (r : Reg) (i : Nat) : (d.latch r i).pwr = d.pwr := rfl
@[simp] theorem Dev.latch_free (d : Dev) (r : Reg) (i : Nat) : (d.latch r i).free = d.free := rfl
@[simp] theorem Dev.latch_outbox (d : Dev) (r : Reg) (i : Nat) : (d.latch r i).outbox = d.outbox := rfl
@[simp] theorem Dev.latch_now (d : Dev) (r : Reg) (i : Nat) : (d.latch r i).now = d.now := rfl

@[simp] theorem Dev.setBoth_time (d : Dev) (F : Fld) (i n : Nat) : (d.setBoth F i n).time = d.time := rfl
@[simp] theorem Dev.setBoth_pace (d : Dev) (F : Fld) (i n : Nat) : (d.setBoth F i n).pace = d.pace := rfl
@[simp] theorem Dev.setBoth_msys (d : Dev) (F : Fld) (i n : Nat) : (d.setBoth F i n).msys = d.msys := rfl
@[simp] theorem Dev.setBoth_own (d : Dev) (F : Fld) (i n : Nat) : (d.setBoth F i n).own = d.own := rfl
@[simp] theorem Dev.setBoth_hrq (d : Dev) (F : Fld) (i n : Nat) : (d.setBoth F i n).hrq = d.hrq := rfl
@[simp] theorem Dev.setBoth_ports (d : Dev) (F : Fld) (i n : Nat) : (d.setBoth F i n).ports = d.ports := rfl
@[simp] theorem Dev.setBoth_busMaster (d : Dev) (F : Fld) (i n : Nat) : (d.setBoth F i n).busMaster = d.busMaster := rfl
@[simp] theorem Dev.setBoth_notD0 (d : Dev) (F : Fld) (i n : Nat) : (d.setBoth F i n).notD0 = d.notD0 := rfl
@[simp] theorem Dev.setBoth_pci (d : Dev) (F : Fld) (i n : Nat) : (d.setBoth F i n).pci = d.pci := rfl
@[simp] theorem Dev.setBoth_mgt (d : Dev) (F : Fld) (i n : Nat) : (d.setBoth F i n).mgt = d.mgt := rfl
@[simp] theorem Dev.setBoth_disp (d : Dev) (F : Fld) (i n : Nat) : (d.setBoth F i n).disp = d.disp := rfl
@[simp] theorem Dev.setBoth_vin (d : Dev) (F : Fld) (i n : Nat) : (d.setBoth F i n).vin = d.vin := rfl
@[simp] theorem Dev.setBoth_gpu (d : Dev) (F : Fld) (i n : Nat) : (d.setBoth F i n).gpu = d.gpu := rfl
@[simp] theorem Dev.setBoth_mbx (d : Dev) (F : Fld) (i n : Nat) : (d.setBoth F i n).mbx = d.mbx := rfl
@[simp] theorem Dev.setBoth_tch (d : Dev) (F : Fld) (i n : Nat) : (d.setBoth F i n).tch = d.tch := rfl
@[simp] theorem Dev.setBoth_hap (d : Dev) (F : Fld) (i n : Nat) : (d.setBoth F i n).hap = d.hap := rfl
@[simp] theorem Dev.setBoth_aud (d : Dev) (F : Fld) (i n : Nat) : (d.setBoth F i n).aud = d.aud := rfl
@[simp] theorem Dev.setBoth_pmc (d : Dev) (F : Fld) (i n : Nat) : (d.setBoth F i n).pmc = d.pmc := rfl
@[simp] theorem Dev.setBoth_part (d : Dev) (F : Fld) (i n : Nat) : (d.setBoth F i n).part = d.part := rfl
@[simp] theorem Dev.setBoth_pwr (d : Dev) (F : Fld) (i n : Nat) : (d.setBoth F i n).pwr = d.pwr := rfl
@[simp] theorem Dev.setBoth_free (d : Dev) (F : Fld) (i n : Nat) : (d.setBoth F i n).free = d.free := rfl
@[simp] theorem Dev.setBoth_outbox (d : Dev) (F : Fld) (i n : Nat) : (d.setBoth F i n).outbox = d.outbox := rfl
@[simp] theorem Dev.setBoth_now (d : Dev) (F : Fld) (i n : Nat) : (d.setBoth F i n).now = d.now := rfl

@[simp] theorem Dev.setReg64_live (d : Dev) (lo hi : Reg) (i v : Nat) : (d.setReg64 lo hi i v).live = d.live := rfl
@[simp] theorem Dev.setReg64_time (d : Dev) (lo hi : Reg) (i v : Nat) : (d.setReg64 lo hi i v).time = d.time := rfl
@[simp] theorem Dev.setReg64_pace (d : Dev) (lo hi : Reg) (i v : Nat) : (d.setReg64 lo hi i v).pace = d.pace := rfl
@[simp] theorem Dev.setReg64_msys (d : Dev) (lo hi : Reg) (i v : Nat) : (d.setReg64 lo hi i v).msys = d.msys := rfl
@[simp] theorem Dev.setReg64_own (d : Dev) (lo hi : Reg) (i v : Nat) : (d.setReg64 lo hi i v).own = d.own := rfl
@[simp] theorem Dev.setReg64_hrq (d : Dev) (lo hi : Reg) (i v : Nat) : (d.setReg64 lo hi i v).hrq = d.hrq := rfl
@[simp] theorem Dev.setReg64_ports (d : Dev) (lo hi : Reg) (i v : Nat) : (d.setReg64 lo hi i v).ports = d.ports := rfl
@[simp] theorem Dev.setReg64_busMaster (d : Dev) (lo hi : Reg) (i v : Nat) : (d.setReg64 lo hi i v).busMaster = d.busMaster := rfl
@[simp] theorem Dev.setReg64_notD0 (d : Dev) (lo hi : Reg) (i v : Nat) : (d.setReg64 lo hi i v).notD0 = d.notD0 := rfl
@[simp] theorem Dev.setReg64_pci (d : Dev) (lo hi : Reg) (i v : Nat) : (d.setReg64 lo hi i v).pci = d.pci := rfl
@[simp] theorem Dev.setReg64_mgt (d : Dev) (lo hi : Reg) (i v : Nat) : (d.setReg64 lo hi i v).mgt = d.mgt := rfl
@[simp] theorem Dev.setReg64_disp (d : Dev) (lo hi : Reg) (i v : Nat) : (d.setReg64 lo hi i v).disp = d.disp := rfl
@[simp] theorem Dev.setReg64_vin (d : Dev) (lo hi : Reg) (i v : Nat) : (d.setReg64 lo hi i v).vin = d.vin := rfl
@[simp] theorem Dev.setReg64_gpu (d : Dev) (lo hi : Reg) (i v : Nat) : (d.setReg64 lo hi i v).gpu = d.gpu := rfl
@[simp] theorem Dev.setReg64_mbx (d : Dev) (lo hi : Reg) (i v : Nat) : (d.setReg64 lo hi i v).mbx = d.mbx := rfl
@[simp] theorem Dev.setReg64_tch (d : Dev) (lo hi : Reg) (i v : Nat) : (d.setReg64 lo hi i v).tch = d.tch := rfl
@[simp] theorem Dev.setReg64_hap (d : Dev) (lo hi : Reg) (i v : Nat) : (d.setReg64 lo hi i v).hap = d.hap := rfl
@[simp] theorem Dev.setReg64_aud (d : Dev) (lo hi : Reg) (i v : Nat) : (d.setReg64 lo hi i v).aud = d.aud := rfl
@[simp] theorem Dev.setReg64_pmc (d : Dev) (lo hi : Reg) (i v : Nat) : (d.setReg64 lo hi i v).pmc = d.pmc := rfl
@[simp] theorem Dev.setReg64_part (d : Dev) (lo hi : Reg) (i v : Nat) : (d.setReg64 lo hi i v).part = d.part := rfl
@[simp] theorem Dev.setReg64_pwr (d : Dev) (lo hi : Reg) (i v : Nat) : (d.setReg64 lo hi i v).pwr = d.pwr := rfl
@[simp] theorem Dev.setReg64_free (d : Dev) (lo hi : Reg) (i v : Nat) : (d.setReg64 lo hi i v).free = d.free := rfl
@[simp] theorem Dev.setReg64_outbox (d : Dev) (lo hi : Reg) (i v : Nat) : (d.setReg64 lo hi i v).outbox = d.outbox := rfl
@[simp] theorem Dev.setReg64_fl (d : Dev) (lo hi : Reg) (i v : Nat) (F' : Fld) (j : Nat) : (d.setReg64 lo hi i v).fl F' j = d.fl F' j := rfl
@[simp] theorem Dev.setReg64_now (d : Dev) (lo hi : Reg) (i v : Nat) : (d.setReg64 lo hi i v).now = d.now := rfl

@[simp] theorem Dev.count_live (d : Dev) (F : Fld) (i n : Nat) : (d.count F i n).live = d.live := rfl
@[simp] theorem Dev.count_time (d : Dev) (F : Fld) (i n : Nat) : (d.count F i n).time = d.time := rfl
@[simp] theorem Dev.count_pace (d : Dev) (F : Fld) (i n : Nat) : (d.count F i n).pace = d.pace := rfl
@[simp] theorem Dev.count_msys (d : Dev) (F : Fld) (i n : Nat) : (d.count F i n).msys = d.msys := rfl
@[simp] theorem Dev.count_own (d : Dev) (F : Fld) (i n : Nat) : (d.count F i n).own = d.own := rfl
@[simp] theorem Dev.count_hrq (d : Dev) (F : Fld) (i n : Nat) : (d.count F i n).hrq = d.hrq := rfl
@[simp] theorem Dev.count_ports (d : Dev) (F : Fld) (i n : Nat) : (d.count F i n).ports = d.ports := rfl
@[simp] theorem Dev.count_busMaster (d : Dev) (F : Fld) (i n : Nat) : (d.count F i n).busMaster = d.busMaster := rfl
@[simp] theorem Dev.count_notD0 (d : Dev) (F : Fld) (i n : Nat) : (d.count F i n).notD0 = d.notD0 := rfl
@[simp] theorem Dev.count_pci (d : Dev) (F : Fld) (i n : Nat) : (d.count F i n).pci = d.pci := rfl
@[simp] theorem Dev.count_mgt (d : Dev) (F : Fld) (i n : Nat) : (d.count F i n).mgt = d.mgt := rfl
@[simp] theorem Dev.count_disp (d : Dev) (F : Fld) (i n : Nat) : (d.count F i n).disp = d.disp := rfl
@[simp] theorem Dev.count_vin (d : Dev) (F : Fld) (i n : Nat) : (d.count F i n).vin = d.vin := rfl
@[simp] theorem Dev.count_gpu (d : Dev) (F : Fld) (i n : Nat) : (d.count F i n).gpu = d.gpu := rfl
@[simp] theorem Dev.count_mbx (d : Dev) (F : Fld) (i n : Nat) : (d.count F i n).mbx = d.mbx := rfl
@[simp] theorem Dev.count_tch (d : Dev) (F : Fld) (i n : Nat) : (d.count F i n).tch = d.tch := rfl
@[simp] theorem Dev.count_hap (d : Dev) (F : Fld) (i n : Nat) : (d.count F i n).hap = d.hap := rfl
@[simp] theorem Dev.count_aud (d : Dev) (F : Fld) (i n : Nat) : (d.count F i n).aud = d.aud := rfl
@[simp] theorem Dev.count_pmc (d : Dev) (F : Fld) (i n : Nat) : (d.count F i n).pmc = d.pmc := rfl
@[simp] theorem Dev.count_part (d : Dev) (F : Fld) (i n : Nat) : (d.count F i n).part = d.part := rfl
@[simp] theorem Dev.count_pwr (d : Dev) (F : Fld) (i n : Nat) : (d.count F i n).pwr = d.pwr := rfl
@[simp] theorem Dev.count_free (d : Dev) (F : Fld) (i n : Nat) : (d.count F i n).free = d.free := rfl
@[simp] theorem Dev.count_outbox (d : Dev) (F : Fld) (i n : Nat) : (d.count F i n).outbox = d.outbox := rfl
@[simp] theorem Dev.count_fl (d : Dev) (F : Fld) (i n : Nat) (F' : Fld) (j : Nat) : (d.count F i n).fl F' j = d.fl F' j := rfl
@[simp] theorem Dev.count_now (d : Dev) (F : Fld) (i n : Nat) : (d.count F i n).now = d.now := rfl

@[simp] theorem Dev.emit_regs (d : Dev) (o : Out) : (d.emit o).regs = d.regs := rfl
@[simp] theorem Dev.emit_live (d : Dev) (o : Out) : (d.emit o).live = d.live := rfl
@[simp] theorem Dev.emit_time (d : Dev) (o : Out) : (d.emit o).time = d.time := rfl
@[simp] theorem Dev.emit_pace (d : Dev) (o : Out) : (d.emit o).pace = d.pace := rfl
@[simp] theorem Dev.emit_msys (d : Dev) (o : Out) : (d.emit o).msys = d.msys := rfl
@[simp] theorem Dev.emit_own (d : Dev) (o : Out) : (d.emit o).own = d.own := rfl
@[simp] theorem Dev.emit_hrq (d : Dev) (o : Out) : (d.emit o).hrq = d.hrq := rfl
@[simp] theorem Dev.emit_ports (d : Dev) (o : Out) : (d.emit o).ports = d.ports := rfl
@[simp] theorem Dev.emit_busMaster (d : Dev) (o : Out) : (d.emit o).busMaster = d.busMaster := rfl
@[simp] theorem Dev.emit_notD0 (d : Dev) (o : Out) : (d.emit o).notD0 = d.notD0 := rfl
@[simp] theorem Dev.emit_pci (d : Dev) (o : Out) : (d.emit o).pci = d.pci := rfl
@[simp] theorem Dev.emit_mgt (d : Dev) (o : Out) : (d.emit o).mgt = d.mgt := rfl
@[simp] theorem Dev.emit_disp (d : Dev) (o : Out) : (d.emit o).disp = d.disp := rfl
@[simp] theorem Dev.emit_vin (d : Dev) (o : Out) : (d.emit o).vin = d.vin := rfl
@[simp] theorem Dev.emit_gpu (d : Dev) (o : Out) : (d.emit o).gpu = d.gpu := rfl
@[simp] theorem Dev.emit_mbx (d : Dev) (o : Out) : (d.emit o).mbx = d.mbx := rfl
@[simp] theorem Dev.emit_tch (d : Dev) (o : Out) : (d.emit o).tch = d.tch := rfl
@[simp] theorem Dev.emit_hap (d : Dev) (o : Out) : (d.emit o).hap = d.hap := rfl
@[simp] theorem Dev.emit_aud (d : Dev) (o : Out) : (d.emit o).aud = d.aud := rfl
@[simp] theorem Dev.emit_pmc (d : Dev) (o : Out) : (d.emit o).pmc = d.pmc := rfl
@[simp] theorem Dev.emit_part (d : Dev) (o : Out) : (d.emit o).part = d.part := rfl
@[simp] theorem Dev.emit_pwr (d : Dev) (o : Out) : (d.emit o).pwr = d.pwr := rfl
@[simp] theorem Dev.emit_free (d : Dev) (o : Out) : (d.emit o).free = d.free := rfl
@[simp] theorem Dev.emit_reg (d : Dev) (o : Out) (r' : Reg) (j : Nat) : (d.emit o).reg r' j = d.reg r' j := rfl
@[simp] theorem Dev.emit_f (d : Dev) (o : Out) (F' : Fld) (j : Nat) : (d.emit o).f F' j = d.f F' j := rfl
@[simp] theorem Dev.emit_fb (d : Dev) (o : Out) (F' : Fld) (j : Nat) : (d.emit o).fb F' j = d.fb F' j := rfl
@[simp] theorem Dev.emit_regsWf (d : Dev) (o : Out) : (d.emit o).regsWf = d.regsWf := rfl
@[simp] theorem Dev.emit_fl (d : Dev) (o : Out) (F' : Fld) (j : Nat) : (d.emit o).fl F' j = d.fl F' j := rfl
@[simp] theorem Dev.emit_now (d : Dev) (o : Out) : (d.emit o).now = d.now := rfl

@[simp] theorem Dev.setQueue_regs (d : Dev) (i : Nat) (q : QueueSt) : (d.setQueue i q).regs = d.regs := rfl
@[simp] theorem Dev.setQueue_live (d : Dev) (i : Nat) (q : QueueSt) : (d.setQueue i q).live = d.live := rfl
@[simp] theorem Dev.setQueue_time (d : Dev) (i : Nat) (q : QueueSt) : (d.setQueue i q).time = d.time := rfl
@[simp] theorem Dev.setQueue_pace (d : Dev) (i : Nat) (q : QueueSt) : (d.setQueue i q).pace = d.pace := rfl
@[simp] theorem Dev.setQueue_msys (d : Dev) (i : Nat) (q : QueueSt) : (d.setQueue i q).msys = d.msys := rfl
@[simp] theorem Dev.setQueue_own (d : Dev) (i : Nat) (q : QueueSt) : (d.setQueue i q).own = d.own := rfl
@[simp] theorem Dev.setQueue_ports (d : Dev) (i : Nat) (q : QueueSt) : (d.setQueue i q).ports = d.ports := rfl
@[simp] theorem Dev.setQueue_busMaster (d : Dev) (i : Nat) (q : QueueSt) : (d.setQueue i q).busMaster = d.busMaster := rfl
@[simp] theorem Dev.setQueue_notD0 (d : Dev) (i : Nat) (q : QueueSt) : (d.setQueue i q).notD0 = d.notD0 := rfl
@[simp] theorem Dev.setQueue_pci (d : Dev) (i : Nat) (q : QueueSt) : (d.setQueue i q).pci = d.pci := rfl
@[simp] theorem Dev.setQueue_mgt (d : Dev) (i : Nat) (q : QueueSt) : (d.setQueue i q).mgt = d.mgt := rfl
@[simp] theorem Dev.setQueue_disp (d : Dev) (i : Nat) (q : QueueSt) : (d.setQueue i q).disp = d.disp := rfl
@[simp] theorem Dev.setQueue_vin (d : Dev) (i : Nat) (q : QueueSt) : (d.setQueue i q).vin = d.vin := rfl
@[simp] theorem Dev.setQueue_gpu (d : Dev) (i : Nat) (q : QueueSt) : (d.setQueue i q).gpu = d.gpu := rfl
@[simp] theorem Dev.setQueue_mbx (d : Dev) (i : Nat) (q : QueueSt) : (d.setQueue i q).mbx = d.mbx := rfl
@[simp] theorem Dev.setQueue_tch (d : Dev) (i : Nat) (q : QueueSt) : (d.setQueue i q).tch = d.tch := rfl
@[simp] theorem Dev.setQueue_hap (d : Dev) (i : Nat) (q : QueueSt) : (d.setQueue i q).hap = d.hap := rfl
@[simp] theorem Dev.setQueue_aud (d : Dev) (i : Nat) (q : QueueSt) : (d.setQueue i q).aud = d.aud := rfl
@[simp] theorem Dev.setQueue_pmc (d : Dev) (i : Nat) (q : QueueSt) : (d.setQueue i q).pmc = d.pmc := rfl
@[simp] theorem Dev.setQueue_part (d : Dev) (i : Nat) (q : QueueSt) : (d.setQueue i q).part = d.part := rfl
@[simp] theorem Dev.setQueue_pwr (d : Dev) (i : Nat) (q : QueueSt) : (d.setQueue i q).pwr = d.pwr := rfl
@[simp] theorem Dev.setQueue_free (d : Dev) (i : Nat) (q : QueueSt) : (d.setQueue i q).free = d.free := rfl
@[simp] theorem Dev.setQueue_outbox (d : Dev) (i : Nat) (q : QueueSt) : (d.setQueue i q).outbox = d.outbox := rfl
@[simp] theorem Dev.setQueue_reg (d : Dev) (i : Nat) (q : QueueSt) (r' : Reg) (j : Nat) : (d.setQueue i q).reg r' j = d.reg r' j := rfl
@[simp] theorem Dev.setQueue_f (d : Dev) (i : Nat) (q : QueueSt) (F' : Fld) (j : Nat) : (d.setQueue i q).f F' j = d.f F' j := rfl
@[simp] theorem Dev.setQueue_fb (d : Dev) (i : Nat) (q : QueueSt) (F' : Fld) (j : Nat) : (d.setQueue i q).fb F' j = d.fb F' j := rfl
@[simp] theorem Dev.setQueue_regsWf (d : Dev) (i : Nat) (q : QueueSt) : (d.setQueue i q).regsWf = d.regsWf := rfl
@[simp] theorem Dev.setQueue_fl (d : Dev) (i : Nat) (q : QueueSt) (F' : Fld) (j : Nat) : (d.setQueue i q).fl F' j = d.fl F' j := rfl
@[simp] theorem Dev.setQueue_now (d : Dev) (i : Nat) (q : QueueSt) : (d.setQueue i q).now = d.now := rfl

@[simp] theorem Dev.updCmd_regs (d : Dev) (c : CmdRef) (g : Cmd → Cmd) : (d.updCmd c g).regs = d.regs := rfl
@[simp] theorem Dev.updCmd_live (d : Dev) (c : CmdRef) (g : Cmd → Cmd) : (d.updCmd c g).live = d.live := rfl
@[simp] theorem Dev.updCmd_time (d : Dev) (c : CmdRef) (g : Cmd → Cmd) : (d.updCmd c g).time = d.time := rfl
@[simp] theorem Dev.updCmd_pace (d : Dev) (c : CmdRef) (g : Cmd → Cmd) : (d.updCmd c g).pace = d.pace := rfl
@[simp] theorem Dev.updCmd_msys (d : Dev) (c : CmdRef) (g : Cmd → Cmd) : (d.updCmd c g).msys = d.msys := rfl
@[simp] theorem Dev.updCmd_own (d : Dev) (c : CmdRef) (g : Cmd → Cmd) : (d.updCmd c g).own = d.own := rfl
@[simp] theorem Dev.updCmd_ports (d : Dev) (c : CmdRef) (g : Cmd → Cmd) : (d.updCmd c g).ports = d.ports := rfl
@[simp] theorem Dev.updCmd_busMaster (d : Dev) (c : CmdRef) (g : Cmd → Cmd) : (d.updCmd c g).busMaster = d.busMaster := rfl
@[simp] theorem Dev.updCmd_notD0 (d : Dev) (c : CmdRef) (g : Cmd → Cmd) : (d.updCmd c g).notD0 = d.notD0 := rfl
@[simp] theorem Dev.updCmd_pci (d : Dev) (c : CmdRef) (g : Cmd → Cmd) : (d.updCmd c g).pci = d.pci := rfl
@[simp] theorem Dev.updCmd_mgt (d : Dev) (c : CmdRef) (g : Cmd → Cmd) : (d.updCmd c g).mgt = d.mgt := rfl
@[simp] theorem Dev.updCmd_disp (d : Dev) (c : CmdRef) (g : Cmd → Cmd) : (d.updCmd c g).disp = d.disp := rfl
@[simp] theorem Dev.updCmd_vin (d : Dev) (c : CmdRef) (g : Cmd → Cmd) : (d.updCmd c g).vin = d.vin := rfl
@[simp] theorem Dev.updCmd_gpu (d : Dev) (c : CmdRef) (g : Cmd → Cmd) : (d.updCmd c g).gpu = d.gpu := rfl
@[simp] theorem Dev.updCmd_mbx (d : Dev) (c : CmdRef) (g : Cmd → Cmd) : (d.updCmd c g).mbx = d.mbx := rfl
@[simp] theorem Dev.updCmd_tch (d : Dev) (c : CmdRef) (g : Cmd → Cmd) : (d.updCmd c g).tch = d.tch := rfl
@[simp] theorem Dev.updCmd_hap (d : Dev) (c : CmdRef) (g : Cmd → Cmd) : (d.updCmd c g).hap = d.hap := rfl
@[simp] theorem Dev.updCmd_aud (d : Dev) (c : CmdRef) (g : Cmd → Cmd) : (d.updCmd c g).aud = d.aud := rfl
@[simp] theorem Dev.updCmd_pmc (d : Dev) (c : CmdRef) (g : Cmd → Cmd) : (d.updCmd c g).pmc = d.pmc := rfl
@[simp] theorem Dev.updCmd_part (d : Dev) (c : CmdRef) (g : Cmd → Cmd) : (d.updCmd c g).part = d.part := rfl
@[simp] theorem Dev.updCmd_pwr (d : Dev) (c : CmdRef) (g : Cmd → Cmd) : (d.updCmd c g).pwr = d.pwr := rfl
@[simp] theorem Dev.updCmd_free (d : Dev) (c : CmdRef) (g : Cmd → Cmd) : (d.updCmd c g).free = d.free := rfl
@[simp] theorem Dev.updCmd_outbox (d : Dev) (c : CmdRef) (g : Cmd → Cmd) : (d.updCmd c g).outbox = d.outbox := rfl
@[simp] theorem Dev.updCmd_reg (d : Dev) (c : CmdRef) (g : Cmd → Cmd) (r' : Reg) (j : Nat) : (d.updCmd c g).reg r' j = d.reg r' j := rfl
@[simp] theorem Dev.updCmd_f (d : Dev) (c : CmdRef) (g : Cmd → Cmd) (F' : Fld) (j : Nat) : (d.updCmd c g).f F' j = d.f F' j := rfl
@[simp] theorem Dev.updCmd_fb (d : Dev) (c : CmdRef) (g : Cmd → Cmd) (F' : Fld) (j : Nat) : (d.updCmd c g).fb F' j = d.fb F' j := rfl
@[simp] theorem Dev.updCmd_regsWf (d : Dev) (c : CmdRef) (g : Cmd → Cmd) : (d.updCmd c g).regsWf = d.regsWf := rfl
@[simp] theorem Dev.updCmd_fl (d : Dev) (c : CmdRef) (g : Cmd → Cmd) (F' : Fld) (j : Nat) : (d.updCmd c g).fl F' j = d.fl F' j := rfl
@[simp] theorem Dev.updCmd_now (d : Dev) (c : CmdRef) (g : Cmd → Cmd) : (d.updCmd c g).now = d.now := rfl

/-- A round of signals, a signal and the end of a command change the queues, the fences and the round alone: not the keys and not the SP0 window. -/
theorem Dev.judge_shape (d : Dev) (xs : List Signal) : ∃ h, d.judge xs = { d with hrq := h } ∧ h.keys = d.hrq.keys ∧ h.window = d.hrq.window := by
  have key : ∀ (l : List Signal) (e : Dev), (∃ h, e = { d with hrq := h } ∧ h.keys = d.hrq.keys ∧ h.window = d.hrq.window) →
      ∃ h, l.foldl (fun e x =>
        let e1 := if e.fence x.fence < x.value then e.setFence x.fence x.value else e
        match x.ref with
        | some r => if d.staleIn xs x then e1.updCmd r fun c => { c with stale := true } else e1
        | none => e1) e = { d with hrq := h } ∧ h.keys = d.hrq.keys ∧ h.window = d.hrq.window := by
    intro l
    induction l with
    | nil => exact fun _ h => h
    | cons x t ih =>
      rintro e ⟨h, rfl, hk, hw⟩
      refine ih _ ?_
      dsimp only
      split <;> split <;> first | exact ⟨_, rfl, hk, hw⟩ | (split <;> exact ⟨_, rfl, hk, hw⟩)
  exact key xs d ⟨_, rfl, rfl, rfl⟩

theorem Dev.signal_shape (d : Dev) (x : Signal) : ∃ h, d.signal x = { d with hrq := h } ∧ h.keys = d.hrq.keys ∧ h.window = d.hrq.window := by
  unfold Dev.signal
  split
  · exact ⟨_, rfl, rfl, rfl⟩
  · exact Dev.judge_shape _ _

theorem Dev.signalCmd_shape (d : Dev) (ref : CmdRef) (c : Cmd) :
    ∃ h, d.signalCmd ref c = { d with hrq := h } ∧ h.keys = d.hrq.keys ∧ h.window = d.hrq.window := by
  unfold Dev.signalCmd
  dsimp only
  repeat' split
  all_goals first | exact ⟨_, rfl, rfl, rfl⟩ | exact Dev.signal_shape _ _

theorem Dev.endCmd_shape (d : Dev) (c : CmdRef) (st res : Nat) :
    ∃ h, d.endCmd c st res = { d with hrq := h } ∧ h.keys = d.hrq.keys ∧ h.window = d.hrq.window := by
  unfold Dev.endCmd
  dsimp only
  split
  · split
    · exact ⟨_, rfl, rfl, rfl⟩
    · obtain ⟨h, e⟩ := Dev.signalCmd_shape _ _ _
      exact ⟨h, e⟩
  · exact ⟨_, rfl, rfl, rfl⟩

@[simp] theorem Dev.endCmd_regs (d : Dev) (c : CmdRef) (st res : Nat) : (d.endCmd c st res).regs = d.regs := by obtain ⟨h, e, -⟩ := Dev.endCmd_shape d c st res; rw [e]
@[simp] theorem Dev.endCmd_live (d : Dev) (c : CmdRef) (st res : Nat) : (d.endCmd c st res).live = d.live := by obtain ⟨h, e, -⟩ := Dev.endCmd_shape d c st res; rw [e]
@[simp] theorem Dev.endCmd_time (d : Dev) (c : CmdRef) (st res : Nat) : (d.endCmd c st res).time = d.time := by obtain ⟨h, e, -⟩ := Dev.endCmd_shape d c st res; rw [e]
@[simp] theorem Dev.endCmd_pace (d : Dev) (c : CmdRef) (st res : Nat) : (d.endCmd c st res).pace = d.pace := by obtain ⟨h, e, -⟩ := Dev.endCmd_shape d c st res; rw [e]
@[simp] theorem Dev.endCmd_msys (d : Dev) (c : CmdRef) (st res : Nat) : (d.endCmd c st res).msys = d.msys := by obtain ⟨h, e, -⟩ := Dev.endCmd_shape d c st res; rw [e]
@[simp] theorem Dev.endCmd_own (d : Dev) (c : CmdRef) (st res : Nat) : (d.endCmd c st res).own = d.own := by obtain ⟨h, e, -⟩ := Dev.endCmd_shape d c st res; rw [e]
@[simp] theorem Dev.endCmd_ports (d : Dev) (c : CmdRef) (st res : Nat) : (d.endCmd c st res).ports = d.ports := by obtain ⟨h, e, -⟩ := Dev.endCmd_shape d c st res; rw [e]
@[simp] theorem Dev.endCmd_busMaster (d : Dev) (c : CmdRef) (st res : Nat) : (d.endCmd c st res).busMaster = d.busMaster := by obtain ⟨h, e, -⟩ := Dev.endCmd_shape d c st res; rw [e]
@[simp] theorem Dev.endCmd_notD0 (d : Dev) (c : CmdRef) (st res : Nat) : (d.endCmd c st res).notD0 = d.notD0 := by obtain ⟨h, e, -⟩ := Dev.endCmd_shape d c st res; rw [e]
@[simp] theorem Dev.endCmd_pci (d : Dev) (c : CmdRef) (st res : Nat) : (d.endCmd c st res).pci = d.pci := by obtain ⟨h, e, -⟩ := Dev.endCmd_shape d c st res; rw [e]
@[simp] theorem Dev.endCmd_mgt (d : Dev) (c : CmdRef) (st res : Nat) : (d.endCmd c st res).mgt = d.mgt := by obtain ⟨h, e, -⟩ := Dev.endCmd_shape d c st res; rw [e]
@[simp] theorem Dev.endCmd_disp (d : Dev) (c : CmdRef) (st res : Nat) : (d.endCmd c st res).disp = d.disp := by obtain ⟨h, e, -⟩ := Dev.endCmd_shape d c st res; rw [e]
@[simp] theorem Dev.endCmd_vin (d : Dev) (c : CmdRef) (st res : Nat) : (d.endCmd c st res).vin = d.vin := by obtain ⟨h, e, -⟩ := Dev.endCmd_shape d c st res; rw [e]
@[simp] theorem Dev.endCmd_gpu (d : Dev) (c : CmdRef) (st res : Nat) : (d.endCmd c st res).gpu = d.gpu := by obtain ⟨h, e, -⟩ := Dev.endCmd_shape d c st res; rw [e]
@[simp] theorem Dev.endCmd_mbx (d : Dev) (c : CmdRef) (st res : Nat) : (d.endCmd c st res).mbx = d.mbx := by obtain ⟨h, e, -⟩ := Dev.endCmd_shape d c st res; rw [e]
@[simp] theorem Dev.endCmd_tch (d : Dev) (c : CmdRef) (st res : Nat) : (d.endCmd c st res).tch = d.tch := by obtain ⟨h, e, -⟩ := Dev.endCmd_shape d c st res; rw [e]
@[simp] theorem Dev.endCmd_hap (d : Dev) (c : CmdRef) (st res : Nat) : (d.endCmd c st res).hap = d.hap := by obtain ⟨h, e, -⟩ := Dev.endCmd_shape d c st res; rw [e]
@[simp] theorem Dev.endCmd_aud (d : Dev) (c : CmdRef) (st res : Nat) : (d.endCmd c st res).aud = d.aud := by obtain ⟨h, e, -⟩ := Dev.endCmd_shape d c st res; rw [e]
@[simp] theorem Dev.endCmd_pmc (d : Dev) (c : CmdRef) (st res : Nat) : (d.endCmd c st res).pmc = d.pmc := by obtain ⟨h, e, -⟩ := Dev.endCmd_shape d c st res; rw [e]
@[simp] theorem Dev.endCmd_part (d : Dev) (c : CmdRef) (st res : Nat) : (d.endCmd c st res).part = d.part := by obtain ⟨h, e, -⟩ := Dev.endCmd_shape d c st res; rw [e]
@[simp] theorem Dev.endCmd_pwr (d : Dev) (c : CmdRef) (st res : Nat) : (d.endCmd c st res).pwr = d.pwr := by obtain ⟨h, e, -⟩ := Dev.endCmd_shape d c st res; rw [e]
@[simp] theorem Dev.endCmd_free (d : Dev) (c : CmdRef) (st res : Nat) : (d.endCmd c st res).free = d.free := by obtain ⟨h, e, -⟩ := Dev.endCmd_shape d c st res; rw [e]
@[simp] theorem Dev.endCmd_outbox (d : Dev) (c : CmdRef) (st res : Nat) : (d.endCmd c st res).outbox = d.outbox := by obtain ⟨h, e, -⟩ := Dev.endCmd_shape d c st res; rw [e]
@[simp] theorem Dev.endCmd_reg (d : Dev) (c : CmdRef) (st res : Nat) (r' : Reg) (j : Nat) : (d.endCmd c st res).reg r' j = d.reg r' j := by obtain ⟨h, e, -⟩ := Dev.endCmd_shape d c st res; rw [e]; rfl
@[simp] theorem Dev.endCmd_f (d : Dev) (c : CmdRef) (st res : Nat) (F' : Fld) (j : Nat) : (d.endCmd c st res).f F' j = d.f F' j := by obtain ⟨h, e, -⟩ := Dev.endCmd_shape d c st res; rw [e]; rfl
@[simp] theorem Dev.endCmd_fb (d : Dev) (c : CmdRef) (st res : Nat) (F' : Fld) (j : Nat) : (d.endCmd c st res).fb F' j = d.fb F' j := by obtain ⟨h, e, -⟩ := Dev.endCmd_shape d c st res; rw [e]; rfl
@[simp] theorem Dev.endCmd_regsWf (d : Dev) (c : CmdRef) (st res : Nat) : (d.endCmd c st res).regsWf = d.regsWf := by obtain ⟨h, e, -⟩ := Dev.endCmd_shape d c st res; rw [e]; rfl
@[simp] theorem Dev.endCmd_fl (d : Dev) (c : CmdRef) (st res : Nat) (F' : Fld) (j : Nat) : (d.endCmd c st res).fl F' j = d.fl F' j := by obtain ⟨h, e, -⟩ := Dev.endCmd_shape d c st res; rw [e]; rfl
@[simp] theorem Dev.endCmd_now (d : Dev) (c : CmdRef) (st res : Nat) : (d.endCmd c st res).now = d.now := by obtain ⟨h, e, -⟩ := Dev.endCmd_shape d c st res; rw [e]; rfl

@[simp] theorem Dev.needDomains_live (d : Dev) (m : Nat) : (d.needDomains m).live = d.live := rfl
@[simp] theorem Dev.needDomains_time (d : Dev) (m : Nat) : (d.needDomains m).time = d.time := rfl
@[simp] theorem Dev.needDomains_pace (d : Dev) (m : Nat) : (d.needDomains m).pace = d.pace := rfl
@[simp] theorem Dev.needDomains_msys (d : Dev) (m : Nat) : (d.needDomains m).msys = d.msys := rfl
@[simp] theorem Dev.needDomains_own (d : Dev) (m : Nat) : (d.needDomains m).own = d.own := rfl
@[simp] theorem Dev.needDomains_hrq (d : Dev) (m : Nat) : (d.needDomains m).hrq = d.hrq := rfl
@[simp] theorem Dev.needDomains_ports (d : Dev) (m : Nat) : (d.needDomains m).ports = d.ports := rfl
@[simp] theorem Dev.needDomains_busMaster (d : Dev) (m : Nat) : (d.needDomains m).busMaster = d.busMaster := rfl
@[simp] theorem Dev.needDomains_notD0 (d : Dev) (m : Nat) : (d.needDomains m).notD0 = d.notD0 := rfl
@[simp] theorem Dev.needDomains_pci (d : Dev) (m : Nat) : (d.needDomains m).pci = d.pci := rfl
@[simp] theorem Dev.needDomains_mgt (d : Dev) (m : Nat) : (d.needDomains m).mgt = d.mgt := rfl
@[simp] theorem Dev.needDomains_disp (d : Dev) (m : Nat) : (d.needDomains m).disp = d.disp := rfl
@[simp] theorem Dev.needDomains_vin (d : Dev) (m : Nat) : (d.needDomains m).vin = d.vin := rfl
@[simp] theorem Dev.needDomains_gpu (d : Dev) (m : Nat) : (d.needDomains m).gpu = d.gpu := rfl
@[simp] theorem Dev.needDomains_mbx (d : Dev) (m : Nat) : (d.needDomains m).mbx = d.mbx := rfl
@[simp] theorem Dev.needDomains_tch (d : Dev) (m : Nat) : (d.needDomains m).tch = d.tch := rfl
@[simp] theorem Dev.needDomains_hap (d : Dev) (m : Nat) : (d.needDomains m).hap = d.hap := rfl
@[simp] theorem Dev.needDomains_aud (d : Dev) (m : Nat) : (d.needDomains m).aud = d.aud := rfl
@[simp] theorem Dev.needDomains_pmc (d : Dev) (m : Nat) : (d.needDomains m).pmc = d.pmc := rfl
@[simp] theorem Dev.needDomains_part (d : Dev) (m : Nat) : (d.needDomains m).part = d.part := rfl
@[simp] theorem Dev.needDomains_pwr (d : Dev) (m : Nat) : (d.needDomains m).pwr = d.pwr := rfl
@[simp] theorem Dev.needDomains_free (d : Dev) (m : Nat) : (d.needDomains m).free = d.free := rfl
@[simp] theorem Dev.needDomains_outbox (d : Dev) (m : Nat) : (d.needDomains m).outbox = d.outbox := rfl
@[simp] theorem Dev.needDomains_fl (d : Dev) (m : Nat) (F' : Fld) (j : Nat) : (d.needDomains m).fl F' j = d.fl F' j := rfl
@[simp] theorem Dev.needDomains_now (d : Dev) (m : Nat) : (d.needDomains m).now = d.now := rfl

@[simp] theorem Dev.setFence_live (d : Dev) (i v : Nat) : (d.setFence i v).live = d.live := rfl
@[simp] theorem Dev.setFence_time (d : Dev) (i v : Nat) : (d.setFence i v).time = d.time := rfl
@[simp] theorem Dev.setFence_pace (d : Dev) (i v : Nat) : (d.setFence i v).pace = d.pace := rfl
@[simp] theorem Dev.setFence_msys (d : Dev) (i v : Nat) : (d.setFence i v).msys = d.msys := rfl
@[simp] theorem Dev.setFence_own (d : Dev) (i v : Nat) : (d.setFence i v).own = d.own := rfl
@[simp] theorem Dev.setFence_ports (d : Dev) (i v : Nat) : (d.setFence i v).ports = d.ports := rfl
@[simp] theorem Dev.setFence_busMaster (d : Dev) (i v : Nat) : (d.setFence i v).busMaster = d.busMaster := rfl
@[simp] theorem Dev.setFence_notD0 (d : Dev) (i v : Nat) : (d.setFence i v).notD0 = d.notD0 := rfl
@[simp] theorem Dev.setFence_pci (d : Dev) (i v : Nat) : (d.setFence i v).pci = d.pci := rfl
@[simp] theorem Dev.setFence_mgt (d : Dev) (i v : Nat) : (d.setFence i v).mgt = d.mgt := rfl
@[simp] theorem Dev.setFence_disp (d : Dev) (i v : Nat) : (d.setFence i v).disp = d.disp := rfl
@[simp] theorem Dev.setFence_vin (d : Dev) (i v : Nat) : (d.setFence i v).vin = d.vin := rfl
@[simp] theorem Dev.setFence_gpu (d : Dev) (i v : Nat) : (d.setFence i v).gpu = d.gpu := rfl
@[simp] theorem Dev.setFence_mbx (d : Dev) (i v : Nat) : (d.setFence i v).mbx = d.mbx := rfl
@[simp] theorem Dev.setFence_tch (d : Dev) (i v : Nat) : (d.setFence i v).tch = d.tch := rfl
@[simp] theorem Dev.setFence_hap (d : Dev) (i v : Nat) : (d.setFence i v).hap = d.hap := rfl
@[simp] theorem Dev.setFence_aud (d : Dev) (i v : Nat) : (d.setFence i v).aud = d.aud := rfl
@[simp] theorem Dev.setFence_pmc (d : Dev) (i v : Nat) : (d.setFence i v).pmc = d.pmc := rfl
@[simp] theorem Dev.setFence_part (d : Dev) (i v : Nat) : (d.setFence i v).part = d.part := rfl
@[simp] theorem Dev.setFence_pwr (d : Dev) (i v : Nat) : (d.setFence i v).pwr = d.pwr := rfl
@[simp] theorem Dev.setFence_free (d : Dev) (i v : Nat) : (d.setFence i v).free = d.free := rfl
@[simp] theorem Dev.setFence_outbox (d : Dev) (i v : Nat) : (d.setFence i v).outbox = d.outbox := rfl
@[simp] theorem Dev.setFence_fl (d : Dev) (i v : Nat) (F' : Fld) (j : Nat) : (d.setFence i v).fl F' j = d.fl F' j := rfl
@[simp] theorem Dev.setFence_now (d : Dev) (i v : Nat) : (d.setFence i v).now = d.now := rfl

@[simp] theorem Dev.setKey_regs (d : Dev) (i : Nat) (k : KeySlot) : (d.setKey i k).regs = d.regs := rfl
@[simp] theorem Dev.setKey_live (d : Dev) (i : Nat) (k : KeySlot) : (d.setKey i k).live = d.live := rfl
@[simp] theorem Dev.setKey_time (d : Dev) (i : Nat) (k : KeySlot) : (d.setKey i k).time = d.time := rfl
@[simp] theorem Dev.setKey_pace (d : Dev) (i : Nat) (k : KeySlot) : (d.setKey i k).pace = d.pace := rfl
@[simp] theorem Dev.setKey_msys (d : Dev) (i : Nat) (k : KeySlot) : (d.setKey i k).msys = d.msys := rfl
@[simp] theorem Dev.setKey_own (d : Dev) (i : Nat) (k : KeySlot) : (d.setKey i k).own = d.own := rfl
@[simp] theorem Dev.setKey_ports (d : Dev) (i : Nat) (k : KeySlot) : (d.setKey i k).ports = d.ports := rfl
@[simp] theorem Dev.setKey_busMaster (d : Dev) (i : Nat) (k : KeySlot) : (d.setKey i k).busMaster = d.busMaster := rfl
@[simp] theorem Dev.setKey_notD0 (d : Dev) (i : Nat) (k : KeySlot) : (d.setKey i k).notD0 = d.notD0 := rfl
@[simp] theorem Dev.setKey_pci (d : Dev) (i : Nat) (k : KeySlot) : (d.setKey i k).pci = d.pci := rfl
@[simp] theorem Dev.setKey_mgt (d : Dev) (i : Nat) (k : KeySlot) : (d.setKey i k).mgt = d.mgt := rfl
@[simp] theorem Dev.setKey_disp (d : Dev) (i : Nat) (k : KeySlot) : (d.setKey i k).disp = d.disp := rfl
@[simp] theorem Dev.setKey_vin (d : Dev) (i : Nat) (k : KeySlot) : (d.setKey i k).vin = d.vin := rfl
@[simp] theorem Dev.setKey_gpu (d : Dev) (i : Nat) (k : KeySlot) : (d.setKey i k).gpu = d.gpu := rfl
@[simp] theorem Dev.setKey_mbx (d : Dev) (i : Nat) (k : KeySlot) : (d.setKey i k).mbx = d.mbx := rfl
@[simp] theorem Dev.setKey_tch (d : Dev) (i : Nat) (k : KeySlot) : (d.setKey i k).tch = d.tch := rfl
@[simp] theorem Dev.setKey_hap (d : Dev) (i : Nat) (k : KeySlot) : (d.setKey i k).hap = d.hap := rfl
@[simp] theorem Dev.setKey_aud (d : Dev) (i : Nat) (k : KeySlot) : (d.setKey i k).aud = d.aud := rfl
@[simp] theorem Dev.setKey_pmc (d : Dev) (i : Nat) (k : KeySlot) : (d.setKey i k).pmc = d.pmc := rfl
@[simp] theorem Dev.setKey_part (d : Dev) (i : Nat) (k : KeySlot) : (d.setKey i k).part = d.part := rfl
@[simp] theorem Dev.setKey_pwr (d : Dev) (i : Nat) (k : KeySlot) : (d.setKey i k).pwr = d.pwr := rfl
@[simp] theorem Dev.setKey_free (d : Dev) (i : Nat) (k : KeySlot) : (d.setKey i k).free = d.free := rfl
@[simp] theorem Dev.setKey_outbox (d : Dev) (i : Nat) (k : KeySlot) : (d.setKey i k).outbox = d.outbox := rfl
@[simp] theorem Dev.setKey_reg (d : Dev) (i : Nat) (k : KeySlot) (r' : Reg) (j : Nat) : (d.setKey i k).reg r' j = d.reg r' j := rfl
@[simp] theorem Dev.setKey_f (d : Dev) (i : Nat) (k : KeySlot) (F' : Fld) (j : Nat) : (d.setKey i k).f F' j = d.f F' j := rfl
@[simp] theorem Dev.setKey_fb (d : Dev) (i : Nat) (k : KeySlot) (F' : Fld) (j : Nat) : (d.setKey i k).fb F' j = d.fb F' j := rfl
@[simp] theorem Dev.setKey_regsWf (d : Dev) (i : Nat) (k : KeySlot) : (d.setKey i k).regsWf = d.regsWf := rfl
@[simp] theorem Dev.setKey_fl (d : Dev) (i : Nat) (k : KeySlot) (F' : Fld) (j : Nat) : (d.setKey i k).fl F' j = d.fl F' j := rfl
@[simp] theorem Dev.setKey_now (d : Dev) (i : Nat) (k : KeySlot) : (d.setKey i k).now = d.now := rfl

@[simp] theorem Dev.updPart_regs (d : Dev) (g : PartSt → PartSt) : (d.updPart g).regs = d.regs := rfl
@[simp] theorem Dev.updPart_live (d : Dev) (g : PartSt → PartSt) : (d.updPart g).live = d.live := rfl
@[simp] theorem Dev.updPart_time (d : Dev) (g : PartSt → PartSt) : (d.updPart g).time = d.time := rfl
@[simp] theorem Dev.updPart_pace (d : Dev) (g : PartSt → PartSt) : (d.updPart g).pace = d.pace := rfl
@[simp] theorem Dev.updPart_msys (d : Dev) (g : PartSt → PartSt) : (d.updPart g).msys = d.msys := rfl
@[simp] theorem Dev.updPart_own (d : Dev) (g : PartSt → PartSt) : (d.updPart g).own = d.own := rfl
@[simp] theorem Dev.updPart_hrq (d : Dev) (g : PartSt → PartSt) : (d.updPart g).hrq = d.hrq := rfl
@[simp] theorem Dev.updPart_ports (d : Dev) (g : PartSt → PartSt) : (d.updPart g).ports = d.ports := rfl
@[simp] theorem Dev.updPart_busMaster (d : Dev) (g : PartSt → PartSt) : (d.updPart g).busMaster = d.busMaster := rfl
@[simp] theorem Dev.updPart_notD0 (d : Dev) (g : PartSt → PartSt) : (d.updPart g).notD0 = d.notD0 := rfl
@[simp] theorem Dev.updPart_pci (d : Dev) (g : PartSt → PartSt) : (d.updPart g).pci = d.pci := rfl
@[simp] theorem Dev.updPart_mgt (d : Dev) (g : PartSt → PartSt) : (d.updPart g).mgt = d.mgt := rfl
@[simp] theorem Dev.updPart_disp (d : Dev) (g : PartSt → PartSt) : (d.updPart g).disp = d.disp := rfl
@[simp] theorem Dev.updPart_vin (d : Dev) (g : PartSt → PartSt) : (d.updPart g).vin = d.vin := rfl
@[simp] theorem Dev.updPart_gpu (d : Dev) (g : PartSt → PartSt) : (d.updPart g).gpu = d.gpu := rfl
@[simp] theorem Dev.updPart_mbx (d : Dev) (g : PartSt → PartSt) : (d.updPart g).mbx = d.mbx := rfl
@[simp] theorem Dev.updPart_tch (d : Dev) (g : PartSt → PartSt) : (d.updPart g).tch = d.tch := rfl
@[simp] theorem Dev.updPart_hap (d : Dev) (g : PartSt → PartSt) : (d.updPart g).hap = d.hap := rfl
@[simp] theorem Dev.updPart_aud (d : Dev) (g : PartSt → PartSt) : (d.updPart g).aud = d.aud := rfl
@[simp] theorem Dev.updPart_pmc (d : Dev) (g : PartSt → PartSt) : (d.updPart g).pmc = d.pmc := rfl
@[simp] theorem Dev.updPart_pwr (d : Dev) (g : PartSt → PartSt) : (d.updPart g).pwr = d.pwr := rfl
@[simp] theorem Dev.updPart_free (d : Dev) (g : PartSt → PartSt) : (d.updPart g).free = d.free := rfl
@[simp] theorem Dev.updPart_outbox (d : Dev) (g : PartSt → PartSt) : (d.updPart g).outbox = d.outbox := rfl
@[simp] theorem Dev.updPart_reg (d : Dev) (g : PartSt → PartSt) (r' : Reg) (j : Nat) : (d.updPart g).reg r' j = d.reg r' j := rfl
@[simp] theorem Dev.updPart_f (d : Dev) (g : PartSt → PartSt) (F' : Fld) (j : Nat) : (d.updPart g).f F' j = d.f F' j := rfl
@[simp] theorem Dev.updPart_fb (d : Dev) (g : PartSt → PartSt) (F' : Fld) (j : Nat) : (d.updPart g).fb F' j = d.fb F' j := rfl
@[simp] theorem Dev.updPart_regsWf (d : Dev) (g : PartSt → PartSt) : (d.updPart g).regsWf = d.regsWf := rfl
@[simp] theorem Dev.updPart_fl (d : Dev) (g : PartSt → PartSt) (F' : Fld) (j : Nat) : (d.updPart g).fl F' j = d.fl F' j := rfl
@[simp] theorem Dev.updPart_now (d : Dev) (g : PartSt → PartSt) : (d.updPart g).now = d.now := rfl

@[simp] theorem Dev.setWalk_regs (d : Dev) (w : WalkSt) : (d.setWalk w).regs = d.regs := rfl
@[simp] theorem Dev.setWalk_live (d : Dev) (w : WalkSt) : (d.setWalk w).live = d.live := rfl
@[simp] theorem Dev.setWalk_time (d : Dev) (w : WalkSt) : (d.setWalk w).time = d.time := rfl
@[simp] theorem Dev.setWalk_pace (d : Dev) (w : WalkSt) : (d.setWalk w).pace = d.pace := rfl
@[simp] theorem Dev.setWalk_own (d : Dev) (w : WalkSt) : (d.setWalk w).own = d.own := rfl
@[simp] theorem Dev.setWalk_hrq (d : Dev) (w : WalkSt) : (d.setWalk w).hrq = d.hrq := rfl
@[simp] theorem Dev.setWalk_ports (d : Dev) (w : WalkSt) : (d.setWalk w).ports = d.ports := rfl
@[simp] theorem Dev.setWalk_busMaster (d : Dev) (w : WalkSt) : (d.setWalk w).busMaster = d.busMaster := rfl
@[simp] theorem Dev.setWalk_notD0 (d : Dev) (w : WalkSt) : (d.setWalk w).notD0 = d.notD0 := rfl
@[simp] theorem Dev.setWalk_pci (d : Dev) (w : WalkSt) : (d.setWalk w).pci = d.pci := rfl
@[simp] theorem Dev.setWalk_mgt (d : Dev) (w : WalkSt) : (d.setWalk w).mgt = d.mgt := rfl
@[simp] theorem Dev.setWalk_disp (d : Dev) (w : WalkSt) : (d.setWalk w).disp = d.disp := rfl
@[simp] theorem Dev.setWalk_vin (d : Dev) (w : WalkSt) : (d.setWalk w).vin = d.vin := rfl
@[simp] theorem Dev.setWalk_gpu (d : Dev) (w : WalkSt) : (d.setWalk w).gpu = d.gpu := rfl
@[simp] theorem Dev.setWalk_mbx (d : Dev) (w : WalkSt) : (d.setWalk w).mbx = d.mbx := rfl
@[simp] theorem Dev.setWalk_tch (d : Dev) (w : WalkSt) : (d.setWalk w).tch = d.tch := rfl
@[simp] theorem Dev.setWalk_hap (d : Dev) (w : WalkSt) : (d.setWalk w).hap = d.hap := rfl
@[simp] theorem Dev.setWalk_aud (d : Dev) (w : WalkSt) : (d.setWalk w).aud = d.aud := rfl
@[simp] theorem Dev.setWalk_pmc (d : Dev) (w : WalkSt) : (d.setWalk w).pmc = d.pmc := rfl
@[simp] theorem Dev.setWalk_part (d : Dev) (w : WalkSt) : (d.setWalk w).part = d.part := rfl
@[simp] theorem Dev.setWalk_pwr (d : Dev) (w : WalkSt) : (d.setWalk w).pwr = d.pwr := rfl
@[simp] theorem Dev.setWalk_free (d : Dev) (w : WalkSt) : (d.setWalk w).free = d.free := rfl
@[simp] theorem Dev.setWalk_outbox (d : Dev) (w : WalkSt) : (d.setWalk w).outbox = d.outbox := rfl
@[simp] theorem Dev.setWalk_reg (d : Dev) (w : WalkSt) (r' : Reg) (j : Nat) : (d.setWalk w).reg r' j = d.reg r' j := rfl
@[simp] theorem Dev.setWalk_f (d : Dev) (w : WalkSt) (F' : Fld) (j : Nat) : (d.setWalk w).f F' j = d.f F' j := rfl
@[simp] theorem Dev.setWalk_fb (d : Dev) (w : WalkSt) (F' : Fld) (j : Nat) : (d.setWalk w).fb F' j = d.fb F' j := rfl
@[simp] theorem Dev.setWalk_regsWf (d : Dev) (w : WalkSt) : (d.setWalk w).regsWf = d.regsWf := rfl
@[simp] theorem Dev.setWalk_fl (d : Dev) (w : WalkSt) (F' : Fld) (j : Nat) : (d.setWalk w).fl F' j = d.fl F' j := rfl
@[simp] theorem Dev.setWalk_now (d : Dev) (w : WalkSt) : (d.setWalk w).now = d.now := rfl

@[simp] theorem Dev.setOut_regs (d : Dev) (n : Nat) (o : OutSt) : (d.setOut n o).regs = d.regs := rfl
@[simp] theorem Dev.setOut_live (d : Dev) (n : Nat) (o : OutSt) : (d.setOut n o).live = d.live := rfl
@[simp] theorem Dev.setOut_time (d : Dev) (n : Nat) (o : OutSt) : (d.setOut n o).time = d.time := rfl
@[simp] theorem Dev.setOut_pace (d : Dev) (n : Nat) (o : OutSt) : (d.setOut n o).pace = d.pace := rfl
@[simp] theorem Dev.setOut_msys (d : Dev) (n : Nat) (o : OutSt) : (d.setOut n o).msys = d.msys := rfl
@[simp] theorem Dev.setOut_own (d : Dev) (n : Nat) (o : OutSt) : (d.setOut n o).own = d.own := rfl
@[simp] theorem Dev.setOut_hrq (d : Dev) (n : Nat) (o : OutSt) : (d.setOut n o).hrq = d.hrq := rfl
@[simp] theorem Dev.setOut_ports (d : Dev) (n : Nat) (o : OutSt) : (d.setOut n o).ports = d.ports := rfl
@[simp] theorem Dev.setOut_busMaster (d : Dev) (n : Nat) (o : OutSt) : (d.setOut n o).busMaster = d.busMaster := rfl
@[simp] theorem Dev.setOut_notD0 (d : Dev) (n : Nat) (o : OutSt) : (d.setOut n o).notD0 = d.notD0 := rfl
@[simp] theorem Dev.setOut_pci (d : Dev) (n : Nat) (o : OutSt) : (d.setOut n o).pci = d.pci := rfl
@[simp] theorem Dev.setOut_mgt (d : Dev) (n : Nat) (o : OutSt) : (d.setOut n o).mgt = d.mgt := rfl
@[simp] theorem Dev.setOut_vin (d : Dev) (n : Nat) (o : OutSt) : (d.setOut n o).vin = d.vin := rfl
@[simp] theorem Dev.setOut_gpu (d : Dev) (n : Nat) (o : OutSt) : (d.setOut n o).gpu = d.gpu := rfl
@[simp] theorem Dev.setOut_mbx (d : Dev) (n : Nat) (o : OutSt) : (d.setOut n o).mbx = d.mbx := rfl
@[simp] theorem Dev.setOut_tch (d : Dev) (n : Nat) (o : OutSt) : (d.setOut n o).tch = d.tch := rfl
@[simp] theorem Dev.setOut_hap (d : Dev) (n : Nat) (o : OutSt) : (d.setOut n o).hap = d.hap := rfl
@[simp] theorem Dev.setOut_aud (d : Dev) (n : Nat) (o : OutSt) : (d.setOut n o).aud = d.aud := rfl
@[simp] theorem Dev.setOut_pmc (d : Dev) (n : Nat) (o : OutSt) : (d.setOut n o).pmc = d.pmc := rfl
@[simp] theorem Dev.setOut_part (d : Dev) (n : Nat) (o : OutSt) : (d.setOut n o).part = d.part := rfl
@[simp] theorem Dev.setOut_pwr (d : Dev) (n : Nat) (o : OutSt) : (d.setOut n o).pwr = d.pwr := rfl
@[simp] theorem Dev.setOut_free (d : Dev) (n : Nat) (o : OutSt) : (d.setOut n o).free = d.free := rfl
@[simp] theorem Dev.setOut_outbox (d : Dev) (n : Nat) (o : OutSt) : (d.setOut n o).outbox = d.outbox := rfl
@[simp] theorem Dev.setOut_reg (d : Dev) (n : Nat) (o : OutSt) (r' : Reg) (j : Nat) : (d.setOut n o).reg r' j = d.reg r' j := rfl
@[simp] theorem Dev.setOut_f (d : Dev) (n : Nat) (o : OutSt) (F' : Fld) (j : Nat) : (d.setOut n o).f F' j = d.f F' j := rfl
@[simp] theorem Dev.setOut_fb (d : Dev) (n : Nat) (o : OutSt) (F' : Fld) (j : Nat) : (d.setOut n o).fb F' j = d.fb F' j := rfl
@[simp] theorem Dev.setOut_regsWf (d : Dev) (n : Nat) (o : OutSt) : (d.setOut n o).regsWf = d.regsWf := rfl
@[simp] theorem Dev.setOut_fl (d : Dev) (n : Nat) (o : OutSt) (F' : Fld) (j : Nat) : (d.setOut n o).fl F' j = d.fl F' j := rfl
@[simp] theorem Dev.setOut_now (d : Dev) (n : Nat) (o : OutSt) : (d.setOut n o).now = d.now := rfl

@[simp] theorem Dev.setLayer_regs (d : Dev) (n : Nat) (l : LayerSt) : (d.setLayer n l).regs = d.regs := rfl
@[simp] theorem Dev.setLayer_live (d : Dev) (n : Nat) (l : LayerSt) : (d.setLayer n l).live = d.live := rfl
@[simp] theorem Dev.setLayer_time (d : Dev) (n : Nat) (l : LayerSt) : (d.setLayer n l).time = d.time := rfl
@[simp] theorem Dev.setLayer_pace (d : Dev) (n : Nat) (l : LayerSt) : (d.setLayer n l).pace = d.pace := rfl
@[simp] theorem Dev.setLayer_msys (d : Dev) (n : Nat) (l : LayerSt) : (d.setLayer n l).msys = d.msys := rfl
@[simp] theorem Dev.setLayer_own (d : Dev) (n : Nat) (l : LayerSt) : (d.setLayer n l).own = d.own := rfl
@[simp] theorem Dev.setLayer_hrq (d : Dev) (n : Nat) (l : LayerSt) : (d.setLayer n l).hrq = d.hrq := rfl
@[simp] theorem Dev.setLayer_ports (d : Dev) (n : Nat) (l : LayerSt) : (d.setLayer n l).ports = d.ports := rfl
@[simp] theorem Dev.setLayer_busMaster (d : Dev) (n : Nat) (l : LayerSt) : (d.setLayer n l).busMaster = d.busMaster := rfl
@[simp] theorem Dev.setLayer_notD0 (d : Dev) (n : Nat) (l : LayerSt) : (d.setLayer n l).notD0 = d.notD0 := rfl
@[simp] theorem Dev.setLayer_pci (d : Dev) (n : Nat) (l : LayerSt) : (d.setLayer n l).pci = d.pci := rfl
@[simp] theorem Dev.setLayer_mgt (d : Dev) (n : Nat) (l : LayerSt) : (d.setLayer n l).mgt = d.mgt := rfl
@[simp] theorem Dev.setLayer_vin (d : Dev) (n : Nat) (l : LayerSt) : (d.setLayer n l).vin = d.vin := rfl
@[simp] theorem Dev.setLayer_gpu (d : Dev) (n : Nat) (l : LayerSt) : (d.setLayer n l).gpu = d.gpu := rfl
@[simp] theorem Dev.setLayer_mbx (d : Dev) (n : Nat) (l : LayerSt) : (d.setLayer n l).mbx = d.mbx := rfl
@[simp] theorem Dev.setLayer_tch (d : Dev) (n : Nat) (l : LayerSt) : (d.setLayer n l).tch = d.tch := rfl
@[simp] theorem Dev.setLayer_hap (d : Dev) (n : Nat) (l : LayerSt) : (d.setLayer n l).hap = d.hap := rfl
@[simp] theorem Dev.setLayer_aud (d : Dev) (n : Nat) (l : LayerSt) : (d.setLayer n l).aud = d.aud := rfl
@[simp] theorem Dev.setLayer_pmc (d : Dev) (n : Nat) (l : LayerSt) : (d.setLayer n l).pmc = d.pmc := rfl
@[simp] theorem Dev.setLayer_part (d : Dev) (n : Nat) (l : LayerSt) : (d.setLayer n l).part = d.part := rfl
@[simp] theorem Dev.setLayer_pwr (d : Dev) (n : Nat) (l : LayerSt) : (d.setLayer n l).pwr = d.pwr := rfl
@[simp] theorem Dev.setLayer_free (d : Dev) (n : Nat) (l : LayerSt) : (d.setLayer n l).free = d.free := rfl
@[simp] theorem Dev.setLayer_outbox (d : Dev) (n : Nat) (l : LayerSt) : (d.setLayer n l).outbox = d.outbox := rfl
@[simp] theorem Dev.setLayer_reg (d : Dev) (n : Nat) (l : LayerSt) (r' : Reg) (j : Nat) : (d.setLayer n l).reg r' j = d.reg r' j := rfl
@[simp] theorem Dev.setLayer_f (d : Dev) (n : Nat) (l : LayerSt) (F' : Fld) (j : Nat) : (d.setLayer n l).f F' j = d.f F' j := rfl
@[simp] theorem Dev.setLayer_fb (d : Dev) (n : Nat) (l : LayerSt) (F' : Fld) (j : Nat) : (d.setLayer n l).fb F' j = d.fb F' j := rfl
@[simp] theorem Dev.setLayer_regsWf (d : Dev) (n : Nat) (l : LayerSt) : (d.setLayer n l).regsWf = d.regsWf := rfl
@[simp] theorem Dev.setLayer_fl (d : Dev) (n : Nat) (l : LayerSt) (F' : Fld) (j : Nat) : (d.setLayer n l).fl F' j = d.fl F' j := rfl
@[simp] theorem Dev.setLayer_now (d : Dev) (n : Nat) (l : LayerSt) : (d.setLayer n l).now = d.now := rfl

@[simp] theorem Dev.setGroups_regs (d : Dev) (gs : List Group) : (d.setGroups gs).regs = d.regs := rfl
@[simp] theorem Dev.setGroups_live (d : Dev) (gs : List Group) : (d.setGroups gs).live = d.live := rfl
@[simp] theorem Dev.setGroups_time (d : Dev) (gs : List Group) : (d.setGroups gs).time = d.time := rfl
@[simp] theorem Dev.setGroups_pace (d : Dev) (gs : List Group) : (d.setGroups gs).pace = d.pace := rfl
@[simp] theorem Dev.setGroups_msys (d : Dev) (gs : List Group) : (d.setGroups gs).msys = d.msys := rfl
@[simp] theorem Dev.setGroups_own (d : Dev) (gs : List Group) : (d.setGroups gs).own = d.own := rfl
@[simp] theorem Dev.setGroups_hrq (d : Dev) (gs : List Group) : (d.setGroups gs).hrq = d.hrq := rfl
@[simp] theorem Dev.setGroups_ports (d : Dev) (gs : List Group) : (d.setGroups gs).ports = d.ports := rfl
@[simp] theorem Dev.setGroups_busMaster (d : Dev) (gs : List Group) : (d.setGroups gs).busMaster = d.busMaster := rfl
@[simp] theorem Dev.setGroups_notD0 (d : Dev) (gs : List Group) : (d.setGroups gs).notD0 = d.notD0 := rfl
@[simp] theorem Dev.setGroups_pci (d : Dev) (gs : List Group) : (d.setGroups gs).pci = d.pci := rfl
@[simp] theorem Dev.setGroups_mgt (d : Dev) (gs : List Group) : (d.setGroups gs).mgt = d.mgt := rfl
@[simp] theorem Dev.setGroups_vin (d : Dev) (gs : List Group) : (d.setGroups gs).vin = d.vin := rfl
@[simp] theorem Dev.setGroups_gpu (d : Dev) (gs : List Group) : (d.setGroups gs).gpu = d.gpu := rfl
@[simp] theorem Dev.setGroups_mbx (d : Dev) (gs : List Group) : (d.setGroups gs).mbx = d.mbx := rfl
@[simp] theorem Dev.setGroups_tch (d : Dev) (gs : List Group) : (d.setGroups gs).tch = d.tch := rfl
@[simp] theorem Dev.setGroups_hap (d : Dev) (gs : List Group) : (d.setGroups gs).hap = d.hap := rfl
@[simp] theorem Dev.setGroups_aud (d : Dev) (gs : List Group) : (d.setGroups gs).aud = d.aud := rfl
@[simp] theorem Dev.setGroups_pmc (d : Dev) (gs : List Group) : (d.setGroups gs).pmc = d.pmc := rfl
@[simp] theorem Dev.setGroups_part (d : Dev) (gs : List Group) : (d.setGroups gs).part = d.part := rfl
@[simp] theorem Dev.setGroups_pwr (d : Dev) (gs : List Group) : (d.setGroups gs).pwr = d.pwr := rfl
@[simp] theorem Dev.setGroups_free (d : Dev) (gs : List Group) : (d.setGroups gs).free = d.free := rfl
@[simp] theorem Dev.setGroups_outbox (d : Dev) (gs : List Group) : (d.setGroups gs).outbox = d.outbox := rfl
@[simp] theorem Dev.setGroups_reg (d : Dev) (gs : List Group) (r' : Reg) (j : Nat) : (d.setGroups gs).reg r' j = d.reg r' j := rfl
@[simp] theorem Dev.setGroups_f (d : Dev) (gs : List Group) (F' : Fld) (j : Nat) : (d.setGroups gs).f F' j = d.f F' j := rfl
@[simp] theorem Dev.setGroups_fb (d : Dev) (gs : List Group) (F' : Fld) (j : Nat) : (d.setGroups gs).fb F' j = d.fb F' j := rfl
@[simp] theorem Dev.setGroups_regsWf (d : Dev) (gs : List Group) : (d.setGroups gs).regsWf = d.regsWf := rfl
@[simp] theorem Dev.setGroups_fl (d : Dev) (gs : List Group) (F' : Fld) (j : Nat) : (d.setGroups gs).fl F' j = d.fl F' j := rfl
@[simp] theorem Dev.setGroups_now (d : Dev) (gs : List Group) : (d.setGroups gs).now = d.now := rfl

@[simp] theorem Dev.setCvu_regs (d : Dev) (u : Nat) (v : Option Nat) : (d.setCvu u v).regs = d.regs := rfl
@[simp] theorem Dev.setCvu_live (d : Dev) (u : Nat) (v : Option Nat) : (d.setCvu u v).live = d.live := rfl
@[simp] theorem Dev.setCvu_time (d : Dev) (u : Nat) (v : Option Nat) : (d.setCvu u v).time = d.time := rfl
@[simp] theorem Dev.setCvu_pace (d : Dev) (u : Nat) (v : Option Nat) : (d.setCvu u v).pace = d.pace := rfl
@[simp] theorem Dev.setCvu_msys (d : Dev) (u : Nat) (v : Option Nat) : (d.setCvu u v).msys = d.msys := rfl
@[simp] theorem Dev.setCvu_own (d : Dev) (u : Nat) (v : Option Nat) : (d.setCvu u v).own = d.own := rfl
@[simp] theorem Dev.setCvu_hrq (d : Dev) (u : Nat) (v : Option Nat) : (d.setCvu u v).hrq = d.hrq := rfl
@[simp] theorem Dev.setCvu_ports (d : Dev) (u : Nat) (v : Option Nat) : (d.setCvu u v).ports = d.ports := rfl
@[simp] theorem Dev.setCvu_busMaster (d : Dev) (u : Nat) (v : Option Nat) : (d.setCvu u v).busMaster = d.busMaster := rfl
@[simp] theorem Dev.setCvu_notD0 (d : Dev) (u : Nat) (v : Option Nat) : (d.setCvu u v).notD0 = d.notD0 := rfl
@[simp] theorem Dev.setCvu_pci (d : Dev) (u : Nat) (v : Option Nat) : (d.setCvu u v).pci = d.pci := rfl
@[simp] theorem Dev.setCvu_mgt (d : Dev) (u : Nat) (v : Option Nat) : (d.setCvu u v).mgt = d.mgt := rfl
@[simp] theorem Dev.setCvu_disp (d : Dev) (u : Nat) (v : Option Nat) : (d.setCvu u v).disp = d.disp := rfl
@[simp] theorem Dev.setCvu_vin (d : Dev) (u : Nat) (v : Option Nat) : (d.setCvu u v).vin = d.vin := rfl
@[simp] theorem Dev.setCvu_gpu (d : Dev) (u : Nat) (v : Option Nat) : (d.setCvu u v).gpu = d.gpu := rfl
@[simp] theorem Dev.setCvu_tch (d : Dev) (u : Nat) (v : Option Nat) : (d.setCvu u v).tch = d.tch := rfl
@[simp] theorem Dev.setCvu_hap (d : Dev) (u : Nat) (v : Option Nat) : (d.setCvu u v).hap = d.hap := rfl
@[simp] theorem Dev.setCvu_aud (d : Dev) (u : Nat) (v : Option Nat) : (d.setCvu u v).aud = d.aud := rfl
@[simp] theorem Dev.setCvu_pmc (d : Dev) (u : Nat) (v : Option Nat) : (d.setCvu u v).pmc = d.pmc := rfl
@[simp] theorem Dev.setCvu_part (d : Dev) (u : Nat) (v : Option Nat) : (d.setCvu u v).part = d.part := rfl
@[simp] theorem Dev.setCvu_pwr (d : Dev) (u : Nat) (v : Option Nat) : (d.setCvu u v).pwr = d.pwr := rfl
@[simp] theorem Dev.setCvu_free (d : Dev) (u : Nat) (v : Option Nat) : (d.setCvu u v).free = d.free := rfl
@[simp] theorem Dev.setCvu_outbox (d : Dev) (u : Nat) (v : Option Nat) : (d.setCvu u v).outbox = d.outbox := rfl
@[simp] theorem Dev.setCvu_reg (d : Dev) (u : Nat) (v : Option Nat) (r' : Reg) (j : Nat) : (d.setCvu u v).reg r' j = d.reg r' j := rfl
@[simp] theorem Dev.setCvu_f (d : Dev) (u : Nat) (v : Option Nat) (F' : Fld) (j : Nat) : (d.setCvu u v).f F' j = d.f F' j := rfl
@[simp] theorem Dev.setCvu_fb (d : Dev) (u : Nat) (v : Option Nat) (F' : Fld) (j : Nat) : (d.setCvu u v).fb F' j = d.fb F' j := rfl
@[simp] theorem Dev.setCvu_regsWf (d : Dev) (u : Nat) (v : Option Nat) : (d.setCvu u v).regsWf = d.regsWf := rfl
@[simp] theorem Dev.setCvu_fl (d : Dev) (u : Nat) (v : Option Nat) (F' : Fld) (j : Nat) : (d.setCvu u v).fl F' j = d.fl F' j := rfl
@[simp] theorem Dev.setCvu_now (d : Dev) (u : Nat) (v : Option Nat) : (d.setCvu u v).now = d.now := rfl

@[simp] theorem Dev.updEnd_regs (d : Dev) (c e : Nat) (g : MbxEnd → MbxEnd) : (d.updEnd c e g).regs = d.regs := rfl
@[simp] theorem Dev.updEnd_live (d : Dev) (c e : Nat) (g : MbxEnd → MbxEnd) : (d.updEnd c e g).live = d.live := rfl
@[simp] theorem Dev.updEnd_time (d : Dev) (c e : Nat) (g : MbxEnd → MbxEnd) : (d.updEnd c e g).time = d.time := rfl
@[simp] theorem Dev.updEnd_pace (d : Dev) (c e : Nat) (g : MbxEnd → MbxEnd) : (d.updEnd c e g).pace = d.pace := rfl
@[simp] theorem Dev.updEnd_msys (d : Dev) (c e : Nat) (g : MbxEnd → MbxEnd) : (d.updEnd c e g).msys = d.msys := rfl
@[simp] theorem Dev.updEnd_own (d : Dev) (c e : Nat) (g : MbxEnd → MbxEnd) : (d.updEnd c e g).own = d.own := rfl
@[simp] theorem Dev.updEnd_hrq (d : Dev) (c e : Nat) (g : MbxEnd → MbxEnd) : (d.updEnd c e g).hrq = d.hrq := rfl
@[simp] theorem Dev.updEnd_ports (d : Dev) (c e : Nat) (g : MbxEnd → MbxEnd) : (d.updEnd c e g).ports = d.ports := rfl
@[simp] theorem Dev.updEnd_busMaster (d : Dev) (c e : Nat) (g : MbxEnd → MbxEnd) : (d.updEnd c e g).busMaster = d.busMaster := rfl
@[simp] theorem Dev.updEnd_notD0 (d : Dev) (c e : Nat) (g : MbxEnd → MbxEnd) : (d.updEnd c e g).notD0 = d.notD0 := rfl
@[simp] theorem Dev.updEnd_pci (d : Dev) (c e : Nat) (g : MbxEnd → MbxEnd) : (d.updEnd c e g).pci = d.pci := rfl
@[simp] theorem Dev.updEnd_mgt (d : Dev) (c e : Nat) (g : MbxEnd → MbxEnd) : (d.updEnd c e g).mgt = d.mgt := rfl
@[simp] theorem Dev.updEnd_disp (d : Dev) (c e : Nat) (g : MbxEnd → MbxEnd) : (d.updEnd c e g).disp = d.disp := rfl
@[simp] theorem Dev.updEnd_vin (d : Dev) (c e : Nat) (g : MbxEnd → MbxEnd) : (d.updEnd c e g).vin = d.vin := rfl
@[simp] theorem Dev.updEnd_gpu (d : Dev) (c e : Nat) (g : MbxEnd → MbxEnd) : (d.updEnd c e g).gpu = d.gpu := rfl
@[simp] theorem Dev.updEnd_tch (d : Dev) (c e : Nat) (g : MbxEnd → MbxEnd) : (d.updEnd c e g).tch = d.tch := rfl
@[simp] theorem Dev.updEnd_hap (d : Dev) (c e : Nat) (g : MbxEnd → MbxEnd) : (d.updEnd c e g).hap = d.hap := rfl
@[simp] theorem Dev.updEnd_aud (d : Dev) (c e : Nat) (g : MbxEnd → MbxEnd) : (d.updEnd c e g).aud = d.aud := rfl
@[simp] theorem Dev.updEnd_pmc (d : Dev) (c e : Nat) (g : MbxEnd → MbxEnd) : (d.updEnd c e g).pmc = d.pmc := rfl
@[simp] theorem Dev.updEnd_part (d : Dev) (c e : Nat) (g : MbxEnd → MbxEnd) : (d.updEnd c e g).part = d.part := rfl
@[simp] theorem Dev.updEnd_pwr (d : Dev) (c e : Nat) (g : MbxEnd → MbxEnd) : (d.updEnd c e g).pwr = d.pwr := rfl
@[simp] theorem Dev.updEnd_free (d : Dev) (c e : Nat) (g : MbxEnd → MbxEnd) : (d.updEnd c e g).free = d.free := rfl
@[simp] theorem Dev.updEnd_outbox (d : Dev) (c e : Nat) (g : MbxEnd → MbxEnd) : (d.updEnd c e g).outbox = d.outbox := rfl
@[simp] theorem Dev.updEnd_reg (d : Dev) (c e : Nat) (g : MbxEnd → MbxEnd) (r' : Reg) (j : Nat) : (d.updEnd c e g).reg r' j = d.reg r' j := rfl
@[simp] theorem Dev.updEnd_f (d : Dev) (c e : Nat) (g : MbxEnd → MbxEnd) (F' : Fld) (j : Nat) : (d.updEnd c e g).f F' j = d.f F' j := rfl
@[simp] theorem Dev.updEnd_fb (d : Dev) (c e : Nat) (g : MbxEnd → MbxEnd) (F' : Fld) (j : Nat) : (d.updEnd c e g).fb F' j = d.fb F' j := rfl
@[simp] theorem Dev.updEnd_regsWf (d : Dev) (c e : Nat) (g : MbxEnd → MbxEnd) : (d.updEnd c e g).regsWf = d.regsWf := rfl
@[simp] theorem Dev.updEnd_fl (d : Dev) (c e : Nat) (g : MbxEnd → MbxEnd) (F' : Fld) (j : Nat) : (d.updEnd c e g).fl F' j = d.fl F' j := rfl
@[simp] theorem Dev.updEnd_now (d : Dev) (c e : Nat) (g : MbxEnd → MbxEnd) : (d.updEnd c e g).now = d.now := rfl

@[simp] theorem Dev.setSlot_regs (d : Dev) (c e k : Nat) (x : MbxSlot) : (d.setSlot c e k x).regs = d.regs := rfl
@[simp] theorem Dev.setSlot_live (d : Dev) (c e k : Nat) (x : MbxSlot) : (d.setSlot c e k x).live = d.live := rfl
@[simp] theorem Dev.setSlot_time (d : Dev) (c e k : Nat) (x : MbxSlot) : (d.setSlot c e k x).time = d.time := rfl
@[simp] theorem Dev.setSlot_pace (d : Dev) (c e k : Nat) (x : MbxSlot) : (d.setSlot c e k x).pace = d.pace := rfl
@[simp] theorem Dev.setSlot_msys (d : Dev) (c e k : Nat) (x : MbxSlot) : (d.setSlot c e k x).msys = d.msys := rfl
@[simp] theorem Dev.setSlot_own (d : Dev) (c e k : Nat) (x : MbxSlot) : (d.setSlot c e k x).own = d.own := rfl
@[simp] theorem Dev.setSlot_hrq (d : Dev) (c e k : Nat) (x : MbxSlot) : (d.setSlot c e k x).hrq = d.hrq := rfl
@[simp] theorem Dev.setSlot_ports (d : Dev) (c e k : Nat) (x : MbxSlot) : (d.setSlot c e k x).ports = d.ports := rfl
@[simp] theorem Dev.setSlot_busMaster (d : Dev) (c e k : Nat) (x : MbxSlot) : (d.setSlot c e k x).busMaster = d.busMaster := rfl
@[simp] theorem Dev.setSlot_notD0 (d : Dev) (c e k : Nat) (x : MbxSlot) : (d.setSlot c e k x).notD0 = d.notD0 := rfl
@[simp] theorem Dev.setSlot_pci (d : Dev) (c e k : Nat) (x : MbxSlot) : (d.setSlot c e k x).pci = d.pci := rfl
@[simp] theorem Dev.setSlot_mgt (d : Dev) (c e k : Nat) (x : MbxSlot) : (d.setSlot c e k x).mgt = d.mgt := rfl
@[simp] theorem Dev.setSlot_disp (d : Dev) (c e k : Nat) (x : MbxSlot) : (d.setSlot c e k x).disp = d.disp := rfl
@[simp] theorem Dev.setSlot_vin (d : Dev) (c e k : Nat) (x : MbxSlot) : (d.setSlot c e k x).vin = d.vin := rfl
@[simp] theorem Dev.setSlot_gpu (d : Dev) (c e k : Nat) (x : MbxSlot) : (d.setSlot c e k x).gpu = d.gpu := rfl
@[simp] theorem Dev.setSlot_tch (d : Dev) (c e k : Nat) (x : MbxSlot) : (d.setSlot c e k x).tch = d.tch := rfl
@[simp] theorem Dev.setSlot_hap (d : Dev) (c e k : Nat) (x : MbxSlot) : (d.setSlot c e k x).hap = d.hap := rfl
@[simp] theorem Dev.setSlot_aud (d : Dev) (c e k : Nat) (x : MbxSlot) : (d.setSlot c e k x).aud = d.aud := rfl
@[simp] theorem Dev.setSlot_pmc (d : Dev) (c e k : Nat) (x : MbxSlot) : (d.setSlot c e k x).pmc = d.pmc := rfl
@[simp] theorem Dev.setSlot_part (d : Dev) (c e k : Nat) (x : MbxSlot) : (d.setSlot c e k x).part = d.part := rfl
@[simp] theorem Dev.setSlot_pwr (d : Dev) (c e k : Nat) (x : MbxSlot) : (d.setSlot c e k x).pwr = d.pwr := rfl
@[simp] theorem Dev.setSlot_free (d : Dev) (c e k : Nat) (x : MbxSlot) : (d.setSlot c e k x).free = d.free := rfl
@[simp] theorem Dev.setSlot_outbox (d : Dev) (c e k : Nat) (x : MbxSlot) : (d.setSlot c e k x).outbox = d.outbox := rfl
@[simp] theorem Dev.setSlot_reg (d : Dev) (c e k : Nat) (x : MbxSlot) (r' : Reg) (j : Nat) : (d.setSlot c e k x).reg r' j = d.reg r' j := rfl
@[simp] theorem Dev.setSlot_f (d : Dev) (c e k : Nat) (x : MbxSlot) (F' : Fld) (j : Nat) : (d.setSlot c e k x).f F' j = d.f F' j := rfl
@[simp] theorem Dev.setSlot_fb (d : Dev) (c e k : Nat) (x : MbxSlot) (F' : Fld) (j : Nat) : (d.setSlot c e k x).fb F' j = d.fb F' j := rfl
@[simp] theorem Dev.setSlot_regsWf (d : Dev) (c e k : Nat) (x : MbxSlot) : (d.setSlot c e k x).regsWf = d.regsWf := rfl
@[simp] theorem Dev.setSlot_fl (d : Dev) (c e k : Nat) (x : MbxSlot) (F' : Fld) (j : Nat) : (d.setSlot c e k x).fl F' j = d.fl F' j := rfl
@[simp] theorem Dev.setSlot_now (d : Dev) (c e k : Nat) (x : MbxSlot) : (d.setSlot c e k x).now = d.now := rfl

@[simp] theorem Dev.updChan_regs (d : Dev) (x : Nat) (g : CpChan → CpChan) : (d.updChan x g).regs = d.regs := rfl
@[simp] theorem Dev.updChan_live (d : Dev) (x : Nat) (g : CpChan → CpChan) : (d.updChan x g).live = d.live := rfl
@[simp] theorem Dev.updChan_time (d : Dev) (x : Nat) (g : CpChan → CpChan) : (d.updChan x g).time = d.time := rfl
@[simp] theorem Dev.updChan_pace (d : Dev) (x : Nat) (g : CpChan → CpChan) : (d.updChan x g).pace = d.pace := rfl
@[simp] theorem Dev.updChan_msys (d : Dev) (x : Nat) (g : CpChan → CpChan) : (d.updChan x g).msys = d.msys := rfl
@[simp] theorem Dev.updChan_own (d : Dev) (x : Nat) (g : CpChan → CpChan) : (d.updChan x g).own = d.own := rfl
@[simp] theorem Dev.updChan_hrq (d : Dev) (x : Nat) (g : CpChan → CpChan) : (d.updChan x g).hrq = d.hrq := rfl
@[simp] theorem Dev.updChan_ports (d : Dev) (x : Nat) (g : CpChan → CpChan) : (d.updChan x g).ports = d.ports := rfl
@[simp] theorem Dev.updChan_busMaster (d : Dev) (x : Nat) (g : CpChan → CpChan) : (d.updChan x g).busMaster = d.busMaster := rfl
@[simp] theorem Dev.updChan_notD0 (d : Dev) (x : Nat) (g : CpChan → CpChan) : (d.updChan x g).notD0 = d.notD0 := rfl
@[simp] theorem Dev.updChan_pci (d : Dev) (x : Nat) (g : CpChan → CpChan) : (d.updChan x g).pci = d.pci := rfl
@[simp] theorem Dev.updChan_mgt (d : Dev) (x : Nat) (g : CpChan → CpChan) : (d.updChan x g).mgt = d.mgt := rfl
@[simp] theorem Dev.updChan_disp (d : Dev) (x : Nat) (g : CpChan → CpChan) : (d.updChan x g).disp = d.disp := rfl
@[simp] theorem Dev.updChan_vin (d : Dev) (x : Nat) (g : CpChan → CpChan) : (d.updChan x g).vin = d.vin := rfl
@[simp] theorem Dev.updChan_mbx (d : Dev) (x : Nat) (g : CpChan → CpChan) : (d.updChan x g).mbx = d.mbx := rfl
@[simp] theorem Dev.updChan_tch (d : Dev) (x : Nat) (g : CpChan → CpChan) : (d.updChan x g).tch = d.tch := rfl
@[simp] theorem Dev.updChan_hap (d : Dev) (x : Nat) (g : CpChan → CpChan) : (d.updChan x g).hap = d.hap := rfl
@[simp] theorem Dev.updChan_aud (d : Dev) (x : Nat) (g : CpChan → CpChan) : (d.updChan x g).aud = d.aud := rfl
@[simp] theorem Dev.updChan_pmc (d : Dev) (x : Nat) (g : CpChan → CpChan) : (d.updChan x g).pmc = d.pmc := rfl
@[simp] theorem Dev.updChan_part (d : Dev) (x : Nat) (g : CpChan → CpChan) : (d.updChan x g).part = d.part := rfl
@[simp] theorem Dev.updChan_pwr (d : Dev) (x : Nat) (g : CpChan → CpChan) : (d.updChan x g).pwr = d.pwr := rfl
@[simp] theorem Dev.updChan_free (d : Dev) (x : Nat) (g : CpChan → CpChan) : (d.updChan x g).free = d.free := rfl
@[simp] theorem Dev.updChan_outbox (d : Dev) (x : Nat) (g : CpChan → CpChan) : (d.updChan x g).outbox = d.outbox := rfl
@[simp] theorem Dev.updChan_reg (d : Dev) (x : Nat) (g : CpChan → CpChan) (r' : Reg) (j : Nat) : (d.updChan x g).reg r' j = d.reg r' j := rfl
@[simp] theorem Dev.updChan_f (d : Dev) (x : Nat) (g : CpChan → CpChan) (F' : Fld) (j : Nat) : (d.updChan x g).f F' j = d.f F' j := rfl
@[simp] theorem Dev.updChan_fb (d : Dev) (x : Nat) (g : CpChan → CpChan) (F' : Fld) (j : Nat) : (d.updChan x g).fb F' j = d.fb F' j := rfl
@[simp] theorem Dev.updChan_regsWf (d : Dev) (x : Nat) (g : CpChan → CpChan) : (d.updChan x g).regsWf = d.regsWf := rfl
@[simp] theorem Dev.updChan_fl (d : Dev) (x : Nat) (g : CpChan → CpChan) (F' : Fld) (j : Nat) : (d.updChan x g).fl F' j = d.fl F' j := rfl
@[simp] theorem Dev.updChan_now (d : Dev) (x : Nat) (g : CpChan → CpChan) : (d.updChan x g).now = d.now := rfl

end Sys2Proof.Machine
end

