-- ==== Sys2Proof/Laws/Reports.lean ====
section
/-! SUPPORT. What telling of something changes: events, messages, log entries and performance counters leave everything but themselves. -/

namespace Sys2Proof.Machine

/-- The registers in which events, messages, the log and the counters are held. -/
def Reg.tells : Reg → Bool
  | .HRQ_EV_PEND | .HRQ_MSIX_PBA | .PMC_CNT | .PMC_OVF_LO | .PMC_OVF_HI | .MGT_LOG_NEWEST | .MGT_LOG_LOST => true
  | _ => false

/-- From `d` to `e` only events, messages, log entries and counters have come. -/
structure Reports (d e : Dev) : Prop where
  live : e.live = d.live
  time : e.time = d.time
  pace : e.pace = d.pace
  msys : e.msys = d.msys
  own : e.own = d.own
  hrq : e.hrq = d.hrq
  ports : e.ports = d.ports
  busMaster : e.busMaster = d.busMaster
  notD0 : e.notD0 = d.notD0
  pci : e.pci = d.pci
  mgt : { e.mgt with log := d.mgt.log, nextSeq := d.mgt.nextSeq, logFifo := d.mgt.logFifo } = d.mgt
  disp : e.disp = d.disp
  vin : e.vin = d.vin
  gpu : e.gpu = d.gpu
  mbx : e.mbx = d.mbx
  tch : e.tch = d.tch
  hap : e.hap = d.hap
  aud : e.aud = d.aud
  part : e.part = d.part
  pwr : e.pwr = d.pwr
  reg : ∀ r i, r.tells = false → e.reg r i = d.reg r i
  wf : d.regsWf = true → e.regsWf = true

theorem Reports.refl (d : Dev) : Reports d d := by
  constructor <;> first | rfl | (intros; first | rfl | assumption)

theorem Reports.trans {a b c : Dev} (h : Reports a b) (k : Reports b c) : Reports a c := by
  obtain ⟨h1, h2, h3, h4, h5, h6, h7, h8, h9, h10, h11, h12, h13, h14, h15, h16, h17, h18, h19, h20, h21, h22⟩ := h
  obtain ⟨k1, k2, k3, k4, k5, k6, k7, k8, k9, k10, k11, k12, k13, k14, k15, k16, k17, k18, k19, k20, k21, k22⟩ := k
  refine ⟨k1.trans h1, k2.trans h2, k3.trans h3, k4.trans h4, k5.trans h5, k6.trans h6, k7.trans h7, k8.trans h8, k9.trans h9, k10.trans h10, ?_, k12.trans h12,
    k13.trans h13, k14.trans h14, k15.trans h15, k16.trans h16, k17.trans h17, k18.trans h18, k19.trans h19, k20.trans h20,
    fun r i hr => (k21 r i hr).trans (h21 r i hr), fun hw => k22 (h22 hw)⟩
  rw [← h11]
  rw [← h11] at h11
  have := congrArg (fun m : MgtSt => { m with log := a.mgt.log, nextSeq := a.mgt.nextSeq, logFifo := a.mgt.logFifo }) k11
  simp only at this
  exact this

/-- A field of a register that tells nothing is left. -/
theorem Reports.f {d e : Dev} (h : Reports d e) (F : Fld) (i : Nat) (hF : F.reg.tells = false) : e.f F i = d.f F i := by
  unfold Dev.f
  rw [h.reg _ _ hF]

theorem Reports.fb {d e : Dev} (h : Reports d e) (F : Fld) (i : Nat) (hF : F.reg.tells = false) : e.fb F i = d.fb F i := by
  unfold Dev.fb
  rw [h.f F i hF]

theorem Reports.fl {d e : Dev} (h : Reports d e) (F : Fld) (i : Nat) : e.fl F i = d.fl F i := by
  unfold Dev.fl Dev.liveReg
  rw [h.live]

theorem Reports.now {d e : Dev} (h : Reports d e) : e.now = d.now := by
  unfold Dev.now
  rw [h.time]

/-- Acholt's journal and its flash are left. -/
theorem Reports.mgtPart {d e : Dev} (h : Reports d e) {α : Type} (g : MgtSt → α)
    (hg : ∀ (m : MgtSt) l n f, g { m with log := l, nextSeq := n, logFifo := f } = g m) : g e.mgt = g d.mgt := by
  have := congrArg g h.mgt
  rwa [hg] at this

theorem Reports.setReg (d : Dev) (r : Reg) (i : Nat) (v : Word) (hr : r.tells = true) : Reports d (d.setReg r i v) := by
  constructor <;> first
    | rfl
    | exact fun r' j hr' => Dev.reg_setReg_ne _ _ (fun e => by simp [e.1, hr] at hr')
    | exact Dev.regsWf_setReg _ _ _ _

theorem Reports.setF (d : Dev) (F : Fld) (i n : Nat) (hr : F.reg.tells = true) : Reports d (d.setF F i n) := Reports.setReg _ _ _ _ hr

theorem Reports.emit (d : Dev) (o : Out) : Reports d (d.emit o) := by
  constructor <;> first | rfl | (intros; first | rfl | assumption)

theorem Reports.sendMsix (d : Dev) (f : Fn) (v : Nat) : Reports d (d.sendMsix f v) := by
  unfold Dev.sendMsix
  split
  · dsimp only
    split
    · exact Reports.setReg _ _ _ _ rfl
    · exact Reports.emit _ _
  · exact Reports.refl _

/-- Raising an event. -/
theorem Reports.raise (d : Dev) (k : Nat) : Reports d (d.raise k) := by
  unfold Dev.raise
  dsimp only
  have h1 : Reports d (d.setReg .HRQ_EV_PEND (k / 32) (d.reg .HRQ_EV_PEND (k / 32) ||| BitVec.ofNat 32 (2 ^ (k % 32)))) := Reports.setReg _ _ _ _ rfl
  generalize d.setReg .HRQ_EV_PEND (k / 32) (d.reg .HRQ_EV_PEND (k / 32) ||| BitVec.ofNat 32 (2 ^ (k % 32))) = d1 at *
  have h2 : Reports d (if d1.fb HRQ_EV_ROUTE.ACHOLT k = true then d1.emit (.acholt k) else d1) := by
    split
    · exact h1.trans (Reports.emit _ _)
    · exact h1
  generalize (if d1.fb HRQ_EV_ROUTE.ACHOLT k = true then d1.emit (.acholt k) else d1) = d2 at *
  split
  · split
    · exact h2.trans (Reports.sendMsix _ _ _)
    · exact h2
  · exact h2

theorem Reports.raiseIf (d : Dev) (c : Bool) (k : Nat) : Reports d (d.raiseIf c k) := by
  unfold Dev.raiseIf
  split
  · exact Reports.raise _ _
  · exact Reports.refl _

theorem Reports.foldl {α : Type} (g : Dev → α → Dev) (hg : ∀ d a, Reports d (g d a)) (l : List α) (d : Dev) : Reports d (l.foldl g d) := by
  induction l generalizing d with
  | nil => exact Reports.refl _
  | cons a t ih => exact (hg d a).trans (ih _)

theorem Reports.pmcFreeze (d : Dev) (g : Nat) : Reports d (d.pmcFreeze g) := by
  constructor <;> first | rfl | (intros; first | rfl | assumption)

theorem Reports.setFlag64 (d : Dev) (lo hi : Reg) (i : Nat) (hl : lo.tells = true) (hh : hi.tells = true) : Reports d (d.setFlag64 lo hi i) := by
  unfold Dev.setFlag64
  split
  · exact Reports.setReg _ _ _ _ hl
  · exact Reports.setReg _ _ _ _ hh

theorem Reports.pmcWrap (d : Dev) (i w : Nat) : Reports d (d.pmcWrap i w) := by
  unfold Dev.pmcWrap
  split
  · exact Reports.refl _
  · split
    · exact Reports.setReg _ _ _ _ rfl
    · exact (Reports.setFlag64 _ _ _ _ rfl rfl).trans (Reports.raiseIf _ _ _)

theorem Reports.pmcAdd (d : Dev) (i n : Nat) : Reports d (d.pmcAdd i n) := (Reports.setReg _ _ _ _ rfl).trans (Reports.pmcWrap _ _ _)

theorem Reports.pmcHit (d : Dev) (ev inst code : Nat) (sec : Bool) (n : Nat) : Reports d (d.pmcHit ev inst code sec n) := by
  unfold Dev.pmcHit
  split
  · exact Reports.refl _
  · refine Reports.foldl _ (fun d i => ?_) _ _
    split
    · split
      · exact Reports.pmcFreeze _ _
      · split
        · exact Reports.refl _
        · exact Reports.pmcAdd _ _ _
    · exact Reports.refl _

theorem Reports.pmcLatency (d : Dev) (ev inst code : Nat) (sec : Bool) (t : Nat) : Reports d (d.pmcLatency ev inst code sec t) := by
  unfold Dev.pmcLatency
  refine Reports.foldl _ (fun d i => ?_) _ _
  split
  · split
    · exact Reports.pmcFreeze _ _
    · split
      · exact Reports.refl _
      · exact Reports.setF _ _ _ _ rfl
  · exact Reports.refl _

theorem Reports.pmcDispatch (d : Dev) (f : Fn) (q : Fin 8) (c : Cmd) : Reports d (d.pmcDispatch f q c) :=
  (Reports.pmcHit _ _ _ _ _ _).trans (Reports.pmcLatency _ _ _ _ _ _)

theorem Reports.pmcPixels (d : Dev) (ev inst code : Nat) (sec : Bool) (n : Nat) : Reports d (d.pmcPixels ev inst code sec n) := by
  refine Reports.trans ?_ (Reports.pmcHit _ _ _ _ _ _)
  constructor <;> first | rfl | (intros; first | rfl | assumption)

theorem Reports.pmcPort (d : Dev) (f : Fn) (out : Bool) (n : Nat) : Reports d (d.pmcPort f out n) := by
  unfold Dev.pmcPort
  split
  · exact Reports.pmcHit _ _ _ _ _ _
  · exact Reports.refl _

theorem Reports.postOne (d : Dev) (f : Fn) (a : Nat) (bs : List Byte) (ns : Bool) : Reports d (d.postOne f a bs ns) :=
  (Reports.emit _ _).trans (Reports.pmcPort _ _ _ _)

/-- Posted writes. -/
theorem Reports.post (d : Dev) (f : Fn) (a : Nat) (bs : List Byte) (ns : Bool) : Reports d (d.post f a bs ns) := by
  unfold Dev.post
  dsimp only
  split
  · exact Reports.postOne _ _ _ _ _
  · exact Reports.foldl _ (fun d j => Reports.postOne _ _ _ _ _) _ _

theorem Reports.pmcStall (d : Dev) (b : Nat) (ms : List Rival) : Reports d (d.pmcStall b ms) := by
  unfold Dev.pmcStall
  refine Reports.foldl _ (fun d i => ?_) _ _
  repeat' split
  · exact Reports.refl _
  · exact Reports.pmcAdd _ _ _
  · exact Reports.pmcFreeze _ _
  · exact Reports.refl _

theorem Reports.pmcLines (d : Dev) (r : Req) (a n : Nat) : Reports d (d.pmcLines r a n) := by
  unfold Dev.pmcLines
  refine Reports.foldl _ (fun d i => ?_) _ _
  dsimp only
  split
  · exact Reports.refl _
  · split <;> exact Reports.pmcHit _ _ _ _ _ _

theorem Reports.free1 (d : Dev) : Reports d d.free1.2 := by
  constructor <;> first | rfl | (intros; first | rfl | assumption)

theorem Reports.calSub (d : Dev) : Reports d d.calSub.2 := by
  unfold Dev.calSub
  split
  · exact Reports.free1 _
  · exact Reports.refl _

theorem Reports.logPut (d : Dev) (e : LogEntry) : Reports d (d.logPut e) := by
  refine Reports.trans (b := { d with mgt := { d.mgt with
    log := ({ e with seq := d.mgt.nextSeq % 2 ^ 32 } :: d.mgt.log).take 2048, nextSeq := d.mgt.nextSeq + 1 } }) ?_ (Reports.setReg _ _ _ _ rfl)
  constructor <;> first | rfl | (intros; first | rfl | assumption)

/-- A log entry. -/
theorem Reports.log (d : Dev) (type severity source : Nat) (data : List Byte) : Reports d (d.log type severity source data) := by
  unfold Dev.log
  dsimp only
  refine (Reports.calSub d).trans ?_
  split
  · exact Reports.logPut _ _
  · split
    · constructor <;> first | rfl | (intros; first | rfl | assumption)
    · exact Reports.setF _ _ _ _ rfl

/-! Pending events. -/

theorem bit_or_self (v : Word) (k : Nat) (h : k < 32) : bit (v ||| BitVec.ofNat 32 (2 ^ k)).toNat k = true := by
  unfold bit
  have e : (v ||| BitVec.ofNat 32 (2 ^ k)).toNat.testBit k = true := by
    rw [BitVec.toNat_or, Nat.testBit_or, BitVec.toNat_ofNat, Nat.mod_eq_of_lt (Nat.pow_lt_pow_right (by decide) h), Nat.testBit_two_pow_self]
    simp
  rw [Nat.testBit_eq_decide_div_mod_eq] at e
  simpa using e

/-- An event that was raised is pending. -/
theorem Dev.pend_raise (d : Dev) (k : Nat) (hw : d.regsWf = true) : (d.raise k).pend k = true := by
  have h32 : k % 32 < 32 := Nat.mod_lt _ (by decide)
  unfold Dev.raise
  dsimp only
  have h1 : bit ((d.setReg .HRQ_EV_PEND (k / 32) (d.reg .HRQ_EV_PEND (k / 32) ||| BitVec.ofNat 32 (2 ^ (k % 32)))).reg .HRQ_EV_PEND (k / 32)).toNat
      (k % 32) = true := by
    rw [Dev.reg_setReg_same _ _ _ _ hw]
    exact bit_or_self _ _ h32
  generalize d.setReg .HRQ_EV_PEND (k / 32) (d.reg .HRQ_EV_PEND (k / 32) ||| BitVec.ofNat 32 (2 ^ (k % 32))) = d1 at *
  have h2 : bit ((if d1.fb HRQ_EV_ROUTE.ACHOLT k = true then d1.emit (.acholt k) else d1).reg .HRQ_EV_PEND (k / 32)).toNat (k % 32) = true := by
    split <;> exact h1
  generalize (if d1.fb HRQ_EV_ROUTE.ACHOLT k = true then d1.emit (.acholt k) else d1) = d2 at *
  unfold Dev.pend
  split
  · split
    · unfold Dev.sendMsix
      split
      · dsimp only
        split
        · rw [Dev.reg_setReg_reg _ _ _ _ (by decide)]
          exact h2
        · exact h2
      · exact h2
    · exact h2
  · exact h2

/-! Each operation, field by field. -/

@[simp] theorem Dev.log_live (d : Dev) (a b c : Nat) (x : List Byte) : (d.log a b c x).live = d.live := (Reports.log d a b c x).live
@[simp] theorem Dev.log_time (d : Dev) (a b c : Nat) (x : List Byte) : (d.log a b c x).time = d.time := (Reports.log d a b c x).time
@[simp] theorem Dev.log_pace (d : Dev) (a b c : Nat) (x : List Byte) : (d.log a b c x).pace = d.pace := (Reports.log d a b c x).pace
@[simp] theorem Dev.log_msys (d : Dev) (a b c : Nat) (x : List Byte) : (d.log a b c x).msys = d.msys := (Reports.log d a b c x).msys
@[simp] theorem Dev.log_own (d : Dev) (a b c : Nat) (x : List Byte) : (d.log a b c x).own = d.own := (Reports.log d a b c x).own
@[simp] theorem Dev.log_hrq (d : Dev) (a b c : Nat) (x : List Byte) : (d.log a b c x).hrq = d.hrq := (Reports.log d a b c x).hrq
@[simp] theorem Dev.log_ports (d : Dev) (a b c : Nat) (x : List Byte) : (d.log a b c x).ports = d.ports := (Reports.log d a b c x).ports
@[simp] theorem Dev.log_busMaster (d : Dev) (a b c : Nat) (x : List Byte) : (d.log a b c x).busMaster = d.busMaster := (Reports.log d a b c x).busMaster
@[simp] theorem Dev.log_notD0 (d : Dev) (a b c : Nat) (x : List Byte) : (d.log a b c x).notD0 = d.notD0 := (Reports.log d a b c x).notD0
@[simp] theorem Dev.log_pci (d : Dev) (a b c : Nat) (x : List Byte) : (d.log a b c x).pci = d.pci := (Reports.log d a b c x).pci
@[simp] theorem Dev.log_disp (d : Dev) (a b c : Nat) (x : List Byte) : (d.log a b c x).disp = d.disp := (Reports.log d a b c x).disp
@[simp] theorem Dev.log_vin (d : Dev) (a b c : Nat) (x : List Byte) : (d.log a b c x).vin = d.vin := (Reports.log d a b c x).vin
@[simp] theorem Dev.log_gpu (d : Dev) (a b c : Nat) (x : List Byte) : (d.log a b c x).gpu = d.gpu := (Reports.log d a b c x).gpu
@[simp] theorem Dev.log_mbx (d : Dev) (a b c : Nat) (x : List Byte) : (d.log a b c x).mbx = d.mbx := (Reports.log d a b c x).mbx
@[simp] theorem Dev.log_tch (d : Dev) (a b c : Nat) (x : List Byte) : (d.log a b c x).tch = d.tch := (Reports.log d a b c x).tch
@[simp] theorem Dev.log_hap (d : Dev) (a b c : Nat) (x : List Byte) : (d.log a b c x).hap = d.hap := (Reports.log d a b c x).hap
@[simp] theorem Dev.log_aud (d : Dev) (a b c : Nat) (x : List Byte) : (d.log a b c x).aud = d.aud := (Reports.log d a b c x).aud
@[simp] theorem Dev.log_part (d : Dev) (a b c : Nat) (x : List Byte) : (d.log a b c x).part = d.part := (Reports.log d a b c x).part
@[simp] theorem Dev.log_pwr (d : Dev) (a b c : Nat) (x : List Byte) : (d.log a b c x).pwr = d.pwr := (Reports.log d a b c x).pwr
@[simp] theorem Dev.log_now (d : Dev) (a b c : Nat) (x : List Byte) : (d.log a b c x).now = d.now := (Reports.log d a b c x).now
@[simp] theorem Dev.log_fl (d : Dev) (a b c : Nat) (x : List Byte) (F : Fld) (j : Nat) : (d.log a b c x).fl F j = d.fl F j := (Reports.log d a b c x).fl F j
theorem Dev.log_reg (d : Dev) (a b c : Nat) (x : List Byte) (r' : Reg) (j : Nat) (h : r'.tells = false) : (d.log a b c x).reg r' j = d.reg r' j := (Reports.log d a b c x).reg r' j h
theorem Dev.log_f (d : Dev) (a b c : Nat) (x : List Byte) (F : Fld) (j : Nat) (h : F.reg.tells = false) : (d.log a b c x).f F j = d.f F j := (Reports.log d a b c x).f F j h
theorem Dev.log_fb (d : Dev) (a b c : Nat) (x : List Byte) (F : Fld) (j : Nat) (h : F.reg.tells = false) : (d.log a b c x).fb F j = d.fb F j := (Reports.log d a b c x).fb F j h
@[simp] theorem Dev.log_regsWf (d : Dev) (a b c : Nat) (x : List Byte) (h : d.regsWf = true) : (d.log a b c x).regsWf = true := (Reports.log d a b c x).wf h

@[simp] theorem Dev.raise_live (d : Dev) (k : Nat) : (d.raise k).live = d.live := (Reports.raise d k).live
@[simp] theorem Dev.raise_time (d : Dev) (k : Nat) : (d.raise k).time = d.time := (Reports.raise d k).time
@[simp] theorem Dev.raise_pace (d : Dev) (k : Nat) : (d.raise k).pace = d.pace := (Reports.raise d k).pace
@[simp] theorem Dev.raise_msys (d : Dev) (k : Nat) : (d.raise k).msys = d.msys := (Reports.raise d k).msys
@[simp] theorem Dev.raise_own (d : Dev) (k : Nat) : (d.raise k).own = d.own := (Reports.raise d k).own
@[simp] theorem Dev.raise_hrq (d : Dev) (k : Nat) : (d.raise k).hrq = d.hrq := (Reports.raise d k).hrq
@[simp] theorem Dev.raise_ports (d : Dev) (k : Nat) : (d.raise k).ports = d.ports := (Reports.raise d k).ports
@[simp] theorem Dev.raise_busMaster (d : Dev) (k : Nat) : (d.raise k).busMaster = d.busMaster := (Reports.raise d k).busMaster
@[simp] theorem Dev.raise_notD0 (d : Dev) (k : Nat) : (d.raise k).notD0 = d.notD0 := (Reports.raise d k).notD0
@[simp] theorem Dev.raise_pci (d : Dev) (k : Nat) : (d.raise k).pci = d.pci := (Reports.raise d k).pci
@[simp] theorem Dev.raise_disp (d : Dev) (k : Nat) : (d.raise k).disp = d.disp := (Reports.raise d k).disp
@[simp] theorem Dev.raise_vin (d : Dev) (k : Nat) : (d.raise k).vin = d.vin := (Reports.raise d k).vin
@[simp] theorem Dev.raise_gpu (d : Dev) (k : Nat) : (d.raise k).gpu = d.gpu := (Reports.raise d k).gpu
@[simp] theorem Dev.raise_mbx (d : Dev) (k : Nat) : (d.raise k).mbx = d.mbx := (Reports.raise d k).mbx
@[simp] theorem Dev.raise_tch (d : Dev) (k : Nat) : (d.raise k).tch = d.tch := (Reports.raise d k).tch
@[simp] theorem Dev.raise_hap (d : Dev) (k : Nat) : (d.raise k).hap = d.hap := (Reports.raise d k).hap
@[simp] theorem Dev.raise_aud (d : Dev) (k : Nat) : (d.raise k).aud = d.aud := (Reports.raise d k).aud
@[simp] theorem Dev.raise_part (d : Dev) (k : Nat) : (d.raise k).part = d.part := (Reports.raise d k).part
@[simp] theorem Dev.raise_pwr (d : Dev) (k : Nat) : (d.raise k).pwr = d.pwr := (Reports.raise d k).pwr
@[simp] theorem Dev.raise_now (d : Dev) (k : Nat) : (d.raise k).now = d.now := (Reports.raise d k).now
@[simp] theorem Dev.raise_fl (d : Dev) (k : Nat) (F : Fld) (j : Nat) : (d.raise k).fl F j = d.fl F j := (Reports.raise d k).fl F j
theorem Dev.raise_reg (d : Dev) (k : Nat) (r' : Reg) (j : Nat) (h : r'.tells = false) : (d.raise k).reg r' j = d.reg r' j := (Reports.raise d k).reg r' j h
theorem Dev.raise_f (d : Dev) (k : Nat) (F : Fld) (j : Nat) (h : F.reg.tells = false) : (d.raise k).f F j = d.f F j := (Reports.raise d k).f F j h
theorem Dev.raise_fb (d : Dev) (k : Nat) (F : Fld) (j : Nat) (h : F.reg.tells = false) : (d.raise k).fb F j = d.fb F j := (Reports.raise d k).fb F j h
@[simp] theorem Dev.raise_regsWf (d : Dev) (k : Nat) (h : d.regsWf = true) : (d.raise k).regsWf = true := (Reports.raise d k).wf h

@[simp] theorem Dev.raiseIf_live (d : Dev) (b : Bool) (k : Nat) : (d.raiseIf b k).live = d.live := (Reports.raiseIf d b k).live
@[simp] theorem Dev.raiseIf_time (d : Dev) (b : Bool) (k : Nat) : (d.raiseIf b k).time = d.time := (Reports.raiseIf d b k).time
@[simp] theorem Dev.raiseIf_pace (d : Dev) (b : Bool) (k : Nat) : (d.raiseIf b k).pace = d.pace := (Reports.raiseIf d b k).pace
@[simp] theorem Dev.raiseIf_msys (d : Dev) (b : Bool) (k : Nat) : (d.raiseIf b k).msys = d.msys := (Reports.raiseIf d b k).msys
@[simp] theorem Dev.raiseIf_own (d : Dev) (b : Bool) (k : Nat) : (d.raiseIf b k).own = d.own := (Reports.raiseIf d b k).own
@[simp] theorem Dev.raiseIf_hrq (d : Dev) (b : Bool) (k : Nat) : (d.raiseIf b k).hrq = d.hrq := (Reports.raiseIf d b k).hrq
@[simp] theorem Dev.raiseIf_ports (d : Dev) (b : Bool) (k : Nat) : (d.raiseIf b k).ports = d.ports := (Reports.raiseIf d b k).ports
@[simp] theorem Dev.raiseIf_busMaster (d : Dev) (b : Bool) (k : Nat) : (d.raiseIf b k).busMaster = d.busMaster := (Reports.raiseIf d b k).busMaster
@[simp] theorem Dev.raiseIf_notD0 (d : Dev) (b : Bool) (k : Nat) : (d.raiseIf b k).notD0 = d.notD0 := (Reports.raiseIf d b k).notD0
@[simp] theorem Dev.raiseIf_pci (d : Dev) (b : Bool) (k : Nat) : (d.raiseIf b k).pci = d.pci := (Reports.raiseIf d b k).pci
@[simp] theorem Dev.raiseIf_disp (d : Dev) (b : Bool) (k : Nat) : (d.raiseIf b k).disp = d.disp := (Reports.raiseIf d b k).disp
@[simp] theorem Dev.raiseIf_vin (d : Dev) (b : Bool) (k : Nat) : (d.raiseIf b k).vin = d.vin := (Reports.raiseIf d b k).vin
@[simp] theorem Dev.raiseIf_gpu (d : Dev) (b : Bool) (k : Nat) : (d.raiseIf b k).gpu = d.gpu := (Reports.raiseIf d b k).gpu
@[simp] theorem Dev.raiseIf_mbx (d : Dev) (b : Bool) (k : Nat) : (d.raiseIf b k).mbx = d.mbx := (Reports.raiseIf d b k).mbx
@[simp] theorem Dev.raiseIf_tch (d : Dev) (b : Bool) (k : Nat) : (d.raiseIf b k).tch = d.tch := (Reports.raiseIf d b k).tch
@[simp] theorem Dev.raiseIf_hap (d : Dev) (b : Bool) (k : Nat) : (d.raiseIf b k).hap = d.hap := (Reports.raiseIf d b k).hap
@[simp] theorem Dev.raiseIf_aud (d : Dev) (b : Bool) (k : Nat) : (d.raiseIf b k).aud = d.aud := (Reports.raiseIf d b k).aud
@[simp] theorem Dev.raiseIf_part (d : Dev) (b : Bool) (k : Nat) : (d.raiseIf b k).part = d.part := (Reports.raiseIf d b k).part
@[simp] theorem Dev.raiseIf_pwr (d : Dev) (b : Bool) (k : Nat) : (d.raiseIf b k).pwr = d.pwr := (Reports.raiseIf d b k).pwr
@[simp] theorem Dev.raiseIf_now (d : Dev) (b : Bool) (k : Nat) : (d.raiseIf b k).now = d.now := (Reports.raiseIf d b k).now
@[simp] theorem Dev.raiseIf_fl (d : Dev) (b : Bool) (k : Nat) (F : Fld) (j : Nat) : (d.raiseIf b k).fl F j = d.fl F j := (Reports.raiseIf d b k).fl F j
theorem Dev.raiseIf_reg (d : Dev) (b : Bool) (k : Nat) (r' : Reg) (j : Nat) (h : r'.tells = false) : (d.raiseIf b k).reg r' j = d.reg r' j := (Reports.raiseIf d b k).reg r' j h
theorem Dev.raiseIf_f (d : Dev) (b : Bool) (k : Nat) (F : Fld) (j : Nat) (h : F.reg.tells = false) : (d.raiseIf b k).f F j = d.f F j := (Reports.raiseIf d b k).f F j h
theorem Dev.raiseIf_fb (d : Dev) (b : Bool) (k : Nat) (F : Fld) (j : Nat) (h : F.reg.tells = false) : (d.raiseIf b k).fb F j = d.fb F j := (Reports.raiseIf d b k).fb F j h
@[simp] theorem Dev.raiseIf_regsWf (d : Dev) (b : Bool) (k : Nat) (h : d.regsWf = true) : (d.raiseIf b k).regsWf = true := (Reports.raiseIf d b k).wf h

@[simp] theorem Dev.sendMsix_live (d : Dev) (f : Fn) (v : Nat) : (d.sendMsix f v).live = d.live := (Reports.sendMsix d f v).live
@[simp] theorem Dev.sendMsix_time (d : Dev) (f : Fn) (v : Nat) : (d.sendMsix f v).time = d.time := (Reports.sendMsix d f v).time
@[simp] theorem Dev.sendMsix_pace (d : Dev) (f : Fn) (v : Nat) : (d.sendMsix f v).pace = d.pace := (Reports.sendMsix d f v).pace
@[simp] theorem Dev.sendMsix_msys (d : Dev) (f : Fn) (v : Nat) : (d.sendMsix f v).msys = d.msys := (Reports.sendMsix d f v).msys
@[simp] theorem Dev.sendMsix_own (d : Dev) (f : Fn) (v : Nat) : (d.sendMsix f v).own = d.own := (Reports.sendMsix d f v).own
@[simp] theorem Dev.sendMsix_hrq (d : Dev) (f : Fn) (v : Nat) : (d.sendMsix f v).hrq = d.hrq := (Reports.sendMsix d f v).hrq
@[simp] theorem Dev.sendMsix_ports (d : Dev) (f : Fn) (v : Nat) : (d.sendMsix f v).ports = d.ports := (Reports.sendMsix d f v).ports
@[simp] theorem Dev.sendMsix_busMaster (d : Dev) (f : Fn) (v : Nat) : (d.sendMsix f v).busMaster = d.busMaster := (Reports.sendMsix d f v).busMaster
@[simp] theorem Dev.sendMsix_notD0 (d : Dev) (f : Fn) (v : Nat) : (d.sendMsix f v).notD0 = d.notD0 := (Reports.sendMsix d f v).notD0
@[simp] theorem Dev.sendMsix_pci (d : Dev) (f : Fn) (v : Nat) : (d.sendMsix f v).pci = d.pci := (Reports.sendMsix d f v).pci
@[simp] theorem Dev.sendMsix_disp (d : Dev) (f : Fn) (v : Nat) : (d.sendMsix f v).disp = d.disp := (Reports.sendMsix d f v).disp
@[simp] theorem Dev.sendMsix_vin (d : Dev) (f : Fn) (v : Nat) : (d.sendMsix f v).vin = d.vin := (Reports.sendMsix d f v).vin
@[simp] theorem Dev.sendMsix_gpu (d : Dev) (f : Fn) (v : Nat) : (d.sendMsix f v).gpu = d.gpu := (Reports.sendMsix d f v).gpu
@[simp] theorem Dev.sendMsix_mbx (d : Dev) (f : Fn) (v : Nat) : (d.sendMsix f v).mbx = d.mbx := (Reports.sendMsix d f v).mbx
@[simp] theorem Dev.sendMsix_tch (d : Dev) (f : Fn) (v : Nat) : (d.sendMsix f v).tch = d.tch := (Reports.sendMsix d f v).tch
@[simp] theorem Dev.sendMsix_hap (d : Dev) (f : Fn) (v : Nat) : (d.sendMsix f v).hap = d.hap := (Reports.sendMsix d f v).hap
@[simp] theorem Dev.sendMsix_aud (d : Dev) (f : Fn) (v : Nat) : (d.sendMsix f v).aud = d.aud := (Reports.sendMsix d f v).aud
@[simp] theorem Dev.sendMsix_part (d : Dev) (f : Fn) (v : Nat) : (d.sendMsix f v).part = d.part := (Reports.sendMsix d f v).part
@[simp] theorem Dev.sendMsix_pwr (d : Dev) (f : Fn) (v : Nat) : (d.sendMsix f v).pwr = d.pwr := (Reports.sendMsix d f v).pwr
@[simp] theorem Dev.sendMsix_now (d : Dev) (f : Fn) (v : Nat) : (d.sendMsix f v).now = d.now := (Reports.sendMsix d f v).now
@[simp] theorem Dev.sendMsix_fl (d : Dev) (f : Fn) (v : Nat) (F : Fld) (j : Nat) : (d.sendMsix f v).fl F j = d.fl F j := (Reports.sendMsix d f v).fl F j
theorem Dev.sendMsix_reg (d : Dev) (f : Fn) (v : Nat) (r' : Reg) (j : Nat) (h : r'.tells = false) : (d.sendMsix f v).reg r' j = d.reg r' j := (Reports.sendMsix d f v).reg r' j h
theorem Dev.sendMsix_f (d : Dev) (f : Fn) (v : Nat) (F : Fld) (j : Nat) (h : F.reg.tells = false) : (d.sendMsix f v).f F j = d.f F j := (Reports.sendMsix d f v).f F j h
theorem Dev.sendMsix_fb (d : Dev) (f : Fn) (v : Nat) (F : Fld) (j : Nat) (h : F.reg.tells = false) : (d.sendMsix f v).fb F j = d.fb F j := (Reports.sendMsix d f v).fb F j h
@[simp] theorem Dev.sendMsix_regsWf (d : Dev) (f : Fn) (v : Nat) (h : d.regsWf = true) : (d.sendMsix f v).regsWf = true := (Reports.sendMsix d f v).wf h

@[simp] theorem Dev.post_live (d : Dev) (f : Fn) (a : Nat) (bs : List Byte) (ns : Bool) : (d.post f a bs ns).live = d.live := (Reports.post d f a bs ns).live
@[simp] theorem Dev.post_time (d : Dev) (f : Fn) (a : Nat) (bs : List Byte) (ns : Bool) : (d.post f a bs ns).time = d.time := (Reports.post d f a bs ns).time
@[simp] theorem Dev.post_pace (d : Dev) (f : Fn) (a : Nat) (bs : List Byte) (ns : Bool) : (d.post f a bs ns).pace = d.pace := (Reports.post d f a bs ns).pace
@[simp] theorem Dev.post_msys (d : Dev) (f : Fn) (a : Nat) (bs : List Byte) (ns : Bool) : (d.post f a bs ns).msys = d.msys := (Reports.post d f a bs ns).msys
@[simp] theorem Dev.post_own (d : Dev) (f : Fn) (a : Nat) (bs : List Byte) (ns : Bool) : (d.post f a bs ns).own = d.own := (Reports.post d f a bs ns).own
@[simp] theorem Dev.post_hrq (d : Dev) (f : Fn) (a : Nat) (bs : List Byte) (ns : Bool) : (d.post f a bs ns).hrq = d.hrq := (Reports.post d f a bs ns).hrq
@[simp] theorem Dev.post_ports (d : Dev) (f : Fn) (a : Nat) (bs : List Byte) (ns : Bool) : (d.post f a bs ns).ports = d.ports := (Reports.post d f a bs ns).ports
@[simp] theorem Dev.post_busMaster (d : Dev) (f : Fn) (a : Nat) (bs : List Byte) (ns : Bool) : (d.post f a bs ns).busMaster = d.busMaster := (Reports.post d f a bs ns).busMaster
@[simp] theorem Dev.post_notD0 (d : Dev) (f : Fn) (a : Nat) (bs : List Byte) (ns : Bool) : (d.post f a bs ns).notD0 = d.notD0 := (Reports.post d f a bs ns).notD0
@[simp] theorem Dev.post_pci (d : Dev) (f : Fn) (a : Nat) (bs : List Byte) (ns : Bool) : (d.post f a bs ns).pci = d.pci := (Reports.post d f a bs ns).pci
@[simp] theorem Dev.post_disp (d : Dev) (f : Fn) (a : Nat) (bs : List Byte) (ns : Bool) : (d.post f a bs ns).disp = d.disp := (Reports.post d f a bs ns).disp
@[simp] theorem Dev.post_vin (d : Dev) (f : Fn) (a : Nat) (bs : List Byte) (ns : Bool) : (d.post f a bs ns).vin = d.vin := (Reports.post d f a bs ns).vin
@[simp] theorem Dev.post_gpu (d : Dev) (f : Fn) (a : Nat) (bs : List Byte) (ns : Bool) : (d.post f a bs ns).gpu = d.gpu := (Reports.post d f a bs ns).gpu
@[simp] theorem Dev.post_mbx (d : Dev) (f : Fn) (a : Nat) (bs : List Byte) (ns : Bool) : (d.post f a bs ns).mbx = d.mbx := (Reports.post d f a bs ns).mbx
@[simp] theorem Dev.post_tch (d : Dev) (f : Fn) (a : Nat) (bs : List Byte) (ns : Bool) : (d.post f a bs ns).tch = d.tch := (Reports.post d f a bs ns).tch
@[simp] theorem Dev.post_hap (d : Dev) (f : Fn) (a : Nat) (bs : List Byte) (ns : Bool) : (d.post f a bs ns).hap = d.hap := (Reports.post d f a bs ns).hap
@[simp] theorem Dev.post_aud (d : Dev) (f : Fn) (a : Nat) (bs : List Byte) (ns : Bool) : (d.post f a bs ns).aud = d.aud := (Reports.post d f a bs ns).aud
@[simp] theorem Dev.post_part (d : Dev) (f : Fn) (a : Nat) (bs : List Byte) (ns : Bool) : (d.post f a bs ns).part = d.part := (Reports.post d f a bs ns).part
@[simp] theorem Dev.post_pwr (d : Dev) (f : Fn) (a : Nat) (bs : List Byte) (ns : Bool) : (d.post f a bs ns).pwr = d.pwr := (Reports.post d f a bs ns).pwr
@[simp] theorem Dev.post_now (d : Dev) (f : Fn) (a : Nat) (bs : List Byte) (ns : Bool) : (d.post f a bs ns).now = d.now := (Reports.post d f a bs ns).now
@[simp] theorem Dev.post_fl (d : Dev) (f : Fn) (a : Nat) (bs : List Byte) (ns : Bool) (F : Fld) (j : Nat) : (d.post f a bs ns).fl F j = d.fl F j := (Reports.post d f a bs ns).fl F j
theorem Dev.post_reg (d : Dev) (f : Fn) (a : Nat) (bs : List Byte) (ns : Bool) (r' : Reg) (j : Nat) (h : r'.tells = false) : (d.post f a bs ns).reg r' j = d.reg r' j := (Reports.post d f a bs ns).reg r' j h
theorem Dev.post_f (d : Dev) (f : Fn) (a : Nat) (bs : List Byte) (ns : Bool) (F : Fld) (j : Nat) (h : F.reg.tells = false) : (d.post f a bs ns).f F j = d.f F j := (Reports.post d f a bs ns).f F j h
theorem Dev.post_fb (d : Dev) (f : Fn) (a : Nat) (bs : List Byte) (ns : Bool) (F : Fld) (j : Nat) (h : F.reg.tells = false) : (d.post f a bs ns).fb F j = d.fb F j := (Reports.post d f a bs ns).fb F j h
@[simp] theorem Dev.post_regsWf (d : Dev) (f : Fn) (a : Nat) (bs : List Byte) (ns : Bool) (h : d.regsWf = true) : (d.post f a bs ns).regsWf = true := (Reports.post d f a bs ns).wf h

@[simp] theorem Dev.pmcHit_live (d : Dev) (ev inst code : Nat) (sec : Bool) (n : Nat) : (d.pmcHit ev inst code sec n).live = d.live := (Reports.pmcHit d ev inst code sec n).live
@[simp] theorem Dev.pmcHit_time (d : Dev) (ev inst code : Nat) (sec : Bool) (n : Nat) : (d.pmcHit ev inst code sec n).time = d.time := (Reports.pmcHit d ev inst code sec n).time
@[simp] theorem Dev.pmcHit_pace (d : Dev) (ev inst code : Nat) (sec : Bool) (n : Nat) : (d.pmcHit ev inst code sec n).pace = d.pace := (Reports.pmcHit d ev inst code sec n).pace
@[simp] theorem Dev.pmcHit_msys (d : Dev) (ev inst code : Nat) (sec : Bool) (n : Nat) : (d.pmcHit ev inst code sec n).msys = d.msys := (Reports.pmcHit d ev inst code sec n).msys
@[simp] theorem Dev.pmcHit_own (d : Dev) (ev inst code : Nat) (sec : Bool) (n : Nat) : (d.pmcHit ev inst code sec n).own = d.own := (Reports.pmcHit d ev inst code sec n).own
@[simp] theorem Dev.pmcHit_hrq (d : Dev) (ev inst code : Nat) (sec : Bool) (n : Nat) : (d.pmcHit ev inst code sec n).hrq = d.hrq := (Reports.pmcHit d ev inst code sec n).hrq
@[simp] theorem Dev.pmcHit_ports (d : Dev) (ev inst code : Nat) (sec : Bool) (n : Nat) : (d.pmcHit ev inst code sec n).ports = d.ports := (Reports.pmcHit d ev inst code sec n).ports
@[simp] theorem Dev.pmcHit_busMaster (d : Dev) (ev inst code : Nat) (sec : Bool) (n : Nat) : (d.pmcHit ev inst code sec n).busMaster = d.busMaster := (Reports.pmcHit d ev inst code sec n).busMaster
@[simp] theorem Dev.pmcHit_notD0 (d : Dev) (ev inst code : Nat) (sec : Bool) (n : Nat) : (d.pmcHit ev inst code sec n).notD0 = d.notD0 := (Reports.pmcHit d ev inst code sec n).notD0
@[simp] theorem Dev.pmcHit_pci (d : Dev) (ev inst code : Nat) (sec : Bool) (n : Nat) : (d.pmcHit ev inst code sec n).pci = d.pci := (Reports.pmcHit d ev inst code sec n).pci
@[simp] theorem Dev.pmcHit_disp (d : Dev) (ev inst code : Nat) (sec : Bool) (n : Nat) : (d.pmcHit ev inst code sec n).disp = d.disp := (Reports.pmcHit d ev inst code sec n).disp
@[simp] theorem Dev.pmcHit_vin (d : Dev) (ev inst code : Nat) (sec : Bool) (n : Nat) : (d.pmcHit ev inst code sec n).vin = d.vin := (Reports.pmcHit d ev inst code sec n).vin
@[simp] theorem Dev.pmcHit_gpu (d : Dev) (ev inst code : Nat) (sec : Bool) (n : Nat) : (d.pmcHit ev inst code sec n).gpu = d.gpu := (Reports.pmcHit d ev inst code sec n).gpu
@[simp] theorem Dev.pmcHit_mbx (d : Dev) (ev inst code : Nat) (sec : Bool) (n : Nat) : (d.pmcHit ev inst code sec n).mbx = d.mbx := (Reports.pmcHit d ev inst code sec n).mbx
@[simp] theorem Dev.pmcHit_tch (d : Dev) (ev inst code : Nat) (sec : Bool) (n : Nat) : (d.pmcHit ev inst code sec n).tch = d.tch := (Reports.pmcHit d ev inst code sec n).tch
@[simp] theorem Dev.pmcHit_hap (d : Dev) (ev inst code : Nat) (sec : Bool) (n : Nat) : (d.pmcHit ev inst code sec n).hap = d.hap := (Reports.pmcHit d ev inst code sec n).hap
@[simp] theorem Dev.pmcHit_aud (d : Dev) (ev inst code : Nat) (sec : Bool) (n : Nat) : (d.pmcHit ev inst code sec n).aud = d.aud := (Reports.pmcHit d ev inst code sec n).aud
@[simp] theorem Dev.pmcHit_part (d : Dev) (ev inst code : Nat) (sec : Bool) (n : Nat) : (d.pmcHit ev inst code sec n).part = d.part := (Reports.pmcHit d ev inst code sec n).part
@[simp] theorem Dev.pmcHit_pwr (d : Dev) (ev inst code : Nat) (sec : Bool) (n : Nat) : (d.pmcHit ev inst code sec n).pwr = d.pwr := (Reports.pmcHit d ev inst code sec n).pwr
@[simp] theorem Dev.pmcHit_now (d : Dev) (ev inst code : Nat) (sec : Bool) (n : Nat) : (d.pmcHit ev inst code sec n).now = d.now := (Reports.pmcHit d ev inst code sec n).now
@[simp] theorem Dev.pmcHit_fl (d : Dev) (ev inst code : Nat) (sec : Bool) (n : Nat) (F : Fld) (j : Nat) : (d.pmcHit ev inst code sec n).fl F j = d.fl F j := (Reports.pmcHit d ev inst code sec n).fl F j
theorem Dev.pmcHit_reg (d : Dev) (ev inst code : Nat) (sec : Bool) (n : Nat) (r' : Reg) (j : Nat) (h : r'.tells = false) : (d.pmcHit ev inst code sec n).reg r' j = d.reg r' j := (Reports.pmcHit d ev inst code sec n).reg r' j h
theorem Dev.pmcHit_f (d : Dev) (ev inst code : Nat) (sec : Bool) (n : Nat) (F : Fld) (j : Nat) (h : F.reg.tells = false) : (d.pmcHit ev inst code sec n).f F j = d.f F j := (Reports.pmcHit d ev inst code sec n).f F j h
theorem Dev.pmcHit_fb (d : Dev) (ev inst code : Nat) (sec : Bool) (n : Nat) (F : Fld) (j : Nat) (h : F.reg.tells = false) : (d.pmcHit ev inst code sec n).fb F j = d.fb F j := (Reports.pmcHit d ev inst code sec n).fb F j h
@[simp] theorem Dev.pmcHit_regsWf (d : Dev) (ev inst code : Nat) (sec : Bool) (n : Nat) (h : d.regsWf = true) : (d.pmcHit ev inst code sec n).regsWf = true := (Reports.pmcHit d ev inst code sec n).wf h

@[simp] theorem Dev.pmcLatency_live (d : Dev) (ev inst code : Nat) (sec : Bool) (n : Nat) : (d.pmcLatency ev inst code sec n).live = d.live := (Reports.pmcLatency d ev inst code sec n).live
@[simp] theorem Dev.pmcLatency_time (d : Dev) (ev inst code : Nat) (sec : Bool) (n : Nat) : (d.pmcLatency ev inst code sec n).time = d.time := (Reports.pmcLatency d ev inst code sec n).time
@[simp] theorem Dev.pmcLatency_pace (d : Dev) (ev inst code : Nat) (sec : Bool) (n : Nat) : (d.pmcLatency ev inst code sec n).pace = d.pace := (Reports.pmcLatency d ev inst code sec n).pace
@[simp] theorem Dev.pmcLatency_msys (d : Dev) (ev inst code : Nat) (sec : Bool) (n : Nat) : (d.pmcLatency ev inst code sec n).msys = d.msys := (Reports.pmcLatency d ev inst code sec n).msys
@[simp] theorem Dev.pmcLatency_own (d : Dev) (ev inst code : Nat) (sec : Bool) (n : Nat) : (d.pmcLatency ev inst code sec n).own = d.own := (Reports.pmcLatency d ev inst code sec n).own
@[simp] theorem Dev.pmcLatency_hrq (d : Dev) (ev inst code : Nat) (sec : Bool) (n : Nat) : (d.pmcLatency ev inst code sec n).hrq = d.hrq := (Reports.pmcLatency d ev inst code sec n).hrq
@[simp] theorem Dev.pmcLatency_ports (d : Dev) (ev inst code : Nat) (sec : Bool) (n : Nat) : (d.pmcLatency ev inst code sec n).ports = d.ports := (Reports.pmcLatency d ev inst code sec n).ports
@[simp] theorem Dev.pmcLatency_busMaster (d : Dev) (ev inst code : Nat) (sec : Bool) (n : Nat) : (d.pmcLatency ev inst code sec n).busMaster = d.busMaster := (Reports.pmcLatency d ev inst code sec n).busMaster
@[simp] theorem Dev.pmcLatency_notD0 (d : Dev) (ev inst code : Nat) (sec : Bool) (n : Nat) : (d.pmcLatency ev inst code sec n).notD0 = d.notD0 := (Reports.pmcLatency d ev inst code sec n).notD0
@[simp] theorem Dev.pmcLatency_pci (d : Dev) (ev inst code : Nat) (sec : Bool) (n : Nat) : (d.pmcLatency ev inst code sec n).pci = d.pci := (Reports.pmcLatency d ev inst code sec n).pci
@[simp] theorem Dev.pmcLatency_disp (d : Dev) (ev inst code : Nat) (sec : Bool) (n : Nat) : (d.pmcLatency ev inst code sec n).disp = d.disp := (Reports.pmcLatency d ev inst code sec n).disp
@[simp] theorem Dev.pmcLatency_vin (d : Dev) (ev inst code : Nat) (sec : Bool) (n : Nat) : (d.pmcLatency ev inst code sec n).vin = d.vin := (Reports.pmcLatency d ev inst code sec n).vin
@[simp] theorem Dev.pmcLatency_gpu (d : Dev) (ev inst code : Nat) (sec : Bool) (n : Nat) : (d.pmcLatency ev inst code sec n).gpu = d.gpu := (Reports.pmcLatency d ev inst code sec n).gpu
@[simp] theorem Dev.pmcLatency_mbx (d : Dev) (ev inst code : Nat) (sec : Bool) (n : Nat) : (d.pmcLatency ev inst code sec n).mbx = d.mbx := (Reports.pmcLatency d ev inst code sec n).mbx
@[simp] theorem Dev.pmcLatency_tch (d : Dev) (ev inst code : Nat) (sec : Bool) (n : Nat) : (d.pmcLatency ev inst code sec n).tch = d.tch := (Reports.pmcLatency d ev inst code sec n).tch
@[simp] theorem Dev.pmcLatency_hap (d : Dev) (ev inst code : Nat) (sec : Bool) (n : Nat) : (d.pmcLatency ev inst code sec n).hap = d.hap := (Reports.pmcLatency d ev inst code sec n).hap
@[simp] theorem Dev.pmcLatency_aud (d : Dev) (ev inst code : Nat) (sec : Bool) (n : Nat) : (d.pmcLatency ev inst code sec n).aud = d.aud := (Reports.pmcLatency d ev inst code sec n).aud
@[simp] theorem Dev.pmcLatency_part (d : Dev) (ev inst code : Nat) (sec : Bool) (n : Nat) : (d.pmcLatency ev inst code sec n).part = d.part := (Reports.pmcLatency d ev inst code sec n).part
@[simp] theorem Dev.pmcLatency_pwr (d : Dev) (ev inst code : Nat) (sec : Bool) (n : Nat) : (d.pmcLatency ev inst code sec n).pwr = d.pwr := (Reports.pmcLatency d ev inst code sec n).pwr
@[simp] theorem Dev.pmcLatency_now (d : Dev) (ev inst code : Nat) (sec : Bool) (n : Nat) : (d.pmcLatency ev inst code sec n).now = d.now := (Reports.pmcLatency d ev inst code sec n).now
@[simp] theorem Dev.pmcLatency_fl (d : Dev) (ev inst code : Nat) (sec : Bool) (n : Nat) (F : Fld) (j : Nat) : (d.pmcLatency ev inst code sec n).fl F j = d.fl F j := (Reports.pmcLatency d ev inst code sec n).fl F j
theorem Dev.pmcLatency_reg (d : Dev) (ev inst code : Nat) (sec : Bool) (n : Nat) (r' : Reg) (j : Nat) (h : r'.tells = false) : (d.pmcLatency ev inst code sec n).reg r' j = d.reg r' j := (Reports.pmcLatency d ev inst code sec n).reg r' j h
theorem Dev.pmcLatency_f (d : Dev) (ev inst code : Nat) (sec : Bool) (n : Nat) (F : Fld) (j : Nat) (h : F.reg.tells = false) : (d.pmcLatency ev inst code sec n).f F j = d.f F j := (Reports.pmcLatency d ev inst code sec n).f F j h
theorem Dev.pmcLatency_fb (d : Dev) (ev inst code : Nat) (sec : Bool) (n : Nat) (F : Fld) (j : Nat) (h : F.reg.tells = false) : (d.pmcLatency ev inst code sec n).fb F j = d.fb F j := (Reports.pmcLatency d ev inst code sec n).fb F j h
@[simp] theorem Dev.pmcLatency_regsWf (d : Dev) (ev inst code : Nat) (sec : Bool) (n : Nat) (h : d.regsWf = true) : (d.pmcLatency ev inst code sec n).regsWf = true := (Reports.pmcLatency d ev inst code sec n).wf h

@[simp] theorem Dev.pmcPort_live (d : Dev) (f : Fn) (o : Bool) (n : Nat) : (d.pmcPort f o n).live = d.live := (Reports.pmcPort d f o n).live
@[simp] theorem Dev.pmcPort_time (d : Dev) (f : Fn) (o : Bool) (n : Nat) : (d.pmcPort f o n).time = d.time := (Reports.pmcPort d f o n).time
@[simp] theorem Dev.pmcPort_pace (d : Dev) (f : Fn) (o : Bool) (n : Nat) : (d.pmcPort f o n).pace = d.pace := (Reports.pmcPort d f o n).pace
@[simp] theorem Dev.pmcPort_msys (d : Dev) (f : Fn) (o : Bool) (n : Nat) : (d.pmcPort f o n).msys = d.msys := (Reports.pmcPort d f o n).msys
@[simp] theorem Dev.pmcPort_own (d : Dev) (f : Fn) (o : Bool) (n : Nat) : (d.pmcPort f o n).own = d.own := (Reports.pmcPort d f o n).own
@[simp] theorem Dev.pmcPort_hrq (d : Dev) (f : Fn) (o : Bool) (n : Nat) : (d.pmcPort f o n).hrq = d.hrq := (Reports.pmcPort d f o n).hrq
@[simp] theorem Dev.pmcPort_ports (d : Dev) (f : Fn) (o : Bool) (n : Nat) : (d.pmcPort f o n).ports = d.ports := (Reports.pmcPort d f o n).ports
@[simp] theorem Dev.pmcPort_busMaster (d : Dev) (f : Fn) (o : Bool) (n : Nat) : (d.pmcPort f o n).busMaster = d.busMaster := (Reports.pmcPort d f o n).busMaster
@[simp] theorem Dev.pmcPort_notD0 (d : Dev) (f : Fn) (o : Bool) (n : Nat) : (d.pmcPort f o n).notD0 = d.notD0 := (Reports.pmcPort d f o n).notD0
@[simp] theorem Dev.pmcPort_pci (d : Dev) (f : Fn) (o : Bool) (n : Nat) : (d.pmcPort f o n).pci = d.pci := (Reports.pmcPort d f o n).pci
@[simp] theorem Dev.pmcPort_disp (d : Dev) (f : Fn) (o : Bool) (n : Nat) : (d.pmcPort f o n).disp = d.disp := (Reports.pmcPort d f o n).disp
@[simp] theorem Dev.pmcPort_vin (d : Dev) (f : Fn) (o : Bool) (n : Nat) : (d.pmcPort f o n).vin = d.vin := (Reports.pmcPort d f o n).vin
@[simp] theorem Dev.pmcPort_gpu (d : Dev) (f : Fn) (o : Bool) (n : Nat) : (d.pmcPort f o n).gpu = d.gpu := (Reports.pmcPort d f o n).gpu
@[simp] theorem Dev.pmcPort_mbx (d : Dev) (f : Fn) (o : Bool) (n : Nat) : (d.pmcPort f o n).mbx = d.mbx := (Reports.pmcPort d f o n).mbx
@[simp] theorem Dev.pmcPort_tch (d : Dev) (f : Fn) (o : Bool) (n : Nat) : (d.pmcPort f o n).tch = d.tch := (Reports.pmcPort d f o n).tch
@[simp] theorem Dev.pmcPort_hap (d : Dev) (f : Fn) (o : Bool) (n : Nat) : (d.pmcPort f o n).hap = d.hap := (Reports.pmcPort d f o n).hap
@[simp] theorem Dev.pmcPort_aud (d : Dev) (f : Fn) (o : Bool) (n : Nat) : (d.pmcPort f o n).aud = d.aud := (Reports.pmcPort d f o n).aud
@[simp] theorem Dev.pmcPort_part (d : Dev) (f : Fn) (o : Bool) (n : Nat) : (d.pmcPort f o n).part = d.part := (Reports.pmcPort d f o n).part
@[simp] theorem Dev.pmcPort_pwr (d : Dev) (f : Fn) (o : Bool) (n : Nat) : (d.pmcPort f o n).pwr = d.pwr := (Reports.pmcPort d f o n).pwr
@[simp] theorem Dev.pmcPort_now (d : Dev) (f : Fn) (o : Bool) (n : Nat) : (d.pmcPort f o n).now = d.now := (Reports.pmcPort d f o n).now
@[simp] theorem Dev.pmcPort_fl (d : Dev) (f : Fn) (o : Bool) (n : Nat) (F : Fld) (j : Nat) : (d.pmcPort f o n).fl F j = d.fl F j := (Reports.pmcPort d f o n).fl F j
theorem Dev.pmcPort_reg (d : Dev) (f : Fn) (o : Bool) (n : Nat) (r' : Reg) (j : Nat) (h : r'.tells = false) : (d.pmcPort f o n).reg r' j = d.reg r' j := (Reports.pmcPort d f o n).reg r' j h
theorem Dev.pmcPort_f (d : Dev) (f : Fn) (o : Bool) (n : Nat) (F : Fld) (j : Nat) (h : F.reg.tells = false) : (d.pmcPort f o n).f F j = d.f F j := (Reports.pmcPort d f o n).f F j h
theorem Dev.pmcPort_fb (d : Dev) (f : Fn) (o : Bool) (n : Nat) (F : Fld) (j : Nat) (h : F.reg.tells = false) : (d.pmcPort f o n).fb F j = d.fb F j := (Reports.pmcPort d f o n).fb F j h
@[simp] theorem Dev.pmcPort_regsWf (d : Dev) (f : Fn) (o : Bool) (n : Nat) (h : d.regsWf = true) : (d.pmcPort f o n).regsWf = true := (Reports.pmcPort d f o n).wf h

@[simp] theorem Dev.pmcLines_live (d : Dev) (r : Req) (a n : Nat) : (d.pmcLines r a n).live = d.live := (Reports.pmcLines d r a n).live
@[simp] theorem Dev.pmcLines_time (d : Dev) (r : Req) (a n : Nat) : (d.pmcLines r a n).time = d.time := (Reports.pmcLines d r a n).time
@[simp] theorem Dev.pmcLines_pace (d : Dev) (r : Req) (a n : Nat) : (d.pmcLines r a n).pace = d.pace := (Reports.pmcLines d r a n).pace
@[simp] theorem Dev.pmcLines_msys (d : Dev) (r : Req) (a n : Nat) : (d.pmcLines r a n).msys = d.msys := (Reports.pmcLines d r a n).msys
@[simp] theorem Dev.pmcLines_own (d : Dev) (r : Req) (a n : Nat) : (d.pmcLines r a n).own = d.own := (Reports.pmcLines d r a n).own
@[simp] theorem Dev.pmcLines_hrq (d : Dev) (r : Req) (a n : Nat) : (d.pmcLines r a n).hrq = d.hrq := (Reports.pmcLines d r a n).hrq
@[simp] theorem Dev.pmcLines_ports (d : Dev) (r : Req) (a n : Nat) : (d.pmcLines r a n).ports = d.ports := (Reports.pmcLines d r a n).ports
@[simp] theorem Dev.pmcLines_busMaster (d : Dev) (r : Req) (a n : Nat) : (d.pmcLines r a n).busMaster = d.busMaster := (Reports.pmcLines d r a n).busMaster
@[simp] theorem Dev.pmcLines_notD0 (d : Dev) (r : Req) (a n : Nat) : (d.pmcLines r a n).notD0 = d.notD0 := (Reports.pmcLines d r a n).notD0
@[simp] theorem Dev.pmcLines_pci (d : Dev) (r : Req) (a n : Nat) : (d.pmcLines r a n).pci = d.pci := (Reports.pmcLines d r a n).pci
@[simp] theorem Dev.pmcLines_disp (d : Dev) (r : Req) (a n : Nat) : (d.pmcLines r a n).disp = d.disp := (Reports.pmcLines d r a n).disp
@[simp] theorem Dev.pmcLines_vin (d : Dev) (r : Req) (a n : Nat) : (d.pmcLines r a n).vin = d.vin := (Reports.pmcLines d r a n).vin
@[simp] theorem Dev.pmcLines_gpu (d : Dev) (r : Req) (a n : Nat) : (d.pmcLines r a n).gpu = d.gpu := (Reports.pmcLines d r a n).gpu
@[simp] theorem Dev.pmcLines_mbx (d : Dev) (r : Req) (a n : Nat) : (d.pmcLines r a n).mbx = d.mbx := (Reports.pmcLines d r a n).mbx
@[simp] theorem Dev.pmcLines_tch (d : Dev) (r : Req) (a n : Nat) : (d.pmcLines r a n).tch = d.tch := (Reports.pmcLines d r a n).tch
@[simp] theorem Dev.pmcLines_hap (d : Dev) (r : Req) (a n : Nat) : (d.pmcLines r a n).hap = d.hap := (Reports.pmcLines d r a n).hap
@[simp] theorem Dev.pmcLines_aud (d : Dev) (r : Req) (a n : Nat) : (d.pmcLines r a n).aud = d.aud := (Reports.pmcLines d r a n).aud
@[simp] theorem Dev.pmcLines_part (d : Dev) (r : Req) (a n : Nat) : (d.pmcLines r a n).part = d.part := (Reports.pmcLines d r a n).part
@[simp] theorem Dev.pmcLines_pwr (d : Dev) (r : Req) (a n : Nat) : (d.pmcLines r a n).pwr = d.pwr := (Reports.pmcLines d r a n).pwr
@[simp] theorem Dev.pmcLines_now (d : Dev) (r : Req) (a n : Nat) : (d.pmcLines r a n).now = d.now := (Reports.pmcLines d r a n).now
@[simp] theorem Dev.pmcLines_fl (d : Dev) (r : Req) (a n : Nat) (F : Fld) (j : Nat) : (d.pmcLines r a n).fl F j = d.fl F j := (Reports.pmcLines d r a n).fl F j
theorem Dev.pmcLines_reg (d : Dev) (r : Req) (a n : Nat) (r' : Reg) (j : Nat) (h : r'.tells = false) : (d.pmcLines r a n).reg r' j = d.reg r' j := (Reports.pmcLines d r a n).reg r' j h
theorem Dev.pmcLines_f (d : Dev) (r : Req) (a n : Nat) (F : Fld) (j : Nat) (h : F.reg.tells = false) : (d.pmcLines r a n).f F j = d.f F j := (Reports.pmcLines d r a n).f F j h
theorem Dev.pmcLines_fb (d : Dev) (r : Req) (a n : Nat) (F : Fld) (j : Nat) (h : F.reg.tells = false) : (d.pmcLines r a n).fb F j = d.fb F j := (Reports.pmcLines d r a n).fb F j h
@[simp] theorem Dev.pmcLines_regsWf (d : Dev) (r : Req) (a n : Nat) (h : d.regsWf = true) : (d.pmcLines r a n).regsWf = true := (Reports.pmcLines d r a n).wf h

/-- A message, and an event, change two registers and what has left the device. -/
theorem Dev.sendMsix_shape (d : Dev) (f : Fn) (v : Nat) : ∃ rs ob, d.sendMsix f v = { d with regs := rs, outbox := ob } ∧
    ∀ r i, r ≠ .HRQ_MSIX_PBA → (d.sendMsix f v).reg r i = d.reg r i := by
  unfold Dev.sendMsix
  split
  · dsimp only
    split
    · exact ⟨_, _, rfl, fun r i h => Dev.reg_setReg_reg _ _ _ _ h⟩
    · exact ⟨_, _, rfl, fun _ _ _ => rfl⟩
  · exact ⟨_, _, rfl, fun _ _ _ => rfl⟩

theorem Dev.raise_shape (d : Dev) (k : Nat) : ∃ rs ob, d.raise k = { d with regs := rs, outbox := ob } ∧
    ∀ r i, r ≠ .HRQ_EV_PEND → r ≠ .HRQ_MSIX_PBA → (d.raise k).reg r i = d.reg r i := by
  have key : ∀ d2 : Dev, (∃ rs ob, d2 = { d with regs := rs, outbox := ob }) → (∀ r i, r ≠ .HRQ_EV_PEND → r ≠ .HRQ_MSIX_PBA → d2.reg r i = d.reg r i) →
      ∀ f v, ∃ rs ob, d2.sendMsix f v = { d with regs := rs, outbox := ob } ∧
        ∀ r i, r ≠ .HRQ_EV_PEND → r ≠ .HRQ_MSIX_PBA → (d2.sendMsix f v).reg r i = d.reg r i := by
    rintro d2 ⟨rs, ob, rfl⟩ h2 f v
    obtain ⟨rs', ob', e, h⟩ := Dev.sendMsix_shape { d with regs := rs, outbox := ob } f v
    exact ⟨rs', ob', e, fun r i a b => (h r i b).trans (h2 r i a b)⟩
  unfold Dev.raise
  dsimp only
  have h1 : ∀ r i, r ≠ .HRQ_EV_PEND → r ≠ .HRQ_MSIX_PBA → (if (d.setReg .HRQ_EV_PEND (k / 32) (d.reg .HRQ_EV_PEND (k / 32) |||
      BitVec.ofNat 32 (2 ^ (k % 32)))).fb HRQ_EV_ROUTE.ACHOLT k = true then (d.setReg .HRQ_EV_PEND (k / 32) (d.reg .HRQ_EV_PEND (k / 32) |||
      BitVec.ofNat 32 (2 ^ (k % 32)))).emit (.acholt k) else d.setReg .HRQ_EV_PEND (k / 32) (d.reg .HRQ_EV_PEND (k / 32) |||
      BitVec.ofNat 32 (2 ^ (k % 32)))).reg r i = d.reg r i := by
    intro r i a _
    split <;> exact Dev.reg_setReg_reg _ _ _ _ a
  have h2 : ∃ rs ob, (if (d.setReg .HRQ_EV_PEND (k / 32) (d.reg .HRQ_EV_PEND (k / 32) |||
      BitVec.ofNat 32 (2 ^ (k % 32)))).fb HRQ_EV_ROUTE.ACHOLT k = true then (d.setReg .HRQ_EV_PEND (k / 32) (d.reg .HRQ_EV_PEND (k / 32) |||
      BitVec.ofNat 32 (2 ^ (k % 32)))).emit (.acholt k) else d.setReg .HRQ_EV_PEND (k / 32) (d.reg .HRQ_EV_PEND (k / 32) |||
      BitVec.ofNat 32 (2 ^ (k % 32)))) = { d with regs := rs, outbox := ob } := by
    split <;> exact ⟨_, _, rfl⟩
  generalize (if (d.setReg .HRQ_EV_PEND (k / 32) (d.reg .HRQ_EV_PEND (k / 32) |||
      BitVec.ofNat 32 (2 ^ (k % 32)))).fb HRQ_EV_ROUTE.ACHOLT k = true then (d.setReg .HRQ_EV_PEND (k / 32) (d.reg .HRQ_EV_PEND (k / 32) |||
      BitVec.ofNat 32 (2 ^ (k % 32)))).emit (.acholt k) else d.setReg .HRQ_EV_PEND (k / 32) (d.reg .HRQ_EV_PEND (k / 32) |||
      BitVec.ofNat 32 (2 ^ (k % 32)))) = d2 at *
  split
  · split
    · exact key d2 h2 h1 _ _
    · obtain ⟨rs, ob, e⟩ := h2
      exact ⟨rs, ob, e, h1⟩
  · obtain ⟨rs, ob, e⟩ := h2
    exact ⟨rs, ob, e, h1⟩

end Sys2Proof.Machine
end

