-- ==== Sys2Proof/Laws/Start.lean ====
section
/-! SUPPORT. How a command of a queue starts, and how it ends. -/

namespace Sys2Proof.Machine

/-! One command among those of a queue. -/

theorem Dev.queue_setQueue_same (d : Dev) (i : Nat) (q : QueueSt) (h : q ≠ default) : (d.setQueue i q).queue i = q :=
  Tbl.get_put_listed _ _ _ h

theorem Dev.queue_setQueue_ne (d : Dev) {i j : Nat} (q : QueueSt) (h : j ≠ i) : (d.setQueue i q).queue j = d.queue j :=
  Tbl.get_put_ne _ _ h

/-- A queue that holds a command is not the empty queue. -/
theorem QueueSt.ne_default {q : QueueSt} (h : q.cmds ≠ []) : q ≠ default := by
  intro e
  subst e
  exact h rfl

theorem find?_map_id (cs : List Cmd) (id : Nat) (g : Cmd → Cmd) (hg : ∀ x, (g x).id = x.id) :
    ((cs.map fun x => if x.id = id then g x else x).find? fun x => x.id == id) = (cs.find? fun x => x.id == id).map g := by
  induction cs with
  | nil => rfl
  | cons a t ih =>
    simp only [List.map_cons, List.find?_cons]
    by_cases h : a.id = id
    · simp [h, hg]
    · have hb : (a.id == id) = false := by simpa using h
      simp [h, ih, hb]

theorem Dev.cmds_ne_nil {d : Dev} {ref : CmdRef} {x : Cmd} (h : d.cmd? ref = some x) : (d.queue ref.queue).cmds ≠ [] := by
  intro e
  simp [Dev.cmd?, e] at h

/-- A change of one command is seen where it is looked up. -/
theorem Dev.cmd?_updCmd (d : Dev) (ref : CmdRef) (g : Cmd → Cmd) (hg : ∀ x, (g x).id = x.id) {x : Cmd} (h : d.cmd? ref = some x) :
    (d.updCmd ref g).cmd? ref = some (g x) := by
  have hne : ({ d.queue ref.queue with cmds := (d.queue ref.queue).cmds.map fun x => if x.id = ref.id then g x else x } : QueueSt) ≠ default := by
    apply QueueSt.ne_default
    simp [Dev.cmds_ne_nil h]
  have e : (d.updCmd ref g).cmd? ref = (d.cmd? ref).map g := by
    unfold Dev.updCmd Dev.cmd?
    simp only []
    rw [Dev.queue_setQueue_same _ _ _ hne]
    exact find?_map_id _ _ _ hg
  rw [e, h]
  rfl

/-- A lookup rests on the queues alone. -/
theorem Dev.cmd?_congr {d e : Dev} (h : e.hrq.queues = d.hrq.queues) (ref : CmdRef) : e.cmd? ref = d.cmd? ref := by
  unfold Dev.cmd? Dev.queue
  rw [h]

theorem Dev.Ended.congr {d e : Dev} {ref : CmdRef} {st res : Nat} (h : e.hrq.queues = d.hrq.queues) (hd : d.Ended ref st res) : e.Ended ref st res := by
  obtain ⟨x, hx, hp⟩ := hd
  exact ⟨x, (Dev.cmd?_congr h ref).trans hx, hp⟩

theorem Dev.Running.congr {d e : Dev} {ref : CmdRef} (h : e.hrq.queues = d.hrq.queues) (hd : d.Running ref) : e.Running ref := by
  obtain ⟨x, hx, hp⟩ := hd
  exact ⟨x, (Dev.cmd?_congr h ref).trans hx, hp⟩

theorem find?_map_keep (cs : List Cmd) (k : Nat) (g : Cmd → Cmd) (hg : ∀ x, (g x).id = x.id) :
    ((cs.map g).find? fun x => x.id == k) = (cs.find? fun x => x.id == k).map g := by
  induction cs with
  | nil => rfl
  | cons a t ih =>
    simp only [List.map_cons, List.find?_cons, hg]
    cases a.id == k <;> simp [ih]

/-- A change of any command that keeps its number, its phase, its status and its RESULT leaves ended commands ended. -/
theorem Dev.Ended.updCmd {d : Dev} {ref : CmdRef} {st res : Nat} (h : d.Ended ref st res) (r : CmdRef) (g : Cmd → Cmd)
    (hg : ∀ x, (g x).id = x.id ∧ (g x).phase = x.phase ∧ (g x).status = x.status ∧ (g x).result = x.result) : (d.updCmd r g).Ended ref st res := by
  obtain ⟨x, hx, hp⟩ := h
  by_cases hq : ref.queue = r.queue
  · let k : Cmd → Cmd := fun x => if x.id = r.id then g x else x
    have hk : ∀ x, (k x).id = x.id ∧ (k x).phase = x.phase ∧ (k x).status = x.status ∧ (k x).result = x.result := by
      intro x
      dsimp only [k]
      split
      · exact hg x
      · exact ⟨rfl, rfl, rfl, rfl⟩
    refine ⟨k x, ?_, (hk x).2.1.trans hp.1, (hk x).2.2.1.trans hp.2.1, (hk x).2.2.2.trans hp.2.2⟩
    have hne : ({ d.queue r.queue with cmds := (d.queue r.queue).cmds.map k } : QueueSt) ≠ default := by
      apply QueueSt.ne_default
      have := Dev.cmds_ne_nil hx
      rw [hq] at this
      simp [this]
    unfold Dev.updCmd Dev.cmd?
    rw [hq, Dev.queue_setQueue_same _ _ _ hne]
    dsimp only
    rw [find?_map_keep _ _ k fun x => (hk x).1]
    unfold Dev.cmd? at hx
    rw [← hq, hx]
    rfl
  · refine ⟨x, ?_, hp⟩
    unfold Dev.updCmd Dev.cmd?
    rw [Dev.queue_setQueue_ne _ _ hq]
    exact hx

/-- Signals leave ended commands ended. -/
theorem Dev.Ended.judge {d : Dev} {ref : CmdRef} {st res : Nat} (h : d.Ended ref st res) (xs : List Signal) : (d.judge xs).Ended ref st res := by
  have key : ∀ (l : List Signal) (e : Dev), e.Ended ref st res → (l.foldl (fun e x =>
      let e1 := if e.fence x.fence < x.value then e.setFence x.fence x.value else e
      match x.ref with
      | some r => if d.staleIn xs x then e1.updCmd r fun c => { c with stale := true } else e1
      | none => e1) e).Ended ref st res := by
    intro l
    induction l with
    | nil => exact fun _ h => h
    | cons x t ih =>
      intro e he
      refine ih _ ?_
      have h1 : (if e.fence x.fence < x.value then e.setFence x.fence x.value else e).Ended ref st res := by
        split
        · exact he.congr rfl
        · exact he
      dsimp only
      split
      · split
        · exact h1.updCmd _ _ fun _ => ⟨rfl, rfl, rfl, rfl⟩
        · exact h1
      · exact h1
  exact key xs d h

theorem Dev.Ended.signalCmd {d : Dev} {ref : CmdRef} {st res : Nat} (h : d.Ended ref st res) (r : CmdRef) (c : Cmd) :
    (d.signalCmd r c).Ended ref st res := by
  have hs : ∀ x : Signal, (d.signal x).Ended ref st res := by
    intro x
    unfold Dev.signal
    split
    · exact h.congr rfl
    · exact h.judge _
  unfold Dev.signalCmd
  dsimp only
  repeat' split
  all_goals first | exact h | exact hs _

/-- A running command that is ended holds the status and the RESULT. -/
theorem Dev.Running.ended {d : Dev} {ref : CmdRef} (hd : d.Running ref) (st res : Nat) (hr : res < 2 ^ 32) : (d.endCmd ref st res).Ended ref st res := by
  obtain ⟨x, hx, hp⟩ := hd
  have hne : x.phase ≠ .ended := by rw [hp]; decide
  unfold Dev.endCmd
  simp only [hx, hne, if_false]
  refine Dev.Ended.signalCmd ?_ _ _
  refine ⟨_, Dev.cmd?_updCmd _ ref _ ?_ (x := x) hx, ?_⟩
  · intro y
    split <;> rfl
  · rw [if_neg hne]
    exact ⟨rfl, rfl, Nat.mod_eq_of_lt hr⟩

/-! The start. -/

theorem mem_of_next {q : QueueSt} {c : Cmd} {all : Bool} (h : q.next = some (c, all)) : c ∈ q.cmds := by
  unfold QueueSt.next at h
  split at h
  · cases h
  · rename_i c' t e
    simp only [Option.some.injEq, Prod.mk.injEq] at h
    have : c' ∈ q.cmds.dropWhile fun c => c.phase == .running || c.isEnded := by simp [e]
    rw [← h.1]
    exact (List.dropWhile_sublist _).subset this

theorem Dev.cmd?_of_mem {d : Dev} {i : Nat} {c : Cmd} (h : c ∈ (d.queue i).cmds) : ∃ x, d.cmd? ⟨i, c.id⟩ = some x := by
  unfold Dev.cmd?
  simp only []
  cases e : (d.queue i).cmds.find? fun x => x.id == c.id with
  | some x => exact ⟨x, rfl⟩
  | none =>
    have := List.find?_eq_none.mp e c h
    simp at this

/-- Starting a command that its queue holds makes it run. -/
theorem State.started_running {s : State} {f : Fn} {q : Fin 8} {c x : Cmd} (hx : s.dev.cmd? ⟨qi f q, c.id⟩ = some x) :
    (s.started f q c).dev.Running ⟨qi f q, c.id⟩ := by
  refine ⟨{ x with phase := .running, secure := c.secure }, ?_, rfl⟩
  refine Dev.cmd?_updCmd _ _ (fun x => { x with phase := .running, secure := c.secure }) (fun _ => rfl) ?_
  refine (Dev.cmd?_congr (d := s.dev) ?_ _).trans hx
  exact congrArg HrqSt.queues (Reports.pmcDispatch (s.dev.needDomains c.domains) f q c).hrq

/-- An envelope that is accepted keeps its place in the queue. -/
theorem Dev.takeEnvelope_cmd {d d1 : Dev} {f : Fn} {q : Fin 8} {c : Cmd} (h : d.takeEnvelope f q = (d1, some c)) :
    ∃ x, d1.cmd? ⟨qi f q, c.id⟩ = some x := by
  unfold Dev.takeEnvelope at h
  cases hn : (d.queue (qi f q)).next with
  | none => simp [hn] at h
  | some ca =>
    obtain ⟨c0, all⟩ := ca
    simp only [hn] at h
    obtain ⟨x, hx⟩ := Dev.cmd?_of_mem (mem_of_next hn)
    repeat' split at h
    all_goals first
      | (simp only [Prod.mk.injEq, reduceCtorEq, and_false] at h; done)
      | (simp only [Prod.mk.injEq, Option.some.injEq] at h
         obtain ⟨h1, h2⟩ := h
         subst h2
         subst h1
         refine ⟨_, Dev.cmd?_updCmd _ _ _ ?_ (x := x) ?_⟩
         · exact fun _ => rfl
         · exact (Dev.cmd?_congr (d := d) rfl _).trans hx)

/-- A command that nothing holds back starts its engine. -/
theorem State.launch_clear {s : State} {f : Fn} {q : Fin 8} {c : Cmd} (h : s.dev.Clear f q c) (run : Run) :
    s.launch f q c run = run ⟨qi f q, c.id⟩ c (s.started f q c) := by
  obtain ⟨-, hh, hf, hr⟩ := h
  unfold State.launch
  simp only [hh, hf, hr, if_true]
  rfl

theorem State.startNext_bare {s : State} {f : Fn} {q : Fin 8} {c : Cmd} (h : s.Bare f q c) (ops : Nat → Bool) (hop : ops c.opcode = true) (run : Run) :
    s.startNext f q ops run = run ⟨qi f q, c.id⟩ c (s.started f q c) := by
  obtain ⟨c0, all, hn, hc, he, hm, hall, hcl⟩ := h
  have hl := State.launch_clear hcl run
  have hop' := hcl.1
  subst hc
  have h3 : (c0.flag 3 && !all) = false := by
    cases hb : c0.flag 3 with
    | false => rfl
    | true => simp [hall hb]
  have e1 : ({ c0 with secure := s.dev.secure f } : Cmd).opcode = c0.opcode := rfl
  rw [e1] at hop hop'
  unfold State.startNext
  dsimp only
  rw [hn]
  dsimp only
  rw [if_neg]
  · exact hl
  · simp [he, hop, hop', hm, h3]

theorem State.startIf_begins {s s0 : State} {f : Fn} {q : Fin 8} {c : Cmd} (h : s.Begins f q c s0) (p : Cmd → Bool)
    (hp : ∀ x : Cmd, x.lead = c.lead → x.conts = c.conts → p x = true) (run : Run) : s.startIf f q p run = run ⟨qi f q, c.id⟩ c s0 := by
  rcases h with ⟨h, rfl⟩ | ⟨s1, ⟨c0, all, hn, he, hl, hk, hid, hacc, hcl⟩, rfl⟩
  · have hb := h
    obtain ⟨c0, all, hn, hc, he, -⟩ := h
    have e1 : p c0 = true := hp c0 (by rw [hc]) (by rw [hc])
    unfold State.startIf
    simp only [hn, e1, he, Option.isSome_none, Bool.not_true, Bool.false_eq_true, if_false]
    exact State.startNext_bare hb _ rfl run
  · have e1 : p c0 = true := hp c0 hl.symm hk.symm
    have hstart : s1.startInner f q c run = run ⟨qi f q, c.id⟩ c (s1.started f q c) := by
      unfold State.startInner
      rw [if_pos hcl.1]
      exact State.launch_clear hcl run
    unfold State.startIf
    simp only [hn, e1, he, Bool.not_true, Bool.false_eq_true, if_false, if_true]
    unfold State.openEnvelope
    rcases hacc with ⟨ha, rfl⟩ | ⟨ha, ht, hm, hpd⟩
    · simp only [ha]
      exact hstart
    · have hs : ({ s with dev := s1.dev } : State) = s1 := by
        cases s1
        simp_all
      simp only [ha, ht, hs]
      exact hstart

/-- A command that begins runs when its engine starts. -/
theorem State.Begins.running {s s0 : State} {f : Fn} {q : Fin 8} {c : Cmd} (h : s.Begins f q c s0) : s0.dev.Running ⟨qi f q, c.id⟩ := by
  rcases h with ⟨⟨c0, all, hn, hc, -⟩, rfl⟩ | ⟨s1, ⟨c0, all, hn, he, hl, hk, hid, hacc, -⟩, rfl⟩
  · obtain ⟨x, hx⟩ := Dev.cmd?_of_mem (mem_of_next hn)
    have hid : c.id = c0.id := by rw [hc]
    exact State.started_running (by rw [hid]; exact hx)
  · rcases hacc with ⟨ha, rfl⟩ | ⟨ha, ht, -⟩
    · obtain ⟨x, hx⟩ := Dev.cmd?_of_mem (mem_of_next hn)
      exact State.started_running (by rw [hid]; exact hx)
    · obtain ⟨x, hx⟩ := Dev.takeEnvelope_cmd ht
      exact State.started_running hx

/-- The meaning of a row that starts a command with `startIf`. -/
theorem State.startIf_does {s s0 : State} {f : Fn} {q : Fin 8} {c : Cmd} (h : s.Begins f q c s0) (i : Instr) (p : Cmd → Bool) (run : Run)
    (hi : exec i s = .next (s.startIf f q p run)) (hp : ∀ x : Cmd, x.lead = c.lead → x.conts = c.conts → p x = true) {P : State → Prop}
    (hP : P (run ⟨qi f q, c.id⟩ c s0)) : Does s i P :=
  ⟨_, hi, by rw [State.startIf_begins h p hp run]; exact hP⟩

/-- The meaning of a row that starts a bare command with `startNext`. -/
theorem State.startNext_does {s : State} {f : Fn} {q : Fin 8} {c : Cmd} (h : s.Bare f q c) (i : Instr) (ops : Nat → Bool) (run : Run)
    (hi : exec i s = .next (s.startNext f q ops run)) (hop : ops c.opcode = true) {P : State → Prop}
    (hP : P (run ⟨qi f q, c.id⟩ c (s.started f q c))) : Does s i P :=
  ⟨_, hi, by rw [State.startNext_bare h ops hop run]; exact hP⟩

theorem State.Bare.running {s : State} {f : Fn} {q : Fin 8} {c : Cmd} (h : s.Bare f q c) : (s.started f q c).dev.Running ⟨qi f q, c.id⟩ :=
  State.Begins.running (Or.inl ⟨h, rfl⟩)

end Sys2Proof.Machine
end

