-- ==== Sys2Proof/Laws/Memory.lean ====
section
/-! SUPPORT. Device memory: every operation keeps its canonical form, leaves the queue of commands alone, and what one write leaves. -/

namespace Sys2Proof.Machine

/-- The queue of commands is left, and memory in canonical form stays in it. -/
structure State.Keeps (s t : State) : Prop where
  pending : t.pending = s.pending
  mem : s.Canonical → t.Canonical

theorem State.Keeps.refl (s : State) : s.Keeps s := ⟨rfl, id⟩

theorem State.Keeps.trans {s t u : State} (h : s.Keeps t) (k : t.Keeps u) : s.Keeps u := ⟨k.1.trans h.1, fun x => k.2 (h.2 x)⟩

theorem State.Keeps.onDev (s : State) (g : Dev → Dev) : s.Keeps (s.onDev g) := ⟨rfl, id⟩

/-- Whatever leaves the queue and memory alone keeps them. -/
theorem State.Keeps.of_eq {s t : State} (h : t.pending = s.pending) (hm : t.mem = s.mem) : s.Keeps t :=
  ⟨h, fun x => by unfold State.Canonical at *; rwa [hm]⟩

theorem State.Keeps.foldl {α : Type} (g : State → α → State) (hg : ∀ (s : State) a, s.Keeps (g s a)) (l : List α) (s : State) : s.Keeps (l.foldl g s) := by
  induction l generalizing s with
  | nil => exact .refl _
  | cons a t ih => exact (hg s a).trans (ih _)

/-! Canonical form. -/

theorem Mem.wf_setByte (m : Mem) (p : Nat) (b : Byte) (h : m.wf = true) : (m.setByte p b).wf = true := Tbl.wfD_putD _ _ _ _ h

@[simp] theorem Mem.wf_setPoison (m : Mem) (w : Nat) (v : Bool) : (m.setPoison w v).wf = m.wf := rfl

theorem Mem.wf_zero (m : Mem) (p n : Nat) (h : m.wf = true) : (m.zero p n).wf = true := Tbl.wfD_filter _ _ _ h

theorem Mem.wf_foldl {α : Type} (g : Mem → α → Mem) (hg : ∀ m a, m.wf = true → (g m a).wf = true) (l : List α) (m : Mem) (h : m.wf = true) :
    (l.foldl g m).wf = true := by
  induction l generalizing m with
  | nil => exact h
  | cons a t ih => exact ih _ (hg m a h)

theorem Mem.wf_copy (m : Mem) (src dst n : Nat) (h : m.wf = true) : (m.copy src dst n).wf = true := by
  unfold Mem.copy
  refine Mem.wf_foldl _ (fun m a h => ?_) _ _ (Mem.wf_foldl _ (fun m a h => ?_) _ _ (Mem.wf_zero _ _ _ h))
  · exact h
  · exact Mem.wf_setByte _ _ _ h

theorem Mem.wf_clearSram (m : Mem) (h : m.wf = true) : m.clearSram.wf = true := Tbl.wfD_filter _ _ _ h

theorem Mem.wf_clearHalves (m : Mem) (k : List Nat) (h : m.wf = true) : (m.clearHalves k).wf = true := Tbl.wfD_filter _ _ _ h

theorem Dev.storeByte_wf (d : Dev) (m : Mem) (a : Nat) (b : Byte) (h : m.wf = true) : (d.storeByte m a b).wf = true := by
  unfold Dev.storeByte
  dsimp only
  split
  · exact Mem.wf_setByte _ _ _ (Mem.wf_setByte _ _ _ h)
  · exact Mem.wf_setByte _ _ _ h

@[simp] theorem Dev.markWord_wf (d : Dev) (m : Mem) (a : Nat) (v : Bool) : (d.markWord m a v).wf = m.wf := by
  unfold Dev.markWord
  dsimp only
  split <;> rfl

@[simp] theorem Dev.markWord_cells (d : Dev) (m : Mem) (a : Nat) (v : Bool) : (d.markWord m a v).cells = m.cells := by
  unfold Dev.markWord
  dsimp only
  split <;> rfl

theorem Dev.storeBytes_wf (d : Dev) (m : Mem) (a : Nat) (bs : List Byte) (h : m.wf = true) : (d.storeBytes m a bs).wf = true := by
  induction bs generalizing m a with
  | nil => exact h
  | cons b t ih => exact ih _ _ (Dev.storeByte_wf _ _ _ _ h)

/-- Whatever leaves the queue alone and gives memory in canonical form. -/
theorem State.Keeps.of_wf {s t : State} (h : t.pending = s.pending) (hm : s.mem.wf = true → t.mem.wf = true) : s.Keeps t := ⟨h, hm⟩

theorem State.Keeps.setOwnByte (s : State) (a : Nat) (b : Byte) : s.Keeps (s.setOwnByte a b) := by
  unfold State.setOwnByte
  split
  · exact .onDev _ _
  · exact .of_wf rfl (Dev.storeByte_wf _ _ _ _)

theorem State.Keeps.refuseAt (s : State) (r : Req) (path a : Nat) (w : Bool) : s.Keeps (s.refuseAt r path a w) := .onDev _ _

theorem State.Keeps.markDirty (s : State) (r : Req) (a : Nat) : s.Keeps (s.markDirty r a) := by
  unfold State.markDirty
  split
  · exact .refl _
  · exact .setOwnByte _ _ _

theorem State.Keeps.storeWord (s : State) (a0 n0 a : Nat) (b : Byte) : s.Keeps (s.storeWord a0 n0 a b) := by
  unfold State.storeWord
  dsimp only
  split
  · exact .of_wf rfl fun h => Dev.storeByte_wf _ _ _ _ (by simpa using h)
  · split
    · split
      · exact .of_eq rfl rfl
      · exact .refl _
    · exact .of_wf rfl (Dev.storeByte_wf _ _ _ _)

theorem State.Keeps.storeAll (s : State) (a0 n0 a : Nat) (bs : List Byte) : s.Keeps (s.storeAll a0 n0 a bs) := by
  induction bs generalizing s a with
  | nil => exact .refl _
  | cons b t ih => exact (State.Keeps.storeWord _ _ _ _ _).trans (ih _ _)

theorem State.Keeps.storeLine (s : State) (r : Req) (a : Nat) (bs : List Byte) : s.Keeps (s.storeLine r a bs) :=
  (State.Keeps.storeAll _ _ _ _ _).trans (.markDirty _ _ _)

theorem State.Keeps.writeLines (s : State) (r : Req) (path out fuel a : Nat) (bs : List Byte) : s.Keeps (s.writeLines r path out fuel a bs).1 := by
  induction fuel generalizing s a bs with
  | zero => exact .refl _
  | succ n ih =>
    unfold State.writeLines
    split
    · exact .refl _
    · split
      · exact (State.Keeps.storeLine _ _ _ _).trans (ih _ _ _)
      · exact .of_eq rfl rfl

theorem State.Keeps.writeMem (s : State) (r : Req) (path a : Nat) (bs : List Byte) (out : Nat) : s.Keeps (s.writeMem r path a bs out).1 :=
  State.Keeps.writeLines _ _ _ _ _ _ _

/-- A read stores nothing. -/
theorem State.readLines_mem (s : State) (r : Req) (path out fuel a n : Nat) (acc : List Byte) :
    (s.readLines r path out fuel a n acc).1.mem = s.mem ∧ (s.readLines r path out fuel a n acc).1.pending = s.pending := by
  induction fuel generalizing a n acc with
  | zero => exact ⟨rfl, rfl⟩
  | succ k ih =>
    unfold State.readLines
    split
    · exact ⟨rfl, rfl⟩
    · split
      · dsimp only
        split
        · exact ih _ _ _
        · exact ⟨rfl, rfl⟩
      · exact ⟨rfl, rfl⟩

@[simp] theorem State.readMem_mem (s : State) (r : Req) (path a n out : Nat) : (s.readMem r path a n out).1.mem = s.mem := (State.readLines_mem _ _ _ _ _ _ _ _).1

theorem State.Keeps.readMem (s : State) (r : Req) (path a n out : Nat) : s.Keeps (s.readMem r path a n out).1 :=
  .of_eq (State.readLines_mem _ _ _ _ _ _ _ _).2 (State.readLines_mem _ _ _ _ _ _ _ _).1

/-- A read that succeeds leaves the machine as it is. -/
theorem State.readLines_ok (s : State) (r : Req) (path out fuel a n : Nat) (acc bs : List Byte) (h : (s.readLines r path out fuel a n acc).2 = .ok bs) :
    (s.readLines r path out fuel a n acc).1 = s := by
  induction fuel generalizing a n acc with
  | zero => rfl
  | succ k ih =>
    unfold State.readLines at h ⊢
    by_cases h0 : n = 0
    · rw [if_pos h0]
    · rw [if_neg h0] at h ⊢
      by_cases h1 : s.checkAccess r path a false out = true
      · rw [if_pos h1] at h ⊢
        dsimp only at h ⊢
        by_cases h2 : (s.badWords a (min n (64 - a % 64))).isEmpty = true
        · rw [if_pos h2] at h ⊢
          exact ih _ _ _ h
        · rw [if_neg h2] at h
          cases h
      · rw [if_neg h1] at h
        cases h

theorem State.readMem_ok {s : State} {r : Req} {path a n out : Nat} {bs : List Byte} (h : (s.readMem r path a n out).2 = .ok bs) :
    s.readMem r path a n out = (s, .ok bs) := Prod.ext (State.readLines_ok _ _ _ _ _ _ _ _ _ h) h

theorem State.Keeps.clearDirty (s : State) (first count : Nat) : s.Keeps (s.clearDirty first count) :=
  .foldl _ (fun _ _ => .setOwnByte _ _ _) _ _

theorem State.Keeps.zeroPage (s : State) (a : Nat) : s.Keeps (s.zeroPage a) := by
  refine .of_wf rfl fun h => Mem.wf_foldl _ (fun m k h => ?_) _ _ h
  dsimp only
  split
  · exact Mem.wf_zero _ _ _ (Mem.wf_zero _ _ _ h)
  · exact Mem.wf_zero _ _ _ h

theorem State.Keeps.initTable (s : State) : s.Keeps s.initTable := by
  unfold State.initTable
  refine State.Keeps.trans ?_ (.foldl _ (fun _ _ => .setOwnByte _ _ _) _ _)
  refine .of_wf rfl fun h => Mem.wf_foldl _ (fun m k h => ?_) _ _ h
  exact Mem.wf_zero _ _ _ h

theorem Dev.copyLine_wf (d : Dev) (m : Mem) (src dst p q : Nat) (h : m.wf = true) : (d.copyLine m src dst p q).wf = true := by
  unfold Dev.copyLine
  dsimp only
  split <;> exact Mem.wf_copy _ _ _ _ h

theorem State.Keeps.copyPage (s : State) (src dst : Nat) : s.Keeps (s.copyPage src dst) := by
  refine .of_wf rfl fun h => Mem.wf_foldl _ (fun m k h => ?_) _ _ h
  dsimp only
  split
  · exact Dev.copyLine_wf _ _ _ _ _ _ (Dev.copyLine_wf _ _ _ _ _ _ h)
  · exact Dev.copyLine_wf _ _ _ _ _ _ h

theorem State.Keeps.movePage (s : State) (src dst : Nat) : s.Keeps (s.movePage src dst) :=
  (((State.Keeps.copyPage _ _ _).trans (.setOwnByte _ _ _)).trans (.setOwnByte _ _ _)).trans (.zeroPage _ _)

theorem State.Keeps.dormantExit (s : State) : s.Keeps s.dormantExit := by
  unfold State.dormantExit
  have h : s.Keeps { s with
    mem := s.mem.clearHalves s.dev.retained
    dev := (s.dev.dormantReset.dormantShow s.dev).wakeEngineBack s.dev.wakeEngine } := .of_wf rfl (Mem.wf_clearHalves _ _)
  dsimp only
  split
  · exact h
  · exact (h.trans (.initTable _)).trans (.onDev _ _)

/-- The memory after reset. -/
theorem State.reset_canonical : State.reset.Canonical := rfl

/-! What a write of one byte leaves and gives. -/

theorem Mem.byte_setByte_same (m : Mem) (p : Nat) (b : Byte) (h : m.wf = true) : (m.setByte p b).byte p = b := Tbl.getD_putD_same _ _ _ _ h

theorem Mem.byte_setByte_ne (m : Mem) {p p' : Nat} (b : Byte) (h : p' ≠ p) : (m.setByte p b).byte p' = m.byte p' := Tbl.getD_putD_ne _ _ _ h

@[simp] theorem Mem.byte_setPoison (m : Mem) (w : Nat) (v : Bool) (p : Nat) : (m.setPoison w v).byte p = m.byte p := rfl

theorem Mem.byte_congr {m m' : Mem} (h : m'.cells = m.cells) (p : Nat) : m'.byte p = m.byte p := by
  unfold Mem.byte
  rw [h]

/-- A byte is stored in its place, and in the second bank while its bank migrates; every other place is left (R72). -/
theorem Dev.storeByte_other (d : Dev) (m : Mem) (a : Nat) (b : Byte) (p : Nat) (h : p ≠ d.place a) (h' : d.mirror a ≠ some p) :
    (d.storeByte m a b).byte p = m.byte p := by
  unfold Dev.storeByte
  dsimp only
  split
  · rename_i p' e
    rw [Mem.byte_setByte_ne, Mem.byte_setByte_ne _ _ h]
    rintro rfl
    exact h' e
  · exact Mem.byte_setByte_ne _ _ h

theorem Dev.storeByte_same (d : Dev) (m : Mem) (a : Nat) (b : Byte) (hw : m.wf = true) : (d.storeByte m a b).byte (d.place a) = b := by
  unfold Dev.storeByte
  dsimp only
  split
  · rename_i p' e
    by_cases hp : d.place a = p'
    · subst hp
      exact Mem.byte_setByte_same _ _ _ (Mem.wf_setByte _ _ _ hw)
    · rw [Mem.byte_setByte_ne _ _ hp, Mem.byte_setByte_same _ _ _ hw]
  · exact Mem.byte_setByte_same _ _ _ hw

/-! Whole ranges. -/

/-- A filtered table reads as the table where the filter keeps the key, and as nothing elsewhere. -/
theorem Tbl.getD_filter {α : Type} [DecidableEq α] (d : Nat → α) (t : List (Nat × α)) (q : Nat → Bool) (k : Nat) :
    Tbl.getD d (t.filter fun c => q c.1) k = if q k then Tbl.getD d t k else d k := by
  induction t with
  | nil => simp [Tbl.getD]
  | cons c r ih =>
    obtain ⟨k', v⟩ := c
    by_cases hq : q k' = true
    · rw [List.filter_cons_of_pos (by simpa using hq)]
      by_cases hk : k = k'
      · subst hk
        simp [Tbl.getD, hq]
      · simp only [Tbl.getD, hk, if_false]
        exact ih
    · rw [List.filter_cons_of_neg (by simpa using hq), ih]
      by_cases hk : k = k'
      · subst hk
        simp [hq]
      · simp [Tbl.getD, hk]

/-- A cleared range reads 0, and every other byte is left (R94). -/
theorem Mem.byte_zero (m : Mem) (p n q : Nat) : (m.zero p n).byte q = if p ≤ q ∧ q < p + n then 0 else m.byte q := by
  unfold Mem.byte Mem.zero
  rw [Tbl.getD_filter memDefault m.cells (fun k => !decide (p ≤ k ∧ k < p + n)) q]
  by_cases h : p ≤ q ∧ q < p + n
  · simp [h, memDefault]
  · simp [h]

/-- What a table of cells that is written byte by byte at an offset reads as. -/
theorem Mem.byte_foldl (l : List Host.Cell) (src dst : Nat) (m : Mem) (hm : m.wf = true) (hl : Tbl.wfD memDefault l = true) (hs : ∀ c ∈ l, src ≤ c.1)
    (q : Nat) : (l.foldl (fun z c => z.setByte (dst + (c.1 - src)) c.2) m).byte q =
      if dst ≤ q ∧ Tbl.getD memDefault l (src + (q - dst)) ≠ 0 then Tbl.getD memDefault l (src + (q - dst)) else m.byte q := by
  induction l generalizing m with
  | nil => simp [Tbl.getD, memDefault]
  | cons c r ih =>
    obtain ⟨k, v⟩ := c
    simp only [Tbl.wfD, Bool.and_eq_true, decide_eq_true_eq] at hl
    have hk : src ≤ k := hs (k, v) (by simp)
    rw [List.foldl_cons, ih _ (Mem.wf_setByte _ _ _ hm) hl.2 (fun c h => hs c (by simp [h]))]
    by_cases hd : dst ≤ q
    · by_cases he : src + (q - dst) = k
      · have hab : Tbl.getD memDefault r (src + (q - dst)) = 0 := by
          rw [he]
          exact Tbl.getD_above memDefault r hl.2 hl.1.2 (Nat.le_refl k)
        have hq : q = dst + (k - src) := by omega
        have hv : v ≠ 0 := hl.1.1
        simp only [hd, hab, true_and, ne_eq, not_true_eq_false, if_false]
        simp only [Tbl.getD, he, if_true]
        rw [if_pos hv, hq]
        exact Mem.byte_setByte_same _ _ _ hm
      · have hq : q ≠ dst + (k - src) := by omega
        simp only [Tbl.getD, he, if_false, Mem.byte_setByte_ne m v hq]
    · have hq : q ≠ dst + (k - src) := by omega
      simp only [hd, false_and, if_false, Mem.byte_setByte_ne m v hq]

/-- A copy reads as its source, and every other byte is left (R64, R65, R72). -/
theorem Mem.byte_copy (m : Mem) (src dst n q : Nat) (hm : m.wf = true) :
    (m.copy src dst n).byte q = if dst ≤ q ∧ q < dst + n then m.byte (src + (q - dst)) else m.byte q := by
  have h0 : ∀ (l : List (Nat × Bool)) (z : Mem), (l.foldl (fun z c => z.setPoison (dst + (c.1 - src)) c.2) z).byte q = z.byte q := by
    intro l
    induction l with
    | nil => intro z; rfl
    | cons a t ih => intro z; exact ih _
  unfold Mem.copy
  rw [h0, Mem.byte_foldl _ _ _ _ (Mem.wf_zero _ _ _ hm) (Tbl.wfD_filter _ _ _ hm) (fun c h => by
    have := (List.mem_filter.mp h).2
    simp only [decide_eq_true_eq] at this
    exact this.1)]
  rw [Tbl.getD_filter memDefault m.cells (fun k => decide (src ≤ k ∧ k < src + n)), Mem.byte_zero]
  by_cases hd : dst ≤ q ∧ q < dst + n
  · have h1 : src ≤ src + (q - dst) ∧ src + (q - dst) < src + n := by omega
    simp only [h1, decide_true, if_true, hd, and_self, true_and]
    by_cases hz : Tbl.getD memDefault m.cells (src + (q - dst)) = 0
    · simp only [hz, ne_eq, not_true_eq_false, if_false]
      exact hz.symm
    · simp only [ne_eq, hz, not_false_eq_true, if_true]
      rfl
  · rw [if_neg hd]
    by_cases h1 : dst ≤ q
    · have h2 : ¬(src + (q - dst) < src + n) := by omega
      simp [h2, hd, memDefault]
    · simp [h1]

end Sys2Proof.Machine
end

