-- ==== Sys2Proof/Laws/Mgt.lean ====
section
/-! SUPPORT. The checks that management commands share. -/

namespace Sys2Proof.Machine

theorem Cmd.u_congr {x c : Cmd} (h : x.lead = c.lead) (b n : Nat) : x.u b n = c.u b n := by
  unfold Cmd.u
  rw [h]

theorem Cmd.opcode_congr {x c : Cmd} (h : x.lead = c.lead) : x.opcode = c.opcode := by
  unfold Cmd.opcode
  rw [h]

/-- A byte of a field is below 256. -/
theorem le_one_lt (bs : List Byte) (b : Nat) : le bs b 1 < 256 := by
  have := (bs.getD b 0).isLt
  unfold le le
  omega

theorem le_lt (bs : List Byte) (b n : Nat) : le bs b n < 256 ^ n := by
  induction n generalizing b with
  | zero => simp [le]
  | succ n ih =>
    have h1 := (bs.getD b 0).isLt
    have h2 := ih (b + 1)
    unfold le
    rw [Nat.pow_succ]
    omega

theorem firstError_skip (b : Bool) (x : Nat × Nat) (l : List (Bool × Nat × Nat)) (hb : b = false) : firstError ((b, x) :: l) = firstError l := by
  subst hb
  rfl

/-- A command whose header and unnamed bytes hold nothing passes the shared checks. -/
theorem mgtHead_pass (f : Fn) (c : Cmd) (anyone : Bool) (named : Nat → Bool) (l : List (Bool × Nat × Nat))
    (ha : anyone = true ∨ mgtSubmitter f = true) (h : c.Plain named) : firstError (mgtHead f c anyone named ++ l) = firstError l := by
  obtain ⟨h1, h2, h3⟩ := h
  have e1 : (!anyone && !mgtSubmitter f) = false := by rcases ha with ha | ha <;> simp [ha]
  have e4 : ((List.range 32).any fun k => !named (32 + k) && c.u (32 + k) 1 != 0) = false := by
    rw [List.any_eq_false]
    intro k hk
    have hk' := List.mem_range.mp hk
    cases hn : named (32 + k) with
    | true => simp
    | false => simp [h3 k hk' hn]
  unfold mgtHead
  simp only [List.cons_append, List.nil_append]
  rw [firstError_skip _ _ _ e1, firstError_skip _ _ _ (by simp [h1]), firstError_skip _ _ _ (by simp [h2]), firstError_skip _ _ _ e4]

end Sys2Proof.Machine
end

