-- ==== Sys2Proof/Laws/Notices.lean ====
section
/-! SUPPORT. What notices, records and completions change beside the queues: nothing but registers of the queues and what is told. -/

namespace Sys2Proof.Machine

/-- The registers of the queues and those in which something is told. -/
def Reg.records : Reg → Bool
  | .HRQ_Q_PTR | .HRQ_Q_STAT => true
  | r => r.tells

/-- From `d` to `e` only queues, records and what is told have changed. -/
structure Records (d e : Dev) : Prop where
  live : e.live = d.live
  time : e.time = d.time
  pace : e.pace = d.pace
  msys : e.msys = d.msys
  own : e.own = d.own
  keys : e.hrq.keys = d.hrq.keys
  ports : e.ports = d.ports
  busMaster : e.busMaster = d.busMaster
  notD0 : e.notD0 = d.notD0
  pci : e.pci = d.pci
  mgt : { e.mgt with log := d.mgt.log, nextSeq := d.mgt.nextSeq, logFifo := d.mgt.logFifo } = d.mgt
  disp : e.disp = d.disp
  vin : e.vin = d.vin
  gpu : e.gpu = d.gpu
  mbx : e.mbx = d.mbx
  tch : e.tch = d.tch
  hap : e.hap = d.hap
  aud : e.aud = d.aud
  part : e.part = d.part
  pwr : e.pwr = d.pwr
  reg : ∀ r i, r.records = false → e.reg r i = d.reg r i
  wf : d.regsWf = true → e.regsWf = true

theorem Reg.records_of_tells {r : Reg} (h : r.records = false) : r.tells = false := by cases r <;> first | exact h | cases h

theorem Reports.records {d e : Dev} (h : Reports d e) : Records d e :=
  ⟨h.live, h.time, h.pace, h.msys, h.own, by rw [h.hrq], h.ports, h.busMaster, h.notD0, h.pci, h.mgt, h.disp, h.vin, h.gpu, h.mbx, h.tch, h.hap, h.aud,
    h.part, h.pwr, fun r i hr => h.reg r i (Reg.records_of_tells hr), h.wf⟩

theorem Records.refl (d : Dev) : Records d d := (Reports.refl d).records

theorem Records.trans {a b c : Dev} (h : Records a b) (k : Records b c) : Records a c := by
  obtain ⟨h1, h2, h3, h4, h5, h6, h7, h8, h9, h10, h11, h12, h13, h14, h15, h16, h17, h18, h19, h20, h21, h22⟩ := h
  obtain ⟨k1, k2, k3, k4, k5, k6, k7, k8, k9, k10, k11, k12, k13, k14, k15, k16, k17, k18, k19, k20, k21, k22⟩ := k
  refine ⟨k1.trans h1, k2.trans h2, k3.trans h3, k4.trans h4, k5.trans h5, k6.trans h6, k7.trans h7, k8.trans h8, k9.trans h9, k10.trans h10, ?_, k12.trans h12,
    k13.trans h13, k14.trans h14, k15.trans h15, k16.trans h16, k17.trans h17, k18.trans h18, k19.trans h19, k20.trans h20,
    fun r i hr => (k21 r i hr).trans (h21 r i hr), fun hw => k22 (h22 hw)⟩
  rw [← h11]
  rw [← h11] at h11
  have := congrArg (fun m : MgtSt => { m with log := a.mgt.log, nextSeq := a.mgt.nextSeq, logFifo := a.mgt.logFifo }) k11
  simp only at this
  exact this

theorem Records.f {d e : Dev} (h : Records d e) (F : Fld) (i : Nat) (hF : F.reg.records = false) : e.f F i = d.f F i := by
  unfold Dev.f
  rw [h.reg _ _ hF]

theorem Records.fb {d e : Dev} (h : Records d e) (F : Fld) (i : Nat) (hF : F.reg.records = false) : e.fb F i = d.fb F i := by
  unfold Dev.fb
  rw [h.f F i hF]

theorem Records.fl {d e : Dev} (h : Records d e) (F : Fld) (i : Nat) : e.fl F i = d.fl F i := by
  unfold Dev.fl Dev.liveReg
  rw [h.live]

theorem Records.mgtPart {d e : Dev} (h : Records d e) {α : Type} (g : MgtSt → α)
    (hg : ∀ (m : MgtSt) l n f, g { m with log := l, nextSeq := n, logFifo := f } = g m) : g e.mgt = g d.mgt := by
  have := congrArg g h.mgt
  rwa [hg] at this

theorem Records.setQueue (d : Dev) (i : Nat) (q : QueueSt) : Records d (d.setQueue i q) := by
  constructor <;> first | rfl | (intros; first | rfl | assumption)

theorem Records.setReg (d : Dev) (r : Reg) (i : Nat) (v : Word) (hr : r.records = true) : Records d (d.setReg r i v) := by
  constructor <;> first
    | rfl
    | exact fun r' j hr' => Dev.reg_setReg_ne _ _ (fun e => by simp [e.1, hr] at hr')
    | exact Dev.regsWf_setReg _ _ _ _

theorem Records.setF (d : Dev) (F : Fld) (i n : Nat) (hr : F.reg.records = true) : Records d (d.setF F i n) := Records.setReg _ _ _ _ hr

theorem Records.winWrite (d : Dev) (a : Nat) (bs : List Byte) : Records d (d.winWrite a bs) := by
  constructor <;> first | rfl | (intros; first | rfl | assumption)

theorem Records.foldl {α : Type} (g : Dev → α → Dev) (hg : ∀ d a, Records d (g d a)) (l : List α) (d : Dev) : Records d (l.foldl g d) := by
  induction l generalizing d with
  | nil => exact Records.refl _
  | cons a t ih => exact (hg d a).trans (ih _)

theorem Records.queueInterrupt (d : Dev) (f : Fn) (q : Fin 8) : Records d (d.queueInterrupt f q) := by
  unfold Dev.queueInterrupt
  dsimp only
  split
  · exact Records.setQueue _ _ _
  · exact (Records.setQueue _ _ _).trans (Reports.sendMsix _ _ _).records

theorem Records.coalesce (d : Dev) (f : Fn) (q : Fin 8) (b : Bool) : Records d (d.coalesce f q b) := by
  unfold Dev.coalesce
  dsimp only
  split
  · exact Records.queueInterrupt _ _ _
  · exact Records.refl _

/-- A record joins its ring. -/
theorem Records.putRecord (d : Dev) (f : Fn) (q : Fin 8) (tag st res lt : Nat) (n i p : Bool) : Records d (d.putRecord f q tag st res lt n i p) := by
  unfold Dev.putRecord
  dsimp only
  split
  · refine Records.trans ?_ (Records.coalesce _ _ _ _)
    split
    · exact ((Records.setQueue _ _ _).trans (Records.setF _ _ _ _ rfl)).trans (Records.winWrite _ _ _)
    · exact ((Records.setQueue _ _ _).trans (Records.setF _ _ _ _ rfl)).trans (Reports.post _ _ _ _ _).records
  · exact ((((Records.setQueue _ _ _).trans (Records.setF _ _ _ _ rfl)).trans (Records.setF _ _ _ _ rfl)).trans (Records.setF _ _ _ _ rfl)).trans
      (Reports.raise _ _).records

/-- A notice is written or counted as lost. -/
theorem Records.noticeAt (d : Dev) (t c ty src st res : Nat) : Records d (d.noticeAt t c ty src st res) := by
  unfold Dev.noticeAt
  split
  · exact Records.refl _
  · exact Records.refl _
  · split
    · exact Records.refl _
    · split
      · exact (Records.setF _ _ _ _ rfl).trans (Reports.raise _ _).records
      · exact (Reports.free1 _).records.trans (Records.putRecord _ _ _ _ _ _ _ _ _ _)

theorem Records.notice (d : Dev) (c ty src st res : Nat) : Records d (d.notice c ty src st res) := Records.noticeAt _ _ _ _ _ _ _

theorem Records.updCmd (d : Dev) (c : CmdRef) (g : Cmd → Cmd) : Records d (d.updCmd c g) := Records.setQueue _ _ _

theorem Records.endCmd (d : Dev) (c : CmdRef) (st res : Nat) : Records d (d.endCmd c st res) := by
  obtain ⟨h, e, hk, -⟩ := Dev.endCmd_shape d c st res
  rw [e]
  constructor <;> first | rfl | exact hk | (intros; first | rfl | assumption)

end Sys2Proof.Machine
end

