-- ==== Sys2Proof/Laws/Writes.lean ====
section
/-! SUPPORT. What a register write gives, field by field (R644). -/

namespace Sys2Proof.Machine

/-- Two fields of a word do not meet. -/
def FieldDesc.apart (a b : FieldDesc) : Bool := decide (a.lo + a.w ≤ b.lo) || decide (b.lo + b.w ≤ a.lo)

/-- Fields of every register lie in its word and do not meet. -/
theorem Reg.fields_apart (r : Reg) : r.fields.Pairwise (fun a b => a.apart b = true) ∧ ∀ fd ∈ r.fields, fd.lo + fd.w ≤ 32 := by
  cases r <;> decide

/-- A field as bits, for reasoning. -/
theorem FieldDesc.of_eq (fd : FieldDesc) (v : Word) : fd.of v = (v.toNat >>> fd.lo) % 2 ^ fd.w := by
  unfold FieldDesc.of
  rw [Nat.shiftRight_eq_div_pow]

theorem FieldDesc.of_testBit (fd : FieldDesc) (v : Word) (j : Nat) : (fd.of v).testBit j = (decide (j < fd.w) && v.getLsbD (fd.lo + j)) := by
  rw [FieldDesc.of_eq, Nat.testBit_mod_two_pow, Nat.testBit_shiftRight]
  rfl

/-- Writing zeros to a field that ones clear leaves it. -/
theorem FieldDesc.of_clear (fd : FieldDesc) (old val : Word) (h : fd.of val = 0) : fd.of (old &&& ~~~val) = fd.of old := by
  apply Nat.eq_of_testBit_eq
  intro j
  have hj := fd.of_testBit val j
  rw [h, Nat.zero_testBit] at hj
  rw [fd.of_testBit, fd.of_testBit]
  by_cases hw : j < fd.w
  · simp only [hw, decide_true, Bool.true_and] at hj ⊢
    rw [BitVec.getLsbD_and, BitVec.getLsbD_not, ← hj]
    by_cases h32 : fd.lo + j < 32
    · simp [h32]
    · simp only [h32, decide_false, Bool.false_and, Bool.and_false]
      exact (BitVec.getLsbD_of_ge _ _ (by omega)).symm
  · simp [hw]

theorem FieldDesc.of_lt (fd : FieldDesc) (v : Word) : fd.of v < 2 ^ fd.w := Nat.mod_lt _ (Nat.two_pow_pos _)

theorem FieldDesc.of_store (fd : FieldDesc) (r : Reg) (cur old val : Word) (hc : fd.of cur = fd.of old) (hl : fd.lo + fd.w ≤ 32) :
    fd.of (fd.store r cur old val) = fd.after old val := by
  have hp : ∀ n, n < 2 ^ fd.w → fd.of ((⟨r, fd.lo, fd.w⟩ : Fld).put cur n) = n := by
    intro n hn
    exact (Fld.get_put ⟨r, fd.lo, fd.w⟩ cur n hl).trans (Nat.mod_eq_of_lt hn)
  unfold FieldDesc.store FieldDesc.after
  cases fd.acc <;> first | exact hc | exact hp _ (fd.of_lt _)

theorem FieldDesc.of_store_apart (fd g : FieldDesc) (r : Reg) (cur old val : Word) (hl : fd.lo + fd.w ≤ 32) (ha : fd.apart g = true) :
    g.of (fd.store r cur old val) = g.of cur := by
  have hp : ∀ n, g.of ((⟨r, fd.lo, fd.w⟩ : Fld).put cur n) = g.of cur := by
    intro n
    refine Fld.get_put_apart ⟨r, fd.lo, fd.w⟩ ⟨r, g.lo, g.w⟩ cur n hl ?_
    simp only [FieldDesc.apart, Bool.or_eq_true, decide_eq_true_eq] at ha
    exact ha.symm
  unfold FieldDesc.store
  cases fd.acc <;> first | rfl | exact hp _

theorem FieldDesc.after_of_not_hit (fd : FieldDesc) (old val : Word) (h : fd.hits old val = false) : fd.after old val = fd.of old := by
  unfold FieldDesc.hits at h
  unfold FieldDesc.after
  cases ha : fd.acc <;> simp only [ha] at h ⊢
  · simpa using h
  · exact FieldDesc.of_clear _ _ _ (by simpa using h)
  · simpa using h

/-- A write of which no rule refuses a field: each field holds what its access code says, and no refusal is told. -/
theorem writeFields_accepted (r : Reg) (sec running : Bool) (extra : FieldDesc → Bool) (old val : Word) (l : List FieldDesc)
    (hp : l.Pairwise (fun a b => a.apart b = true)) (hl : ∀ fd ∈ l, fd.lo + fd.w ≤ 32)
    (ok : ∀ fd ∈ l, fd.hits old val = true → fd.refused sec running = false ∧ extra fd = false) (cur : Word) (w : Bool)
    (hc : ∀ fd ∈ l, fd.of cur = fd.of old) :
    (∀ g : FieldDesc, (∀ fd ∈ l, fd.apart g = true) → g.of (writeFields r sec running extra old val l cur w).1 = g.of cur) ∧
    (∀ fd ∈ l, fd.of (writeFields r sec running extra old val l cur w).1 = fd.after old val) ∧
    (writeFields r sec running extra old val l cur w).2 = w := by
  induction l generalizing cur w with
  | nil => exact ⟨fun _ _ => rfl, fun _ h => by simp at h, rfl⟩
  | cons a t ih =>
    have hpa := List.pairwise_cons.mp hp
    have hla := hl a (by simp)
    have comm : ∀ {x y : FieldDesc}, x.apart y = true → y.apart x = true := by
      intro x y h
      simp only [FieldDesc.apart, Bool.or_eq_true, decide_eq_true_eq] at h ⊢
      exact h.symm
    unfold writeFields
    by_cases hh : a.hits old val = true
    · obtain ⟨h1, h2⟩ := ok a (by simp) hh
      simp only [hh, h1, h2, Bool.or_self, if_true, Bool.false_eq_true, if_false]
      have hc' : ∀ fd ∈ t, fd.of (a.store r cur old val) = fd.of old := fun fd hfd => by
        rw [FieldDesc.of_store_apart a fd r cur old val hla (hpa.1 fd hfd)]
        exact hc fd (by simp [hfd])
      obtain ⟨i1, i2, i3⟩ := ih hpa.2 (fun fd h => hl fd (by simp [h])) (fun fd h => ok fd (by simp [h])) _ w hc'
      refine ⟨fun g hg => ?_, fun fd hfd => ?_, i3⟩
      · rw [i1 g (fun fd h => hg fd (by simp [h])), FieldDesc.of_store_apart a g r cur old val hla (hg a (by simp))]
      · rcases List.mem_cons.mp hfd with rfl | hfd
        · rw [i1 fd (fun x hx => comm (hpa.1 x hx)), FieldDesc.of_store _ _ _ _ _ (hc fd (by simp)) hla]
        · exact i2 fd hfd
    · have hh' : a.hits old val = false := by simpa using hh
      simp only [hh', Bool.false_eq_true, if_false]
      obtain ⟨i1, i2, i3⟩ := ih hpa.2 (fun fd h => hl fd (by simp [h])) (fun fd h => ok fd (by simp [h])) cur w (fun fd h => hc fd (by simp [h]))
      refine ⟨fun g hg => i1 g (fun fd h => hg fd (by simp [h])), fun fd hfd => ?_, i3⟩
      rcases List.mem_cons.mp hfd with rfl | hfd
      · rw [i1 fd (fun x hx => comm (hpa.1 x hx)), FieldDesc.after_of_not_hit _ _ _ hh', hc fd (by simp)]
      · exact i2 fd hfd

/-- The device after a write that no rule refuses: its register takes the new fields, and nothing but its power and its clock follows. -/
theorem Dev.write_accepted (d : Dev) (who : Fn) (r : Reg) (i : Nat) (val : Word) (extra : FieldDesc → Bool)
    (ok : ∀ fd ∈ r.fields, fd.hits (d.reg r i) (d.stored r i val) = true → fd.refused (d.secure who) (d.running r i) = false ∧
      (d.lockedOut who r i || extra fd) = false) :
    ∃ v, d.writeX who r i val extra = ((d.demandDomain r i).setReg r i v).demandClock r i ∧
      ∀ fd ∈ r.fields, fd.of v = fd.after (d.reg r i) (d.stored r i val) := by
  obtain ⟨h1, h2⟩ := Reg.fields_apart r
  obtain ⟨-, i2, i3⟩ := writeFields_accepted r (d.secure who) (d.running r i) (fun fd => d.lockedOut who r i || extra fd) (d.reg r i) (d.stored r i val)
    r.fields h1 h2 ok (d.reg r i) false (fun _ _ => rfl)
  refine ⟨_, ?_, i2⟩
  unfold Dev.writeX
  simp only [i3, Bool.false_eq_true, if_false]

/-- A write whose every field that it hits is refused leaves the register, and the block's flag tells it (R14, R15). -/
theorem writeFields_refused (r : Reg) (sec running : Bool) (extra : FieldDesc → Bool) (old val : Word) (l : List FieldDesc)
    (no : ∀ fd ∈ l, fd.hits old val = true → (fd.refused sec running || extra fd) = true) (cur : Word) (w : Bool) :
    writeFields r sec running extra old val l cur w = (cur, w || l.any fun fd => fd.hits old val) := by
  induction l generalizing w with
  | nil => simp [writeFields]
  | cons a t ih =>
    unfold writeFields
    by_cases hh : a.hits old val = true
    · have h1 := no a (by simp) hh
      rw [if_pos hh, if_pos h1, ih (fun fd h => no fd (by simp [h]))]
      simp [hh]
    · have hh' : a.hits old val = false := by simpa using hh
      rw [if_neg hh, ih (fun fd h => no fd (by simp [h]))]
      simp [hh']

/-- Power for a register's domain and its clock touch nothing else. -/
theorem Dev.demandDomain_reg (d : Dev) (r : Reg) (i : Nat) {r' : Reg} (j : Nat) (h : r' ≠ .PWR_DOM_STAT) : (d.demandDomain r i).reg r' j = d.reg r' j := by
  unfold Dev.demandDomain
  split
  · exact Dev.reg_setReg_reg _ _ _ _ h
  · rfl

theorem Dev.demandClock_reg (d : Dev) (r : Reg) (i : Nat) {r' : Reg} (j : Nat) (h : r' ≠ .PWR_CLK_STAT) : (d.demandClock r i).reg r' j = d.reg r' j := by
  unfold Dev.demandClock
  split
  · split
    · exact Dev.reg_setReg_reg _ _ _ _ h
    · rfl
  · rfl

end Sys2Proof.Machine
end

