-- ==== Sys2Proof/WellFormed.lean ====
section
/-! DEFINITION. Which operands describe something that can reach the block: offsets inside their BAR, accesses inside one 64-byte line, and
measurements of the widths and counts that the rules give. A meaning is total on every operand; these checks say which are of interest. -/

namespace Sys2Proof

/-- An offset lies inside the BAR0 of a function (R119, R634, R636). -/
def Fn.bar0 (f : Fn) (off : Nat) : Bool :=
  match f with
  | .vf _ => decide (off < 2 ^ 20)
  | _ => decide (off < 2 ^ 26)

/-- An access to device memory lies inside one 64-byte line, and a write carries its bytes (R54, R88). -/
def lineAccess (write : Bool) (addr len : Nat) (data : List Byte) : Bool :=
  if write then decide (1 ≤ data.length ∧ addr % 64 + data.length ≤ 64) else decide (1 ≤ len ∧ addr % 64 + len ≤ 64)

/-- Descriptors of one read: one to eight of 64 bytes (R126, R128). -/
def descriptorBlock (ds : List (List Byte)) : Bool := decide (1 ≤ ds.length ∧ ds.length ≤ 8) && ds.all fun d => d.length == 64

/-- Every number of a list is below a bound. -/
def allBelow (n : Nat) (xs : List Nat) : Bool := xs.all fun x => decide (x < n)

/-- A line of a camera has at least one pixel, and colour samples for no more pixels than it has (R305). -/
def VideoLine.wf (l : VideoLine) : Bool := decide (1 ≤ l.pixels.length ∧ l.chroma.length ≤ l.pixels.length)

/-- Words of the serial ports: 16 slots of 8 ports, and two channels of 4 microphones inputs (R439, R440). -/
def AudioIn.wf (a : AudioIn) : Bool := a.tdm.length == 128 && a.pdm.length == 8

/-- The LPDDR5X fitted has a supported capacity (R79). -/
def Straps.wf (s : Straps) : Bool := s.gib == 4 || s.gib == 8 || s.gib == 16 || s.gib == 32

/-- The code finds something in no more words than a line has (R62). -/
def eccs (es : List Ecc) : Bool := decide (es.length ≤ 8)

/-- The checks, by constructor; every other command's operands are bounded by their types. -/
def Instr.wf : Instr → Bool
  | .registerWrite who off _ _ | .lowWordWrite who off _ | .highWordWrite who off _ | .snapshotRead who off | .rcRead who off => who.bar0 off
  | .probeWindow paces => paces.length == 64 && allBelow (2 ^ 16) paces
  | .memoryAccess a _ => lineAccess a.write a.addr a.len a.data && eccs a.ecc
  | .walkRegion _ poisoned | .migrationCopyRegion _ poisoned _ => allBelow 4096 poisoned
  | .walkTestEnd failing corrected clean => allBelow 8192 failing && allBelow 8192 corrected && allBelow 8192 clean
  | .jtagMemoryAccess w addr len data es => lineAccess w addr len data && eccs es
  | .barMemoryAccess who off w len data es _ _ =>
    lineAccess w off len data && eccs es && decide (off < match who with | .vf _ => 2 ^ 28 | _ => 2 ^ 36)
  | .sp0Read addr len _ => decide (addr + len ≤ 2 ^ 32)
  | .sp0Write addr data _ => decide (addr + data.length ≤ 2 ^ 32)
  | .doorbellSqTail _ _ idx | .doorbellCqHead _ _ idx => decide (idx < 2 ^ 32)
  | .descriptorData _ _ (some ds) _ _ => descriptorBlock ds
  | .lineReceived _ _ l => l.wf
  | .hapticPwmPeriod _ xs => xs.length == 4
  | .trackingGap _ xs => xs.length == 12
  | .sampleBoundary ins => ins.wf
  | .sensorUpdate temps mvs => temps.length == 24 && mvs.length == 16 && allBelow (2 ^ 13) mvs
  | .agingUpdate drifts => drifts.length == 32
  | .porstDeassert st => st.wf
  | .peerRequest _ (.access _ w addr len data es _) _ => lineAccess w addr len data && eccs es
  | _ => true

end Sys2Proof
end

