-- ==== Sys2Proof/Tests/Slice0.lean ====
section
/-! SUPPORT. The checks of WellFormed, values that the specification gives, and for every statement the states and operands that meet the premises of
each of its clauses. -/

open Sys2Proof Sys2Proof.Machine

namespace Sys2Proof.Tests

set_option maxRecDepth 100000
set_option Elab.async false

/-- Two host ports that are up, with their PFs as bus masters. -/
def hostUp (d : Dev) : Dev :=
  { d with ports := (d.ports.put 0 { linkUp := true, inReset := false, enabled := true, numVfs := 2, vfEnable := true }).put 1
              { linkUp := true, inReset := false, enabled := true }
           busMaster := ((d.busMaster.put 4 true).put 5 true).put 0x10 true }

/-- A device that is on: firmware runs, 4 GiB of LPDDR5X are trained, the ownership table stands at the bottom of them, and VF 0 runs. -/
def base : Dev :=
  (hostUp { pwr := { phase := .on }, mgt := { phase := .running, bootSel := 0 }, msys := { ddrBytes := 2 ^ 32, trained := true }
            own := { tableBase := ddrBase } }).setF GLB_VF_STAT.STATE 0 1

def st (g : Dev → Dev) : State := { pending := [], mem := {}, dev := g base }

/-- A class L field holds a value, which is in force. -/
def putL (F : Fld) (i v : Nat) (d : Dev) : Dev :=
  let d1 := d.setF F i v
  { d1 with live := Tbl.putD regDefault d1.live (F.reg.key i) (d1.reg F.reg i) }

/-- A command of an opcode whose body from byte 32 on begins with the bytes given. -/
def cmdOf (op : Nat) (body : List Nat) : Cmd :=
  { lead := BitVec.ofNat 8 op :: List.replicate 31 0 ++ body.map (BitVec.ofNat 8) ++ List.replicate (32 - body.length) 0 }

/-- Queue 0 of a function holds one command. -/
def queued (f : Fn) (ty : Nat) (c : Cmd) (d : Dev) : Dev :=
  ((d.setQueue (qi f 0) { cmds := [c] }).setF HRQ_Q_CFG.ENABLE (qi f 0) 1).setF HRQ_Q_CFG.TYPE (qi f 0) ty

/-- A state in which a bare command is next in queue 0 of a function. -/
def bare (f : Fn) (ty op : Nat) (body : List Nat) (g : Dev → Dev) : State := st fun d => queued f ty (cmdOf op body) (g d)

/-- A state in which the inner command of an accepted envelope is next in queue 0 of a function. -/
def enved (f : Fn) (ty op : Nat) (body : List Nat) (g : Dev → Dev) : State :=
  st fun d => queued f ty { cmdOf op body with env := some { header := [], inner := [], badExtent := false, accepted := true } } (g d)

/-- The command that is next in queue 0, as its engine sees it. -/
def inner (s : State) (f : Fn) : Cmd :=
  match (s.dev.queue (qi f 0)).next with
  | some (c, _) => if c.env.isSome then c else { c with secure := s.dev.secure f }
  | none => {}

/-- The command as its engine sees it. -/
def Cmd.inWorld (s : State) (f : Fn) (c : Cmd) : Cmd := { c with secure := s.dev.secure f }

/-- Pages of the device memory that a code owns. -/
def owned (c n : Nat) (a : Nat) (s : State) : State := (List.range n).foldl (fun s k => s.setOwnByte (a + 4096 * k) (BitVec.ofNat 8 c)) s


/-- Bytes stored from an address on. -/
def loaded (a : Nat) (img : List Byte) (s : State) : State :=
  { s with mem := img.zipIdx.reverse.foldl (fun m x => s.dev.storeByte m (a + x.2) x.1) s.mem }

/-! The premises of the statements that are not decidable as they stand. -/

def bareB (s : State) (f : Fn) (q : Fin 8) (c : Cmd) : Bool :=
  match (s.dev.queue (qi f q)).next with
  | some (c0, all) => decide (c = { c0 with secure := s.dev.secure f } ∧ c0.env = none ∧ s.dev.mayStart f (qi f q) = true ∧
      (c0.flag 3 = true → all = true) ∧ s.dev.opcodeOk (qi f q) c.opcode = true ∧ s.dev.headerFault f c = none ∧
      s.dev.fenceReached c = true ∧ s.dev.roomFor c = true)
  | none => false

theorem bare_of {s : State} {f : Fn} {q : Fin 8} {c : Cmd} (h : bareB s f q c = true) : s.Bare f q c := by
  unfold bareB at h
  split at h
  · next c0 all hn =>
    obtain ⟨a, b, e, g, i⟩ := of_decide_eq_true h
    exact ⟨c0, all, hn, a, b, e, g, i⟩
  · cases h

def acceptedB (s : State) (f : Fn) (q : Fin 8) (c : Cmd) : Bool :=
  match (s.dev.queue (qi f q)).next with
  | some (c0, _) => decide (c0.env.isSome = true ∧ c.lead = c0.lead ∧ c.conts = c0.conts ∧ c.id = c0.id ∧ s.dev.acceptedNext f q = some c ∧
      s.dev.opcodeOk (qi f q) c.opcode = true ∧ s.dev.headerFault f c = none ∧ s.dev.fenceReached c = true ∧ s.dev.roomFor c = true)
  | none => false

theorem accepted_of {s : State} {f : Fn} {q : Fin 8} {c : Cmd} (h : acceptedB s f q c = true) : s.Accepted f q c s := by
  unfold acceptedB at h
  split at h
  · next c0 all hn =>
    obtain ⟨a, b, e, g, i, j⟩ := of_decide_eq_true h
    exact ⟨c0, all, hn, a, b, e, g, Or.inl ⟨i, rfl⟩, j⟩
  · cases h

theorem begins_bare {s : State} {f : Fn} {q : Fin 8} {c : Cmd} (h : bareB s f q c = true) : s.Begins f q c (s.started f q c) :=
  Or.inl ⟨bare_of h, rfl⟩

theorem begins_accepted {s : State} {f : Fn} {q : Fin 8} {c : Cmd} (h : acceptedB s f q c = true) : s.Begins f q c (s.started f q c) :=
  Or.inr ⟨s, accepted_of h, rfl⟩

theorem running_of {d : Dev} {r : CmdRef} (h : (d.cmd? r).map (·.phase) = some .running) : d.Running r := by
  obtain ⟨x, hx, hp⟩ := Option.map_eq_some_iff.mp h
  exact ⟨x, hx, hp⟩

theorem accepts_of {d : Dev} {who : Fn} {r : Reg} {i : Nat} {v : Word} (h : d.lockedOut who r i = false ∧
    ∀ fd ∈ r.fields, fd.hits (d.reg r i) (d.stored r i v) = true → fd.refused (d.secure who) (d.running r i) = false) : d.Accepts who r i v := h

theorem plain_of {c : Cmd} {n : Nat → Bool} (h : c.ext = 0 ∧ c.conts = [] ∧ ∀ k < 32, n (32 + k) = false → c.u (32 + k) 1 = 0) : c.Plain n := h

theorem canonical_of {s : State} (h : s.mem.wf = true) : s.Canonical := h

/-! The checks of WellFormed refuse an ill-formed term, and pass one at the boundary. -/

theorem test_wf_offset_pf : (Instr.registerWrite (.pf 0) (2 ^ 26) 0xF 0).wf = false ∧ (Instr.registerWrite (.pf 0) (2 ^ 26 - 4) 0xF 0).wf = true := by decide
theorem test_wf_offset_vf : (Instr.rcRead (.vf 3) (2 ^ 20)).wf = false ∧ (Instr.snapshotRead (.vf 3) (2 ^ 20 - 4)).wf = true := by decide
theorem test_wf_offset_low_word : (Instr.lowWordWrite .acholt (2 ^ 26) 0).wf = false ∧ (Instr.highWordWrite (.vf 0) (2 ^ 20) 0).wf = false := by decide
theorem test_wf_probe_window : (Instr.probeWindow (List.replicate 63 0)).wf = false ∧ (Instr.probeWindow (List.replicate 64 65536)).wf = false ∧
    (Instr.probeWindow (List.replicate 64 65535)).wf = true := by decide
theorem test_wf_line_read : (Instr.memoryAccess { work := .canopy 0, write := false, addr := 1, len := 64, data := [], ecc := [], ns := 0 } []).wf = false ∧
    (Instr.memoryAccess { work := .canopy 0, write := false, addr := 0, len := 64, data := [], ecc := [], ns := 0 } []).wf = true := by decide
theorem test_wf_line_write : (Instr.memoryAccess { work := .canopy 0, write := true, addr := 0, len := 0, data := [], ecc := [], ns := 0 } []).wf = false := by decide
theorem test_wf_walk_region : (Instr.walkRegion 0 [4096]).wf = false ∧ (Instr.walkRegion 0 [4095]).wf = true := by decide
theorem test_wf_walk_test : (Instr.walkTestEnd [8192] [] []).wf = false ∧ (Instr.walkTestEnd [] [8192] []).wf = false ∧ (Instr.walkTestEnd [] [] [8192]).wf = false := by
  decide
theorem test_wf_jtag : (Instr.jtagMemoryAccess true 63 0 [1, 2] []).wf = false ∧ (Instr.jtagMemoryAccess true 62 0 [1, 2] []).wf = true := by decide
theorem test_wf_bar : (Instr.barMemoryAccess (.vf 0) (2 ^ 28) false 4 [] [] [] 0).wf = false ∧ (Instr.barMemoryAccess (.pf 0) (2 ^ 28) false 4 [] [] [] 0).wf = true ∧
    (Instr.barMemoryAccess (.pf 0) (2 ^ 36) false 4 [] [] [] 0).wf = false ∧ (Instr.barMemoryAccess (.pf 0) 60 false 8 [] [] [] 0).wf = false := by decide
theorem test_wf_sp0 : (Instr.sp0Read (2 ^ 32 - 4) 8 false).wf = false ∧ (Instr.sp0Write (2 ^ 32 - 1) [1, 2] false).wf = false ∧
    (Instr.sp0Read (2 ^ 32 - 4) 4 false).wf = true := by decide
theorem test_wf_doorbell : (Instr.doorbellSqTail (.pf 0) 0 (2 ^ 32)).wf = false ∧ (Instr.doorbellCqHead (.pf 0) 0 (2 ^ 32)).wf = false := by decide
theorem test_wf_descriptors : (Instr.descriptorData (.pf 0) 0 (some []) false 0).wf = false ∧
    (Instr.descriptorData (.pf 0) 0 (some (List.replicate 9 (List.replicate 64 0))) false 0).wf = false ∧
    (Instr.descriptorData (.pf 0) 0 (some [List.replicate 63 0]) false 0).wf = false ∧ (Instr.descriptorData (.pf 0) 0 (some [List.replicate 64 0]) false 0).wf = true := by decide
theorem test_wf_video_line : (Instr.lineReceived 0 0 ⟨0, 0x2A, [], [], false, true, true⟩).wf = false ∧ (Instr.lineReceived 0 0 ⟨0, 0x2A, [1], [(1, 1), (2, 2)], false, true, true⟩).wf = false := by
  decide
theorem test_wf_sample : (Instr.sampleBoundary ⟨List.replicate 127 0, List.replicate 8 0⟩).wf = false ∧
    (Instr.sampleBoundary ⟨List.replicate 128 0, List.replicate 8 0⟩).wf = true := by decide
theorem test_wf_sensors : (Instr.sensorUpdate (List.replicate 23 0) (List.replicate 16 0)).wf = false ∧
    (Instr.sensorUpdate (List.replicate 24 0) (List.replicate 16 8192)).wf = false := by decide
theorem test_wf_aging : (Instr.agingUpdate (List.replicate 31 0)).wf = false := by decide
theorem test_wf_straps : (Instr.porstDeassert ⟨0, 0, 0, 12, false, false⟩).wf = false ∧ (Instr.porstDeassert ⟨0, 0, 0, 32, false, false⟩).wf = true := by decide
theorem test_wf_peer : (Instr.peerRequest 0 (.access false false 60 8 [] [] 0) []).wf = false ∧ (Instr.peerRequest 0 (.access false false 56 8 [] [] 0) []).wf = true := by decide

/-! Values that the specification gives. -/

/-- The nine bytes of the check values of R486. -/
def nine : List Byte := [0x31, 0x32, 0x33, 0x34, 0x35, 0x36, 0x37, 0x38, 0x39]

/-- R486: the check values of the four polynomials. -/
theorem test_crc_check_values : crcOf 0 nine = 0xCBF43926 ∧ crcOf 1 nine = 0xE3069283 ∧ crcOf 2 nine = 0x29B1 ∧ crcOf 3 nine = 0x6C40DF5F0B497347 := by
  decide +kernel

/-- SHA-256 of the three bytes "abc", as FIPS 180-4 prints it. -/
theorem test_sha256_abc : (Sha256.hash [0x61, 0x62, 0x63]).take 4 = [0xBA, 0x78, 0x16, 0xBF] := by decide +kernel

/-- R576: the thresholds after reset. -/
theorem test_reset_thermal : State.reset.dev.f MGT_THERM_CFG.WARN_C 0 = 0x73 ∧ State.reset.dev.f MGT_THERM_CFG.CRIT_C 0 = 0x82 := by decide +kernel

/-- The state after a step, for steps that answer a next state. -/
def after (s : State) (c : Instr) : State :=
  match step { s with pending := [c] } with
  | .next t => t
  | _ => s

/-- R58: a Secure write reaches PRIMARY, WALK_EN and RET, and the reserved bits stay 0. -/
theorem test_bank_cfg_secure : (after (st id) (.registerWrite .sp0 0x400020 0xF 0xFFFFFFFF)).dev.reg .MEM_BANK_CFG 1 = 0x3F := by decide +kernel

/-- R58: a Normal write reaches PRIMARY alone. -/
theorem test_bank_cfg_normal : (after (st id) (.registerWrite (.pf 0) 0x400020 0xF 0xFFFFFFF7)).dev.reg .MEM_BANK_CFG 1 = 0xF := by decide +kernel

/-- The command at the front leaves the queue, and the one behind it stays. -/
theorem test_queue_order : (match step { st id with pending := [.rcRead (.pf 0) 0x400020, .registerWrite .sp0 0x400020 0xF 0] } with
    | .next t => t.pending
    | _ => []) = [.registerWrite .sp0 0x400020 0xF 0] := by decide +kernel

namespace W00

def next1 (i : Instr) (g : Dev → Dev := id) : State := { st g with pending := [i, .calOscStop] }
def after (s : State) : State := match step s with | .next t => t | _ => s

def u1 : State := next1 .watchdogExpire
def u2 : State := st id

/-- The premises of each clause of `StepRunsTheFrontCommand` hold together. -/
theorem witness_StepRunsTheFrontCommand :
    (∃ (s : State) (c : Instr) (cs : List Instr), s.pending = c :: cs) ∧
    (∃ (s : State), s.pending = []) :=
  ⟨⟨u1, Instr.watchdogExpire, ([.calOscStop] : List Instr), by decide +kernel⟩,
   ⟨u2, by decide +kernel⟩⟩

def u3 : State := next1 .calendarEntry

/-- The premises of each clause of `StepKeepsMemoryCanonical` hold together. -/
theorem witness_StepKeepsMemoryCanonical :
    ∃ (s t : State), s.Canonical ∧ step s = .next t :=
  ⟨u3, after u3, canonical_of (by decide +kernel), rfl⟩


/-- The premises of each clause of `StepKeepsRegistersAndTablesCanonical` hold together. -/
theorem witness_StepKeepsRegistersAndTablesCanonical :
    ∃ (s t : State), step s = .next t ∧ s.dev.regsWf = true ∧ s.dev.tablesWf = true :=
  ⟨u1, after u1, rfl, by decide +kernel⟩

end W00

namespace W01



def u1 : State := enved (.pf 0) 7 0xA6 [0,0,2] (fun d => { d with hrq := { d.hrq with keys := (d.hrq.keys.put 3 { present := true, rights := 32 }).put 2 { present := true, rights := 3 } } })
def u2 : State := enved (.pf 0) 7 0xA3 [0,0,15] (id)
def u3 : State := enved (.pf 0) 7 0xA2 [0,1] (fun d => d.setF OWN_LOCK_STAT.EPOCH 0 1)
def u4 : State := enved (.pf 0) 7 0xA7 [0,0,15] (fun d => d.setF CNV_PORT_STAT.UP 1 1)
def u5 : State := enved (.pf 0) 7 0xA7 [0,0,5] (id)

/-- The premises of each clause of `ManagementSettingsTakeEffect` hold together. -/
theorem witness_ManagementSettingsTakeEffect :
    (∃ (s s0 : State) (f : Fn) (q : Fin 8) (c : Cmd), s.Begins f q c s0 ∧ c.Plain (· == 34) ∧ s0.dev.regsWf = true ∧ c.opcode = 0xA6 ∧ c.u 34 1 < 8 ∧ (∃ j < 8, j ≠ c.u 34 1 ∧ s0.dev.holdsRevoke j = true) ∧ Tbl.wfD (fun _ => (default : KeySlot)) s0.dev.hrq.keys = true) ∧
    (∃ (s s0 : State) (f : Fn) (q : Fin 8) (c : Cmd), s.Begins f q c s0 ∧ c.Plain (· == 34) ∧ s0.dev.regsWf = true ∧ c.opcode = 0xA3 ∧ c.u 34 1 < 16) ∧
    (∃ (s s0 : State) (f : Fn) (q : Fin 8) (c : Cmd), s.Begins f q c s0 ∧ c.Plain (· == 33) ∧ s0.dev.regsWf = true ∧ c.opcode = 0xA2 ∧ c.u 33 1 = 1 ∧ s0.dev.mgt.epochSteps < 32 ∧ s0.dev.mgt.epochSteps + 1 ≤ s0.dev.f OWN_LOCK_STAT.EPOCH 0) ∧
    (∃ (s s0 : State) (f : Fn) (q : Fin 8) (c : Cmd), s.Begins f q c s0 ∧ c.Plain (· == 34) ∧ s0.dev.regsWf = true ∧ c.opcode = 0xA7 ∧ c.u 34 1 < 16 ∧ s0.dev.mbx.bulk = []) ∧
    (∃ (s s0 : State) (f : Fn) (q : Fin 8) (c : Cmd), s.Begins f q c s0 ∧ c.Plain (· == 34) ∧ s0.dev.regsWf = true ∧ c.opcode = 0xA7 ∧ c.u 34 1 < 16 ∧ s0.dev.mbx.bulk = [] ∧ (∀ k < 3, s0.dev.fb CNV_PORT_STAT.UP k = false)) :=
  ⟨⟨u1, u1.started (Fn.pf 0) (0) (inner u1 (Fn.pf 0)), .pf 0, 0, inner u1 (Fn.pf 0), begins_accepted (by decide +kernel), plain_of (by decide +kernel), by decide +kernel⟩,
   ⟨u2, u2.started (Fn.pf 0) (0) (inner u2 (Fn.pf 0)), .pf 0, 0, inner u2 (Fn.pf 0), begins_accepted (by decide +kernel), plain_of (by decide +kernel), by decide +kernel⟩,
   ⟨u3, u3.started (Fn.pf 0) (0) (inner u3 (Fn.pf 0)), .pf 0, 0, inner u3 (Fn.pf 0), begins_accepted (by decide +kernel), plain_of (by decide +kernel), by decide +kernel⟩,
   ⟨u4, u4.started (Fn.pf 0) (0) (inner u4 (Fn.pf 0)), .pf 0, 0, inner u4 (Fn.pf 0), begins_accepted (by decide +kernel), plain_of (by decide +kernel), by decide +kernel⟩,
   ⟨u5, u5.started (Fn.pf 0) (0) (inner u5 (Fn.pf 0)), .pf 0, 0, inner u5 (Fn.pf 0), begins_accepted (by decide +kernel), plain_of (by decide +kernel), by decide +kernel⟩⟩

def u6 : State := bare (.pf 0) 7 0xAE [0,0,0,0,1,2,3,4,0xff,0x7f] (id)
def u7 : State := bare (.pf 0) 7 0xAE [0,1,3,0,1,2,3,4] (id)
def u8 : State := bare (.pf 0) 7 0xAE [0,2,0x7f] (id)
def u9 : State := st fun d => (((d.setF MGT_CAL_SUB.VALID 0 1).setF MGT_CAL_SUB.TRIM 0 0x45).setF MGT_CAL_SUB.WAKE_EN 0 1).setReg .MGT_CAL_SEC 0 77
def u10 : State := st id

/-- The premises of each clause of `CalendarCommandsSetTheClock` hold together. -/
theorem witness_CalendarCommandsSetTheClock :
    (∃ (s s0 : State) (f : Fn) (q : Fin 8) (c : Cmd), s.Begins f q c s0 ∧ (c.Plain (fun b => b == 33 || within 36 41 b)) ∧ s.dev.regsWf = true ∧ s0.dev.regsWf = true ∧ c.opcode = 0xAE ∧ mgtSubmitter f = true ∧ c.u 33 1 = 0 ∧ c.u 40 2 < 0x8000) ∧
    (∃ (s s0 : State) (f : Fn) (q : Fin 8) (c : Cmd), s.Begins f q c s0 ∧ (c.Plain (fun b => b == 33 || b == 34 || within 36 39 b)) ∧ s.dev.regsWf = true ∧ s0.dev.regsWf = true ∧ c.opcode = 0xAE ∧ mgtSubmitter f = true ∧ c.u 33 1 = 1 ∧ c.u 34 1 < 4) ∧
    (∃ (s s0 : State) (f : Fn) (q : Fin 8) (c : Cmd), s.Begins f q c s0 ∧ (c.Plain (fun b => b == 33 || b == 34)) ∧ s.dev.regsWf = true ∧ s0.dev.regsWf = true ∧ c.opcode = 0xAE ∧ mgtSubmitter f = true ∧ c.u 33 1 = 2 ∧ c.u 34 1 ≠ 0x80) ∧
    (∃ (s : State), s.dev.regsWf = true ∧ s.dev.fb MGT_CAL_SUB.VALID 0 = true) ∧
    (∃ (s : State), s.dev.regsWf = true ∧ s.dev.fb MGT_CAL_SUB.VALID 0 = false) :=
  ⟨⟨u6, u6.started (Fn.pf 0) (0) (inner u6 (Fn.pf 0)), .pf 0, 0, inner u6 (Fn.pf 0), begins_bare (by decide +kernel), plain_of (by decide +kernel), by decide +kernel⟩,
   ⟨u7, u7.started (Fn.pf 0) (0) (inner u7 (Fn.pf 0)), .pf 0, 0, inner u7 (Fn.pf 0), begins_bare (by decide +kernel), plain_of (by decide +kernel), by decide +kernel⟩,
   ⟨u8, u8.started (Fn.pf 0) (0) (inner u8 (Fn.pf 0)), .pf 0, 0, inner u8 (Fn.pf 0), begins_bare (by decide +kernel), plain_of (by decide +kernel), by decide +kernel⟩,
   ⟨u9, by decide +kernel⟩,
   ⟨u10, by decide +kernel⟩⟩

end W01

namespace W03



def u1 : State := st id

/-- The premises of each clause of `RegisterWritesApplyFieldByField` hold together. -/
theorem witness_RegisterWritesApplyFieldByField :
    (∃ (s : State) (who : Fn) (off : Nat) (val : Word) (h : Hit), s.dev.Accepts who h.reg h.i val ∧ s.dev.regsWf = true ∧ off % 4 = 0 ∧ s.dev.hit who off = some h ∧ h.writable = true ∧ h.reg.plain who h.i val = true) ∧
    (∃ (s : State) (who : Fn) (off : Nat) (h : Hit), s.dev.regsWf = true ∧ off % 4 = 0 ∧ s.dev.hit who off = some h ∧ h.writable = true ∧ (pairHigh h.reg).isSome = true ∧ Tbl.wfD (fun _ => (0 : Word)) s.dev.time.held = true) ∧
    (∃ (s : State) (who : Fn) (off : Nat) (val : Word) (h : Hit) (lo : _), s.dev.Accepts who lo h.i (s.dev.time.held.get (heldKey who lo h.i)) ∧ s.dev.Accepts who h.reg h.i val ∧ s.dev.regsWf = true ∧ off % 4 = 0 ∧ s.dev.hit who off = some h ∧ h.writable = true ∧ pairLow h.reg = some lo) :=
  ⟨⟨u1, .sp0, Reg.MGT_THERM_CFG.place.base, 0x5A46, ⟨.MGT_THERM_CFG, 0, true⟩, accepts_of (by decide +kernel), by decide +kernel⟩,
   ⟨u1, .pf 0, Reg.OWN_ASSIGN_ADDR_LO.place.base, ⟨.OWN_ASSIGN_ADDR_LO, 0, true⟩, by decide +kernel⟩,
   ⟨u1, .pf 0, Reg.OWN_ASSIGN_ADDR_HI.place.base, 1, ⟨.OWN_ASSIGN_ADDR_HI, 0, true⟩, Reg.OWN_ASSIGN_ADDR_LO, accepts_of (by decide +kernel), accepts_of (by decide +kernel), by decide +kernel⟩⟩


/-- The premises of each clause of `RegisterReadsCaptureAndClear` hold together. -/
theorem witness_RegisterReadsCaptureAndClear :
    (∃ (s : State) (who : Fn) (off : Nat) (h : Hit) (hi : _), s.dev.regsWf = true ∧ off % 4 = 0 ∧ s.dev.hit who off = some h ∧ s.dev.mayRead who h.reg h.i = true ∧ snapHigh h.reg = some hi ∧ Tbl.wfD (fun _ => (0 : Word)) s.dev.time.snaps = true) ∧
    (∃ (s : State) (who : Fn) (off : Nat) (h : Hit) (lo : _), s.dev.regsWf = true ∧ off % 4 = 0 ∧ s.dev.hit who off = some h ∧ s.dev.mayRead who h.reg h.i = true ∧ snapLow h.reg = some lo) ∧
    (∃ (s : State) (who : Fn) (off : Nat) (h : Hit), s.dev.regsWf = true ∧ off % 4 = 0 ∧ s.dev.hit who off = some h ∧ s.dev.mayRead who h.reg h.i = true ∧ snapLow h.reg = none ∧ (∃ fd ∈ h.reg.fields, fd.acc = .rc)) :=
  ⟨⟨u1, .pf 1, Reg.GLB_LTIME_LO.place.base, ⟨.GLB_LTIME_LO, 0, true⟩, Reg.GLB_LTIME_HI, by decide +kernel⟩,
   ⟨u1, .pf 1, Reg.GLB_LTIME_HI.place.base, ⟨.GLB_LTIME_HI, 0, true⟩, Reg.GLB_LTIME_LO, by decide +kernel⟩,
   ⟨u1, .pf 1, Reg.MGT_THERM.place.base, ⟨.MGT_THERM, 0, true⟩, by decide +kernel⟩⟩

end W03

namespace W04

def w4 (src : Nat) (g : TimeSt → TimeSt) : State := st fun d => { (d.setF GLB_LTIME_CTRL.SRC 0 src).setF GLB_LTIME_STAT.SRC_ACTIVE 0 src with time := g { d.time with ltime := 10^12 } }
def w4p (g : PaceSt → PaceSt) (h : Dev → Dev) : State := st fun d => h { d with pace := g d.pace, time := { d.time with ltime := 10000 } }

def u1 : State := w4 0 id
def u2 : State := w4 0 fun t => { t with refRunning := false, calFrac := 63 }
def u3 : State := w4 1 id
def u4 : State := w4 1 fun t => { t with lastPtm := 5, rate := 7 }
def u10 : State := let s := w4 1 fun t => { t with ptmRef := some 1002 }; { s with dev := s.dev.setF GLB_LTIME_STAT.LOCKED 0 1 }

/-- The premises of each clause of `LtimeAdvancesAndIsDisciplined` hold together. -/
theorem witness_LtimeAdvancesAndIsDisciplined :
    (∃ (s : State), s.dev.regsWf = true ∧ s.dev.time.refRunning = true ∧ s.dev.time.rate = 0) ∧
    (∃ (s : State), s.dev.regsWf = true ∧ s.dev.time.refRunning = false) ∧
    (∃ (s : State), s.dev.regsWf = true) ∧
    (∃ (s : State), s.dev.regsWf = true ∧ s.dev.sourcePort.isSome = true ∧ s.dev.fb GLB_LTIME_STAT.HOLDOVER 0 = false ∧ s.dev.time.lastPtm + 3 * s.dev.ptmIntervalMs * 1000000 ≤ s.dev.now) ∧
    (∃ (s : State) (who : Fn) (val : Word), (∀ v, who ≠ .vf v) ∧ s.dev.Accepts who .GLB_LTIME_CTRL 0 val ∧ s.dev.regsWf = true ∧ s.dev.follower = false) ∧
    (∃ (s : State) (p : Fin 2), s.dev.regsWf = true ∧ s.dev.sourcePort = some p.val ∧ s.dev.time.ptmRef = none) ∧
    (∃ (s : State) (p : Fin 2) (host : BitVec 64) (ref : Int), s.dev.regsWf = true ∧ s.dev.sourcePort = some p.val ∧ s.dev.time.ptmRef = some ref ∧
      50 < (toSigned 64 (host.toNat + 2 ^ 64 - s.dev.now) - ref).natAbs ∧ s.dev.fb GLB_LTIME_STAT.LOCKED 0 = true) :=
  ⟨⟨u1, by decide +kernel⟩,
   ⟨u2, by decide +kernel⟩,
   ⟨u3, by decide +kernel⟩,
   ⟨u4, by decide +kernel⟩,
   ⟨u1, .pf 0, 1, (by intro v h; cases h), accepts_of (by decide +kernel), by decide +kernel⟩,
   ⟨u3, 0, by decide +kernel⟩,
   ⟨u10, 0, BitVec.ofNat 64 (10^12 + 951), 1002, by decide +kernel⟩⟩

def u5 : State := w4p id id
def u13 : State := w4p (fun p => { p with probeWin := 1, govWin := 1 }) id
def u6 : State := w4p (fun p => { p with enableWaits := true, noAnswer := 2}) id
def u7 : State := w4p (fun p => { p with noAnswer := 2}) id
def u8 : State := w4p id (fun d => d.setF PWR_PACE_STAT.AVS_FAULT 0 1)
def u9 : State := w4p id (fun d => d.setF AUD_GLB_CTRL.RUN 0 1)
def u11 : State := w4p (fun p => { p with setpoint := 720 }) (fun d => d.setF AUD_GLB_CTRL.RUN 0 1)
def u12 : State := w4p (fun p => { p with setpoint := 735, enableWaits := true, starts := [⟨8 * 4, 1⟩] }) fun d =>
  d.setQueue (8 * 4) { cmds := [{ id := 1, phase := .running }] }

def u14 : State := w4p id (fun d => d.setF PWR_PACE_CTRL.MODE 0 1)

/-- The premises of each clause of `PaceGovernorSetsTheSupply` hold together. -/
theorem witness_PaceGovernorSetsTheSupply :
    (∃ (s : State), s.dev.regsWf = true ∧ s.dev.acholtRuns = true ∧ s.dev.pace.probeWin < s.dev.paceWindow ∧ s.dev.pace.govWin < s.dev.paceWindow) ∧
    (∃ (s : State), s.dev.regsWf = true) ∧
    (∃ (s : State), s.dev.regsWf = true ∧ s.dev.fb PWR_PACE_STAT.AVS_FAULT 0 = false) ∧
    (∃ (s : State), s.dev.regsWf = true ∧ s.dev.fb PWR_PACE_STAT.AVS_FAULT 0 = true) ∧
    (∃ (s : State) (mv : Nat), s.dev.regsWf = true ∧ mv < 720 ∧ s.dev.floorHeld = true) ∧
    (∃ (s : State), s.dev.regsWf = true ∧ s.dev.acholtRuns = true ∧ s.dev.pace.govWin < s.dev.paceWindow ∧ s.dev.fb PWR_PACE_STAT.AVS_FAULT 0 = false ∧ s.dev.devIdle = false ∧
      720 ≤ s.dev.pace.setpoint ∧ 720 ≤ s.dev.f PWR_PACE_CTRL.VMAX_MV 0) ∧
    (∃ (s : State) (ref : CmdRef), s.dev.regsWf = true ∧ 735 ≤ s.dev.pace.setpoint ∧ ref ∈ s.dev.pace.starts ∧ s.dev.Running ref) ∧
    (∃ (s : State), s.dev.regsWf = true ∧ s.dev.paceWindow ≤ s.dev.pace.probeWin ∧ s.dev.paceWindow ≤ s.dev.pace.govWin) ∧
    (∃ (s : State), s.dev.regsWf = true ∧ s.dev.acholtRuns = true ∧ s.dev.pace.govWin < s.dev.paceWindow ∧ s.dev.fb PWR_PACE_STAT.AVS_FAULT 0 = true) ∧
    (∃ (s : State), s.dev.regsWf = true ∧ s.dev.acholtRuns = true ∧ s.dev.pace.govWin < s.dev.paceWindow ∧ s.dev.fb PWR_PACE_STAT.AVS_FAULT 0 = false ∧ s.dev.f PWR_PACE_CTRL.MODE 0 = 1) :=
  ⟨⟨u5, by decide +kernel⟩,
   ⟨u6, by decide +kernel⟩,
   ⟨u7, by decide +kernel⟩,
   ⟨u8, by decide +kernel⟩,
   ⟨u9, 719, by decide +kernel⟩,
   ⟨u11, by decide +kernel⟩,
   ⟨u12, ⟨8 * 4, 1⟩, by decide +kernel, by decide +kernel, by decide +kernel, running_of (by decide +kernel)⟩,
   ⟨u13, by decide +kernel⟩,
   ⟨u8, by decide +kernel⟩,
   ⟨u14, by decide +kernel⟩⟩

end W04

namespace W05



def u1 : State := st id
def u2 : State := st fun d => d.setReg .PMC_CNT 2 0xFFFFFFFF
def u3 : State := st fun d => (d.setReg .PMC_CNT 33 0xFFFFFFFF).setF PMC_GRP_CTRL.OVF_EV 4 1
def u4 : State := st fun d => ((((d.setReg .PMC_CNT 33 5).setF PMC_GRP_CTRL.WIN_EV 4 1).setF PMC_GRP_CTRL.WIN_US 4 3).setF PMC_GRP_STAT.WSEQ 4 (2^24-1)).setF PMC_GRP_CTRL.MODE 4 2
def u5 : State := { u4 with dev := { u4.dev with time := { u4.dev.time with ltime := 10^6 }, pmc := { u4.dev.pmc with began := Tbl.put [] 4 (some (10^6 - 3000)) } } }

/-- The premises of each clause of `CounterWindowsAndWrites` hold together. -/
theorem witness_CounterWindowsAndWrites :
    (∃ (s : State) (i : Fin 64) (n : Nat), s.dev.regsWf = true ∧ n < 2 ^ 32 ∧ s.dev.pmcChained i.val = false ∧ (i.val % 2 = 0 → s.dev.pmcChained (i.val + 1) = false)) ∧
    (∃ (s : State) (i : Fin 64) (n : Nat), s.dev.regsWf = true ∧ n < 2 ^ 32 ∧ s.dev.pmcChained i.val = false ∧ (i.val % 2 = 0 → s.dev.pmcChained (i.val + 1) = false) ∧ 2 ^ 32 ≤ (s.dev.reg .PMC_CNT i.val).toNat + n) ∧
    (∃ (s : State) (i : Fin 64) (n : Nat), s.dev.regsWf = true ∧ n < 2 ^ 32 ∧ s.dev.pmcChained i.val = false ∧ (i.val % 2 = 0 → s.dev.pmcChained (i.val + 1) = false) ∧ 2 ^ 32 ≤ (s.dev.reg .PMC_CNT i.val).toNat + n ∧ s.dev.fb PMC_GRP_CTRL.OVF_EV (i.val / 8) = true) ∧
    (∃ (s : State) (g : Fin 8) (t0 : Nat), s.dev.regsWf = true ∧ s.dev.windowed g.val = true ∧ s.dev.pmc.began.get g.val = some t0 ∧ t0 + s.dev.pmcPeriod g.val ≤ s.dev.now ∧ Tbl.wfD (fun _ => (0 : Word)) s.dev.pmc.shown = true) ∧
    (∃ (s : State) (who : Fn) (n : Fin 64), (∀ v, who ≠ .vf v) ∧ s.dev.regsWf = true ∧ s.dev.pmcMayWrite who (n.val / 8) = true ∧ s.dev.windowed (n.val / 8) = false) ∧
    (∃ (s : State) (who : Fn) (n : Fin 64), (∀ v, who ≠ .vf v) ∧ s.dev.regsWf = true ∧ (s.dev.pmcMayWrite who (n.val / 8) = false ∨ s.dev.windowed (n.val / 8) = true)) :=
  ⟨⟨u1, 63, 2^32-1, by decide +kernel⟩,
   ⟨u2, 2, 1, by decide +kernel⟩,
   ⟨u3, 33, 2, by decide +kernel⟩,
   ⟨u5, 4, 10^6 - 3000, by decide +kernel⟩,
   ⟨u1, .pf 0, 63, (by intro v h; cases h), by decide +kernel⟩,
   ⟨u4, .acholt, 33, (by intro v h; cases h), by decide +kernel⟩⟩

end W05

namespace W06

def w6 (g : Mem → Mem) (h : Dev → Dev) : State := { (st fun d => h { d with time := { d.time with ltime := 10^9 } }) with mem := g {} }
def walking (b r n : Nat) (ph : WalkPhase) (d : Dev) : Dev := { d with msys := { d.msys with walk := { phase := ph, bank := b, region := r, next := 0, restored := n, began := 10^9 - 10^6 } } }
def swapping (sw : SwapSt) (d : Dev) : Dev := (({ d with msys := { d.msys with swap := some sw } }).setF MEM_BANK_STAT.MIGRATING sw.src 1).setF MEM_BANK_STAT.MIGRATING sw.dst 1
def someBytes : Mem := { cells := [(0x5000, 9), (0x5fff, 7), (0x800000, 4), (0x800fc0,5),(0xffffff,8),(0x8000000,8),(0x9001fc5, 3), (0x9001fff,6)] }

def u1 : State := w6 (fun _ => someBytes) (fun d => { (d.setF MEM_WALK_CTRL.ENABLE 0 1) with msys := { d.msys with walk := { next := 2048, due := 10^9 } } })
def u2 : State := w6 id (fun d => walking 3 5 0 .testing (d.setF MEM_WALK_STAT.SKIPPED 0 255))
def u7 : State := w6 id (fun d => { walking 3 5 0 .testing (d.setF MEM_BANK_STAT.ROWS_USED 3 31) with time := { d.time with ltime := 10^9 - 10^6 + 9999 } })
def u4 : State := w6 (fun _ => someBytes) (walking 1 1 63 .restoring)

/-- The premises of each clause of `WalkerTestsAndRestoresRegions` hold together. -/
theorem witness_WalkerTestsAndRestoresRegions :
    (∃ (s : State) (b r : Nat) (wrapped : Bool), s.Canonical ∧ s.dev.regsWf = true ∧ s.dev.fb MEM_WALK_CTRL.ENABLE 0 = true ∧ s.dev.acholtRuns = true ∧ s.dev.msys.walk.phase = .idle ∧ s.dev.msys.walk.due ≤ s.dev.now ∧ s.dev.nextRegion 19 s.dev.msys.walk.next false = some (b, r, wrapped)) ∧
    (∃ (s : State), s.Canonical ∧ s.dev.regsWf = true ∧ s.dev.msys.walk.phase = .testing ∧ s.dev.msys.walk.began + 1000 * max 10 (s.dev.f MEM_WALK_CTRL.REGION_TIMEOUT_US 0) ≤ s.dev.now) ∧
    (∃ (s : State), s.Canonical ∧ s.dev.regsWf = true ∧ s.dev.msys.walk.phase = .testing ∧ s.dev.walkLate = true) ∧
    (∃ (s : State), s.Canonical ∧ s.dev.regsWf = true ∧ s.dev.msys.walk.phase = .testing ∧ s.dev.walkLate = false ∧ s.dev.f MEM_BANK_STAT.ROWS_USED s.dev.msys.walk.bank < 32) ∧
    (∃ (s : State), s.Canonical ∧ s.dev.regsWf = true ∧ s.dev.msys.walk.phase = .restoring ∧ s.dev.msys.walk.restored < 64) ∧
    (∃ (s : State) (rivals : List Rival), s.Canonical ∧ s.dev.regsWf = true ∧ s.dev.msys.walk.phase = .restoring ∧ s.dev.msys.walk.restored < 64 ∧
      (s.dev.round s.dev.msys.walk.bank ⟨7, 0x06, unitWalker, true⟩ rivals).2 = false) :=
  ⟨⟨u1, 1, 0, false, canonical_of (by decide +kernel), by decide +kernel⟩,
   ⟨u2, canonical_of (by decide +kernel), by decide +kernel⟩,
   ⟨u2, canonical_of (by decide +kernel), by decide +kernel⟩,
   ⟨u7, canonical_of (by decide +kernel), by decide +kernel⟩,
   ⟨u4, canonical_of (by decide +kernel), by decide +kernel⟩,
   ⟨u4, [⟨1, 0x10, 1, false⟩], canonical_of (by decide +kernel), by decide +kernel⟩⟩

def u5 : State := w6 (fun _ => someBytes) (swapping {src:=1, dst:=16, next:=0})
def u6 : State := w6 (fun _ => someBytes) (swapping {src:=1, dst:=16, next:=2048})

def u8 : State := w6 (fun _ => someBytes) fun d => swapping {src:=1, dst:=16, next:=2048, cmd := some ⟨8 * 4, 1⟩} (d.setQueue (8 * 4) { cmds := [{ id := 1, phase := .running }] })

/-- The premises of each clause of `BankSwapMovesABank` hold together. -/
theorem witness_BankSwapMovesABank :
    (∃ (s : State) (sw : SwapSt), s.Canonical ∧ s.dev.regsWf = true ∧ s.dev.msys.swap = some sw ∧ sw.src ≤ 16 ∧ sw.dst ≤ 16 ∧ sw.src ≠ sw.dst ∧ sw.next < 2048 ∧
      (∀ k < 512, s.mem.poison.get (s.dev.bankPlace sw.src (4096 * sw.next + 8 * k)) = false)) ∧
    (∃ (s : State) (sw : SwapSt), s.Canonical ∧ s.dev.regsWf = true ∧ s.dev.msys.swap = some sw ∧ sw.src ≤ 16 ∧ sw.dst ≤ 16 ∧ sw.src ≠ sw.dst ∧ sw.next = 2048) ∧
    (∃ (s : State) (sw : SwapSt) (rivals : List Rival), s.Canonical ∧ s.dev.regsWf = true ∧ s.dev.msys.swap = some sw ∧ sw.src ≤ 16 ∧ sw.dst ≤ 16 ∧ sw.src ≠ sw.dst ∧ sw.next < 2048 ∧
      (s.dev.round sw.src rivalHelper rivals).2 = false) ∧
    (∃ (s : State) (sw : SwapSt) (ref : CmdRef), s.Canonical ∧ s.dev.regsWf = true ∧ s.dev.msys.swap = some sw ∧ sw.src ≤ 16 ∧ sw.dst ≤ 16 ∧ sw.src ≠ sw.dst ∧ sw.next = 2048 ∧ sw.cmd = some ref ∧ s.dev.Running ref) :=
  ⟨⟨u5, {src:=1, dst:=16, next:=0}, canonical_of (by decide +kernel), by decide +kernel⟩,
   ⟨u6, {src:=1, dst:=16, next:=2048}, canonical_of (by decide +kernel), by decide +kernel⟩,
   ⟨u5, {src:=1, dst:=16, next:=0}, [⟨1, 0x10, 1, false⟩], canonical_of (by decide +kernel), by decide +kernel⟩,
   ⟨u8, _, ⟨8 * 4, 1⟩, canonical_of (by decide +kernel), by decide +kernel, rfl, by decide +kernel, by decide +kernel, by decide +kernel, rfl, rfl, running_of (by decide +kernel)⟩⟩

end W06

namespace W07

def w7 (h : Dev → Dev) : State := { (st h) with mem := {} }
def a7 : State := owned 0x10 4 0x1000 (owned 0x10 1 ddrBase (st fun d => d))
def w7j (s n i m : Bool) : State := st fun d => { d with own := { d.own with invS := s, ninvS := n, invN := i, ninvN := m } }
def w7cp : State := let s := owned 0x10 1 (ddrBase + 2^22) (st (putL CPE_CH_ASSIGN.OWNER 17 0x10)); { s with dev := { s.dev with gpu := { s.dev.gpu with chans := Tbl.put ([] : Tbl CpChan) (cpeIdx 1 1) { run := some { ref := ⟨8*16,0⟩, cmd := {}, code := 0x10 } } } } }

def u1 : State := w7 id

def u10 : State := { w7 (fun d => { d with own := { d.own with tableBase := 0x100000 } }) with mem := { poison := Tbl.put ([] : Tbl Bool) 0x100000 true } }

/-- The premises of each clause of `LineWritesStoreTheirBytes` hold together. -/
theorem witness_LineWritesStoreTheirBytes :
    (∃ (s : State) (a : Nat) (bs : List Byte) (p : _), s.Canonical ∧ (∀ k < bs.length, ¬s.dev.Homes (a + k) p) ∧ ¬s.dev.Homes (s.dev.own.tableBase + ownOffset a) p ∧ s.dev.regsWf = true ∧ 0 < bs.length ∧ a % 64 + bs.length ≤ 64) ∧
    (∃ (s : State) (a : Nat) (bs : List Byte) (k : _), s.Canonical ∧ s.dev.regsWf = true ∧ 0 < bs.length ∧ a % 64 + bs.length ≤ 64 ∧ s.dev.msys.swap = none ∧ (∀ k < bs.length, s.poisonedAt (a + k) = false) ∧ s.poisonedAt (s.dev.tableAt a) = false ∧ (∀ k < bs.length, s.dev.place (s.dev.own.tableBase + ownOffset a) ≠ s.dev.place (a + k)) ∧ k < bs.length) ∧
    (∃ (s : State) (r : Req) (a : Nat) (bs : List Byte), s.Canonical ∧ s.dev.regsWf = true ∧ 0 < bs.length ∧ a % 64 + bs.length ≤ 64 ∧ s.dev.msys.swap = none ∧ (∀ k < bs.length, s.poisonedAt (a + k) = false) ∧ s.poisonedAt (s.dev.tableAt a) = false ∧ (∀ k < bs.length, s.dev.place (s.dev.own.tableBase + ownOffset a) ≠ s.dev.place (a + k)) ∧ r.mid ≠ 6) ∧
    (∃ (s : State) (a : Nat) (bs : List Byte), s.Canonical ∧ s.dev.regsWf = true ∧ 0 < bs.length ∧ a % 64 + bs.length ≤ 64 ∧ s.dev.msys.swap = none ∧ (∀ k < bs.length, s.poisonedAt (a + k) = false) ∧ s.poisonedAt (s.dev.tableAt a) = false ∧ (∀ k < bs.length, s.dev.place (s.dev.own.tableBase + ownOffset a) ≠ s.dev.place (a + k))) ∧
    (∃ (s : State) (a : Nat) (bs : List Byte), s.Canonical ∧ s.dev.regsWf = true ∧ 0 < bs.length ∧ a % 64 + bs.length ≤ 64 ∧ s.poisonedAt (s.dev.tableAt a) = true) :=
  ⟨⟨u1, ddrBase+60, [1,2,3,4], 5, canonical_of (by decide +kernel), by simp only [Dev.Homes]; decide +kernel, by simp only [Dev.Homes]; decide +kernel, by decide +kernel⟩,
   ⟨u1, ddrBase+60, [1,2,3,4], 3, canonical_of (by decide +kernel), by decide +kernel⟩,
   ⟨u1, ⟨0x10,false⟩, ddrBase+60, [1,2,3,4], canonical_of (by decide +kernel), by decide +kernel⟩,
   ⟨u1, ddrBase+60, [1,2,3,4], canonical_of (by decide +kernel), by decide +kernel⟩,
   ⟨u10, 0x1000, [1], canonical_of (by decide +kernel), by decide +kernel⟩⟩


/-- The premises of each clause of `RefusedAccessesAreRecorded` hold together. -/
theorem witness_RefusedAccessesAreRecorded :
    (∃ (s : State) (r : Req) (path a : Nat) (bs : List Byte), s.dev.regsWf = true ∧ 0 < bs.length ∧ r.mid < 256 ∧ path < 13 ∧ a < 2 ^ 64 ∧ s.checkAccess r path a true = false) ∧
    (∃ (s : State) (r : Req) (path a : Nat) (bs : List Byte), s.dev.regsWf = true ∧ 0 < bs.length ∧ r.mid < 256 ∧ path < 13 ∧ a < 2 ^ 64 ∧ s.checkAccess r path a true = false ∧ s.dev.fb OWN_REFUSE_INFO.VALID 0 = false) :=
  ⟨⟨u1, ⟨0x07,true⟩, 12, 2^64-1, [1], by decide +kernel⟩,
   ⟨u1, ⟨0x07,true⟩, 12, 2^64-1, [1], by decide +kernel⟩⟩

def u2 : State := owned 6 4 0x1000 (st id)
def f9 (t : Nat) : HostReq := { f := .pf 1, work := .fetch (.pf 1) 7, addr := 0x4000, len := 64, sent := some t }
def u3 : State := st fun d => { d.setQueue (qi (.pf 1) 7) { reading := 3 } with
  time := { d.time with ltime := 10^9 }, hrq := { (d.setQueue (qi (.pf 1) 7) { reading := 3 }).hrq with reads := [f9 950000001, f9 950000000] } }
def r9 : HostReq := { f := .vf 0, work := .copy 1 1, addr := 0x4000, len := 4, got := [1, 2], sent := some 0 }
def u9 : State := { w7cp with dev := { w7cp.dev with hrq := { w7cp.dev.hrq with reads := [r9] } } }
def x1 : Access := {work := .agent, write := true, addr := 0x103c, len := 0, data := [1,2,3,4], ecc := [], ns := 5}
def x2 : Access := {work := .copy 1 1, write := false, addr := ddrBase+2^22, len := 64, data := [], ecc := [.clean, .clean], ns := 5}
def x3 : Access := {work := .copy 1 1, write := false, addr := ddrBase+2^23, len := 64, data := [], ecc := [], ns := 5}
def u4 : State := w7j true false false false
def u5 : State := w7j false true false true
def u6 : State := owned 0x10 1 0x1000 (w7j false true true true)
def u7 : State := owned 0x04 1 0x1000 (st id)
def u8 : State := owned 0x10 4 0x1000 (st id)

/-- The premises of each clause of `AccessesAreGrantedOrRefused` hold together. -/
theorem witness_AccessesAreGrantedOrRefused :
    (∃ (s : State) (a a' : Access) (m : Master), s.Canonical ∧ s.dev.regsWf = true ∧ s.dev.master a.work = some m ∧ s.dev.issued a = a' ∧ a'.addr % 64 + a'.data.length ≤ 64 ∧ s.checkAccess m.req m.path a'.addr a'.write m.out = true ∧ a'.write = true) ∧
    (∃ (s : State) (a a' : Access) (m : Master), s.Canonical ∧ s.dev.regsWf = true ∧ s.dev.master a.work = some m ∧ s.dev.issued a = a' ∧ a'.addr % 64 + a'.data.length ≤ 64 ∧ s.checkAccess m.req m.path a'.addr a'.write m.out = true ∧ a'.write = false ∧ (∀ e ∈ a'.ecc, e = .clean) ∧ s.badWords a'.addr (min a'.len (64 - a'.addr % 64)) = []) ∧
    (∃ (s : State) (a a' : Access) (m : Master), s.Canonical ∧ s.dev.regsWf = true ∧ s.dev.master a.work = some m ∧ s.dev.issued a = a' ∧ a'.addr % 64 + a'.data.length ≤ 64 ∧ s.checkAccess m.req m.path a'.addr a'.write m.out = false) ∧
    (∃ (s : State) (e : Fin 4) (ch : Fin 16) (x : CpChan) (r : HostReq) (bs : List Byte) (k : Nat), s.Canonical ∧ s.dev.regsWf = true ∧ x = s.dev.chan (cpeIdx e.val ch.val) ∧ x.run.isSome = true ∧
      s.dev.hrq.reads.findIdx? (fun r => r.work == .copy e ch && r.sent.isSome) = some k ∧ s.dev.hrq.reads.getD k default = r ∧ r.len ≤ (r.got ++ bs).length) ∧
    (∃ (s : State) (f : Fn) (q : Fin 8) (k : Nat), s.Canonical ∧ s.dev.regsWf = true ∧ f ≠ .sp0 ∧ (s.dev.queue (qi f q)).reading ≠ 0 ∧
      s.dev.hrq.reads.findIdx? (fun r => r.work == .fetch f q && s.dev.readLate r) = some k) ∧
    (∃ (s : State), s.Canonical ∧ s.dev.regsWf = true) ∧
    (∃ (s : State), s.Canonical ∧ s.dev.regsWf = true ∧ s.dev.own.invS = false ∧ s.dev.own.invN = false) ∧
    (∃ (s : State), s.Canonical ∧ s.dev.regsWf = true ∧ (s.dev.own.invS || s.dev.own.invN)) ∧
    (∃ (s : State) (addr len : Nat) (ecc : List Ecc) (bs : List Byte), s.Canonical ∧ s.dev.regsWf = true ∧ (s.dev.own.invS || s.dev.own.invN) ∧ (s.readEcc ⟨0x07, s.dev.own.invS⟩ 12 addr len ecc).2 = .ok bs) ∧
    (∃ (s : State) (who : Fn) (p a off : Nat) (w : Bool) (len : Nat) (data : List Byte), s.Canonical ∧ s.dev.regsWf = true ∧ s.dev.reaches who = true ∧ (∃ k : Fin 2, who = .pf k ∧ p = k.val ∧ a = off) ∧ off + (if w then data.length else len) ≤ 0x1000000000 ∧ w = true ∧
      s.checkAccess (s.dev.req who) 10 a w = true) ∧
    (∃ (s : State) (who : Fn) (p a off : Nat) (w : Bool) (len : Nat) (data bs : List Byte) (ecc : List Ecc) (ns : Nat), s.Canonical ∧ s.dev.regsWf = true ∧ s.dev.reaches who = true ∧ (∃ k : Fin 2, who = .pf k ∧ p = k.val ∧ a = off) ∧ off + (if w then data.length else len) ≤ 0x1000000000 ∧ w = false ∧
      s.checkAccess (s.dev.req who) 10 a w = true ∧ ((s.won (s.dev.req who) (unitHost p) a len true ns).readEcc (s.dev.req who) 10 a len ecc).2 = .ok bs) ∧
    (∃ (s : State) (who : Fn) (p a off : Nat) (w : Bool) (len : Nat) (data : List Byte), s.Canonical ∧ s.dev.regsWf = true ∧ s.dev.reaches who = true ∧ (∃ k : Fin 2, who = .pf k ∧ p = k.val ∧ a = off) ∧ off + (if w then data.length else len) ≤ 0x1000000000 ∧ w = false ∧
      s.checkAccess (s.dev.req who) 10 a w = false) ∧
    (∃ (s : State) (who : Fn) (p a off : Nat) (w : Bool) (len : Nat) (data : List Byte) (rivals : List Rival), s.Canonical ∧ s.dev.regsWf = true ∧ s.dev.reaches who = true ∧ (∃ v : Fin 64, who = .vf v ∧ p = v.val / 32 ∧ a = s.dev.reg64 .HRQ_APERTURE_LO .HRQ_APERTURE_HI (0x10 + v.val) + off) ∧
      off + (if w then data.length else len) ≤ 0x10000000 ∧ s.checkAccess (s.dev.req who) 10 a w = true ∧ (s.dev.round (s.dev.arbiterOf a) ⟨6, (s.dev.req who).mid, unitHost p, (s.dev.req who).sec⟩ rivals).2 = false) ∧
    (∃ (s : State) (who : Fn) (p a off : Nat) (w : Bool) (len : Nat) (data bs : List Byte) (ecc : List Ecc) (ns : Nat), s.Canonical ∧ s.dev.regsWf = true ∧ s.dev.reaches who = true ∧ (∃ v : Fin 64, who = .vf v ∧ p = v.val / 32 ∧ a = s.dev.reg64 .HRQ_APERTURE_LO .HRQ_APERTURE_HI (0x10 + v.val) + off) ∧
      off + (if w then data.length else len) ≤ 0x10000000 ∧ w = false ∧ s.checkAccess (s.dev.req who) 10 a w = true ∧ ((s.won (s.dev.req who) (unitHost p) a len true ns).readEcc (s.dev.req who) 10 a len ecc).2 = .ok bs) ∧
    (∃ (s : State) (a a' : Access) (m : Master) (rivals : List Rival), s.Canonical ∧ s.dev.regsWf = true ∧ s.dev.master a.work = some m ∧ s.dev.issued a = a' ∧ a'.addr % 64 + a'.data.length ≤ 64 ∧ s.checkAccess m.req m.path a'.addr a'.write m.out = true ∧
      (s.dev.round (s.dev.arbiterOf a'.addr) ⟨m.cls, m.req.mid, a'.work.unit, m.req.sec⟩ rivals).2 = false) :=
  ⟨⟨u2, x1, x1, ⟨⟨0x06, true⟩, 11, 0, 7⟩, canonical_of (by decide +kernel), by decide +kernel⟩,
   ⟨w7cp, x2, x2, ⟨⟨0x10, false⟩, 5, 0, 5⟩, canonical_of (by decide +kernel), by decide +kernel⟩,
   ⟨w7cp, x3, x3, ⟨⟨0x10, false⟩, 5, 0, 5⟩, canonical_of (by decide +kernel), by decide +kernel⟩,
   ⟨u9, 1, 1, u9.dev.chan (cpeIdx 1 1), r9, [4, 5], 0, canonical_of (by decide +kernel), by decide +kernel⟩,
   ⟨u3, .pf 1, 7, 1, canonical_of (by decide +kernel), by decide +kernel⟩,
   ⟨u4, canonical_of (by decide +kernel), by decide +kernel⟩,
   ⟨u5, canonical_of (by decide +kernel), by decide +kernel⟩,
   ⟨u6, canonical_of (by decide +kernel), by decide +kernel⟩,
   ⟨u6, 0x1000, 4, [.corrected], [0,0,0,0], canonical_of (by decide +kernel), by decide +kernel⟩,
   ⟨u7, .pf 0, 0, 0x1000, 0x1000, true, 0, [1,2], canonical_of (by decide +kernel), by decide +kernel, by decide +kernel, ⟨0, by decide +kernel⟩, by decide +kernel⟩,
   ⟨u7, .pf 0, 0, 0x1000, 0x1000, false, 3, [1,2], [0,0,0], [], 5, canonical_of (by decide +kernel), by decide +kernel, by decide +kernel, ⟨0, by decide +kernel⟩, by decide +kernel⟩,
   ⟨u7, .pf 1, 1, 0x1000, 0x1000, false, 3, [1,2], canonical_of (by decide +kernel), by decide +kernel, by decide +kernel, ⟨1, by decide +kernel⟩, by decide +kernel⟩,
   ⟨u8, .vf 0, 0, 0x1ffe, 0x1ffe, true, 0, [1,2], [⟨1, 0x10, 1, false⟩], canonical_of (by decide +kernel), by decide +kernel, by decide +kernel, ⟨0, by decide +kernel⟩, by decide +kernel⟩,
   ⟨u8, .vf 0, 0, 0x1000, 0x1000, false, 2, [1,2,3], [0,0], [.clean], 5, canonical_of (by decide +kernel), by decide +kernel, by decide +kernel, ⟨0, by decide +kernel⟩, by decide +kernel⟩,
   ⟨w7cp, x2, x2, ⟨⟨0x10, false⟩, 5, 0, 5⟩, [⟨1, 0x10, 1, false⟩], canonical_of (by decide +kernel), by decide +kernel⟩⟩

end W07

namespace W08

def w8 (lo : Nat) : State := owned 4 3 lo (st fun d => (d.setReg64 .OWN_ASSIGN_ADDR_LO .OWN_ASSIGN_ADDR_HI 0 lo).setReg64 .MEM_MOVE_SRC_LO .MEM_MOVE_SRC_HI 0 lo |>.setReg64 .MEM_MOVE_DST_LO .MEM_MOVE_DST_HI 0 (lo + 0x10000))
def w8op (op : AssignOp) : State := let s := w8 0x5000; { s with dev := { s.dev with own := { s.dev.own with assign := some op } } }
def w8m (m : MoveOp) : State := let s := w8 0x5000; { s with dev := s.dev.updPart fun p => { p with move := some m } }
def w8c (b : Bool) : State := st fun d => { (d.setF CPE_CH_STAT.BUSY 63 (b2n b)) with own := { d.own with ceWorldHeld := Tbl.put ([] : Tbl (Option Word)) 3 (some 0x8001) } }

def u1 : State := w8 0x5000
def u2 : State := w8op ⟨.pf 0,5,3,0x10,false,0⟩
def u3 : State := w8op ⟨.pf 0,5,1,0x10,false,1⟩
def u4 : State := w8m ⟨5,0x15,1⟩

/-- The premises of each clause of `OwnersChangeInOrder` hold together. -/
theorem witness_OwnersChangeInOrder :
    (∃ (s : State) (who : Fn) (val : Word), s.Canonical ∧ s.dev.Accepts who .OWN_ASSIGN_CTRL 0 val ∧ s.dev.regsWf = true ∧ s.dev.acts who OWN_ASSIGN_CTRL.GO 0 val = true ∧ OWN_ASSIGN_CTRL.CLR_DIRTY.get val = 0 ∧ s.dev.mayAssign who false = true) ∧
    (∃ (s : State) (who : Fn) (val : Word), s.Canonical ∧ s.dev.Accepts who .OWN_ASSIGN_CTRL 0 val ∧ s.dev.regsWf = true ∧ s.dev.acts who OWN_ASSIGN_CTRL.GO 0 val = true ∧ OWN_ASSIGN_CTRL.CLR_DIRTY.get val = 1) ∧
    (∃ (s : State) (op : AssignOp) (k : Nat) (ks : List Nat), s.Canonical ∧ s.dev.regsWf = true ∧ s.dev.own.assign = some op ∧ s.toZero op = k :: ks) ∧
    (∃ (s : State) (op : AssignOp), s.Canonical ∧ s.dev.regsWf = true ∧ s.dev.own.assign = some op ∧ s.toZero op = [] ∧ op.count = 1 ∧ s.poisonedAt (s.dev.tableAt (pageAddr op.first)) = false) ∧
    (∃ (s : State) (who : Fn) (val : Word), s.Canonical ∧ (∀ v, who ≠ .vf v) ∧ s.dev.Accepts who .MEM_MOVE_CTRL 0 val ∧ s.dev.regsWf = true ∧ s.dev.acts who MEM_MOVE_CTRL.GO 0 val = true) ∧
    (∃ (s : State) (m : MoveOp), s.Canonical ∧ s.dev.regsWf = true ∧ s.dev.part.move = some m) ∧
    (∃ (s : State) (m : MoveOp) (rivals : List Rival), s.Canonical ∧ s.dev.regsWf = true ∧ s.dev.part.move = some m ∧ (s.dev.round (s.dev.arbiterOf (pageAddr m.src)) rivalHelper rivals).2 = false) :=
  ⟨⟨u1, .pf 0, OWN_ASSIGN_CTRL.GO.put (OWN_ASSIGN_CTRL.OWNER.put (OWN_ASSIGN_CTRL.COUNT_M1.put 0 2) 0x10) 1, canonical_of (by decide +kernel), accepts_of (by decide +kernel), by decide +kernel⟩,
   ⟨u1, .pf 0, OWN_ASSIGN_CTRL.GO.put (OWN_ASSIGN_CTRL.CLR_DIRTY.put (OWN_ASSIGN_CTRL.COUNT_M1.put 0 2) 1) 1, canonical_of (by decide +kernel), accepts_of (by decide +kernel), by decide +kernel⟩,
   ⟨u2, ⟨.pf 0,5,3,0x10,false,0⟩, 0, [1,2], canonical_of (by decide +kernel), by decide +kernel⟩,
   ⟨u3, ⟨.pf 0,5,1,0x10,false,1⟩, canonical_of (by decide +kernel), by decide +kernel⟩,
   ⟨u1, .pf 0, MEM_MOVE_CTRL.GO.put (MEM_MOVE_CTRL.COUNT_M1.put 0 2) 1, canonical_of (by decide +kernel), (by intro v h; cases h), accepts_of (by decide +kernel), by decide +kernel⟩,
   ⟨u4, ⟨5,0x15,1⟩, canonical_of (by decide +kernel), by decide +kernel⟩,
   ⟨u4, ⟨5,0x15,1⟩, [⟨1, 0x10, 1, false⟩], canonical_of (by decide +kernel), by decide +kernel⟩⟩

def u5 : State := st fun d => { d with msys := { d.msys with ddrBytes := 2^30 } }
def u6 : State := w8c false
def u7 : State := w8c true

def u8 : State := st fun d => { d with msys := { d.msys with ddrBytes := 2^30, trained := false } }

/-- The premises of each clause of `LockTableAndWorldsTakeEffect` hold together. -/
theorem witness_LockTableAndWorldsTakeEffect :
    (∃ (s : State) (t : LockImg) (dflt : Bool), s.dev.regsWf = true ∧ s.dev.acholtRuns = true ∧ s.dev.fb OWN_LOCK_STAT.LOCKED 0 = false ∧ (s.dev.bootLock = some t ∧ dflt = false ∨ s.dev.bootLock = none ∧ t = s.dev.defaultLock ∧ dflt = true) ∧ (ddrBase ≤ t.tableBase → s.dev.msys.trained = true)) ∧
    (∃ (s : State) (e : Fin 4) (ch : Fin 16), s.dev.regsWf = true ∧ s.dev.chanWorldHeld e.val ch.val = true ∧ s.dev.chanBusy e.val ch.val = false) ∧
    (∃ (s : State) (e : Fin 4) (ch : Fin 16), s.dev.regsWf = true ∧ s.dev.chanWorldHeld e.val ch.val = true ∧ s.dev.chanBusy e.val ch.val = true) ∧
    (∃ (s : State), s.dev.regsWf = true ∧ s.dev.acholtRuns = true ∧ s.dev.fb OWN_LOCK_STAT.LOCKED 0 = false ∧ s.dev.bootLock = none ∧ s.dev.own.bootWaiting = false ∧ ddrBase ≤ s.dev.defaultLock.tableBase ∧ s.dev.msys.trained = false) :=
  ⟨⟨u5, u5.dev.defaultLock, true, by decide +kernel⟩,
   ⟨u6, 3, 15, by decide +kernel⟩,
   ⟨u7, 3, 15, by decide +kernel⟩,
   ⟨u8, by decide +kernel⟩⟩

end W08

namespace W09

def w9q (qs : QueueSt) (g : Dev → Dev) (f : Fn := .pf 0) (ty : Nat := 7) : State :=
  st fun d => g ((({ d.setQueue (qi f 0) qs with time := { d.time with ltime := 10^9 } }).setF HRQ_Q_CFG.ENABLE (qi f 0) 1).setF HRQ_Q_CFG.TYPE (qi f 0) ty)
def c9 (op : Nat) : Cmd := cmdOf op [0,2]
def flagged (op fl : Nat) : Cmd := { lead := [BitVec.ofNat 8 op, BitVec.ofNat 8 fl, 0, 0, 5, 0, 6, 0, 9] ++ List.replicate 7 0 ++ [77] ++ List.replicate 47 0 }
def hdr9 (slot n : Nat) : List Byte := [0xF0, 1, 0, 0, BitVec.ofNat 8 slot, BitVec.ofNat 8 n, 0, 0, 1] ++ List.replicate 15 0 ++ [4, 7] ++ List.replicate 38 0
def env9 (slot n : Nat) : Env := { header := hdr9 slot n, inner := [(c9 0xAF).lead], badExtent := false }

def u1 : State := st id
def u2 : State := w9q {} id
def u3 : State := w9q { unreleased := 5, cqHead := 14 } id
def u4 : State := w9q { tail := 3 } (fun d => d.setF HRQ_Q_PTR.SQ_HEAD (qi (.pf 0) 0) 14)
def u5 : State := w9q { reading := 3 } id
def u6 : State := w9q { reading := 1 } (fun d => d.setF HRQ_Q_PTR.SQ_HEAD (qi (.pf 0) 0) 15)
def u7 : State := w9q { cmds := [c9 0x55] } id
def u8 : State := w9q { cmds := [{ flagged 0x55 0x10 with phase := .waiting (some (10^9)) }] } id
def u9 : State := w9q { cmds := [{ flagged 0xAE 0x10 with phase := .waiting (some (10^9)) }] } (fun d => (d.setFence 5 9).setF HRQ_FENCE_OWNER.OWNER 0 4)

def u31 : State := w9q { cmds := [{ flagged 0x36 0x10 with phase := .waiting (some (10^9)) }] } fun d =>
  { d.setF GPU_CTX_ASSIGN.OWNER 0 4 with gpu := { d.gpu with ctx := Tbl.put ([] : Tbl GpuCtx) 0 { cmds := [(⟨qi (.pf 0) 0, 9⟩, {})] } } }

/-- The premises of each clause of `DoorbellsAndFetchFillQueues` hold together. -/
theorem witness_DoorbellsAndFetchFillQueues :
    (∃ (s : State) (f : Fn) (q : Fin 8) (idx : _), s.dev.regsWf = true ∧ s.dev.tablesWf = true ∧ s.dev.hasQueues f = true ∧ s.dev.sqSize (qi f q) ≤ idx) ∧
    (∃ (s : State) (f : Fn) (q : Fin 8) (idx : _), s.dev.regsWf = true ∧ s.dev.tablesWf = true ∧ s.dev.hasQueues f = true ∧ idx < s.dev.sqSize (qi f q) ∧ s.dev.fb HRQ_Q_CFG.ENABLE (qi f q) = true) ∧
    (∃ (s : State) (f : Fn) (q : Fin 8) (idx : _), s.dev.regsWf = true ∧ s.dev.tablesWf = true ∧ s.dev.hasQueues f = true ∧ s.dev.cqSize (qi f q) ≤ idx) ∧
    (∃ (s : State) (f : Fn) (q : Fin 8) (idx : _), s.dev.regsWf = true ∧ s.dev.tablesWf = true ∧ s.dev.hasQueues f = true ∧ idx < s.dev.cqSize (qi f q) ∧ s.dev.fb HRQ_Q_CFG.ENABLE (qi f q) = true) ∧
    (∃ (s : State) (f : Fn) (q : Fin 8) (n : _), n = min (if f = .sp0 then 8 else s.dev.readSize f / 64) (min (s.dev.sqSize (qi f q) - s.dev.f HRQ_Q_PTR.SQ_HEAD (qi f q)) (((s.dev.queue (qi f q)).tail + s.dev.sqSize (qi f q) - s.dev.f HRQ_Q_PTR.SQ_HEAD (qi f q)) % s.dev.sqSize (qi f q))) ∧ s.dev.regsWf = true ∧ s.dev.tablesWf = true ∧ n ≠ 0 ∧ s.dev.fb HRQ_Q_CFG.ENABLE (qi f q) = true ∧ s.dev.fb HRQ_Q_STAT.HALTED (qi f q) = false ∧ (s.dev.queue (qi f q)).reading = 0 ∧ s.dev.inReset f.code = false ∧ s.dev.vfHeld f.code = false ∧ f ≠ .sp0 ∧ s.dev.tagFree f = true ∧ (∀ r ∈ s.dev.hrq.reads, r.sent.isSome = true)) ∧
    (∃ (s : State) (f : Fn) (q : Fin 8), s.dev.regsWf = true ∧ s.dev.tablesWf = true ∧ f ≠ .sp0 ∧ (s.dev.queue (qi f q)).reading ≠ 0) ∧
    (∃ (s : State) (f : Fn) (q : Fin 8) (ds : List Byte), s.dev.regsWf = true ∧ s.dev.tablesWf = true ∧ f ≠ .sp0 ∧ (s.dev.queue (qi f q)).reading = 1 ∧ (s.dev.queue (qi f q)).skipping = false ∧ (s.dev.queue (qi f q)).chain = [] ∧ ds.length = 64 ∧ bit (le ds 1 1) 0 = false ∧ le ds 0 1 ≠ 0xF0 ∧ s.dev.fb HRQ_Q_CFG.SHADOW_EN (qi f q) = false) ∧
    (∃ (s : State) (f : Fn) (q : Fin 8) (c : _) (all : _), s.dev.regsWf = true ∧ s.dev.tablesWf = true ∧ (s.dev.queue (qi f q)).next = some (c, all) ∧ c.env = none ∧ s.dev.opcodeOk (qi f q) c.opcode = false ∧ s.dev.mayStart f (qi f q) = true) ∧
    (∃ (s : State) (f : Fn) (q : Fin 8) (c : _) (all : _) (l : _), s.dev.regsWf = true ∧ s.dev.tablesWf = true ∧ (s.dev.queue (qi f q)).next = some (c, all) ∧ c.phase = .waiting (some l) ∧ l ≤ s.dev.now ∧ s.dev.fenceReached c = false ∧ s.dev.behindCtx f ⟨qi f q, c.id⟩ c = none) ∧
    (∃ (s : State) (f : Fn) (q : Fin 8) (c : _), s.Bare f q c ∧ (∃ l, c.phase = .waiting l) ∧ s.dev.regsWf = true ∧ s.dev.tablesWf = true ∧ c.ownRow = false) ∧
    (∃ (s : State) (f : Fn) (q : Fin 8) (c : _) (all : _) (l g : _), s.dev.regsWf = true ∧ s.dev.tablesWf = true ∧ (s.dev.queue (qi f q)).next = some (c, all) ∧ c.phase = .waiting (some l) ∧ l ≤ s.dev.now ∧ s.dev.fenceReached c = false ∧ s.dev.behindCtx f ⟨qi f q, c.id⟩ c = some g) :=
  ⟨⟨u1, .pf 0, 0, 16, by decide +kernel⟩,
   ⟨u2, .pf 0, 0, 15, by decide +kernel⟩,
   ⟨u1, .pf 0, 0, 16, by decide +kernel⟩,
   ⟨u3, .pf 0, 0, 3, by decide +kernel⟩,
   ⟨u4, .pf 0, 0, min (if Fn.pf 0 = .sp0 then 8 else u4.dev.readSize (.pf 0) / 64) (min (u4.dev.sqSize (qi (Fn.pf 0) (0)) - u4.dev.f HRQ_Q_PTR.SQ_HEAD (qi (Fn.pf 0) (0))) (((u4.dev.queue (qi (Fn.pf 0) (0))).tail + u4.dev.sqSize (qi (Fn.pf 0) (0)) - u4.dev.f HRQ_Q_PTR.SQ_HEAD (qi (Fn.pf 0) (0))) % u4.dev.sqSize (qi (Fn.pf 0) (0)))), rfl, by decide +kernel⟩,
   ⟨u5, .pf 0, 0, by decide +kernel⟩,
   ⟨u6, .pf 0, 0, (c9 0xAE).lead, by decide +kernel⟩,
   ⟨u7, .pf 0, 0, c9 0x55, true, by decide +kernel⟩,
   ⟨u8, .pf 0, 0, { flagged 0x55 0x10 with phase := .waiting (some (10^9)) }, true, 10^9, by decide +kernel⟩,
   ⟨u9, .pf 0, 0, { flagged 0xAE 0x10 with phase := .waiting (some (10^9)) }, bare_of (by decide +kernel), ⟨_, rfl⟩, by decide +kernel⟩,
   ⟨u31, .pf 0, 0, { flagged 0x36 0x10 with phase := .waiting (some (10^9)) }, true, 10^9, 0, by decide +kernel⟩⟩

def u10 : State := w9q { cmds := [{ c9 0x55 with phase := .ended, status := 3 }], unreleased := 16 } id
def u11 : State := w9q { cmds := [{ c9 0x55 with phase := .ended, status := 3 }], unreleased := 15 } (fun d => d.setF HRQ_Q_PTR.CQ_TAIL (qi (.pf 0) 0) 15)
def u27 : State := w9q { cmds := [{ flagged 0x55 4 with phase := .ended, signalled := true }] } id
def u28 : State := w9q { cmds := [{ c9 0x55 with phase := .ended, status := 3 }] } (fun d => { d with busMaster := d.busMaster.put 4 false })
def u12 (v : Nat) : State := w9q { cmds := [{ flagged 0x55 0x60 with phase := .running }] } (fun d => (d.setFence 6 v).setF HRQ_FENCE_OWNER.OWNER 0 4)
def u13 : State := w9q { unsignalled := 3, firstUnsig := 10^9 - 1000 } (fun d => (d.setF HRQ_Q_IRQ.IRQ_EN (qi (.pf 0) 0) 1).setF HRQ_Q_IRQ.COAL_US (qi (.pf 0) 0) 1)
def u14 : State := st fun d => d.setF HRQ_Q_STAT.HALTED (qi (.vf 0) 3) 1
def u15 : State := w9q { cmds := [c9 5], reading := 2, chain := [[1]], skipping := true } id
def u16 : State := w9q { cmds := [{ c9 5 with phase := .running }, {c9 6 with id := 1}, { c9 5 with phase := .ended, id := 2 }] } id

/-- The premises of each clause of `QueuesCompleteAndAreConfigured` hold together. -/
theorem witness_QueuesCompleteAndAreConfigured :
    (∃ (s : State) (f : Fn) (q : Fin 8) (c : _), s.dev.regsWf = true ∧ s.dev.tablesWf = true ∧ s.dev.nextRecord (qi f q) = some c ∧ c.recordReady = true ∧ bit (le c.recordHeader 1 1) 2 = true ∧ c.recordStatus = ST_OK) ∧
    (∃ (s : State) (f : Fn) (q : Fin 8) (c : _), s.dev.regsWf = true ∧ s.dev.tablesWf = true ∧ s.dev.nextRecord (qi f q) = some c ∧ c.recordReady = true ∧ ¬(bit (le c.recordHeader 1 1) 2 = true ∧ c.recordStatus = ST_OK) ∧ s.dev.cqSize (qi f q) ≤ (s.dev.queue (qi f q)).unreleased) ∧
    (∃ (s : State) (f : Fn) (q : Fin 8) (c : _), s.dev.regsWf = true ∧ s.dev.tablesWf = true ∧ s.dev.nextRecord (qi f q) = some c ∧ c.recordReady = true ∧ ¬(bit (le c.recordHeader 1 1) 2 = true ∧ c.recordStatus = ST_OK) ∧ (s.dev.queue (qi f q)).unreleased < s.dev.cqSize (qi f q) ∧ f ≠ .sp0 ∧ s.dev.canSend f = true) ∧
    (∃ (s : State) (f : Fn) (q : Fin 8) (c : _), s.dev.regsWf = true ∧ s.dev.tablesWf = true ∧ s.dev.nextRecord (qi f q) = some c ∧ c.recordReady = true ∧ ¬(bit (le c.recordHeader 1 1) 2 = true ∧ c.recordStatus = ST_OK) ∧ (s.dev.queue (qi f q)).unreleased < s.dev.cqSize (qi f q) ∧ f ≠ .sp0 ∧ s.dev.canSend f = false) ∧
    (∃ (s : State) (ref : CmdRef) (x : Cmd) (g : Fn) (st : Nat), s.dev.regsWf = true ∧ s.dev.tablesWf = true ∧ s.dev.cmd? ref = some x ∧ x.phase ≠ .ended ∧ queueFn ref.queue = some g ∧ x.flag 5 = true ∧ x.env = none ∧ (st < 0x40 ∨ x.flag 6 = true) ∧ le x.lead 6 2 < 4096 ∧ s.dev.maySignal g.code x.secure (le x.lead 6 2) = true) ∧
    (∃ (s : State) (ref : CmdRef) (x : Cmd) (g : Fn) (st : Nat), s.dev.regsWf = true ∧ s.dev.tablesWf = true ∧ s.dev.cmd? ref = some x ∧ x.phase ≠ .ended ∧ queueFn ref.queue = some g ∧ x.flag 5 = true ∧ x.env = none ∧ (st < 0x40 ∨ x.flag 6 = true) ∧ le x.lead 6 2 < 4096 ∧ s.dev.maySignal g.code x.secure (le x.lead 6 2) = true ∧ le x.lead 16 8 ≤ s.dev.fence (le x.lead 6 2) ∧ st = ST_OK) ∧
    (∃ (s : State) (f : Fn) (q : Fin 8), s.dev.regsWf = true ∧ s.dev.tablesWf = true ∧ s.dev.fb HRQ_Q_IRQ.IRQ_EN (qi f q) = true ∧ s.dev.f HRQ_Q_IRQ.COAL_US (qi f q) ≠ 0 ∧ (s.dev.queue (qi f q)).unsignalled ≠ 0 ∧ (s.dev.queue (qi f q)).firstUnsig + 1000 * s.dev.f HRQ_Q_IRQ.COAL_US (qi f q) ≤ s.dev.now) ∧
    (∃ (s : State) (f : Fn) (q : Fin 8) (who : Fn) (val : Word), s.dev.Accepts who .HRQ_Q_CFG (qi f q) val ∧ s.dev.regsWf = true ∧ s.dev.tablesWf = true ∧ mayReachQueue who f = true ∧ s.dev.fb HRQ_Q_CFG.ENABLE (qi f q) = false ∧ s.dev.queueActive (qi f q) = false ∧ HRQ_Q_CFG.ENABLE.get val = 1) ∧
    (∃ (s : State) (f : Fn) (q : Fin 8) (who : Fn) (val : Word), s.dev.Accepts who .HRQ_Q_CFG (qi f q) val ∧ s.dev.regsWf = true ∧ s.dev.tablesWf = true ∧ mayReachQueue who f = true ∧ s.dev.fb HRQ_Q_CFG.ENABLE (qi f q) = true ∧ HRQ_Q_CFG.ENABLE.get val = 0 ∧ s.dev.acts who HRQ_Q_CFG.ABORT (qi f q) val = false) ∧
    (∃ (s : State) (f : Fn) (q : Fin 8) (who : Fn) (val : Word), s.dev.Accepts who .HRQ_Q_CFG (qi f q) val ∧ s.dev.regsWf = true ∧ s.dev.tablesWf = true ∧ mayReachQueue who f = true ∧ s.dev.fb HRQ_Q_CFG.ENABLE (qi f q) = true ∧ s.dev.acts who HRQ_Q_CFG.ABORT (qi f q) val = true) :=
  ⟨⟨u27, .pf 0, 0, { flagged 0x55 4 with phase := .ended, signalled := true }, by decide +kernel⟩,
   ⟨u10, .pf 0, 0, { c9 0x55 with phase := .ended, status := 3 }, by decide +kernel⟩,
   ⟨u11, .pf 0, 0, { c9 0x55 with phase := .ended, status := 3 }, by decide +kernel⟩,
   ⟨u28, .pf 0, 0, { c9 0x55 with phase := .ended, status := 3 }, by decide +kernel⟩,
   ⟨u12 76, ⟨qi (.pf 0) 0, 0⟩, { flagged 0x55 0x60 with phase := .running }, .pf 0, 0x41, by decide +kernel⟩,
   ⟨u12 77, ⟨qi (.pf 0) 0, 0⟩, { flagged 0x55 0x60 with phase := .running }, .pf 0, ST_OK, by decide +kernel⟩,
   ⟨u13, .pf 0, 0, by decide +kernel⟩,
   ⟨u14, .vf 0, 3, .vf 0, HRQ_Q_CFG.TYPE.put 1 7, accepts_of (by decide +kernel), by decide +kernel⟩,
   ⟨u15, .pf 0, 0, .sp0, u15.dev.reg .HRQ_Q_CFG (qi (.pf 0) 0) - 1, accepts_of (by decide +kernel), by decide +kernel⟩,
   ⟨u16, .pf 0, 0, .sp0, HRQ_Q_CFG.ABORT.put (u16.dev.reg .HRQ_Q_CFG (qi (.pf 0) 0) - 1) 1, accepts_of (by decide +kernel), by decide +kernel⟩⟩

def u17 : State := st fun d => ({ d with time := { d.time with held := Tbl.put ([] : Tbl Word) (heldKey (.pf 0) .HRQ_FENCE_SIG_LO 4095) 5 } }.setF HRQ_FENCE_OWNER.OWNER 63 4).setFence 4095 3
def u18 : State := st fun d => (d.setF HRQ_FENCE_OWNER.OWNER 63 4).setFence 4095 (2^40)
def u19 : State := st fun d => ((d.setF HRQ_FENCE_OWNER.OWNER 0 4).setFence 3 (2^40)).setQueue (qi (.pf 1) 0) { cmds := [flagged 0x55 0x10] }
def u20 : State := st fun d => (((d.raise 99).raise 100).raise 101).setF HRQ_EV_ROUTE.FAULT 100 1
def u21 : State := enved (.pf 0) 7 0xA3 [0,0,3] (id)
def u22 : State := w9q { cmds := [{ c9 0xA3 with env := some { header := hdr9 3 2, inner := [(c9 0xAF).lead], badExtent := false } }] } (fun d => { d with mgt := { d.mgt with serial := 0 } })
def u23 : State := w9q { cmds := [{ c9 0xAF with env := some (env9 3 1)}] } (fun d => { d with hrq := { d.hrq with keys := Tbl.put ([] : Tbl KeySlot) 3 { present := true, key := [1,2,3] } } })
def u24 : State := enved (.pf 0) 7 0xA3 [0,0,3] (fun d => { d with mgt := { d.mgt with counters := Tbl.put ([] : Tbl Nat) 0 5 }, hrq := { d.hrq with toFlash := [(qi (.vf 0) 0, 3, 8), (qi (.pf 0) 0, 3, 9)] } })
def u29 : State := w9q { cmds := [{ c9 0xAF with env := some (env9 3 1)}] } (fun d => { d with hrq := { d.hrq with keys := Tbl.put ([] : Tbl KeySlot) 3 { present := true, throttled := true } } })
def u25 : State := w9q {} (fun d => { d with hrq := { d.hrq with keys := Tbl.put ([] : Tbl KeySlot) 7 { present := true, throttled := true, lastReject := 9*10^8 } } })
def u30 : State := st fun d => d.setF OWN_LOCK_STAT.LOCKED 0 1
def u26 : State := { u30 with dev := { u30.dev with hrq := { u30.dev.hrq with window := [(0x3fffe, 5)] } } }

/-- The premises of each clause of `FencesEventsEnvelopesAndSp0` hold together. -/
theorem witness_FencesEventsEnvelopesAndSp0 :
    (∃ (s : State) (who : Fn) (n : Fin 4096), s.dev.regsWf = true ∧ s.dev.tablesWf = true ∧ s.dev.maySignal who.code (s.dev.secure who) n.val = true) ∧
    (∃ (s : State) (who : Fn) (n : Fin 4096), s.dev.regsWf = true ∧ s.dev.tablesWf = true ∧ s.dev.maySignal who.code (s.dev.secure who) n.val = false ∧ who ≠ .acholt) ∧
    (∃ (s : State) (who : Fn) (b : Fin 64) (val : Word), (∀ v, who ≠ .vf v) ∧ s.dev.regsWf = true ∧ s.dev.tablesWf = true ∧ HRQ_FENCE_OWNER.OWNER.get val ≠ s.dev.f HRQ_FENCE_OWNER.OWNER b.val ∧ s.dev.fenceBlockBusy b.val = false ∧ s.dev.mayGive who (s.dev.f HRQ_FENCE_OWNER.OWNER b.val) = true ∧ s.dev.mayGive who (HRQ_FENCE_OWNER.OWNER.get val) = true) ∧
    (∃ (s : State) (who : Fn) (b : Fin 64) (val : Word), (∀ v, who ≠ .vf v) ∧ s.dev.regsWf = true ∧ s.dev.tablesWf = true ∧ HRQ_FENCE_OWNER.OWNER.get val ≠ s.dev.f HRQ_FENCE_OWNER.OWNER b.val ∧ s.dev.fenceBlockBusy b.val = true ∧ who ≠ .acholt) ∧
    (∃ (s : State) (who : Fn), (∀ v, who ≠ .vf v) ∧ s.dev.regsWf = true ∧ s.dev.tablesWf = true) ∧
    (∃ (s : State) (who : Fn) (k : Fin 512) (val : Word), (∀ v, who ≠ .vf v) ∧ s.dev.Accepts who .HRQ_EV_ROUTE k.val val ∧ (∀ p c, who = .pf p → c = s.dev.f HRQ_EV_ROUTE.FUNC k.val ∨ c = HRQ_EV_ROUTE.FUNC.get val → c = 0 ∨ inFamily p.val c = true) ∧ s.dev.regsWf = true ∧ s.dev.tablesWf = true ∧ (s.dev.evSecure k.val = false ∨ s.dev.secure who = true)) ∧
    (∃ (s : State) (who : Fn) (k : Fin 512), (∀ v, who ≠ .vf v) ∧ s.dev.regsWf = true ∧ s.dev.tablesWf = true ∧ s.dev.evSecure k.val = true ∧ s.dev.secure who = false) ∧
    (∃ (s : State) (f : Fn) (q : Fin 8) (c : Cmd) (s1 : State), s.Accepted f q c s1 ∧ s.dev.regsWf = true ∧ s.dev.tablesWf = true ∧ c.ownRow = false) ∧
    (∃ (s : State) (f : Fn) (q : Fin 8) (c : Cmd) (all : Bool) (e : Env), s.dev.regsWf = true ∧ s.dev.tablesWf = true ∧ (s.dev.queue (qi f q)).next = some (c, all) ∧ c.env = some e ∧ e.accepted = false ∧ s.dev.mayStart f (qi f q) = true ∧ s.dev.acholtRuns = true ∧ (c.flag 3 = true → all = true) ∧ (s.dev.hrq.keys.get (le e.header 4 1 % 8)).throttled = true) ∧
    (∃ (s : State) (f : Fn) (q : Fin 8) (c : Cmd) (all : Bool) (e : Env), s.dev.regsWf = true ∧ s.dev.tablesWf = true ∧ (s.dev.queue (qi f q)).next = some (c, all) ∧ c.env = some e ∧ e.accepted = false ∧ s.dev.mayStart f (qi f q) = true ∧ s.dev.acholtRuns = true ∧ (c.flag 3 = true → all = true) ∧ s.dev.hrq.throttleWait = [] ∧ (s.dev.hrq.keys.get (le e.header 4 1 % 8)).throttled = false ∧ e.fieldsOk s.dev.mgt.serial f.code (s.dev.f HRQ_Q_CFG.TYPE (qi f q)) = false ∧ s.dev.cmd? ⟨qi f q, c.id⟩ = some c) ∧
    (∃ (s : State) (f : Fn) (q : Fin 8) (c : Cmd) (all : Bool) (e : Env), s.dev.regsWf = true ∧ s.dev.tablesWf = true ∧ (s.dev.queue (qi f q)).next = some (c, all) ∧ c.env = some e ∧ e.accepted = false ∧ s.dev.mayStart f (qi f q) = true ∧ s.dev.acholtRuns = true ∧ (c.flag 3 = true → all = true) ∧ e.fieldsOk s.dev.mgt.serial f.code (s.dev.f HRQ_Q_CFG.TYPE (qi f q)) = true ∧ s.dev.hrq.throttleWait = [] ∧ (s.dev.hrq.keys.get (le e.header 4 1 % 8)).throttled = false ∧ (s.dev.hrq.keys.get (le e.header 4 1)).verdict e (s.dev.rightsNeeded c) ≠ 0 ∧ s.dev.cmd? ⟨qi f q, c.id⟩ = some c) ∧
    (∃ (s : State) (f : Fn) (q : Fin 8) (slot counter : Nat), s.dev.regsWf = true ∧ s.dev.tablesWf = true ∧ (s.dev.hrq.toFlash.find? fun x => x.1 == qi f q) = some (qi f q, slot, counter)) ∧
    (∃ (s : State) (slot : Fin 8), s.dev.regsWf = true ∧ s.dev.tablesWf = true ∧ (s.dev.hrq.keys.get slot.val).throttled = true ∧ (s.dev.hrq.keys.get slot.val).lastReject + 100000000 ≤ s.dev.now) ∧
    (∃ (s : State) (addr len : Nat), s.dev.regsWf = true ∧ s.dev.tablesWf = true ∧ s.dev.spOn = true ∧ addr + len ≤ 0x40000) ∧
    (∃ (s : State) (addr : Nat) (data : List Byte), s.dev.regsWf = true ∧ s.dev.tablesWf = true ∧ s.dev.spOn = true ∧ addr + data.length ≤ 0x40000 ∧ s.dev.mgt.phase ≠ .recovery) ∧
    (∃ (s : State) (addr : Nat), s.dev.regsWf = true ∧ s.dev.tablesWf = true ∧ s.dev.spOn = true ∧ 0x41000 ≤ addr ∧ addr < 0x1000000) ∧
    (∃ (s : State), s.dev.regsWf = true ∧ s.dev.tablesWf = true ∧ s.dev.spOn = true) ∧
    (∃ (s : State), s.dev.regsWf = true ∧ s.dev.tablesWf = true ∧ s.dev.spOn = false) :=
  ⟨⟨u17, .pf 0, 4095, by decide +kernel⟩,
   ⟨u1, .vf 3, 63, by decide +kernel⟩,
   ⟨u18, .pf 0, 63, 0x10, (by intro v h; cases h), by decide +kernel⟩,
   ⟨u19, .pf 0, 0, 0x10, (by intro v h; cases h), by decide +kernel⟩,
   ⟨u20, .pf 0, (by intro v h; cases h), by decide +kernel⟩,
   ⟨u1, .pf 0, 511, HRQ_EV_ROUTE.FUNC.put (u1.dev.reg .HRQ_EV_ROUTE 511) 0x10, (by intro v h; cases h), accepts_of (by decide +kernel), (by intro p c h hc; cases h; rcases hc with rfl | rfl <;> decide +kernel), by decide +kernel⟩,
   ⟨u1, .pf 1, 483, (by intro v h; cases h), by decide +kernel⟩,
   ⟨u21, .pf 0, 0, inner u21 (Fn.pf 0), u21, accepted_of (by decide +kernel), by decide +kernel⟩,
   ⟨u29, .pf 0, 0, { c9 0xAF with env := some (env9 3 1) }, true, env9 3 1, by decide +kernel⟩,
   ⟨u22, .pf 0, 0, { c9 0xA3 with env := some { header := hdr9 3 2, inner := [(c9 0xAF).lead], badExtent := false } }, true, { header := hdr9 3 2, inner := [(c9 0xAF).lead], badExtent := false }, by decide +kernel⟩,
   ⟨u23, .pf 0, 0, { c9 0xAF with env := some (env9 3 1) }, true, env9 3 1, by decide +kernel⟩,
   ⟨u24, .pf 0, 0, 3, 9, by decide +kernel⟩,
   ⟨u25, 7, by decide +kernel⟩,
   ⟨u26, 0x3fffc, 4, by decide +kernel⟩,
   ⟨u26, 0x3fffc, [1,2,0,3], by decide +kernel⟩,
   ⟨u30, 0x41000, by decide +kernel⟩,
   ⟨u30, by decide +kernel⟩,
   ⟨u1, by decide +kernel⟩⟩

end W09

namespace W10

/-- output 1 scans an 8 × 4 picture; slots 5 and 6 are bound to it -/
def w10 (o : OutSt) (g : Dev → Dev := id) (state : Nat := 2) : State :=
  st fun d => g (putL DSP_SLOT_ASSIGN.OWNER 5 4 (putL DSP_SLOT_ASSIGN.OUTPUT 5 1 (putL DSP_SLOT_ASSIGN.OWNER 6 4 (putL DSP_SLOT_ASSIGN.OUTPUT 6 1
    ({ (((d.setF DSP_TG_H0.HACT 1 8).setF DSP_TG_V0.VACT 1 4).setF DSP_TG_STAT.STATE 1 state) with time := { d.time with ltime := 10^9 }, disp := { d.disp with outs := Tbl.put ([] : Tbl OutSt) 1 o } } : Dev)))))
def r10 (sl : Nat) : LRec := { slot := sl, fmt := 2, base := ddrBase + 2^22, stride := 64, sw := 8, sh := 4, dw := 8, dh := 4, alpha := 255 }
def vis (sl : Nat) (d : Dev) : Dev := { (d.setF DSP_SLOT_STAT.HIDE_CAUSE sl 0).setF DSP_SLOT_STAT.VISIBLE sl 1 with disp := { d.disp with layers := d.disp.layers.put sl { cur := some (r10 sl) } } }
def cap10 (late : Bool) : Capture := { group := { id := 7, kind := .writeback, cmds := [⟨qi (.pf 0) 0, 0⟩], late := late }, tap := 0, fmt := 2, base := ddrBase, stride := 64, seq := 2^32-1, lines := 4, height := 4, written := 4 }
def wbcmd (g : Dev → Dev) : Dev → Dev := fun d => queued (.pf 0) 0 { cmdOf 0x1A [] with phase := .running } (g d)
def hideRec (sl : Nat) : GRec := { r := { slot := sl, hide := true }, cmd := 0, cont := 1, rsv := none }
def grp10 (recs : List GRec) : Group := { id := 3, kind := .commit, code := 4, queue := qi (.pf 0) 0, cmds := [⟨qi (.pf 0) 0, 0⟩], mask := 2, anchor := 1, recs := recs, phase := .validating }
def withGrp (g : Group) (d : Dev) : Dev := { d with disp := { d.disp with groups := [g], nextGroup := 4, nextOrd := 9 } }

def u1 : State := w10 { compose := 3, scan := 1, runway := [[1],[2]] }
def u16 : State := w10 { compose := 3, runway := [[1],[2],[3]], sending := some [] }
def u17 : State := w10 { compose := 2, scan := 3, runway := [] }
def u18 : State := w10 { compose := 4, scan := 4 } (fun d => (d.setF DSP_TG_STAT.LINE 1 4).setF DSP_TG_CTRL.LATCH_OFS 1 1)
def u19 : State := w10 { compose := 4, scan := 4 } (fun d => (d.setF DSP_TG_STAT.LINE 1 3).setF DSP_TG_CTRL.LATCH_OFS 1 1)
def u2 : State := w10 { compose := 4, scan := 3, runway := [[1,2,3,4,5,6,7,8]] } (vis 5)
def u3 : State := w10 { compose := 2, scan := 2, runway := [] } (vis 6)
def u4 : State := w10 { compose := 2, scan := 2, runway := [] } (fun d => putL CNV_RLB.SLOT 31 6 (putL CNV_RLB.EN 31 1 (vis 6 d)))
def u5 : State := w10 { compose := 2, scan := 2, runway := [], canopy := { on := true, y := 2, h := 1, w := 1 } } (vis 6)
def u6 : State := w10 { captures := [cap10 true] } (wbcmd id)

def cap10s : Capture := { cap10 true with group := { (cap10 true).group with decided := some (5, 6, true) } }
def u20 : State := w10 { captures := [cap10s] } (wbcmd id)

/-- The premises of each clause of `LinesAreComposedAndScannedOut` hold together. -/
theorem witness_LinesAreComposedAndScannedOut :
    (∃ (s : State) (n : Fin 12), s.dev.regsWf = true ∧ s.dev.tablesWf = true ∧ s.dev.tgScans n.val = true ∧ s.dev.mayCompose n.val = false) ∧
    (∃ (s : State) (n : Fin 12), s.dev.regsWf = true ∧ s.dev.tablesWf = true ∧ s.dev.tgScans n.val = true ∧ s.dev.mayCompose n.val = true ∧ s.dev.hostWaits n.val (s.dev.out n.val).compose = [] ∧
      (s.dev.out n.val).scan ≤ (s.dev.out n.val).compose) ∧
    (∃ (s : State) (n : Fin 12), s.dev.regsWf = true ∧ s.dev.tablesWf = true ∧ s.dev.tgScans n.val = true ∧ s.dev.mayCompose n.val = true ∧ s.dev.hostWaits n.val (s.dev.out n.val).compose = [] ∧
      (s.dev.out n.val).compose < (s.dev.out n.val).scan) ∧
    (∃ (s : State) (n : Fin 12), s.dev.regsWf = true ∧ s.dev.tablesWf = true ∧ s.dev.tgScans n.val = true ∧ s.dev.latchDue n.val = true) ∧
    (∃ (s : State) (n : Fin 12), s.dev.regsWf = true ∧ s.dev.tablesWf = true ∧ s.dev.tgScans n.val = true ∧ s.dev.latchDue n.val = false ∧ s.dev.nextActive n.val = false) ∧
    (∃ (s : State) (n : Fin 12) (line : _) (rest : _), s.dev.regsWf = true ∧ s.dev.tablesWf = true ∧ s.dev.tgScans n.val = true ∧ s.dev.latchDue n.val = false ∧ s.dev.nextActive n.val = true ∧ (s.dev.out n.val).runway = line :: rest ∧
      rest.length < s.dev.fl DSP_RUNWAY_CTRL.LOW_MARK n.val ∧ s.dev.paced n.val = false) ∧
    (∃ (s : State) (n : Fin 12), s.dev.regsWf = true ∧ s.dev.tablesWf = true ∧ s.dev.tgScans n.val = true ∧ s.dev.latchDue n.val = false ∧ s.dev.nextActive n.val = true ∧ (s.dev.out n.val).runway = []) ∧
    (∃ (s : State) (n : Fin 12) (y : _) (sl : Fin 384) (r : LRec), y = (s.dev.out n.val).scan ∧ s.dev.deadlinePast n.val y = true ∧ s.dev.regsWf = true ∧ s.dev.tablesWf = true ∧ s.dev.tgScans n.val = true ∧ (s.dev.out n.val).compose ≤ y ∧ y < s.dev.vact n.val ∧ s.dev.frameRec sl.val = some r ∧ s.dev.slotOut sl.val = some n.val ∧ r.onLine y = true ∧ s.dev.offFrame sl.val = false ∧ s.dev.fb DSP_CNP_STAT.CBLANK n.val = false ∧ s.dev.remoteOf sl.val = none) ∧
    (∃ (s : State) (n : Fin 12) (y : _) (sl : Fin 384) (r : LRec), y = (s.dev.out n.val).scan ∧ s.dev.deadlinePast n.val y = true ∧ s.dev.regsWf = true ∧ s.dev.tablesWf = true ∧ s.dev.tgScans n.val = true ∧ (s.dev.out n.val).compose ≤ y ∧ y < s.dev.vact n.val ∧ s.dev.frameRec sl.val = some r ∧ s.dev.slotOut sl.val = some n.val ∧ r.onLine y = true ∧ s.dev.offFrame sl.val = false ∧ s.dev.fb DSP_CNP_STAT.CBLANK n.val = false ∧ (s.dev.remoteOf sl.val).isSome = true) ∧
    (∃ (s : State) (n : Fin 12) (y : _), y = (s.dev.out n.val).scan ∧ s.dev.deadlinePast n.val y = true ∧ s.dev.regsWf = true ∧ s.dev.tablesWf = true ∧ s.dev.tgScans n.val = true ∧ (s.dev.out n.val).compose ≤ y ∧ y < s.dev.vact n.val ∧ (s.dev.out n.val).canopy.onLine y = true ∧ (s.dev.out n.val).failFrame = false ∧ (s.dev.out n.val).failHeld = false) ∧
    (∃ (s : State) (n : Fin 12) (c : Capture) (ref : CmdRef), s.dev.Running ref ∧ s.dev.regsWf = true ∧ s.dev.tablesWf = true ∧ s.dev.tgScans n.val = true ∧ ((s.dev.out n.val).captures.find? fun c => decide (0 < c.height) && c.written == c.height) = some c ∧ c.group.cmds = [ref] ∧ c.seq < 2 ^ 32 ∧ c.group.dropped = false ∧ c.group.tapsRed = false ∧ c.group.late = true ∧ (∀ x, c.group.decided = some x → x.2.2 = false)) ∧
    (∃ (s : State) (n : Fin 12) (c : Capture) (ref : CmdRef) (x : Nat × Nat × Bool), s.dev.Running ref ∧ s.dev.regsWf = true ∧ s.dev.tablesWf = true ∧ s.dev.tgScans n.val = true ∧ ((s.dev.out n.val).captures.find? fun c => decide (0 < c.height) && c.written == c.height) = some c ∧
      c.group.cmds = [ref] ∧ c.seq < 2 ^ 32 ∧ c.group.dropped = false ∧ c.group.tapsRed = false ∧ c.group.decided = some x ∧ x.2.2 = true) :=
  ⟨⟨u16, 1, by decide +kernel⟩,
   ⟨u1, 1, by decide +kernel⟩,
   ⟨u17, 1, by decide +kernel⟩,
   ⟨u18, 1, by decide +kernel⟩,
   ⟨u19, 1, by decide +kernel⟩,
   ⟨u2, 1, [1,2,3,4,5,6,7,8], [], by decide +kernel⟩,
   ⟨u3, 1, by decide +kernel⟩,
   ⟨u3, 1, (u3.dev.out 1).scan, 6, r10 6, rfl, by decide +kernel, by decide +kernel⟩,
   ⟨u4, 1, (u4.dev.out 1).scan, 6, r10 6, rfl, by decide +kernel, by decide +kernel⟩,
   ⟨u5, 1, (u5.dev.out 1).scan, rfl, by decide +kernel, by decide +kernel⟩,
   ⟨u6, 1, cap10 true, ⟨qi (.pf 0) 0, 0⟩, running_of (by decide +kernel), by decide +kernel, by decide +kernel, by decide +kernel, rfl, rfl, by decide +kernel, rfl, rfl, rfl, by intro x h; cases h⟩,
   ⟨u20, 1, cap10s, ⟨qi (.pf 0) 0, 0⟩, (5, 6, true), running_of (by decide +kernel), by decide +kernel⟩⟩

def u7 : State := w10 {}
def u8 : State := w10 {} (fun d => ((vis 6 d).setF DSP_SLOT_ASSIGN.OWNER 6 0x10).setF DSP_SLOT_ASSIGN.PENDING 6 1) 0
def u9 : State := w10 {} (queued (.pf 0) 0 { cmdOf 0x10 [2,0,1] with conts := [List.replicate 64 0, List.replicate 64 7] })
def u10 : State := bare (.pf 0) 0 0x11 [11,0,0,0,0xff,0xff,0xff,0xff] (fun d => d.setF DSP_TG_SEQ.FRAME_SEQ 11 4)
def u11 : State := bare (.pf 0) 0 0x11 [11,0,0,0,5,0,0,0] (fun d => d.setF DSP_TG_SEQ.FRAME_SEQ 11 4)
def u12 : State := bare (.vf 0) 0 0x12 [11] (fun d => d.setF DSP_TG_SEQ.FRAME_SEQ 11 (2^32-1))
def u13 : State := w10 {} (fun d => withGrp (grp10 [hideRec 7]) (queued (.pf 0) 0 { cmdOf 0x10 [] with phase := .running } d))
def u14 : State := w10 {} (fun d => withGrp (grp10 [hideRec 6]) (queued (.pf 0) 0 { cmdOf 0x10 [] with phase := .running } d))
def u15 : State := w10 {} (fun d => { d with disp := { d.disp with releases := [⟨1,5,7,3,0⟩, ⟨2,4095,7,3,0⟩] } })

/-- The premises of each clause of `SlotsAndGroupsFollowTheirRules` hold together. -/
theorem witness_SlotsAndGroupsFollowTheirRules :
    (∃ (s : State) (who : Fn) (sl : Fin 384) (val : Word), (∀ v, who ≠ .vf v) ∧ s.dev.regsWf = true ∧ s.dev.tablesWf = true ∧ s.dev.mayGive who (s.dev.f DSP_SLOT_ASSIGN.OWNER sl.val) = true ∧ s.dev.mayGive who (DSP_SLOT_ASSIGN.OWNER.get val) = true) ∧
    (∃ (s : State) (who : Fn) (sl : Fin 384) (val : Word), (∀ v, who ≠ .vf v) ∧ s.dev.regsWf = true ∧ s.dev.tablesWf = true ∧ (s.dev.mayGive who (s.dev.f DSP_SLOT_ASSIGN.OWNER sl.val) = false ∨ s.dev.mayGive who (DSP_SLOT_ASSIGN.OWNER.get val) = false)) ∧
    (∃ (s : State) (sl : Fin 384), s.dev.regsWf = true ∧ s.dev.tablesWf = true ∧ s.dev.fb DSP_SLOT_ASSIGN.PENDING sl.val = true ∧ (∀ n, s.dev.slotOut sl.val = some n → s.dev.tgScans n = false)) ∧
    (∃ (s : State) (f : Fn) (q : Fin 8) (c : Cmd), s.Bare f q c ∧ s.dev.regsWf = true ∧ s.dev.tablesWf = true ∧ c.opcode = 0x10 ∧ s.dev.openGroup (qi f q) = none) ∧
    (∃ (s : State) (f : Fn) (q : Fin 8) (c : Cmd), s.Bare f q c ∧ s.dev.regsWf = true ∧ s.dev.tablesWf = true ∧ c.opcode = 0x11 ∧ c.frameErr false = none ∧ seqReached (s.dev.seq (c.u 32 1)) (c.u 36 4) = true) ∧
    (∃ (s : State) (f : Fn) (q : Fin 8) (c : Cmd), s.Bare f q c ∧ s.dev.regsWf = true ∧ s.dev.tablesWf = true ∧ c.opcode = 0x11 ∧ c.frameErr false = none ∧ seqReached (s.dev.seq (c.u 32 1)) (c.u 36 4) = false) ∧
    (∃ (s : State) (f : Fn) (q : Fin 8) (c : Cmd), s.Bare f q c ∧ s.dev.regsWf = true ∧ s.dev.tablesWf = true ∧ c.opcode = 0x12 ∧ c.frameErr true = none) ∧
    (∃ (s : State) (f : Fn) (q : Fin 8) (peers : List PeerView) (g : Group) (ref : CmdRef) (e : _), s.dev.Running ref ∧ s.dev.regsWf = true ∧ s.dev.tablesWf = true ∧ s.dev.openGroup (qi f q) = none ∧ s.dev.validating (qi f q) [.commit] = some g ∧ s.dev.validate g peers = some e ∧ g.cmds = [ref]) ∧
    (∃ (s : State) (f : Fn) (q : Fin 8) (peers : List PeerView) (g : Group), s.dev.regsWf = true ∧ s.dev.tablesWf = true ∧ s.dev.openGroup (qi f q) = none ∧ s.dev.validating (qi f q) [.commit] = some g ∧ s.dev.validate g peers = none ∧ g.validateOnly = false) ∧
    (∃ (s : State) (k : Nat) (r : Release), s.dev.regsWf = true ∧ s.dev.tablesWf = true ∧ s.dev.disp.releases[k]? = some r ∧ s.dev.releaseReady r = true ∧ r.value < 2 ^ 64) :=
  ⟨⟨u7, .pf 0, 383, 0x110, (by intro v h; cases h), by decide +kernel⟩,
   ⟨u7, .pf 1, 5, 0x105, (by intro v h; cases h), by decide +kernel⟩,
   ⟨u8, 6, by decide +kernel⟩,
   ⟨u9, .pf 0, 0, inner u9 (Fn.pf 0), bare_of (by decide +kernel), by decide +kernel⟩,
   ⟨u10, .pf 0, 0, inner u10 (Fn.pf 0), bare_of (by decide +kernel), by decide +kernel⟩,
   ⟨u11, .pf 0, 0, inner u11 (Fn.pf 0), bare_of (by decide +kernel), by decide +kernel⟩,
   ⟨u12, .vf 0, 0, inner u12 (Fn.vf 0), bare_of (by decide +kernel), by decide +kernel⟩,
   ⟨u13, .pf 0, 0, ([] : List PeerView), grp10 [hideRec 7], ⟨qi (.pf 0) 0, 0⟩, (u13.dev.validate (grp10 [hideRec 7]) ([] : List PeerView)).getD ⟨0,0,0,0⟩, running_of (by decide +kernel), by decide +kernel⟩,
   ⟨u14, .pf 0, 0, ([] : List PeerView), grp10 [hideRec 6], by decide +kernel⟩,
   ⟨u15, 1, ⟨2,4095,7,3,0⟩, by decide +kernel⟩⟩

end W10

namespace W11

def w11 (g : Dev → Dev) : State := st fun d => g (putL DSP_CMP_CTRL.CSTAGE_OWNER 3 4 ((d.setF DSP_TG_H0.HACT 3 8).setF DSP_TG_V0.VACT 3 4))
def b11 (op : Nat) (body : List Nat) : State := let s := bare (.pf 0) 0 op body (fun d => putL DSP_CMP_CTRL.CSTAGE_OWNER 3 4 ((d.setF DSP_TG_H0.HACT 3 8).setF DSP_TG_V0.VACT 3 4)); s
def g11 (k : GKind) (body : List Nat) (data : List Byte := []) (ph : GPhase := .validating) : Group :=
  { id := 3, kind := k, code := 4, queue := qi (.pf 0) 0, cmds := [⟨qi (.pf 0) 0, 0⟩], mask := 8, anchor := 3, body := body.map (BitVec.ofNat 8) ++ List.replicate (32 - body.length) 0, phase := ph, data := data }
def v11 (g : Group) (h : Dev → Dev := id) : State := w11 fun d => h { (queued (.pf 0) 0 { cmdOf 0x18 [] with phase := .running } d) with disp := { d.disp with groups := [g], nextGroup := 4 } }
def addr64 (a : Nat) : List Nat := (toLe a 8).map (·.toNat)
/-- Cells at equal distances. -/
def comb (b st : Nat) : List (Nat × Byte) := (List.range' 0 64).map fun q => (b + st * q, 0x40)

/-- A scaler table whose every row has its first coefficient at 16,384. -/
def scCells : List (Nat × Byte) := comb 0x10001 16 ++ (comb 0x10401 12 ++ (comb 0x10701 8 ++ comb 0x10901 4))

def scMem (s : State) : State := (fun t : State => { t with mem := { t.mem with cells := scCells ++ t.mem.cells } }) (owned 4 1 0x10000 s)

def onComb (b st k : Nat) : Bool := decide (b ≤ k ∧ (k - b) % st = 0 ∧ (k - b) / st < 64)

theorem getD_range (b st k : Nat) (hs : 0 < st) (rest : List (Nat × Byte)) : ∀ n i,
    Tbl.getD memDefault ((List.range' i n).map (fun q => (b + st * q, (0x40 : Byte))) ++ rest) k =
      if b ≤ k ∧ (k - b) % st = 0 ∧ i ≤ (k - b) / st ∧ (k - b) / st < i + n then 0x40 else Tbl.getD memDefault rest k := by
  intro n
  induction n with
  | zero =>
    intro i
    rw [if_neg (by omega)]
    rfl
  | succ n ih =>
    intro i
    rw [List.range'_succ, List.map_cons, List.cons_append, Tbl.getD]
    by_cases h : k = b + st * i
    · subst h
      rw [if_pos rfl, if_pos]
      rw [Nat.add_sub_cancel_left]
      exact ⟨by omega, Nat.mul_mod_right _ _, Nat.le_of_eq (Nat.mul_div_cancel_left _ hs).symm, by rw [Nat.mul_div_cancel_left _ hs]; omega⟩
    · rw [if_neg h, ih]
      by_cases c : b ≤ k ∧ (k - b) % st = 0
      · have hd := Nat.div_add_mod (k - b) st
        have hne : (k - b) / st ≠ i := by
          intro e
          rw [e, c.2] at hd
          omega
        by_cases c2 : i ≤ (k - b) / st ∧ (k - b) / st < i + (n + 1)
        · rw [if_pos ⟨c.1, c.2, by omega, by omega⟩, if_pos ⟨c.1, c.2, by omega, by omega⟩]
        · rw [if_neg (fun x => c2 ⟨by omega, by omega⟩), if_neg (fun x => c2 ⟨x.2.2.1, x.2.2.2⟩)]
      · rw [if_neg (fun x => c ⟨x.1, x.2.1⟩), if_neg (fun x => c ⟨x.1, x.2.1⟩)]

theorem getD_comb (b st k : Nat) (hs : 0 < st) (rest : List (Nat × Byte)) :
    Tbl.getD memDefault (comb b st ++ rest) k = if onComb b st k then 0x40 else Tbl.getD memDefault rest k := by
  rw [comb, getD_range b st k hs]
  unfold onComb
  simp only [Nat.zero_le, true_and, Nat.zero_add, decide_eq_true_eq]

def Fetch.isOk : Fetch → Bool
  | .ok _ => true
  | _ => false

theorem readLines_all (s : State) (r : Req) (path out : Nat) : ∀ (fuel a n : Nat) (acc : List Byte), a % 64 = 0 → n ≤ 64 * fuel →
    Fetch.isOk (s.readLines r path out fuel a n acc).2 = true → (s.readLines r path out fuel a n acc).2 = .ok (acc ++ s.bytesAt a n) := by
  intro fuel
  induction fuel with
  | zero =>
    intro a n acc _ hn _
    have : n = 0 := by omega
    subst this
    simp [State.readLines, State.bytesAt]
  | succ k ih =>
    intro a n acc ha hn h
    unfold State.readLines at h ⊢
    by_cases h0 : n = 0
    · subst h0
      simp [State.bytesAt]
    · rw [if_neg h0] at h ⊢
      by_cases h1 : s.checkAccess r path a false out = true
      · rw [if_pos h1] at h ⊢
        dsimp only at h ⊢
        by_cases h2 : ¬(s.badWords a (min n (64 - a % 64))).isEmpty = true
        · rw [if_neg h2] at h
          cases h
        · rw [if_pos (Decidable.not_not.mp h2)] at h ⊢
          by_cases h3 : n ≤ 64
          · have e : min n (64 - a % 64) = n := by omega
            rw [e, Nat.sub_self]
            cases k <;> simp [State.readLines]
          · have e : min n (64 - a % 64) = 64 := by omega
            rw [e] at h ⊢
            rw [ih _ _ _ (by omega) (by omega) h, List.append_assoc]
            obtain ⟨m, rfl⟩ : ∃ m, n = 64 + m := ⟨n - 64, by omega⟩
            rw [Nat.add_sub_cancel_left]
            congr 2
            simp only [State.bytesAt, List.range_add, List.map_append, List.map_map]
            congr 1
            apply List.map_congr_left
            intro x _
            simp only [Function.comp, Nat.add_assoc]
      · rw [if_neg h1] at h
        cases h

theorem readMem_all {s : State} {r : Req} {path a n a' n' : Nat} (h : a = a' ∧ n = n' ∧ a % 64 = 0 ∧ Fetch.isOk (s.readMem r path a n).2 = true) :
    (s.readMem r path a n).2 = .ok (s.bytesAt a' n') := by
  obtain ⟨rfl, rfl, ha, h⟩ := h
  have := readLines_all s r path 0 (n / 64 + 2) a n [] ha (by omega) h
  rw [List.nil_append] at this
  exact this

theorem le_bytesAt (s : State) (a n off : Nat) (h : off + 1 < n) :
    le (s.bytesAt a n) off 2 = (s.byteAt (a + off)).toNat + 256 * (s.byteAt (a + (off + 1))).toNat := by
  have h' : off < n := by omega
  simp [le, State.bytesAt, List.getD, h, h']

/-- A byte of the table that `scMem` places. -/
def scByte (a : Nat) : Byte := if onComb 0x10001 16 a || onComb 0x10401 12 a || onComb 0x10701 8 a || onComb 0x10901 4 a then 0x40 else 0

theorem getD_high (r : List (Nat × Byte)) {a : Nat} (h : r.all (fun c => decide (a < c.1)) = true) : Tbl.getD memDefault r a = 0 := by
  induction r with
  | nil => rfl
  | cons c t ih =>
    rw [List.all_cons, Bool.and_eq_true, decide_eq_true_eq] at h
    rw [Tbl.getD, if_neg (by omega), ih h.2]

theorem byteAt_sc {s : State} {r : List (Nat × Byte)} (h : s.dev.serving 0 = 0 ∧ s.dev.msys.walk.phase = .idle ∧ r.all (fun c => decide (0x20000 < c.1)) = true)
    (hc : s.mem.cells = scCells ++ r) (a : Nat) (ha : a < 0x20000) : s.byteAt a = scByte a := by
  have h1 : s.dev.place a = a := by
    unfold Dev.place
    rw [if_pos (by unfold bankBytes; omega), Nat.div_eq_of_lt (by unfold bankBytes; omega), Nat.mod_eq_of_lt (by unfold bankBytes; omega), h.1]
    simp [Dev.bankPlace, h.2.1]
  have h2 : r.all (fun c => decide (a < c.1)) = true := by
    rw [List.all_eq_true]
    intro c hc
    have := h.2.2
    rw [List.all_eq_true] at this
    have := of_decide_eq_true (this c hc)
    exact decide_eq_true (by omega)
  rw [State.byteAt, h1, Mem.byte, hc, scCells, List.append_assoc, List.append_assoc, List.append_assoc, getD_comb _ _ _ (by decide),
    getD_comb _ _ _ (by decide), getD_comb _ _ _ (by decide), getD_comb _ _ _ (by decide), getD_high r h2]
  unfold scByte
  cases onComb 0x10001 16 a <;> cases onComb 0x10401 12 a <;> cases onComb 0x10701 8 a <;> rfl

theorem scaler_ok (s : State) {k : GKind} (hk : k = .scaler)
    (hb : ∀ a, 0x10000 ≤ a → a < 0x10000 + 2560 → s.byteAt a = scByte a) : tableErr k (s.bytesAt 0x10000 2560) = none := by
  subst hk
  have hn : s.bytesAt 0x10000 2560 ≠ [] := by
    intro e
    have := congrArg List.length e
    simp [State.bytesAt] at this
  have h : ∀ p ∈ (([8, 6, 4, 2] : List Nat).map fun n => (List.range 64).map fun q => (n, q)).flatten,
      (∀ t ∈ List.range p.1, tapSet p.1 + 2 * (p.1 * p.2 + t) + 1 < 2560) ∧
      ((List.range p.1).map fun t => toSigned 16 ((scByte (0x10000 + (tapSet p.1 + 2 * (p.1 * p.2 + t)))).toNat +
        256 * (scByte (0x10000 + (tapSet p.1 + 2 * (p.1 * p.2 + t) + 1))).toNat)).foldl (· + ·) 0 = 16384 := by decide +kernel
  have : scalerBad (s.bytesAt 0x10000 2560) = none := by
    unfold scalerBad
    rw [List.findSome?_eq_none_iff]
    intro p hp
    obtain ⟨hl, hs⟩ := h p hp
    have e : coefRow (s.bytesAt 0x10000 2560) p.1 p.2 = (List.range p.1).map fun t => toSigned 16 ((scByte (0x10000 + (tapSet p.1 + 2 * (p.1 * p.2 + t)))).toNat +
        256 * (scByte (0x10000 + (tapSet p.1 + 2 * (p.1 * p.2 + t) + 1))).toNat) := by
      unfold coefRow
      rw [if_neg hn]
      apply List.map_congr_left
      intro t ht
      have hlt := hl t ht
      rw [le_bytesAt _ _ _ _ hlt, hb _ (by omega) (by omega), hb _ (by omega) (by omega)]
    rw [e, if_pos hs]
  simp [tableErr, this]
def rec11 (sl : Nat) (h : Bool) : GRec := { r := { slot := sl, hide := h, fmt := 2, base := ddrBase + 2^22, stride := 64, sw := 8, sh := 4, dw := 8, dh := 4, alpha := 255 }, cmd := 0, cont := 1, rsv := none }
def sw11 (r : SwapReq) (g : Dev → Dev := id) : State := w11 fun d => g (queued (.pf 0) 7 { cmdOf 0xAA [] with phase := .running } { d with disp := { d.disp with outs := Tbl.put ([] : Tbl OutSt) 3 { swapReq := some r } } })
def eEnt : List Byte := [3, 0, 5] ++ List.replicate 509 0
def eImg : List Byte := toLe 0x57564C45 4 ++ toLe 1 2 ++ [1, 0] ++ toLe 576 4 ++ toLe (crcOf 1 eEnt) 4 ++ List.replicate 48 0 ++ eEnt
/-- Flash cells that hold an image. -/
def flashOf (a : Nat) (img : List Byte) : List (Nat × Byte) := img.zipIdx.map fun x => (a + x.2, x.1)

theorem getD_zip (d : Nat → Byte) (a k : Nat) : ∀ (l : List Byte) (i : Nat), i ≤ k → k < i + l.length →
    some (Tbl.getD d ((l.zipIdx i).map fun x => (a + x.2, x.1)) (a + k)) = l[k - i]? := by
  intro l
  induction l with
  | nil => intro i h1 h2; simp at h2; omega
  | cons b t ih =>
    intro i h1 h2
    rw [List.zipIdx_cons, List.map_cons, Tbl.getD]
    by_cases h : k = i
    · subst h
      simp
    · rw [if_neg (by omega), ih (i + 1) (by omega) (by simp at h2; omega)]
      have : k - i = (k - (i + 1)) + 1 := by omega
      rw [this, List.getElem?_cons_succ]

theorem flash_of {d : Dev} {a n : Nat} {img : List Byte} (h : d.mgt.flash = flashOf a img) (hn : n ≤ img.length) : d.flashBytes a n = img.take n := by
  apply List.ext_getElem?
  intro k
  unfold Dev.flashBytes
  rw [List.getElem?_take, List.getElem?_map, h]
  by_cases hk : k < n
  · rw [List.getElem?_range hk, Option.map_some, if_pos hk]
    have := getD_zip flashDefault a k img 0 (Nat.zero_le _) (by omega)
    simpa [flashOf] using this
  · rw [if_neg hk, List.getElem?_eq_none (by simpa using hk)]
    rfl


def u1 : State := b11 0x18 ([3,1,0,0,9,0,0,0] ++ addr64 (2^26))
def u2 : State := b11 0x19 ([3,0,0,0,9,0,0,0] ++ addr64 (2^26))
def u3 : State := b11 0x1A ([3,0,2,0,9,0,0,0] ++ addr64 (2^26) ++ [64])
def u4 : State := b11 0x20 ([3,0,2,0,9,0,0,0] ++ addr64 (2^26) ++ [64])
def u5 : State := b11 0x21 ([3,0,2,0,9,0,0,0] ++ addr64 (2^26) ++ [64])
def u6 : State := b11 0x28 ([3,1,0,0,9,0,0,0,1,2])
def u7 : State := b11 0x18 ([3,2,0,0,9,0,0,0] ++ addr64 (2^26))
def u8 : State := b11 0x19 ([3,1,0,0,9,0,0,0,1])
def u9 : State := b11 0x1A ([3,0,4,0,9,0,0,0] ++ addr64 (2^26) ++ [64])
def u10 : State := b11 0x20 ([12])
def u11 : State := b11 0x28 ([2,1,0,0,9,0,0,0,1,2])
def u12 : State := enved (.pf 0) 0 0x22 [11,0x10] (id)
def u13 : State := scMem (v11 (g11 .scaler ([3,1,0,0,9,0,0,0] ++ addr64 0x10000)))
def u14 : State := owned 4 1 0x10000 (v11 (g11 .scaler ([3,1,0,0,9,0,0,0] ++ addr64 0x10000)))
def u15 : State := v11 (g11 .canopyOwn [3,0x1])
def u16 : State := v11 (g11 .canopyOwn [3,0x90])

/-- The premises of each clause of `OutputCommandsBecomeGroups` hold together. -/
theorem witness_OutputCommandsBecomeGroups :
    (∃ (s : State) (f : Fn) (q : Fin 8) (c : Cmd) (op : Nat) (checks : List (Bool × Nat × Nat)), op = 0x18 ∧ checks = (s.started f q c).dev.tableChecks f.code c .colour ∧ s.Bare f q c ∧ s.dev.regsWf = true ∧ s.dev.tablesWf = true ∧ c.opcode = op ∧ firstError checks = none) ∧
    (∃ (s : State) (f : Fn) (q : Fin 8) (c : Cmd) (op : Nat) (checks : List (Bool × Nat × Nat)), op = 0x19 ∧ checks = (s.started f q c).dev.tableChecks f.code c .scaler ∧ s.Bare f q c ∧ s.dev.regsWf = true ∧ s.dev.tablesWf = true ∧ c.opcode = op ∧ firstError checks = none) ∧
    (∃ (s : State) (f : Fn) (q : Fin 8) (c : Cmd) (op : Nat) (checks : List (Bool × Nat × Nat)), op = 0x1A ∧ checks = (s.started f q c).dev.writebackChecks f.code c ∧ s.Bare f q c ∧ s.dev.regsWf = true ∧ s.dev.tablesWf = true ∧ c.opcode = op ∧ firstError checks = none) ∧
    (∃ (s : State) (f : Fn) (q : Fin 8) (c : Cmd) (op : Nat) (checks : List (Bool × Nat × Nat)), op = 0x20 ∧ checks = [(c.outputNone, ST_BAD_FIELD, errByte 32)] ∧ s.Bare f q c ∧ s.dev.regsWf = true ∧ s.dev.tablesWf = true ∧ c.opcode = op ∧ firstError checks = none) ∧
    (∃ (s : State) (f : Fn) (q : Fin 8) (c : Cmd) (op : Nat) (checks : List (Bool × Nat × Nat)), op = 0x21 ∧ checks = [(c.outputNone, ST_BAD_FIELD, errByte 32)] ∧ s.Bare f q c ∧ s.dev.regsWf = true ∧ s.dev.tablesWf = true ∧ c.opcode = op ∧ firstError checks = none) ∧
    (∃ (s : State) (f : Fn) (q : Fin 8) (c : Cmd) (op : Nat) (checks : List (Bool × Nat × Nat)), op = 0x28 ∧ checks = (s.started f q c).dev.backlightChecks f.code c ∧ s.Bare f q c ∧ s.dev.regsWf = true ∧ s.dev.tablesWf = true ∧ c.opcode = op ∧ firstError checks = none) ∧
    (∃ (s : State) (f : Fn) (q : Fin 8) (c : Cmd) (op : Nat) (checks : List (Bool × Nat × Nat)) (st res : Nat), op = 0x18 ∧ checks = (s.started f q c).dev.tableChecks f.code c .colour ∧ s.Bare f q c ∧ s.dev.regsWf = true ∧ s.dev.tablesWf = true ∧ c.opcode = op ∧ firstError checks = some (st, res)) ∧
    (∃ (s : State) (f : Fn) (q : Fin 8) (c : Cmd) (op : Nat) (checks : List (Bool × Nat × Nat)) (st res : Nat), op = 0x19 ∧ checks = (s.started f q c).dev.tableChecks f.code c .scaler ∧ s.Bare f q c ∧ s.dev.regsWf = true ∧ s.dev.tablesWf = true ∧ c.opcode = op ∧ firstError checks = some (st, res)) ∧
    (∃ (s : State) (f : Fn) (q : Fin 8) (c : Cmd) (op : Nat) (checks : List (Bool × Nat × Nat)) (st res : Nat), op = 0x1A ∧ checks = (s.started f q c).dev.writebackChecks f.code c ∧ s.Bare f q c ∧ s.dev.regsWf = true ∧ s.dev.tablesWf = true ∧ c.opcode = op ∧ firstError checks = some (st, res)) ∧
    (∃ (s : State) (f : Fn) (q : Fin 8) (c : Cmd) (op : Nat) (checks : List (Bool × Nat × Nat)) (st res : Nat), op = 0x20 ∧ checks = [(c.outputNone, ST_BAD_FIELD, errByte 32)] ∧ s.Bare f q c ∧ s.dev.regsWf = true ∧ s.dev.tablesWf = true ∧ c.opcode = op ∧ firstError checks = some (st, res)) ∧
    (∃ (s : State) (f : Fn) (q : Fin 8) (c : Cmd) (op : Nat) (checks : List (Bool × Nat × Nat)) (st res : Nat), op = 0x28 ∧ checks = (s.started f q c).dev.backlightChecks f.code c ∧ s.Bare f q c ∧ s.dev.regsWf = true ∧ s.dev.tablesWf = true ∧ c.opcode = op ∧ firstError checks = some (st, res)) ∧
    (∃ (s : State) (f : Fn) (q : Fin 8) (c : Cmd) (s0 : State), s.Begins f q c s0 ∧ s.dev.regsWf = true ∧ s.dev.tablesWf = true ∧ c.opcode = 0x22 ∧ c.outputNone = false) ∧
    (∃ (s : State) (f : Fn) (q : Fin 8) (g : Group) (ref : CmdRef) (img : List Byte), s.dev.Running ref ∧ (s.readMem ⟨g.code, g.sec⟩ 13 (le g.body 8 8) (imageBytes g.kind)).2 = .ok img ∧ tableErr g.kind img = none ∧ s.dev.regsWf = true ∧ s.dev.tablesWf = true ∧ s.dev.validating (qi f q) [.colour, .scaler] = some g ∧ g.cmds = [ref]) ∧
    (∃ (s : State) (f : Fn) (q : Fin 8) (g : Group) (ref : CmdRef) (img : List Byte) (res : Nat), s.dev.Running ref ∧ s.dev.regsWf = true ∧ s.dev.tablesWf = true ∧ s.dev.validating (qi f q) [.colour, .scaler] = some g ∧ g.cmds = [ref] ∧ (s.readMem ⟨g.code, g.sec⟩ 13 (le g.body 8 8) (imageBytes g.kind)).2 = .ok img ∧ tableErr g.kind img = some res) ∧
    (∃ (s : State) (f : Fn) (q : Fin 8) (g : Group) (ref : CmdRef), s.dev.Running ref ∧ s.dev.regsWf = true ∧ s.dev.tablesWf = true ∧ s.dev.validating (qi f q) [.canopy, .outstage, .canopyOwn] = some g ∧ g.cmds = [ref] ∧ g.canopyRead = none ∧ firstError (if g.kind = .canopy then s.canopyChecks g else if g.kind = .outstage then s.outstageChecks g else s.dev.canopyOwnChecks g) = none) ∧
    (∃ (s : State) (f : Fn) (q : Fin 8) (g : Group) (ref : CmdRef) (st res : Nat), s.dev.Running ref ∧ s.dev.regsWf = true ∧ s.dev.tablesWf = true ∧ s.dev.validating (qi f q) [.canopy, .outstage, .canopyOwn] = some g ∧ g.cmds = [ref] ∧ firstError (if g.kind = .canopy then s.canopyChecks g else if g.kind = .outstage then s.outstageChecks g else s.dev.canopyOwnChecks g) = some (st, res)) :=
  ⟨⟨u1, .pf 0, 0, inner u1 (Fn.pf 0), 0x18, (u1.started (Fn.pf 0) (0) (inner u1 (Fn.pf 0))).dev.tableChecks (Fn.pf 0).code (inner u1 (Fn.pf 0)) .colour, rfl, rfl, bare_of (by decide +kernel), by decide +kernel⟩,
   ⟨u2, .pf 0, 0, inner u2 (Fn.pf 0), 0x19, (u2.started (Fn.pf 0) (0) (inner u2 (Fn.pf 0))).dev.tableChecks (Fn.pf 0).code (inner u2 (Fn.pf 0)) .scaler, rfl, rfl, bare_of (by decide +kernel), by decide +kernel⟩,
   ⟨u3, .pf 0, 0, inner u3 (Fn.pf 0), 0x1A, (u3.started (Fn.pf 0) (0) (inner u3 (Fn.pf 0))).dev.writebackChecks (Fn.pf 0).code (inner u3 (Fn.pf 0)), rfl, rfl, bare_of (by decide +kernel), by decide +kernel⟩,
   ⟨u4, .pf 0, 0, inner u4 (Fn.pf 0), 0x20, [((inner u4 (Fn.pf 0)).outputNone, ST_BAD_FIELD, errByte 32)], rfl, rfl, bare_of (by decide +kernel), by decide +kernel⟩,
   ⟨u5, .pf 0, 0, inner u5 (Fn.pf 0), 0x21, [((inner u5 (Fn.pf 0)).outputNone, ST_BAD_FIELD, errByte 32)], rfl, rfl, bare_of (by decide +kernel), by decide +kernel⟩,
   ⟨u6, .pf 0, 0, inner u6 (Fn.pf 0), 0x28, (u6.started (Fn.pf 0) (0) (inner u6 (Fn.pf 0))).dev.backlightChecks (Fn.pf 0).code (inner u6 (Fn.pf 0)), rfl, rfl, bare_of (by decide +kernel), by decide +kernel⟩,
   ⟨u7, .pf 0, 0, inner u7 (Fn.pf 0), 0x18, (u7.started (Fn.pf 0) (0) (inner u7 (Fn.pf 0))).dev.tableChecks (Fn.pf 0).code (inner u7 (Fn.pf 0)) .colour, ST_BAD_FIELD, errByte 33, rfl, rfl, bare_of (by decide +kernel), by decide +kernel⟩,
   ⟨u8, .pf 0, 0, inner u8 (Fn.pf 0), 0x19, (u8.started (Fn.pf 0) (0) (inner u8 (Fn.pf 0))).dev.tableChecks (Fn.pf 0).code (inner u8 (Fn.pf 0)) .scaler, ST_BAD_GEOMETRY, errByte 40, rfl, rfl, bare_of (by decide +kernel), by decide +kernel⟩,
   ⟨u9, .pf 0, 0, inner u9 (Fn.pf 0), 0x1A, (u9.started (Fn.pf 0) (0) (inner u9 (Fn.pf 0))).dev.writebackChecks (Fn.pf 0).code (inner u9 (Fn.pf 0)), ST_BAD_FORMAT, errByte 34, rfl, rfl, bare_of (by decide +kernel), by decide +kernel⟩,
   ⟨u10, .pf 0, 0, inner u10 (Fn.pf 0), 0x20, [((inner u10 (Fn.pf 0)).outputNone, ST_BAD_FIELD, errByte 32)], ST_BAD_FIELD, errByte 32, rfl, rfl, bare_of (by decide +kernel), by decide +kernel⟩,
   ⟨u11, .pf 0, 0, inner u11 (Fn.pf 0), 0x28, (u11.started (Fn.pf 0) (0) (inner u11 (Fn.pf 0))).dev.backlightChecks (Fn.pf 0).code (inner u11 (Fn.pf 0)), ST_NOT_OWNER, errByte 32, rfl, rfl, bare_of (by decide +kernel), by decide +kernel⟩,
   ⟨u12, .pf 0, 0, inner u12 (Fn.pf 0), u12.started (Fn.pf 0) (0) (inner u12 (Fn.pf 0)), begins_accepted (by decide +kernel), by decide +kernel⟩,
   ⟨u13, .pf 0, 0, g11 .scaler ([3,1,0,0,9,0,0,0] ++ addr64 0x10000), ⟨qi (.pf 0) 0, 0⟩, u13.bytesAt 0x10000 2560, running_of (by decide +kernel), readMem_all (by decide +kernel), scaler_ok _ (by decide +kernel) fun a _ h => byteAt_sc (by decide +kernel) rfl a (by omega), by decide +kernel⟩,
   ⟨u14, .pf 0, 0, g11 .scaler ([3,1,0,0,9,0,0,0] ++ addr64 0x10000), ⟨qi (.pf 0) 0, 0⟩, List.replicate 2560 0, errAt 0, running_of (by decide +kernel), by decide +kernel⟩,
   ⟨u15, .pf 0, 0, g11 .canopyOwn [3,0x1], ⟨qi (.pf 0) 0, 0⟩, running_of (by decide +kernel), by decide +kernel⟩,
   ⟨u16, .pf 0, 0, g11 .canopyOwn [3,0x90], ⟨qi (.pf 0) 0, 0⟩, ST_BAD_FIELD, errAt 1, running_of (by decide +kernel), by decide +kernel⟩⟩

def u17 : State := v11 (g11 .colour [3] [1,2] .validated)
def u30 : State := v11 { g11 .commit [] [] .validated with recs := [rec11 5 false] } fun d => putL DSP_SLOT_ASSIGN.OWNER 5 4 (putL DSP_SLOT_ASSIGN.OUTPUT 5 3 d)

/-- The premises of each clause of `ReadyGroupsLandWhileStopped` hold together. -/
theorem witness_ReadyGroupsLandWhileStopped :
    (∃ (s : State) (n : Fin 12) (g : Group) (ref : CmdRef), s.dev.Running ref ∧ s.dev.regsWf = true ∧ s.dev.tablesWf = true ∧ s.dev.tgScans n.val = false ∧ s.dev.disp.groups = [g] ∧ s.dev.ready g = true ∧ g.anchor = n.val ∧ g.mask = 2 ^ n.val ∧ g.landed = 0 ∧ g.part = false ∧ g.kind ≠ .writeback ∧ g.cmds = [ref]) ∧
    (∃ (s : State) (n : Fin 12) (g : Group) (ref : CmdRef) (r : GRec), s.dev.Running ref ∧ s.dev.regsWf = true ∧ s.dev.tablesWf = true ∧ s.dev.tgScans n.val = false ∧ s.dev.disp.groups = [g] ∧ s.dev.ready g = true ∧ g.anchor = n.val ∧ g.mask = 2 ^ n.val ∧ g.landed = 0 ∧ g.part = false ∧ g.kind ≠ .writeback ∧ g.cmds = [ref] ∧ g.kind = .commit ∧ g.recs = [r] ∧ r.landed = false ∧
      s.dev.slotOut r.r.slot = some n.val) :=
  ⟨⟨u17, 3, g11 .colour [3] [1,2] .validated, ⟨qi (.pf 0) 0, 0⟩, running_of (by decide +kernel), by decide +kernel⟩,
   ⟨u30, 3, { g11 .commit [] [] .validated with recs := [rec11 5 false] }, ⟨qi (.pf 0) 0, 0⟩, rec11 5 false, running_of (by decide +kernel), by decide +kernel⟩⟩

def due11 (d : Dev) : Dev := (({ d with disp := { d.disp with outs := Tbl.put ([] : Tbl OutSt) 3 { scan := 4, compose := 4 } } }).setF DSP_TG_STAT.LINE 3 4).setF DSP_TG_CTRL.LATCH_OFS 3 1
def u18 : State := w11 fun d => due11 <| (({ d with time := { d.time with ltime := 5 } }.setF DSP_TG_STAT.STATE 3 2).setF DSP_TG_SEQ.FRAME_SEQ 3 (2^32-1)).setReg .DSP_CMP_UCOL 3 7
def u19 : State := w11 fun d => due11 <| ((d.setF DSP_TG_STAT.STATE 3 3).setF DSP_TG_SEQ.FRAME_SEQ 3 (2^32-1)).setF DSP_TG_CTRL.ENABLE 3 1
def u20 : State := w11 fun d => ((d.setF DSP_TG_STAT.STATE 3 1).setF DSP_TG_SEQ.FRAME_SEQ 3 (2^32-1)).setF DSP_TG_CTRL.ENABLE 3 1
def u21 (t : Option Nat) : State := w11 fun d => (((((({ d with time := { d.time with ltime := 102083 }, disp := { d.disp with outs := Tbl.put ([] : Tbl OutSt) 3 { startAt := t, enabledAt := 1 } } }).setF DSP_TG_STAT.STATE 3 1).setF
  DSP_TG_CTRL.ENABLE 3 1).setF DSP_TG_GL.SRC_TYPE 3 1).setF DSP_TG_GL.SRC_IDX 3 0).setF DSP_TG_H0.HTOTAL 0 100).setF DSP_TG_V0.VTOTAL 0 10 |>.setF DSP_TG_PCLK.M 0 (2 ^ 24)
def u22 : State := w11 fun d => { d with disp := { d.disp with outs := Tbl.put ([] : Tbl OutSt) 3 { cwDue := [⟨1,2,3,1,5⟩,⟨15,2,3,7,2^32-1⟩] } } }
def u23 : State := w11 fun d => putL DSP_CW_CTRL.EN (idx2 16 3 15) 1 (((putL DSP_CW_WH.W (idx2 16 3 15) 8 (putL DSP_CW_WH.H (idx2 16 3 15) 4 d)) |> fun (d : Dev) => { d with disp := { d.disp with outs := Tbl.put ([] : Tbl OutSt) 3 { scan := 4, cw := Tbl.put ([] : Tbl CwRun) 15 { fed := 32 } } } }).setF DSP_TG_STAT.STATE 3 2)
def u24 : State := w11 fun d => putL DSP_BL_PWM.DUTY 3 0xffff { d with time := { d.time with ltime := 50000 } }
def u25 : State := sw11 ⟨1, some ⟨qi (.pf 0) 0, 0⟩, false⟩
def u26 : State := sw11 ⟨1, some ⟨qi (.pf 0) 0, 0⟩, true⟩
def u27 : State := sw11 ⟨1, some ⟨qi (.pf 0) 0, 0⟩, false⟩ (fun d => d.setF DSP_CMP_STAT.SPARE 11 1)
def u28 : State := w11 fun d => { (d.setF OWN_LOCK_STAT.LOCKED 0 1) with mgt := { d.mgt with earlyDue := true, flash := flashOf earlyArea eImg } }
def u29 : State := w11 fun d => { (d.setF OWN_LOCK_STAT.LOCKED 0 1) with mgt := { d.mgt with earlyDue := true } }

/-- The premises of each clause of `LatchesStartTheNextFrame` hold together. -/
theorem witness_LatchesStartTheNextFrame :
    (∃ (s : State) (n : Fin 12), s.dev.regsWf = true ∧ s.dev.tablesWf = true ∧ s.dev.mayLatch n.val = true ∧ (∀ e ∈ s.dev.mgt.early, e.ending = false) ∧ s.dev.f DSP_TG_STAT.STATE n.val = 2) ∧
    (∃ (s : State) (n : Fin 12), s.dev.regsWf = true ∧ s.dev.tablesWf = true ∧ s.dev.mayLatch n.val = true ∧ (∀ e ∈ s.dev.mgt.early, e.ending = false) ∧ s.dev.f DSP_TG_STAT.STATE n.val = 3) ∧
    (∃ (s : State) (n : Fin 12), s.dev.regsWf = true ∧ s.dev.tablesWf = true ∧ s.dev.f DSP_TG_STAT.STATE n.val = 1 ∧ s.dev.pace.enableWaits = false ∧ s.dev.f DSP_TG_GL.SRC_TYPE n.val = 0) ∧
    (∃ (s : State) (n : Fin 12), s.dev.regsWf = true ∧ s.dev.tablesWf = true ∧ s.dev.f DSP_TG_STAT.STATE n.val = 1 ∧ s.dev.pace.enableWaits = false ∧ s.dev.f DSP_TG_GL.SRC_TYPE n.val ≠ 0 ∧ s.dev.startCome n.val = true) ∧
    (∃ (s : State) (n : Fin 12), s.dev.regsWf = true ∧ s.dev.tablesWf = true ∧ s.dev.f DSP_TG_STAT.STATE n.val = 1 ∧ s.dev.pace.enableWaits = false ∧ s.dev.f DSP_TG_GL.SRC_TYPE n.val ≠ 0 ∧ s.dev.startCome n.val = false) ∧
    (∃ (s : State) (n : Fin 12), s.dev.regsWf = true ∧ s.dev.tablesWf = true ∧ s.dev.f DSP_TG_STAT.STATE n.val = 1 ∧ s.dev.pace.enableWaits = false ∧ s.dev.f DSP_TG_GL.SRC_TYPE n.val ≠ 0 ∧ (s.dev.out n.val).startAt = none ∧ (s.dev.out n.val).enabledAt + 50000 + 2 * s.dev.sourcePeriod n.val ≤ s.dev.now) ∧
    (∃ (s : State) (n : Fin 12) (w : Fin 16) (r : CwDue), s.dev.regsWf = true ∧ s.dev.tablesWf = true ∧ ((s.dev.out n.val).cwDue.find? fun r => r.w == w.val) = some r) ∧
    (∃ (s : State) (n : Fin 12) (w : Fin 16), s.dev.regsWf = true ∧ s.dev.tablesWf = true ∧ ((s.dev.out n.val).cwDue.find? fun r => r.w == w.val) = none ∧ s.dev.cwComplete n.val w.val = true) ∧
    (∃ (s : State) (n : Fin 12), s.dev.regsWf = true ∧ s.dev.tablesWf = true ∧ (s.dev.out n.val).pwmPeriod ≤ s.dev.pwmTicks n.val) ∧
    (∃ (s : State) (n : Fin 12) (r : SwapReq), s.dev.regsWf = true ∧ s.dev.tablesWf = true ∧ s.dev.swapInstant n.val = true ∧ (s.dev.out n.val).swapReq = some r ∧ r.back = false ∧ (∀ m < 12, m ≠ n.val → s.dev.fb DSP_CMP_STAT.SPARE m = false)) ∧
    (∃ (s : State) (n : Fin 12) (r : SwapReq), s.dev.regsWf = true ∧ s.dev.tablesWf = true ∧ s.dev.swapInstant n.val = true ∧ (s.dev.out n.val).swapReq = some r ∧ r.back = true) ∧
    (∃ (s : State) (n : Fin 12) (r : SwapReq) (ref : _) (m : _), s.dev.Running ref ∧ s.dev.regsWf = true ∧ s.dev.tablesWf = true ∧ s.dev.swapInstant n.val = true ∧ (s.dev.out n.val).swapReq = some r ∧ r.back = false ∧ m < 12 ∧ m ≠ n.val ∧ s.dev.fb DSP_CMP_STAT.SPARE m = true ∧ r.cmd = some ref) ∧
    (∃ (s : State) (len : _) (img : List Byte), len = le (s.dev.flashBytes earlyArea 64) 8 4 ∧ img = s.dev.flashBytes earlyArea len ∧ s.dev.regsWf = true ∧ s.dev.tablesWf = true ∧ s.dev.acholtRuns = true ∧ s.dev.own.acholtSecure = true ∧ s.dev.fb OWN_LOCK_STAT.LOCKED 0 = true ∧ s.dev.mgt.earlyDue = true ∧ 64 ≤ len ∧ len ≤ earlyRoom ∧ earlyImageOk img earlyRoom = true) ∧
    (∃ (s : State) (len : _) (img : List Byte), len = le (s.dev.flashBytes earlyArea 64) 8 4 ∧ img = s.dev.flashBytes earlyArea len ∧ s.dev.regsWf = true ∧ s.dev.tablesWf = true ∧ s.dev.acholtRuns = true ∧ s.dev.own.acholtSecure = true ∧ s.dev.fb OWN_LOCK_STAT.LOCKED 0 = true ∧ s.dev.mgt.earlyDue = true ∧ ¬(64 ≤ len ∧ len ≤ earlyRoom ∧ earlyImageOk img earlyRoom = true)) ∧
    (∃ (s : State) (n : Fin 12), s.dev.regsWf = true ∧ s.dev.tablesWf = true ∧ s.dev.swapInstant n.val = false) :=
  ⟨⟨u18, 3, by decide +kernel⟩,
   ⟨u19, 3, by decide +kernel⟩,
   ⟨u20, 3, by decide +kernel⟩,
   ⟨u21 (some 102083), 3, by decide +kernel⟩,
   ⟨u21 (some 102084), 3, by decide +kernel⟩,
   ⟨u21 none, 3, by decide +kernel⟩,
   ⟨u22, 3, 15, ⟨15,2,3,7,2^32-1⟩, by decide +kernel⟩,
   ⟨u23, 3, 15, by decide +kernel⟩,
   ⟨u24, 3, by decide +kernel⟩,
   ⟨u25, 3, ⟨1, some ⟨qi (.pf 0) 0, 0⟩, false⟩, by decide +kernel⟩,
   ⟨u26, 3, ⟨1, some ⟨qi (.pf 0) 0, 0⟩, true⟩, by decide +kernel⟩,
   ⟨u27, 3, ⟨1, some ⟨qi (.pf 0) 0, 0⟩, false⟩, ⟨qi (.pf 0) 0, 0⟩, 11, running_of (by decide +kernel), by decide +kernel⟩,
   ⟨u28, 576, eImg, (by rw [flash_of rfl (by decide +kernel)]; decide +kernel), (by rw [flash_of rfl (by decide +kernel)]; decide +kernel), by decide +kernel⟩,
   ⟨u29, le (u29.dev.flashBytes earlyArea 64) 8 4, u29.dev.flashBytes earlyArea (le (u29.dev.flashBytes earlyArea 64) 8 4), rfl, rfl, by decide +kernel⟩,
   ⟨u18, 3, by decide +kernel⟩⟩

end W11

namespace W12

def timing (n : Nat) (d : Dev) : Dev := (((((((d.setF DSP_TG_H0.HACT n 8).setF DSP_TG_H0.HTOTAL n 40).setF DSP_TG_H1.HFP n 4).setF DSP_TG_H1.HSW n 4).setF DSP_TG_V0.VACT n 4).setF DSP_TG_V0.VTOTAL n 12).setF DSP_TG_V1.VFP n 2).setF DSP_TG_V1.VSW n 2
def w12 (state : Nat) (g : Dev → Dev := id) : State := st fun d => g ((timing 11 { d with time := { d.time with ltime := 10^9 } }).setF DSP_TG_STAT.STATE 11 state)
/-- Generator 11 follows generator 2, whose last latch was 500 ns ago. -/
def gl12 (state : Nat) (o : OutSt) (gl : Nat) : State := w12 state fun d =>
  ((((({ d with disp := { d.disp with outs := Tbl.put (Tbl.put ([] : Tbl OutSt) 11 o) 2 { lastLatch := 10^9-500 } } }).setF DSP_TG_STAT.GL_STATE 11 gl).setF DSP_TG_GL.SRC_TYPE 11 1).setF
    DSP_TG_GL.SRC_IDX 11 2).setF DSP_TG_STAT.STATE 2 2).setF DSP_TG_PCLK.M 11 (2 ^ 24)
def p12 (g : Dev → Dev) : State := st g
def pcfg (_p en mode rate lanes mbps : Nat) : Word := DSP_PORT_CFG.DSI_MBPS.put (DSP_PORT_CFG.LANES.put (DSP_PORT_CFG.RATE.put (DSP_PORT_CFG.MODE.put (BitVec.ofNat 32 en) mode) rate) lanes) mbps
def sc12 (kind : Nat) : Word := DSP_PORT_SC_CMD.GO.put (DSP_PORT_SC_CMD.LEN_M1.put (DSP_PORT_SC_CMD.ADDR.put (BitVec.ofNat 32 kind) 0x50) 3) 1

def u1 : State := w12 0
def u2 : State := w12 0 (fun d => d.setF DSP_TG_V0.VTOTAL 11 7)
def u3 : State := w12 2 (fun d => d.setF DSP_TG_CTRL.ENABLE 11 1)
def u4 : State := w12 2
def u21 : State := w12 0 (fun d => d.setF DSP_TG_PCLK.M 11 0x8CA00001)
def u22 : State := gl12 1 { enabledAt := 10^9-60000 } 0
def u5 : State := gl12 2 { refs := 3, lastRef := none, refPeriod := 1000 } 1
def u6 : State := gl12 2 { refs := 2, lastRef := some (10^9-2000), refPeriod := 1000 } 2

/-- The premises of each clause of `GeneratorsStartStopAndLock` hold together. -/
theorem witness_GeneratorsStartStopAndLock :
    (∃ (s : State) (n : Fin 12) (who : Fn) (val : Word), (∀ v, who ≠ .vf v) ∧ s.dev.Accepts who .DSP_TG_CTRL n.val val ∧ s.dev.regsWf = true ∧ s.dev.tablesWf = true ∧ s.dev.f DSP_TG_STAT.STATE n.val = 0 ∧ DSP_TG_CTRL.ENABLE.get val = 1 ∧ s.dev.acts who DSP_TG_CTRL.ENABLE n.val val = true ∧ s.dev.acts who DSP_TG_CTRL.STOP_NOW n.val val = false ∧ DSP_TG_CTRL.LATCH_OFS.get val = s.dev.f DSP_TG_CTRL.LATCH_OFS n.val ∧ s.dev.timingOk n.val = true ∧ s.dev.aggregateOk n.val = true) ∧
    (∃ (s : State) (n : Fin 12) (who : Fn) (val : Word), (∀ v, who ≠ .vf v) ∧ s.dev.Accepts who .DSP_TG_CTRL n.val val ∧ s.dev.regsWf = true ∧ s.dev.tablesWf = true ∧ s.dev.f DSP_TG_STAT.STATE n.val = 0 ∧ DSP_TG_CTRL.ENABLE.get val = 1 ∧ s.dev.acts who DSP_TG_CTRL.ENABLE n.val val = true ∧ s.dev.acts who DSP_TG_CTRL.STOP_NOW n.val val = false ∧ DSP_TG_CTRL.LATCH_OFS.get val = s.dev.f DSP_TG_CTRL.LATCH_OFS n.val ∧ s.dev.timingOk n.val = false) ∧
    (∃ (s : State) (n : Fin 12) (who : Fn) (val : Word), (∀ v, who ≠ .vf v) ∧ s.dev.Accepts who .DSP_TG_CTRL n.val val ∧ s.dev.regsWf = true ∧ s.dev.tablesWf = true ∧ s.dev.f DSP_TG_STAT.STATE n.val = 0 ∧ DSP_TG_CTRL.ENABLE.get val = 1 ∧ s.dev.acts who DSP_TG_CTRL.ENABLE n.val val = true ∧ s.dev.acts who DSP_TG_CTRL.STOP_NOW n.val val = false ∧ DSP_TG_CTRL.LATCH_OFS.get val = s.dev.f DSP_TG_CTRL.LATCH_OFS n.val ∧ s.dev.aggregateOk n.val = false) ∧
    (∃ (s : State) (n : Fin 12) (who : Fn) (val : Word), (∀ v, who ≠ .vf v) ∧ s.dev.Accepts who .DSP_TG_CTRL n.val val ∧ s.dev.regsWf = true ∧ s.dev.tablesWf = true ∧ s.dev.f DSP_TG_STAT.STATE n.val = 2 ∧ DSP_TG_CTRL.ENABLE.get val = 0 ∧ s.dev.acts who DSP_TG_CTRL.ENABLE n.val val = true ∧ s.dev.acts who DSP_TG_CTRL.STOP_NOW n.val val = false) ∧
    (∃ (s : State) (n : Fin 12) (who : Fn) (val : Word), (∀ v, who ≠ .vf v) ∧ s.dev.Accepts who .DSP_TG_CTRL n.val val ∧ s.dev.regsWf = true ∧ s.dev.tablesWf = true ∧ s.dev.tgOn n.val = true ∧ s.dev.acts who DSP_TG_CTRL.STOP_NOW n.val val = true ∧ s.dev.acts who DSP_TG_CTRL.ENABLE n.val val = false) ∧
    (∃ (s : State) (n : Fin 12) (who : Fn) (val : Word), (∀ v, who ≠ .vf v) ∧ s.dev.regsWf = true ∧ s.dev.tablesWf = true ∧ s.dev.routeBad n.val (DSP_TG_ROUTE.PORT.get val) (DSP_TG_ROUTE.STREAM.get val) = true) ∧
    (∃ (s : State) (n : Fin 12) (who : Fn) (val : Word), (∀ v, who ≠ .vf v) ∧ s.dev.Accepts who .DSP_TG_ROUTE n.val val ∧ s.dev.regsWf = true ∧ s.dev.tablesWf = true ∧ s.dev.routeBad n.val (DSP_TG_ROUTE.PORT.get val) (DSP_TG_ROUTE.STREAM.get val) = false) ∧
    (∃ (s : State) (n : Fin 12) (who : Fn) (val : Word), (∀ v, who ≠ .vf v) ∧ s.dev.regsWf = true ∧ s.dev.tablesWf = true ∧ s.dev.glBad n.val val = true) ∧
    (∃ (s : State) (n : Fin 12) (who : Fn) (val : Word), (∀ v, who ≠ .vf v) ∧ s.dev.Accepts who .DSP_TG_GL n.val val ∧ s.dev.regsWf = true ∧ s.dev.tablesWf = true ∧ s.dev.glBad n.val val = false) ∧
    (∃ (s : State) (n : Fin 12) (who : Fn) (val : Word) (w : Fin 16), (∀ v, who ≠ .vf v) ∧ s.dev.Accepts who .DSP_CW_CTRL (idx2 16 n.val w.val) val ∧ s.dev.regsWf = true ∧ s.dev.tablesWf = true ∧ s.dev.acts who DSP_CW_CTRL.INJ_REF (idx2 16 n.val w.val) val = true) ∧
    (∃ (s : State) (n : Fin 12) (ref : Nat), s.dev.regsWf = true ∧ s.dev.tablesWf = true ∧ s.dev.sourceRef n.val = some ref ∧ (s.dev.out n.val).lastRef ≠ some ref ∧
      s.dev.f DSP_TG_STAT.STATE n.val = 1 ∧ (s.dev.out n.val).startAt = none ∧ (((s.dev.out n.val).enabledAt + 50000 : Nat) : Int) ≤ (ref : Int) + s.dev.glOffset n.val) ∧
    (∃ (s : State) (n : Fin 12) (ref p : Nat) (e : Int), s.dev.regsWf = true ∧ s.dev.tablesWf = true ∧ s.dev.sourceRef n.val = some ref ∧ p = (match (s.dev.out n.val).lastRef with | some l => ref - l | none => 0) ∧
      (s.dev.out n.val).lastRef ≠ some ref ∧ e = (ref : Int) + s.dev.glOffset n.val - s.dev.nearLatch n.val ((ref : Int) + s.dev.glOffset n.val) ∧
      s.dev.tgScans n.val = true ∧ s.dev.glState n.val ≠ 0) ∧
    (∃ (s : State) (n : Fin 12) (l : _), s.dev.regsWf = true ∧ s.dev.tablesWf = true ∧ (s.dev.out n.val).lastRef = some l ∧ (s.dev.glState n.val = 1 ∨ s.dev.glState n.val = 2) ∧
      l + 2 * (if (s.dev.out n.val).refPeriod = 0 then s.dev.sourcePeriod n.val else (s.dev.out n.val).refPeriod) ≤ s.dev.now) :=
  ⟨⟨u1, 11, .pf 0, u1.dev.reg .DSP_TG_CTRL 11 ||| 1, (by intro v h; cases h), accepts_of (by decide +kernel), by decide +kernel⟩,
   ⟨u2, 11, .pf 0, u2.dev.reg .DSP_TG_CTRL 11 ||| 1, (by intro v h; cases h), accepts_of (by decide +kernel), by decide +kernel⟩,
   ⟨u21, 11, .pf 0, u21.dev.reg .DSP_TG_CTRL 11 ||| 1, (by intro v h; cases h), accepts_of (by decide +kernel), by decide +kernel⟩,
   ⟨u3, 11, .sp0, u3.dev.reg .DSP_TG_CTRL 11 - 1, (by intro v h; cases h), accepts_of (by decide +kernel), by decide +kernel⟩,
   ⟨u3, 11, .pf 0, u3.dev.reg .DSP_TG_CTRL 11 ||| 2, (by intro v h; cases h), accepts_of (by decide +kernel), by decide +kernel⟩,
   ⟨u1, 11, .pf 0, 0x26, (by intro v h; cases h), by decide +kernel⟩,
   ⟨u1, 11, .pf 0, 0x4, (by intro v h; cases h), accepts_of (by decide +kernel), by decide +kernel⟩,
   ⟨u1, 11, .pf 0, DSP_TG_GL.SRC_IDX.put (DSP_TG_GL.SRC_TYPE.put 0 1) 11, (by intro v h; cases h), by decide +kernel⟩,
   ⟨u1, 11, .pf 0, DSP_TG_GL.DIV_M1.put (DSP_TG_GL.SRC_TYPE.put 0 2) 3, (by intro v h; cases h), accepts_of (by decide +kernel), by decide +kernel⟩,
   ⟨u4, 11, .sp0, u4.dev.reg .DSP_CW_CTRL (idx2 16 11 15) ||| 0x2000, 15, (by intro v h; cases h), accepts_of (by decide +kernel), by decide +kernel⟩,
   ⟨u22, 11, 10^9-500, by decide +kernel⟩,
   ⟨u5, 11, 10^9-500, 0, ((10^9-500 : Nat) : Int) + u5.dev.glOffset 11 - u5.dev.nearLatch 11 (((10^9-500 : Nat) : Int) + u5.dev.glOffset 11), by decide +kernel, by decide +kernel, by decide +kernel, by decide +kernel, by decide +kernel, rfl, by decide +kernel⟩,
   ⟨u6, 11, 10^9-2000, by decide +kernel⟩⟩

def u7 : State := p12 (fun d => d.setF DSP_PORT_STAT.HPD 3 1)
def u8 : State := p12 id
def u9 : State := p12 (fun d => d.setF DSP_PORT_SC_STAT.BUSY 3 1)
def u10 : State := p12 (fun d => (d.setF DSP_PORT_CFG.ENABLE 3 1).setF DSP_PORT_STAT.HPD 3 1)
def u11 : State := p12 (fun d => (d.setF DSP_PORT_STAT.TRAINING 3 1))
def tx12 (k : Nat) : SideTxn := { kind := 0, addr := 0x50, bytes := [1], count := 4, defers := k }
def u12 (k : Nat) : State := p12 (fun d => ({ d with disp := { d.disp with ports := Tbl.put ([] : Tbl DispPortSt) 15 { side := some (tx12 k) } } }).setF DSP_PORT_SC_STAT.BUSY 15 1)
def u23 : State := p12 (fun d => (d.setF DSP_TG_STAT.STATE 3 2).setF DSP_TG_ROUTE.PORT 3 4)
def u13 : State := p12 (fun d => d.setF DSP_PORT_CFG.ENABLE 3 1)
def u14 : State := p12 (fun d => ((d.setF DSP_PORT_CFG.ENABLE 3 1).setF DSP_PORT_STAT.LINK_UP 3 1).setF DSP_PORT_STAT.RETRAINS 3 255)
def u15 : State := p12 (fun d => ((d.setF DSP_PORT_CFG.ENABLE 3 1).setF DSP_PORT_STAT.TRAINING 3 1))
def u16 : State := p12 (fun d => ((d.setF DSP_PORT_CFG.ENABLE 3 0).setF DSP_PORT_STAT.TRAINING 3 1))
def u17 (k : Nat) : State := p12 (fun d => { ((d.setF DSP_PORT_CFG.ENABLE 3 1).setF DSP_PORT_STAT.TRAINING 3 1) with disp := { d.disp with ports := Tbl.put ([] : Tbl DispPortSt) 3 { retriesLeft := k } } })
def u18 : State := p12 (fun d => (d.setF DSP_PORT_STAT.DIR 15 1).setF VIN_RX_CFG.ENABLE 15 1)
def u19 : State := p12 (fun d => (d.setF DSP_PORT_CFG.ENABLE 15 1))
def u20 : State := p12 (fun d => ((d.setF DSP_PORT_CFG.ENABLE 15 1).setF DSP_PORT_STAT.LINK_UP 15 1).setF DSP_PORT_CFG.LINKDN_FAULT 15 1 |>.setF DSP_TG_ROUTE.PORT 11 15)

/-- The premises of each clause of `PortsTrainAndTransact` hold together. -/
theorem witness_PortsTrainAndTransact :
    (∃ (s : State) (who : Fn) (p : Fin 16) (val : Word), (∀ v, who ≠ .vf v) ∧ s.dev.Accepts who .DSP_PORT_CFG p.val val ∧ s.dev.regsWf = true ∧ s.dev.tablesWf = true ∧ s.dev.portExists p.val = true ∧ s.dev.acts who DSP_PORT_CFG.ENABLE p.val val = true ∧ DSP_PORT_CFG.ENABLE.get val = 1 ∧ (s.dev.write who .DSP_PORT_CFG p.val val).bandwidthOk p.val = true) ∧
    (∃ (s : State) (who : Fn) (p : Fin 16) (val : Word), (∀ v, who ≠ .vf v) ∧ s.dev.Accepts who .DSP_PORT_CFG p.val val ∧ s.dev.regsWf = true ∧ s.dev.tablesWf = true ∧ s.dev.portExists p.val = true ∧ s.dev.acts who DSP_PORT_CFG.ENABLE p.val val = true ∧ DSP_PORT_CFG.ENABLE.get val = 1 ∧ (s.dev.write who .DSP_PORT_CFG p.val val).bandwidthOk p.val = false) ∧
    (∃ (s : State) (who : Fn) (p : Fin 16) (val : Word), (∀ v, who ≠ .vf v) ∧ s.dev.Accepts who .DSP_PORT_SC_CMD p.val val ∧ s.dev.regsWf = true ∧ s.dev.tablesWf = true ∧ s.dev.portExists p.val = true ∧ s.dev.acts who DSP_PORT_SC_CMD.GO p.val val = true ∧ s.dev.fb DSP_PORT_SC_STAT.BUSY p.val = true) ∧
    (∃ (s : State) (who : Fn) (p : Fin 16) (val : Word), (∀ v, who ≠ .vf v) ∧ s.dev.Accepts who .DSP_PORT_SC_CMD p.val val ∧ s.dev.regsWf = true ∧ s.dev.tablesWf = true ∧ s.dev.portExists p.val = true ∧ s.dev.acts who DSP_PORT_SC_CMD.GO p.val val = true ∧ s.dev.fb DSP_PORT_SC_STAT.BUSY p.val = false ∧ s.dev.fb DSP_PORT_STAT.TRAINING p.val = false ∧ (isDp p.val = true ∧ DSP_PORT_SC_CMD.KIND.get val ≤ 3 ∨ isDsi p.val = true ∧ DSP_PORT_SC_CMD.KIND.get val = 4) ∧ (isDsi p.val && (s.dev.routed p.val).any s.dev.tgScans) = false) ∧
    (∃ (s : State) (who : Fn) (p : Fin 16) (val : Word), (∀ v, who ≠ .vf v) ∧ s.dev.Accepts who .DSP_PORT_SC_CMD p.val val ∧ s.dev.regsWf = true ∧ s.dev.tablesWf = true ∧ s.dev.portExists p.val = true ∧ s.dev.acts who DSP_PORT_SC_CMD.GO p.val val = true ∧ s.dev.fb DSP_PORT_SC_STAT.BUSY p.val = false ∧ s.dev.fb DSP_PORT_STAT.TRAINING p.val = false ∧ (isDp p.val = true ∧ DSP_PORT_SC_CMD.KIND.get val ≤ 3 ∨ isDsi p.val = true ∧ DSP_PORT_SC_CMD.KIND.get val = 4) ∧ (isDsi p.val && (s.dev.routed p.val).any s.dev.tgScans) = true) ∧
    (∃ (s : State) (who : Fn) (p : Fin 16) (val : Word), (∀ v, who ≠ .vf v) ∧ s.dev.Accepts who .DSP_PORT_SC_CMD p.val val ∧ s.dev.regsWf = true ∧ s.dev.tablesWf = true ∧ s.dev.portExists p.val = true ∧ s.dev.acts who DSP_PORT_SC_CMD.GO p.val val = true ∧ s.dev.fb DSP_PORT_SC_STAT.BUSY p.val = false ∧ s.dev.fb DSP_PORT_STAT.TRAINING p.val = true) ∧
    (∃ (s : State) (p : Fin 16) (x : SideTxn) (reply : SideReply) (result : Nat), s.dev.regsWf = true ∧ s.dev.tablesWf = true ∧ (s.dev.disp.ports.get p.val).side = some x ∧
      x.waits = false ∧ (∃ data, reply = .ack data ∧ result = 0)) ∧
    (∃ (s : State) (p : Fin 16) (x : SideTxn), s.dev.regsWf = true ∧ s.dev.tablesWf = true ∧ (s.dev.disp.ports.get p.val).side = some x ∧ x.waits = false ∧ 7 ≤ x.defers) ∧
    (∃ (s : State) (p : Fin 16) (x : SideTxn), s.dev.regsWf = true ∧ s.dev.tablesWf = true ∧ (s.dev.disp.ports.get p.val).side = some x ∧ x.waits = false ∧ x.defers < 7) ∧
    (∃ (s : State), s.dev.regsWf = true ∧ s.dev.tablesWf = true) ∧
    (∃ (s : State) (p : Fin 4), s.dev.regsWf = true ∧ s.dev.tablesWf = true ∧ s.dev.fb DSP_PORT_STAT.LINK_UP p.val = true) ∧
    (∃ (s : State) (p : Fin 4), s.dev.regsWf = true ∧ s.dev.tablesWf = true ∧ s.dev.fb DSP_PORT_STAT.TRAINING p.val = true) ∧
    (∃ (s : State) (p : Fin 4), s.dev.regsWf = true ∧ s.dev.tablesWf = true ∧ s.dev.fb DSP_PORT_STAT.TRAINING p.val = true ∧ (s.dev.disp.ports.get p.val).retriesLeft = 0) ∧
    (∃ (s : State) (p : Fin 4), s.dev.regsWf = true ∧ s.dev.tablesWf = true ∧ s.dev.fb DSP_PORT_STAT.TRAINING p.val = true ∧ (s.dev.disp.ports.get p.val).retriesLeft = 1) ∧
    (∃ (s : State) (p : Fin 4) (k : _), s.dev.regsWf = true ∧ s.dev.tablesWf = true ∧ s.dev.fb DSP_PORT_STAT.TRAINING p.val = true ∧ (s.dev.disp.ports.get p.val).retriesLeft = k + 2) ∧
    (∃ (s : State) (k : Fin 8), s.dev.regsWf = true ∧ s.dev.tablesWf = true ∧ s.dev.aphyRx (8 + k.val) = true ∧ s.dev.fb VIN_RX_CFG.ENABLE (8 + k.val) = true) ∧
    (∃ (s : State) (k : Fin 8), s.dev.regsWf = true ∧ s.dev.tablesWf = true ∧ s.dev.aphyRx (8 + k.val) = true) ∧
    (∃ (s : State) (k : Fin 8), s.dev.regsWf = true ∧ s.dev.tablesWf = true ∧ s.dev.aphyRx (8 + k.val) = false ∧ s.dev.fb DSP_PORT_CFG.ENABLE (8 + k.val) = true ∧ s.dev.fb DSP_PORT_STAT.LINK_UP (8 + k.val) = false) ∧
    (∃ (s : State) (k : Fin 8), s.dev.regsWf = true ∧ s.dev.tablesWf = true ∧ s.dev.aphyRx (8 + k.val) = false) :=
  ⟨⟨u7, .pf 0, 3, pcfg 3 1 0 0 4 1000, (by intro v h; cases h), accepts_of (by decide +kernel), by decide +kernel⟩,
   ⟨u8, .pf 0, 5, pcfg 5 1 0 0 3 1000, (by intro v h; cases h), accepts_of (by decide +kernel), by decide +kernel⟩,
   ⟨u9, .pf 0, 3, sc12 1, (by intro v h; cases h), accepts_of (by decide +kernel), by decide +kernel⟩,
   ⟨u10, .pf 0, 3, sc12 1, (by intro v h; cases h), accepts_of (by decide +kernel), by decide +kernel⟩,
   ⟨u23, .pf 0, 4, sc12 4, (by intro v h; cases h), accepts_of (by decide +kernel), by decide +kernel⟩,
   ⟨u11, .pf 0, 3, sc12 1, (by intro v h; cases h), accepts_of (by decide +kernel), by decide +kernel⟩,
   ⟨u12 0, 15, tx12 0, .ack [1], 0, by decide +kernel, by decide +kernel, by decide +kernel, by decide +kernel, ⟨[1], by decide +kernel⟩⟩,
   ⟨u12 7, 15, tx12 7, by decide +kernel⟩,
   ⟨u12 6, 15, tx12 6, by decide +kernel⟩,
   ⟨u13, by decide +kernel⟩,
   ⟨u14, 3, by decide +kernel⟩,
   ⟨u15, 3, by decide +kernel⟩,
   ⟨u16, 3, by decide +kernel⟩,
   ⟨u17 1, 3, by decide +kernel⟩,
   ⟨u17 2, 3, 0, by decide +kernel⟩,
   ⟨u18, 7, by decide +kernel⟩,
   ⟨u18, 7, by decide +kernel⟩,
   ⟨u19, 7, by decide +kernel⟩,
   ⟨u20, 7, by decide +kernel⟩⟩

end W12

namespace W13

def b16 (n : Nat) : List Nat := (toLe n 2).map (·.toNat)
def b32 (n : Nat) : List Nat := (toLe n 4).map (·.toNat)
def b64 (n : Nat) : List Nat := (toLe n 8).map (·.toNat)
def csCfg (fl src : Nat) (base : Nat := ddrBase + 2^22) : List Nat := [15, fl, src, 0, 0x24, 2] ++ b16 0 ++ b16 8 ++ b16 4 ++ b16 64 ++ b16 0 ++ b64 base ++ b32 4096 ++ b32 0
def csCont (ring : Nat) : List Byte := ([1,0] ++ b16 ring ++ b16 10 ++ b16 5 ++ List.replicate 56 0).map (BitVec.ofNat 8)
def withConts (c : Cmd) (l : List (List Byte)) : Cmd := { c with conts := l }
def cs13 (state : Nat) (x : CsSt) (g : Dev → Dev := id) : State := st fun d => g (((({ d with time := { d.time with ltime := 10^12 }, vin := { d.vin with cs := Tbl.put ([] : Tbl CsSt) 15 x } }.setF VIN_CS_ASSIGN.OWNER 15 4).setF VIN_CS_STAT.STATE 15 state).setF VIN_CS_STAT.CONFIGURED 15 1).setF VIN_RX_CFG.ENABLE 0x13 1)
def x13 (fl src ring : Nat) (base : Nat := ddrBase + 2^22) : CsSt := { cfg := (csCfg fl src base).map (BitVec.ofNat 8), cont := (csCont ring).drop 2 }
def cmd13 (op : Nat) (body : List Nat) (s : State) : State := { s with dev := queued (.pf 0) 2 (cmdOf op body) s.dev }
def line13 : VideoLine := { vc := 0, dt := 0x24, pixels := [1,2,3,4,5,6,7,8], chroma := [], corrected := false, headerOk := true, crcOk := true }
def q13 : Dev → Dev := fun d => queued (.pf 0) 2 { cmdOf 0x53 [] with phase := .running } d
def pass13 (cs : Bool) : List Byte := ([if cs then 0xF1 else 0, 2] ++ b16 64 ++ b64 0x100000 ++ b32 0 ++ b16 0 ++ b16 0 ++ b16 8 ++ b16 4 ++ b16 0 ++ b16 0 ++ b16 16 ++ b16 16 ++ [3,3,4,0] ++ b64 0x200000 ++ List.replicate 18 0).map (BitVec.ofNat 8)
def wbody (eng ocs : Nat) : List Nat := [eng, 1, 2, ocs] ++ b16 16 ++ b16 16 ++ b16 0 ++ b16 0 ++ b16 0 ++ b16 64 ++ b64 0x300000
def job13 (standing : Bool) (ocs : Nat) : WarpJob := { cmd := if standing then none else some ⟨qi (.pf 0) 0, 0⟩, code := 4, sec := false, standing := standing, body := (wbody 1 ocs).map (BitVec.ofNat 8), passes := [(pass13 false).drop 0] }
def we13 (w : WarpSt) (s : State) : State := { s with dev := { s.dev with vin := { s.dev.vin with we := Tbl.put ([] : Tbl WarpSt) 1 w } } }
def wcmd (op ocs ext : Nat) (s : State) : State := { s with dev := queued (.pf 0) 2 (withConts { lead := [BitVec.ofNat 8 op] ++ List.replicate 23 0 ++ [BitVec.ofNat 8 ext] ++ List.replicate 7 0 ++ (wbody 1 ocs).map (BitVec.ofNat 8) ++ List.replicate 8 0 } [[1,0] ++ pass13 false]) s.dev }

def u1 : State := cs13 0 (x13 0 0x13 8)
def u2 : State := cs13 0 {} (fun d => queued (.pf 0) 2 (withConts (cmdOf 0x50 (csCfg 0 0x13)) [csCont 0]) d)
def u3 : State := cs13 0 {} (fun d => queued (.pf 0) 2 (withConts (cmdOf 0x50 (csCfg 1 0x13 0x100000)) [csCont 12]) d)
def u4 : State := cmd13 0x51 [15] (cs13 0 (x13 0 0x13 8))
def u28 : State := cmd13 0x51 [15] (cs13 0 (x13 0 0x13 8) (fun d => { d.setF PWR_PACE_STAT.VCORE_MV 0 734 with pace := { d.pace with setpoint := 734 } }))
def u29 : State := cmd13 0x51 [15] (cs13 2 (x13 0 0x13 8))
def u5 : State := cmd13 0x51 [15] (cs13 0 (x13 0 0x13 8) (fun d => d.setF VIN_CS_STAT.CONFIGURED 15 0))
def u6 : State := cmd13 0x52 [15] (cs13 0 (x13 0 0x13 8))
def u7 : State := cmd13 0x53 [15,0,0,0,5,0,0,0] (cs13 3 { x13 0 0x13 8 with newest := some 2 } (fun d => d.setReg .VIN_CS_FRAMES 15 0x40000005))
def u8 : State := cmd13 0x53 [15,0,0,0,6,0,0,0] (cs13 3 { x13 0 0x13 8 with newest := some 2 } (fun d => d.setReg .VIN_CS_FRAMES 15 0x5))
def u9 : State := cmd13 0x54 [15] (cs13 3 { x13 0 0x13 8 with pinned := some 2 } (fun d => d.setF VIN_CS_STAT.PINNED 15 1))
def u10 : State := cs13 3 { x13 0 0x13 8 with newest := some 2, holds := [(⟨qi (.pf 0) 0, 7⟩, 6), (⟨qi (.pf 0) 0, 0⟩, 5)] } (fun d => (q13 d).setReg .VIN_CS_FRAMES 15 0x5)
def u11 : State := cs13 3 { x13 0 0x13 8 with pinned := some 1, newest := some 2, holds := [(⟨qi (.pf 0) 0, 0⟩, 5)] } (fun d => (q13 d).setReg .VIN_CS_FRAMES 15 0x5)

def u31 : State := cmd13 0x51 [15] (cs13 0 (x13 0 0x13 8) (fun d => { d.setF PWR_PACE_STAT.VCORE_MV 0 735 with pace := { d.pace with setpoint := 730 } }))

/-- The premises of each clause of `StreamCommandsConfigureContexts` hold together. -/
theorem witness_StreamCommandsConfigureContexts :
    (∃ (s : State) (who : Fn) (c : Fin 16) (val : Word), (∀ v, who ≠ .vf v) ∧ s.dev.regsWf = true ∧ s.dev.tablesWf = true ∧ VIN_CS_ASSIGN.OWNER.get val ≠ s.dev.csOwner c.val ∧ s.dev.mayGive who (s.dev.csOwner c.val) = true ∧ s.dev.mayGive who (VIN_CS_ASSIGN.OWNER.get val) = true) ∧
    (∃ (s : State) (who : Fn) (c : Fin 16) (val : Word), (∀ v, who ≠ .vf v) ∧ s.dev.regsWf = true ∧ s.dev.tablesWf = true ∧ VIN_CS_ASSIGN.OWNER.get val ≠ s.dev.csOwner c.val ∧ (s.dev.mayGive who (s.dev.csOwner c.val) = false ∨ s.dev.mayGive who (VIN_CS_ASSIGN.OWNER.get val) = false)) ∧
    (∃ (s : State) (f : Fn) (q : Fin 8) (c : Cmd), s.Bare f q c ∧ s.dev.regsWf = true ∧ s.dev.tablesWf = true ∧ c.opcode = 0x50 ∧ s.dev.streamSetErr c f.code = none) ∧
    (∃ (s : State) (f : Fn) (q : Fin 8) (c : Cmd) (st res : Nat), s.Bare f q c ∧ s.dev.regsWf = true ∧ s.dev.tablesWf = true ∧ c.opcode = 0x50 ∧ s.dev.streamSetErr c f.code = some (st, res)) ∧
    (∃ (s : State) (f : Fn) (q : Fin 8) (c : Cmd) (n : Nat), n = c.u 32 1 % 16 ∧ s.Bare f q c ∧ s.dev.regsWf = true ∧ s.dev.tablesWf = true ∧ c.opcode = 0x51 ∧ s.dev.csCmdErr c f.code false = none ∧ s.dev.fb VIN_CS_STAT.CONFIGURED n = true ∧ s.dev.csState n = 0 ∧ s.dev.csClash n = false ∧ 735 ≤ s.dev.f PWR_PACE_STAT.VCORE_MV 0 ∧ 735 ≤ s.dev.pace.setpoint ∧ s.dev.pace.enableWaits = false) ∧
    (∃ (s : State) (f : Fn) (q : Fin 8) (c : Cmd) (n : Nat), n = c.u 32 1 % 16 ∧ s.Bare f q c ∧ s.dev.regsWf = true ∧ s.dev.tablesWf = true ∧ c.opcode = 0x51 ∧ s.dev.csCmdErr c f.code false = none ∧ s.dev.fb VIN_CS_STAT.CONFIGURED n = true ∧ s.dev.csState n = 0 ∧ s.dev.csClash n = false ∧ s.dev.f PWR_PACE_STAT.VCORE_MV 0 < 735 ∧ s.dev.pace.setpoint < 735 ∧ s.dev.fb PWR_PACE_STAT.AVS_FAULT 0 = false) ∧
    (∃ (s : State) (f : Fn) (q : Fin 8) (c : Cmd) (n : Nat), n = c.u 32 1 % 16 ∧ s.Bare f q c ∧ s.dev.regsWf = true ∧ s.dev.tablesWf = true ∧ c.opcode = 0x51 ∧ s.dev.csCmdErr c f.code false = none ∧ s.dev.fb VIN_CS_STAT.CONFIGURED n = true ∧ (s.dev.csState n ≠ 0 ∨ s.dev.csClash n = true)) ∧
    (∃ (s : State) (f : Fn) (q : Fin 8) (c : Cmd) (n : Nat), n = c.u 32 1 % 16 ∧ s.Bare f q c ∧ s.dev.regsWf = true ∧ s.dev.tablesWf = true ∧ c.opcode = 0x51 ∧ s.dev.csCmdErr c f.code false = none ∧ s.dev.fb VIN_CS_STAT.CONFIGURED n = false) ∧
    (∃ (s : State) (f : Fn) (q : Fin 8) (c : Cmd) (n : Nat) (ref : CmdRef), n = c.u 32 1 % 16 ∧ ref = ⟨qi f q, c.id⟩ ∧ s.Bare f q c ∧ s.dev.regsWf = true ∧ s.dev.tablesWf = true ∧ c.opcode = 0x52 ∧ s.dev.csCmdErr c f.code false = none ∧ (∀ h ∈ (s.dev.cs n).holds, h.1 ≠ ref)) ∧
    (∃ (s : State) (f : Fn) (q : Fin 8) (c : Cmd) (n : Nat) (k : _), n = c.u 32 1 % 16 ∧ s.Bare f q c ∧ s.dev.regsWf = true ∧ s.dev.tablesWf = true ∧ c.opcode = 0x53 ∧ s.dev.csCmdErr c f.code true = none ∧ (s.dev.cs n).lineLocked = false ∧ (s.dev.cs n).pinned = none ∧ s.dev.holdReady n (c.u 36 4) = some k) ∧
    (∃ (s : State) (f : Fn) (q : Fin 8) (c : Cmd) (n : Nat), n = c.u 32 1 % 16 ∧ s.Bare f q c ∧ s.dev.regsWf = true ∧ s.dev.tablesWf = true ∧ c.opcode = 0x53 ∧ s.dev.csCmdErr c f.code true = none ∧ (s.dev.cs n).lineLocked = false ∧ (s.dev.cs n).pinned = none ∧ s.dev.holdReady n (c.u 36 4) = none) ∧
    (∃ (s : State) (f : Fn) (q : Fin 8) (c : Cmd), s.Bare f q c ∧ s.dev.regsWf = true ∧ s.dev.tablesWf = true ∧ c.opcode = 0x54 ∧ s.dev.csCmdErr c f.code false = none) ∧
    (∃ (s : State) (c : Fin 16) (h : CmdRef × Nat) (k : Nat), s.dev.Running h.1 ∧ s.dev.regsWf = true ∧ s.dev.tablesWf = true ∧ ((s.dev.cs c.val).holds.find? fun h => (s.dev.holdReady c.val h.2).isSome) = some h ∧ s.dev.holdReady c.val h.2 = some k ∧ (s.dev.cs c.val).pinned = none) ∧
    (∃ (s : State) (c : Fin 16) (h : CmdRef × Nat) (k : Nat), s.dev.Running h.1 ∧ s.dev.regsWf = true ∧ s.dev.tablesWf = true ∧ ((s.dev.cs c.val).holds.find? fun h => (s.dev.holdReady c.val h.2).isSome) = some h ∧ s.dev.holdReady c.val h.2 = some k ∧ (s.dev.cs c.val).pinned.isSome = true) ∧
    (∃ (s : State) (f : Fn) (q : Fin 8) (c : Cmd) (n : Nat), n = c.u 32 1 % 16 ∧ s.Bare f q c ∧ s.dev.regsWf = true ∧ s.dev.tablesWf = true ∧ c.opcode = 0x51 ∧ s.dev.csCmdErr c f.code false = none ∧ s.dev.fb VIN_CS_STAT.CONFIGURED n = true ∧ s.dev.csState n = 0 ∧ s.dev.csClash n = false ∧
      735 ≤ s.dev.f PWR_PACE_STAT.VCORE_MV 0 ∧ s.dev.pace.setpoint < 735) :=
  ⟨⟨u1, .pf 0, 15, 0x10, (by intro v h; cases h), by decide +kernel⟩,
   ⟨u1, .pf 1, 15, 0x5, (by intro v h; cases h), by decide +kernel⟩,
   ⟨u2, .pf 0, 0, inner u2 (Fn.pf 0), bare_of (by decide +kernel), by decide +kernel⟩,
   ⟨u3, .pf 0, 0, inner u3 (Fn.pf 0), ST_BAD_FIELD, errAt 32 15, bare_of (by decide +kernel), by decide +kernel⟩,
   ⟨u4, .pf 0, 0, inner u4 (Fn.pf 0), (inner u4 (Fn.pf 0)).u 32 1 % 16, rfl, bare_of (by decide +kernel), by decide +kernel⟩,
   ⟨u28, .pf 0, 0, inner u28 (Fn.pf 0), (inner u28 (Fn.pf 0)).u 32 1 % 16, rfl, bare_of (by decide +kernel), by decide +kernel⟩,
   ⟨u29, .pf 0, 0, inner u29 (Fn.pf 0), (inner u29 (Fn.pf 0)).u 32 1 % 16, rfl, bare_of (by decide +kernel), by decide +kernel⟩,
   ⟨u5, .pf 0, 0, inner u5 (Fn.pf 0), (inner u5 (Fn.pf 0)).u 32 1 % 16, rfl, bare_of (by decide +kernel), by decide +kernel⟩,
   ⟨u6, .pf 0, 0, inner u6 (Fn.pf 0), (inner u6 (Fn.pf 0)).u 32 1 % 16, ⟨qi (Fn.pf 0) (0), (inner u6 (Fn.pf 0)).id⟩, rfl, rfl, bare_of (by decide +kernel), by decide +kernel⟩,
   ⟨u7, .pf 0, 0, inner u7 (Fn.pf 0), (inner u7 (Fn.pf 0)).u 32 1 % 16, 2, rfl, bare_of (by decide +kernel), by decide +kernel⟩,
   ⟨u8, .pf 0, 0, inner u8 (Fn.pf 0), (inner u8 (Fn.pf 0)).u 32 1 % 16, rfl, bare_of (by decide +kernel), by decide +kernel⟩,
   ⟨u9, .pf 0, 0, inner u9 (Fn.pf 0), bare_of (by decide +kernel), by decide +kernel⟩,
   ⟨u10, 15, (⟨qi (.pf 0) 0, 0⟩, 5), 2, running_of (by decide +kernel), by decide +kernel⟩,
   ⟨u11, 15, (⟨qi (.pf 0) 0, 0⟩, 5), 2, running_of (by decide +kernel), by decide +kernel⟩,
   ⟨u31, .pf 0, 0, inner u31 (Fn.pf 0), (inner u31 (Fn.pf 0)).u 32 1 % 16, rfl, bare_of (by decide +kernel), by decide +kernel⟩⟩

def u12 : State := cs13 1 (x13 0 0x13 8)
def u13 : State := cs13 3 { x13 0 0x13 8 with inFrame := true, awaits := true, buf := some 2, lines := 3 }
def u14 : State := cs13 2 { x13 0 0x13 8 with inFrame := true, awaits := true, buf := some 2, lines := 3 } (fun d => d.setF VIN_RX_STAT.CRC_ERR 0x13 255)
def u15 : State := cs13 2 { x13 0 0x13 8 with inFrame := true, awaits := true, buf := some 2, lines := 4 }
def u16 : State := cs13 2 { x13 0 0x13 8 with inFrame := true, awaits := true, buf := some 2, lines := 3, newest := some 1 }
def u17 : State := cs13 2 { x13 0 0x13 8 with inFrame := true, awaits := true, buf := some 2, lines := 3, newest := some 1, lastLine := 10^12 - 10000 }
def u18 : State := cs13 3 { x13 0 0x13 8 with inFrame := true, awaits := true, buf := some 2, lines := 3, newest := some 1, lastStart := some (10^12 - 5000000) }

def u32 : State := cs13 0 (x13 0 0x13 8)

/-- The premises of each clause of `FramesFillAndComplete` hold together. -/
theorem witness_FramesFillAndComplete :
    (∃ (s : State) (p : Fin 20) (c : Fin 16), s.dev.regsWf = true ∧ s.dev.tablesWf = true ∧ s.dev.csReceives p.val c.val = true) ∧
    (∃ (s : State) (p : Fin 20) (c : Fin 16) (x : CsSt) (l : VideoLine), x = s.dev.cs c.val ∧ s.dev.regsWf = true ∧ s.dev.tablesWf = true ∧ s.dev.csReceives p.val c.val = true ∧ x.awaits = true ∧ x.inFrame = true ∧ x.takes l = true ∧ x.lines < x.height ∧ l.pixels.length = x.width ∧ l.headerOk = true ∧ l.crcOk = true) ∧
    (∃ (s : State) (p : Fin 20) (c : Fin 16) (x : CsSt) (l : VideoLine) (k : Nat), x = s.dev.cs c.val ∧ s.dev.regsWf = true ∧ s.dev.tablesWf = true ∧ s.dev.csReceives p.val c.val = true ∧ x.awaits = true ∧ x.inFrame = true ∧ x.takes l = true ∧ x.buf = some k ∧ (l.headerOk = false ∨ l.crcOk = false)) ∧
    (∃ (s : State) (p : Fin 20) (c : Fin 16) (x : CsSt) (l : VideoLine) (k : Nat), x = s.dev.cs c.val ∧ s.dev.regsWf = true ∧ s.dev.tablesWf = true ∧ s.dev.csReceives p.val c.val = true ∧ x.awaits = true ∧ x.inFrame = true ∧ x.takes l = true ∧ x.buf = some k ∧ l.headerOk = true ∧ l.crcOk = true ∧ (l.pixels.length ≠ x.width ∨ x.height ≤ x.lines)) ∧
    (∃ (s : State) (p : Fin 20) (c : Fin 16) (x : CsSt) (l : VideoLine), x = s.dev.cs c.val ∧ s.dev.regsWf = true ∧ s.dev.tablesWf = true ∧ s.dev.csReceives p.val c.val = true ∧ x.takes l = false) ∧
    (∃ (s : State) (p : Fin 20) (c : Fin 16) (x : CsSt) (k : _), x = s.dev.cs c.val ∧ s.dev.regsWf = true ∧ s.dev.tablesWf = true ∧ s.dev.csReceives p.val c.val = true ∧ x.awaits = true ∧ x.inFrame = true ∧ x.buf = some k ∧ x.lines = x.height) ∧
    (∃ (s : State) (p : Fin 20) (c : Fin 16) (x : CsSt) (k : _), x = s.dev.cs c.val ∧ s.dev.regsWf = true ∧ s.dev.tablesWf = true ∧ s.dev.csReceives p.val c.val = true ∧ x.awaits = true ∧ x.inFrame = true ∧ x.buf = some k ∧ x.lines ≠ x.height) ∧
    (∃ (s : State) (c : Fin 16) (x : CsSt), x = s.dev.cs c.val ∧ s.dev.regsWf = true ∧ s.dev.tablesWf = true ∧ s.dev.csState c.val ≠ 0 ∧ x.source ≠ 0x1E ∧ x.awaits = true ∧ x.lastLine + 1000 * x.lineToUs ≤ s.dev.now) ∧
    (∃ (s : State) (c : Fin 16) (x : CsSt) (start : Nat), x = s.dev.cs c.val ∧ s.dev.regsWf = true ∧ s.dev.tablesWf = true ∧ s.dev.csState c.val = 3 ∧ x.lastStart = some start ∧ start + 1000000 * x.frameToMs ≤ s.dev.now) ∧
    (∃ (s : State) (p : Fin 20) (c : Fin 16) (corrected good : Bool) (l : VideoLine) (i : Instr), s.dev.regsWf = true ∧ s.dev.tablesWf = true ∧ s.dev.receives p.val = true ∧ s.dev.csReceives p.val c.val = false ∧
      i = .lineReceived p c l ∧ corrected = l.corrected ∧ good = (l.headerOk && l.crcOk)) ∧
    (∃ (s : State) (p : Fin 20) (c : Fin 16) (corrected good : Bool) (i : Instr), s.dev.regsWf = true ∧ s.dev.tablesWf = true ∧ s.dev.receives p.val = true ∧ s.dev.csReceives p.val c.val = false ∧
      (i = .frameStart p c corrected good ∨ i = .frameEnd p c corrected good)) :=
  ⟨⟨u12, 0x13, 15, by decide +kernel⟩,
   ⟨u13, 0x13, 15, u13.dev.cs 15, line13, rfl, by decide +kernel⟩,
   ⟨u14, 0x13, 15, u14.dev.cs 15, { line13 with headerOk := false }, 2, rfl, by decide +kernel⟩,
   ⟨u15, 0x13, 15, u15.dev.cs 15, line13, 2, rfl, by decide +kernel⟩,
   ⟨u14, 0x13, 15, u14.dev.cs 15, { line13 with dt := 0x12 }, rfl, by decide +kernel⟩,
   ⟨u15, 0x13, 15, u15.dev.cs 15, 2, rfl, by decide +kernel⟩,
   ⟨u16, 0x13, 15, u16.dev.cs 15, 2, rfl, by decide +kernel⟩,
   ⟨u17, 15, u17.dev.cs 15, rfl, by decide +kernel⟩,
   ⟨u18, 15, u18.dev.cs 15, 10^12 - 5000000, rfl, by decide +kernel⟩,
   ⟨u32, 0x13, 15, false, true, line13, .lineReceived 0x13 15 line13, by decide +kernel⟩,
   ⟨u12, 0x13, 14, true, false, .frameEnd 0x13 14 true false, by decide +kernel⟩⟩

def u19 : State := wcmd 0x55 0 0 (cs13 0 {})
def u20 : State := wcmd 0x55 16 0 (cs13 0 {})
def st13 : Standing := ⟨job13 true 0x8F, 1, 0, [⟨3, 3⟩]⟩
def u21 (x : Option Standing) : State := wcmd 0x56 0x8F 7 (cs13 0 { x13 0 0x1E 8 with standing := x, cfg := ((csCfg 0 0x1E).map (BitVec.ofNat 8)).take 8 ++ [16,0,16,0] ++ ((csCfg 0 0x1E).map (BitVec.ofNat 8)).drop 12 })
def u22 : State := cmd13 0x57 [15] (cs13 0 {})
def u23 : State := cmd13 0x57 [15] (we13 { job := some (job13 true 0x8F) } (cs13 1 { x13 0 0x1E 8 with standing := some ⟨job13 true 0x8F, 1, 0, []⟩ }))
def u24 : State := we13 { queue := [job13 false 0, job13 false 1] } (cs13 0 {} q13)
def u30 : State := we13 { runs := [(15, 1), (3, 2)] } (cs13 1 { x13 0 0x1E 8 with standing := some ⟨job13 true 0x8F, 1, 0, []⟩, pinned := some 1, newest := some 0, viewBuf := some 2 })
def u26 : State := we13 { preempted := some (job13 false 0) } (cs13 0 {})
def u27 : State := we13 { job := some { job13 false 0 with inputs := [none] } } (cs13 0 {} q13)

/-- A one-shot job that has computed every line. -/
def jobDone : WarpJob := { job13 false 0 with lines := 16 }
def u25 : State := we13 { job := some jobDone, runs := [(15, 1), (3, 2)] } (cs13 1 { x13 0 0x1E 8 with standing := some ⟨job13 true 0x8F, 1, 0, []⟩ })
def u33 : State :=
  (({ u25 with dev := u25.dev.free1.2 } : State).warpCompute 1 jobDone 0).1.onDev (·.updWe 1 fun w => { w with job := some jobDone })

theorem cut25 : u25.warpCut 1 (fun j => !j.standing) = u33 := by
  have h : Config.freeValue u25.dev.free % (jobDone.outH - jobDone.lines + 1) = 0 := by
    rw [show jobDone.outH - jobDone.lines + 1 = 1 by decide +kernel, Nat.mod_one]
  have hj : (u25.dev.we 1).job = some jobDone := by decide +kernel
  have hc : (({ u25 with dev := u25.dev.free1.2 } : State).warpCompute 1 jobDone 0).2 = (none, jobDone) := by decide +kernel
  unfold State.warpCut
  simp only [hj, Dev.free1, h]
  simp only [Dev.free1] at hc
  simp only [hc, u33, Dev.free1]
  rfl

/-- The premises of each clause of `WarpJobsQueueRunAndEnd` hold together. -/
theorem witness_WarpJobsQueueRunAndEnd :
    (∃ (s : State) (f : Fn) (q : Fin 8) (c : Cmd), s.Bare f q c ∧ s.dev.regsWf = true ∧ s.dev.tablesWf = true ∧ c.opcode = 0x55 ∧ s.dev.warpErr c f.code false = none) ∧
    (∃ (s : State) (f : Fn) (q : Fin 8) (c : Cmd) (st res : Nat), s.Bare f q c ∧ s.dev.regsWf = true ∧ s.dev.tablesWf = true ∧ c.opcode = 0x55 ∧ s.dev.warpErr c f.code false = some (st, res)) ∧
    (∃ (s : State) (f : Fn) (q : Fin 8) (c : Cmd), s.Bare f q c ∧ s.dev.regsWf = true ∧ s.dev.tablesWf = true ∧ c.opcode = 0x56 ∧ s.dev.warpErr c f.code true = none) ∧
    (∃ (s : State) (f : Fn) (q : Fin 8) (c : Cmd) (x : Standing), s.Bare f q c ∧ s.dev.regsWf = true ∧ s.dev.tablesWf = true ∧ c.opcode = 0x56 ∧ s.dev.warpErr c f.code true = none ∧ (s.dev.cs (c.u 35 1 % 16)).standing = some x) ∧
    (∃ (s : State) (f : Fn) (q : Fin 8) (c : Cmd), s.Bare f q c ∧ s.dev.regsWf = true ∧ s.dev.tablesWf = true ∧ c.opcode = 0x57 ∧ s.dev.csCmdErr c f.code false = none ∧ s.dev.standingRuns (c.u 32 1 % 16) = false) ∧
    (∃ (s : State) (f : Fn) (q : Fin 8) (c : Cmd) (x : _), s.Bare f q c ∧ s.dev.regsWf = true ∧ s.dev.tablesWf = true ∧ c.opcode = 0x57 ∧ s.dev.csCmdErr c f.code false = none ∧ s.dev.standingRuns (c.u 32 1 % 16) = true ∧ (s.dev.cs (c.u 32 1 % 16)).standing = some x) ∧
    (∃ (s : State) (e : Fin 2) (j : _), s.dev.regsWf = true ∧ s.dev.tablesWf = true ∧ (s.dev.we e.val).runs = [] ∧ (s.dev.we e.val).job = none ∧ (s.dev.we e.val).preempted = none ∧ ((s.dev.we e.val).parked.find? fun j => !s.dev.vfHeld j.code) = none ∧ ((s.dev.we e.val).queue.find? fun j => !s.dev.vfHeld j.code) = some j) ∧
    (∃ (s u : State) (e : Fin 2) (o n : Nat) (rest : List (Nat × Nat)) (j j1 : WarpJob) (x : Standing), u = s.warpCut e.val (fun j => !j.standing) ∧ s.dev.regsWf = true ∧ s.dev.tablesWf = true ∧ (s.dev.we e.val).runs ≠ [] ∧ (s.dev.we e.val).job = some j ∧ j.standing = false ∧
      (u.dev.we e.val).job = some j1 ∧ (u.dev.we e.val).runs = (o, n) :: rest ∧ (u.dev.cs o).standing = some x ∧ u.dev.csState o ≠ 0 ∧ (u.dev.chooseBuffer o).isSome = true) ∧
    (∃ (s : State) (e : Fin 2) (o n : _) (rest : _) (x : _), s.dev.regsWf = true ∧ s.dev.tablesWf = true ∧ (s.dev.we e.val).runs = (o, n) :: rest ∧ (s.dev.we e.val).job = none ∧ (s.dev.cs o).standing = some x ∧ s.dev.csState o ≠ 0 ∧ s.dev.chooseBuffer o = none) ∧
    (∃ (s : State) (e : Fin 2) (j : _), s.dev.regsWf = true ∧ s.dev.tablesWf = true ∧ (s.dev.we e.val).runs = [] ∧ (s.dev.we e.val).job = none ∧ (s.dev.we e.val).preempted = some j) ∧
    (∃ (s : State) (e : Fin 2) (j : _) (ref : _), s.dev.Running ref ∧ s.dev.regsWf = true ∧ s.dev.tablesWf = true ∧ (s.dev.we e.val).job = some j ∧ j.cmd = some ref ∧ j.toCs = false) :=
  ⟨⟨u19, .pf 0, 0, inner u19 (Fn.pf 0), bare_of (by decide +kernel), by decide +kernel⟩,
   ⟨u20, .pf 0, 0, inner u20 (Fn.pf 0), ST_BAD_FIELD, errByte 35, bare_of (by decide +kernel), by decide +kernel⟩,
   ⟨u21 none, .pf 0, 0, inner (u21 none) (Fn.pf 0), bare_of (by decide +kernel), by decide +kernel⟩,
   ⟨u21 (some st13), .pf 0, 0, inner (u21 (some st13)) (Fn.pf 0), st13, bare_of (by decide +kernel), by decide +kernel⟩,
   ⟨u22, .pf 0, 0, inner u22 (Fn.pf 0), bare_of (by decide +kernel), by decide +kernel⟩,
   ⟨u23, .pf 0, 0, inner u23 (Fn.pf 0), (⟨job13 true 0x8F, 1, 0, []⟩ : Standing), bare_of (by decide +kernel), by decide +kernel⟩,
   ⟨u24, 1, job13 false 0, by decide +kernel⟩,
   ⟨u25, u33, 1, 15, 1, [(3, 2)], jobDone, jobDone, (⟨job13 true 0x8F, 1, 0, []⟩ : Standing), cut25.symm, by decide +kernel⟩,
   ⟨u30, 1, 15, 1, [(3, 2)], (⟨job13 true 0x8F, 1, 0, []⟩ : Standing), by decide +kernel⟩,
   ⟨u26, 1, job13 false 0, by decide +kernel⟩,
   ⟨u27, 1, { job13 false 0 with inputs := [none] }, ⟨qi (.pf 0) 0, 0⟩, running_of (by decide +kernel), by decide +kernel⟩⟩

end W13

namespace W14

def b16 (n : Nat) : List Nat := (toLe n 2).map (·.toNat)
def b32 (n : Nat) : List Nat := (toLe n 4).map (·.toNat)
def b64 (n : Nat) : List Nat := (toLe n 8).map (·.toNat)
def asg (g own q prio : Nat) (d : Dev) : Dev := putL GPU_CTX_ASSIGN.MAX_PRIO g prio (putL GPU_CTX_ASSIGN.CLUSTER_MASK g 0xFF ((d.setF GPU_CTX_ASSIGN.OWNER g own).setF GPU_CTX_ASSIGN.QUEUE g q))
def w14 (x : GpuCtx) (op : Nat) (body : List Nat) (conts : List (List Byte) := []) (h : Dev → Dev := id) : State :=
  st fun d => h (queued (.pf 0) 1 { cmdOf op body with conts := conts } (asg 127 4 0 5 { d with gpu := { d.gpu with ctx := Tbl.put ([] : Tbl GpuCtx) 127 x } }))
theorem snd_of {α β : Type} {x : α × β} {y : β} (h : x.2 = y) : x = (x.1, y) := by
  rw [← h]

def comp (cs : Bool) : Pipe := { hash := [1,2], obj := 0x100000, len := 4, compute := cs, push := 0, targets := [], kib := 4, pin := false }
def cached14 (d : Dev) : Dev := { d with gpu := { d.gpu with cache := [⟨4,[1,2],4,false⟩] } }
def obj14 : List Byte := (b32 0x4C504F42 ++ [1,0,1,1] ++ b32 88 ++ b16 0 ++ b16 0 ++ List.replicate 16 0 ++ ([3,0,0,0] ++ b32 48 ++ b32 40 ++ b32 0) ++ List.replicate 40 7).map (BitVec.ofNat 8)
def mem14 (img : List Byte) (s : State) : State := owned 4 1 0x100000 (loaded 0x100000 img s)
def tgt14 : List Byte := (b64 0x200000 ++ b16 64 ++ [2,1,1,0,0,0] ++ List.replicate 16 0).map (BitVec.ofNat 8)
def p14 : PassSt := { targets := [], width := 8, height := 8, deadline := 0 }
def ref0 : CmdRef := ⟨qi (.pf 0) 0, 0⟩
def run14 (op : Nat) (x : GpuCtx) (h : Dev → Dev := id) (prio : Nat := 5) (body : List Nat := [127]) : State :=
  st fun d => h ((asg 127 4 0 prio (queued (.pf 0) 1 { cmdOf op body with phase := .running } { d with time := { d.time with ltime := 10^10 }, gpu := { d.gpu with ctx := Tbl.put ([] : Tbl GpuCtx) 127 { x with cmds := [(ref0, cmdOf op body)] }, clusters := Tbl.put ([] : Tbl ClusterSt) 7 { run := some 127, since := 10^10 - 10^6 } } })).setF GPU_CTX_STAT.PRIORITY 127 prio)
def step14 : GpuStep := { fault := false, prims := [], renders := [], tiles := [], groups := 2, accs := [] }
def clus (d : Dev) (k : Nat) (c : ClusterSt) : Dev := { d with gpu := { d.gpu with clusters := d.gpu.clusters.put k c } }
def sw14 (r : SwapReq) (h : Dev → Dev := id) : State := st fun d => h ((clus (queued (.pf 0) 7 { cmdOf 0xAA [] with phase := .running } d) 7 { swap := some r, run := some 5 }))
def roles (d : Dev) : Dev := ((List.range 8).foldl (fun (d : Dev) p => (d.setF GPU_SC_STAT.ROLE p 0).setF GPU_SC_STAT.LOGICAL p p) d).setF GPU_SC_STAT.ROLE 9 1 |>.setF GPU_SC_STAT.ROLE 8 2

def u1 : State := w14 {} 0x30 [127] [] (fun d => asg 127 4 1 5 d)
def u2 : State := w14 {} 0x31 [126] []
def u3 : State := w14 {} 0x32 [126] []
def u4 : State := w14 {} 0x33 [126] []
def u5 : State := w14 {} 0x34 [126] []
def u6 : State := w14 {} 0x35 [126] []
def u7 : State := w14 {} 0x36 [126] []
def u8 : State := w14 {} 0x30 ([127,0,7,0] ++ b16 9 ++ [8,0] ++ b64 0x10000 ++ b32 64 ++ b32 0 ++ b64 0)
def u9 : State := mem14 obj14 (w14 {} 0x31 ([127,0,0,0,0,0,0,0] ++ b64 0x100000))
def u10 : State := mem14 [1] (w14 {} 0x31 ([127,0,0,0,0,0,0,0] ++ b64 0x100000))
def u11 : State := w14 { pipes := Tbl.put ([] : Tbl (Option Pipe)) 255 (some (comp true)) } 0x32 [127,0,255]
def u12 : State := mem14 tgt14 (w14 { basketMib := 2 } 0x33 ([127,0,1,0] ++ b16 8 ++ b16 8 ++ b64 0x100000))
def u13 : State := w14 { pipes := Tbl.put ([] : Tbl (Option Pipe)) 255 (some (comp true)) } 0x36 ([127,0,255,0] ++ b32 1 ++ b32 65535 ++ b32 2) [] cached14
def u27 : State := mem14 ((b32 1 ++ b32 65536 ++ b32 2).map (BitVec.ofNat 8)) (w14 { pipes := Tbl.put ([] : Tbl (Option Pipe)) 255 (some (comp true)) } 0x36
  ([127,0,255,4] ++ b32 0 ++ b32 0 ++ b32 0 ++ b64 0 ++ b64 0x100000) [] cached14)
def u14 : State := w14 { pass := some p14, pipes := Tbl.put ([] : Tbl (Option Pipe)) 255 (some (comp false)) } 0x34 ([127,0,255,0] ++ b32 1 ++ b32 65535 ++ b32 2) [List.replicate 64 0] cached14
def u15 : State := w14 { pass := some p14 } 0x35 [127]

def u16 : State := run14 0x36 { active := true, todo := 2 }
def u18 : State := run14 0x36 { active := true } (fun d => d.setF GPU_SCHED_CTRL.TIMESLICE_US 0 1000)
def u19 : State := run14 0x36 { active := true, deadline := 10^10 + 10000, need := 2 }
def u21 : State := run14 0x31 { loading := some (comp true), pipes := (List.range 255).foldl (fun t k => Tbl.put t k (some (comp true))) ([] : Tbl (Option Pipe)) }
def u30 : State := st fun d => clus { (asg 126 0x10 0 7 d) with time := { d.time with ltime := 10^10 }, gpu := { d.gpu with ctx := d.gpu.ctx.put 126 { active := true, deadline := 10^10 } } } 7 { req := some 126 }

/-- The premises of each clause of `GraphicsCommandsJoinTheirContext` hold together. Left out: a premise on an opaque constant of Config, which no state settles. -/
theorem witness_GraphicsCommandsJoinTheirContext :
    (∃ (s : State) (f : Fn) (q : Fin 8) (c : Cmd) (g : Nat), g = c.u 32 2 % 128 ∧ s.Bare f q c ∧ s.dev.regsWf = true ∧ s.dev.tablesWf = true ∧ c.opcode = 0x30 ∧ (s.dev.ctxOwner g ≠ f.code ∨ s.dev.f GPU_CTX_ASSIGN.QUEUE g ≠ q.val)) ∧
    (∃ (s : State) (f : Fn) (q : Fin 8) (c : Cmd) (g : Nat), g = c.u 32 2 % 128 ∧ s.Bare f q c ∧ s.dev.regsWf = true ∧ s.dev.tablesWf = true ∧ c.opcode = 0x31 ∧ (s.dev.ctxOwner g ≠ f.code ∨ s.dev.f GPU_CTX_ASSIGN.QUEUE g ≠ q.val)) ∧
    (∃ (s : State) (f : Fn) (q : Fin 8) (c : Cmd) (g : Nat), g = c.u 32 2 % 128 ∧ s.Bare f q c ∧ s.dev.regsWf = true ∧ s.dev.tablesWf = true ∧ c.opcode = 0x32 ∧ (s.dev.ctxOwner g ≠ f.code ∨ s.dev.f GPU_CTX_ASSIGN.QUEUE g ≠ q.val)) ∧
    (∃ (s : State) (f : Fn) (q : Fin 8) (c : Cmd) (g : Nat), g = c.u 32 2 % 128 ∧ s.Bare f q c ∧ s.dev.regsWf = true ∧ s.dev.tablesWf = true ∧ c.opcode = 0x33 ∧ (s.dev.ctxOwner g ≠ f.code ∨ s.dev.f GPU_CTX_ASSIGN.QUEUE g ≠ q.val)) ∧
    (∃ (s : State) (f : Fn) (q : Fin 8) (c : Cmd) (g : Nat), g = c.u 32 2 % 128 ∧ s.Bare f q c ∧ s.dev.regsWf = true ∧ s.dev.tablesWf = true ∧ c.opcode = 0x34 ∧ (s.dev.ctxOwner g ≠ f.code ∨ s.dev.f GPU_CTX_ASSIGN.QUEUE g ≠ q.val)) ∧
    (∃ (s : State) (f : Fn) (q : Fin 8) (c : Cmd) (g : Nat), g = c.u 32 2 % 128 ∧ s.Bare f q c ∧ s.dev.regsWf = true ∧ s.dev.tablesWf = true ∧ c.opcode = 0x35 ∧ (s.dev.ctxOwner g ≠ f.code ∨ s.dev.f GPU_CTX_ASSIGN.QUEUE g ≠ q.val)) ∧
    (∃ (s : State) (f : Fn) (q : Fin 8) (c : Cmd) (g : Nat), g = c.u 32 2 % 128 ∧ s.Bare f q c ∧ s.dev.regsWf = true ∧ s.dev.tablesWf = true ∧ c.opcode = 0x36 ∧ (s.dev.ctxOwner g ≠ f.code ∨ s.dev.f GPU_CTX_ASSIGN.QUEUE g ≠ q.val)) ∧
    (∃ (s : State) (f : Fn) (q : Fin 8) (c : Cmd) (g : Nat) (ref : CmdRef) (u : State), g = c.u 32 2 % 128 ∧ ref = ⟨qi f q, c.id⟩ ∧ u = (s.started f q c).onDev (fun d => d.updCtx g fun x => { x with cmds := x.cmds ++ [(ref, c)] }) ∧ s.Bare f q c ∧ s.dev.regsWf = true ∧ s.dev.tablesWf = true ∧ s.dev.ctxOwner g = f.code ∧ s.dev.f GPU_CTX_ASSIGN.QUEUE g = q.val ∧ s.dev.vfHeld f.code = false ∧ (s.dev.gctx g).cmds = [] ∧ (s.dev.gctx g).active = false ∧ (s.dev.gctx g).loading = none ∧ c.status = 0 ∧ c.opcode = 0x30 ∧ u.dev.ctxSetErr g c = none) ∧
    (∃ (s : State) (f : Fn) (q : Fin 8) (c : Cmd) (g : Nat), g = c.u 32 2 % 128 ∧ s.Bare f q c ∧ s.dev.regsWf = true ∧ s.dev.tablesWf = true ∧ s.dev.ctxOwner g = f.code ∧ s.dev.f GPU_CTX_ASSIGN.QUEUE g = q.val ∧ s.dev.vfHeld f.code = false ∧ (s.dev.gctx g).cmds = [] ∧ (s.dev.gctx g).active = false ∧ (s.dev.gctx g).loading = none ∧ c.status = 0 ∧ s.dev.stopped g = false ∧ c.opcode = 0x31) ∧
    (∃ (s : State) (f : Fn) (q : Fin 8) (c : Cmd) (g : Nat) (ref : CmdRef) (u : State) (st res : Nat), g = c.u 32 2 % 128 ∧ ref = ⟨qi f q, c.id⟩ ∧ u = (s.started f q c).onDev (fun d => d.updCtx g fun x => { x with cmds := x.cmds ++ [(ref, c)] }) ∧ s.Bare f q c ∧ s.dev.regsWf = true ∧ s.dev.tablesWf = true ∧ s.dev.ctxOwner g = f.code ∧ s.dev.f GPU_CTX_ASSIGN.QUEUE g = q.val ∧ s.dev.vfHeld f.code = false ∧ (s.dev.gctx g).cmds = [] ∧ (s.dev.gctx g).active = false ∧ (s.dev.gctx g).loading = none ∧ c.status = 0 ∧ s.dev.stopped g = false ∧ c.opcode = 0x31 ∧ (u.pipeLoad g c).2 = .inr (st, res)) ∧
    (∃ (s : State) (f : Fn) (q : Fin 8) (c : Cmd) (g : Nat) (ref : CmdRef) (u : State), g = c.u 32 2 % 128 ∧ ref = ⟨qi f q, c.id⟩ ∧ u = (s.started f q c).onDev (fun d => d.updCtx g fun x => { x with cmds := x.cmds ++ [(ref, c)] }) ∧ s.Bare f q c ∧ s.dev.regsWf = true ∧ s.dev.tablesWf = true ∧ s.dev.ctxOwner g = f.code ∧ s.dev.f GPU_CTX_ASSIGN.QUEUE g = q.val ∧ s.dev.vfHeld f.code = false ∧ (s.dev.gctx g).cmds = [] ∧ (s.dev.gctx g).active = false ∧ (s.dev.gctx g).loading = none ∧ c.status = 0 ∧ s.dev.stopped g = false ∧ c.opcode = 0x32 ∧ firstError (u.dev.gpuHead g c ++ [(!c.conts.isEmpty, ST_BAD_FIELD, errAt 32), (!c.zero 35 63, ST_BAD_FIELD, errByte 35), (((s.dev.gctx g).pipes.get (c.u 34 1)).isNone, ST_BAD_FIELD, errByte 34)]) = none) ∧
    (∃ (s : State) (f : Fn) (q : Fin 8) (c : Cmd) (g : Nat) (ref : CmdRef) (u : State) (raw : _), g = c.u 32 2 % 128 ∧ ref = ⟨qi f q, c.id⟩ ∧ u = (s.started f q c).onDev (fun d => d.updCtx g fun x => { x with cmds := x.cmds ++ [(ref, c)] }) ∧ s.Bare f q c ∧ s.dev.regsWf = true ∧ s.dev.tablesWf = true ∧ s.dev.ctxOwner g = f.code ∧ s.dev.f GPU_CTX_ASSIGN.QUEUE g = q.val ∧ s.dev.vfHeld f.code = false ∧ (s.dev.gctx g).cmds = [] ∧ (s.dev.gctx g).active = false ∧ (s.dev.gctx g).loading = none ∧ c.status = 0 ∧ s.dev.stopped g = false ∧ c.opcode = 0x33 ∧ u.dev.passFieldErr g c = none ∧ (u.readMem (u.dev.gpuReq g) 4 (c.u 40 8) (32 * c.u 34 1)).2 = .ok raw ∧ u.dev.targetErr g c raw = none) ∧
    (∃ (s : State) (f : Fn) (q : Fin 8) (c : Cmd) (g : Nat) (ref : CmdRef) (u : State) (p : Pipe) (v : State) (w : State) (ds : List Nat) (tbl : List ResEntry), g = c.u 32 2 % 128 ∧ ref = ⟨qi f q, c.id⟩ ∧ u = (s.started f q c).onDev (fun d => d.updCtx g fun x => { x with cmds := x.cmds ++ [(ref, c)] }) ∧ v = u.onDev (·.cachePut f.code p) ∧ v.dispatchDims g c = (w, none, ds) ∧ s.Bare f q c ∧ s.dev.regsWf = true ∧ s.dev.tablesWf = true ∧ s.dev.ctxOwner g = f.code ∧ s.dev.f GPU_CTX_ASSIGN.QUEUE g = q.val ∧ s.dev.vfHeld f.code = false ∧ (s.dev.gctx g).cmds = [] ∧ (s.dev.gctx g).active = false ∧ (s.dev.gctx g).loading = none ∧ c.status = 0 ∧ s.dev.stopped g = false ∧ c.opcode = 0x36 ∧ u.dev.dispatchErr g c = none ∧ (s.dev.gctx g).pipes.get (c.u 34 1) = some p ∧ s.dev.cached f.code p = true ∧ (∀ n ∈ ds, 1 ≤ n ∧ n ≤ 65535) ∧ (w.readTable g (c.u 48 8) p.setSize).2 = (none, tbl)) ∧
    (∃ (s : State) (f : Fn) (q : Fin 8) (c : Cmd) (g : Nat) (ref : CmdRef) (u : State) (p : Pipe) (v : State) (w : State) (ds : List Nat), g = c.u 32 2 % 128 ∧ ref = ⟨qi f q, c.id⟩ ∧ u = (s.started f q c).onDev (fun d => d.updCtx g fun x => { x with cmds := x.cmds ++ [(ref, c)] }) ∧ v = u.onDev (·.cachePut f.code p) ∧ v.dispatchDims g c = (w, none, ds) ∧ s.Bare f q c ∧ s.dev.regsWf = true ∧ s.dev.tablesWf = true ∧ s.dev.ctxOwner g = f.code ∧ s.dev.f GPU_CTX_ASSIGN.QUEUE g = q.val ∧ s.dev.vfHeld f.code = false ∧ (s.dev.gctx g).cmds = [] ∧ (s.dev.gctx g).active = false ∧ (s.dev.gctx g).loading = none ∧ c.status = 0 ∧ s.dev.stopped g = false ∧ c.opcode = 0x36 ∧ u.dev.dispatchErr g c = none ∧ (s.dev.gctx g).pipes.get (c.u 34 1) = some p ∧ s.dev.cached f.code p = true ∧ (∃ n ∈ ds, n = 0 ∨ 65535 < n)) ∧
    (∃ (s : State) (f : Fn) (q : Fin 8) (c : Cmd) (g : Nat) (ref : CmdRef) (u : State) (p : _), g = c.u 32 2 % 128 ∧ ref = ⟨qi f q, c.id⟩ ∧ u = (s.started f q c).onDev (fun d => d.updCtx g fun x => { x with cmds := x.cmds ++ [(ref, c)] }) ∧ s.Bare f q c ∧ s.dev.regsWf = true ∧ s.dev.tablesWf = true ∧ s.dev.ctxOwner g = f.code ∧ s.dev.f GPU_CTX_ASSIGN.QUEUE g = q.val ∧ s.dev.vfHeld f.code = false ∧ (s.dev.gctx g).cmds = [] ∧ (s.dev.gctx g).active = false ∧ (s.dev.gctx g).loading = none ∧ c.status = 0 ∧ s.dev.stopped g = false ∧ c.opcode = 0x34 ∧ u.dev.drawErr g c = none ∧ (s.dev.gctx g).pipes.get (c.u 34 1) = some p ∧ s.dev.cached f.code p = true) ∧
    (∃ (s : State) (f : Fn) (q : Fin 8) (c : Cmd) (g : Nat) (ref : CmdRef) (u : State), g = c.u 32 2 % 128 ∧ ref = ⟨qi f q, c.id⟩ ∧ u = (s.started f q c).onDev (fun d => d.updCtx g fun x => { x with cmds := x.cmds ++ [(ref, c)] }) ∧ s.Bare f q c ∧ s.dev.regsWf = true ∧ s.dev.tablesWf = true ∧ s.dev.ctxOwner g = f.code ∧ s.dev.f GPU_CTX_ASSIGN.QUEUE g = q.val ∧ s.dev.vfHeld f.code = false ∧ (s.dev.gctx g).cmds = [] ∧ (s.dev.gctx g).active = false ∧ (s.dev.gctx g).loading = none ∧ c.status = 0 ∧ s.dev.stopped g = false ∧ c.opcode = 0x35 ∧ u.dev.passEndErr g c = none) ∧
    (∃ (s : State) (k : Fin 8) (g : Fin 128) (st : GpuStep) (ref : CmdRef) (c : Cmd), s.dev.Running ref ∧ s.dev.regsWf = true ∧ s.dev.tablesWf = true ∧ (s.dev.cluster k.val).run = some g.val ∧ (s.dev.gctx g.val).cmds = [(ref, c)] ∧ (s.dev.gctx g.val).active = true ∧
      s.dev.stopped g.val = false ∧ s.dev.ctxHalted g.val = false ∧ c.opcode = 0x36 ∧ st.fault = false ∧ st.accs = [] ∧ (s.dev.gctx g.val).todo ≤ st.groups) ∧
    (∃ (s : State) (k : Fin 8) (g : Fin 128), s.dev.regsWf = true ∧ s.dev.tablesWf = true ∧ (s.dev.cluster k.val).run = some g.val ∧ (s.dev.cluster k.val).since + 1000 * s.dev.timeslice ≤ s.dev.now) ∧
    (∃ (s : State) (g : Fin 128), s.dev.regsWf = true ∧ s.dev.tablesWf = true ∧ s.dev.ctxReady g.val = true ∧ (s.dev.gctx g.val).deadline ≠ 0 ∧ (s.dev.gctx g.val).fired = false ∧ (s.dev.gctx g.val).deadline ≤ s.dev.now + 1000 * (s.dev.gctx g.val).guard) ∧
    (∃ (s : State) (k : Fin 8) (g : Fin 128), s.dev.regsWf = true ∧ s.dev.tablesWf = true ∧ s.dev.ctxReady g.val = true ∧ (s.dev.gctx g.val).deadline ≠ 0 ∧ (s.dev.gctx g.val).deadline ≤ s.dev.now ∧ s.dev.holdsClusters g.val = [] ∧
      (∀ j < 8, (s.dev.cluster j).req = some g.val → j = k.val) ∧ (s.dev.cluster k.val).req = some g.val ∧ (s.dev.cluster k.val).run = none ∧ bit (s.dev.ctxMask g.val) k.val = true ∧ s.dev.levelFits k.val g.val = true) ∧
    (∃ (s : State) (g : Fin 128) (p : Pipe) (ref : CmdRef) (c : Cmd) (h : Nat), s.dev.Running ref ∧ s.dev.regsWf = true ∧ s.dev.tablesWf = true ∧ (s.dev.gctx g.val).loading = some p ∧ (s.dev.gctx g.val).cmds = [(ref, c)] ∧ p.pin = false ∧ p.kib ≤ 1024 ∧
      ((List.range 256).find? fun h => ((s.dev.gctx g.val).pipes.get h).isNone) = some h) :=
  ⟨⟨u1, .pf 0, 0, inner u1 (Fn.pf 0), (inner u1 (Fn.pf 0)).u 32 2 % 128, rfl, bare_of (by decide +kernel), by decide +kernel⟩,
   ⟨u2, .pf 0, 0, inner u2 (Fn.pf 0), (inner u2 (Fn.pf 0)).u 32 2 % 128, rfl, bare_of (by decide +kernel), by decide +kernel⟩,
   ⟨u3, .pf 0, 0, inner u3 (Fn.pf 0), (inner u3 (Fn.pf 0)).u 32 2 % 128, rfl, bare_of (by decide +kernel), by decide +kernel⟩,
   ⟨u4, .pf 0, 0, inner u4 (Fn.pf 0), (inner u4 (Fn.pf 0)).u 32 2 % 128, rfl, bare_of (by decide +kernel), by decide +kernel⟩,
   ⟨u5, .pf 0, 0, inner u5 (Fn.pf 0), (inner u5 (Fn.pf 0)).u 32 2 % 128, rfl, bare_of (by decide +kernel), by decide +kernel⟩,
   ⟨u6, .pf 0, 0, inner u6 (Fn.pf 0), (inner u6 (Fn.pf 0)).u 32 2 % 128, rfl, bare_of (by decide +kernel), by decide +kernel⟩,
   ⟨u7, .pf 0, 0, inner u7 (Fn.pf 0), (inner u7 (Fn.pf 0)).u 32 2 % 128, rfl, bare_of (by decide +kernel), by decide +kernel⟩,
   ⟨u8, .pf 0, 0, inner u8 (Fn.pf 0), (inner u8 (Fn.pf 0)).u 32 2 % 128, ⟨qi (Fn.pf 0) (0), (inner u8 (Fn.pf 0)).id⟩, (u8.started (Fn.pf 0) (0) (inner u8 (Fn.pf 0))).onDev (fun d => d.updCtx ((inner u8 (Fn.pf 0)).u 32 2 % 128) fun x => { x with cmds := x.cmds ++ [(⟨qi (Fn.pf 0) (0), (inner u8 (Fn.pf 0)).id⟩, (inner u8 (Fn.pf 0)))] }), rfl, rfl, rfl, bare_of (by decide +kernel), by decide +kernel⟩,
   ⟨u9, .pf 0, 0, inner u9 (Fn.pf 0), (inner u9 (Fn.pf 0)).u 32 2 % 128, rfl, bare_of (by decide +kernel), by decide +kernel⟩,
   ⟨u10, .pf 0, 0, inner u10 (Fn.pf 0), (inner u10 (Fn.pf 0)).u 32 2 % 128, ⟨qi (Fn.pf 0) (0), (inner u10 (Fn.pf 0)).id⟩, (u10.started (Fn.pf 0) (0) (inner u10 (Fn.pf 0))).onDev (fun d => d.updCtx ((inner u10 (Fn.pf 0)).u 32 2 % 128) fun x => { x with cmds := x.cmds ++ [(⟨qi (Fn.pf 0) (0), (inner u10 (Fn.pf 0)).id⟩, (inner u10 (Fn.pf 0)))] }), ST_BAD_FIELD, errAt 0xFFFF, rfl, rfl, rfl, bare_of (by decide +kernel), by decide +kernel⟩,
   ⟨u11, .pf 0, 0, inner u11 (Fn.pf 0), (inner u11 (Fn.pf 0)).u 32 2 % 128, ⟨qi (Fn.pf 0) (0), (inner u11 (Fn.pf 0)).id⟩, (u11.started (Fn.pf 0) (0) (inner u11 (Fn.pf 0))).onDev (fun d => d.updCtx ((inner u11 (Fn.pf 0)).u 32 2 % 128) fun x => { x with cmds := x.cmds ++ [(⟨qi (Fn.pf 0) (0), (inner u11 (Fn.pf 0)).id⟩, (inner u11 (Fn.pf 0)))] }), rfl, rfl, rfl, bare_of (by decide +kernel), by decide +kernel⟩,
   ⟨u12, .pf 0, 0, inner u12 (Fn.pf 0), (inner u12 (Fn.pf 0)).u 32 2 % 128, ⟨qi (Fn.pf 0) (0), (inner u12 (Fn.pf 0)).id⟩, (u12.started (Fn.pf 0) (0) (inner u12 (Fn.pf 0))).onDev (fun d => d.updCtx ((inner u12 (Fn.pf 0)).u 32 2 % 128) fun x => { x with cmds := x.cmds ++ [(⟨qi (Fn.pf 0) (0), (inner u12 (Fn.pf 0)).id⟩, (inner u12 (Fn.pf 0)))] }), tgt14, rfl, rfl, rfl, bare_of (by decide +kernel), by decide +kernel⟩,
   ⟨u13, .pf 0, 0, inner u13 (Fn.pf 0), (inner u13 (Fn.pf 0)).u 32 2 % 128, ⟨qi (Fn.pf 0) (0), (inner u13 (Fn.pf 0)).id⟩, ((u13.started (Fn.pf 0) (0) (inner u13 (Fn.pf 0))).onDev (fun d => d.updCtx ((inner u13 (Fn.pf 0)).u 32 2 % 128) fun x => { x with cmds := x.cmds ++ [(⟨qi (Fn.pf 0) (0), (inner u13 (Fn.pf 0)).id⟩, (inner u13 (Fn.pf 0)))] })), comp true, (((u13.started (Fn.pf 0) (0) (inner u13 (Fn.pf 0))).onDev (fun d => d.updCtx ((inner u13 (Fn.pf 0)).u 32 2 % 128) fun x => { x with cmds := x.cmds ++ [(⟨qi (Fn.pf 0) (0), (inner u13 (Fn.pf 0)).id⟩, (inner u13 (Fn.pf 0)))] })).onDev (·.cachePut (Fn.pf 0).code (comp true))), ((((u13.started (Fn.pf 0) (0) (inner u13 (Fn.pf 0))).onDev (fun d => d.updCtx ((inner u13 (Fn.pf 0)).u 32 2 % 128) fun x => { x with cmds := x.cmds ++ [(⟨qi (Fn.pf 0) (0), (inner u13 (Fn.pf 0)).id⟩, (inner u13 (Fn.pf 0)))] })).onDev (·.cachePut (Fn.pf 0).code (comp true))).dispatchDims ((inner u13 (Fn.pf 0)).u 32 2 % 128) (inner u13 (Fn.pf 0))).1, [1, 65535, 2], [], rfl, rfl, rfl, rfl, snd_of (by decide +kernel), bare_of (by decide +kernel), by decide +kernel⟩,
   ⟨u27, .pf 0, 0, inner u27 (Fn.pf 0), (inner u27 (Fn.pf 0)).u 32 2 % 128, ⟨qi (Fn.pf 0) (0), (inner u27 (Fn.pf 0)).id⟩, ((u27.started (Fn.pf 0) (0) (inner u27 (Fn.pf 0))).onDev (fun d => d.updCtx ((inner u27 (Fn.pf 0)).u 32 2 % 128) fun x => { x with cmds := x.cmds ++ [(⟨qi (Fn.pf 0) (0), (inner u27 (Fn.pf 0)).id⟩, (inner u27 (Fn.pf 0)))] })), comp true, (((u27.started (Fn.pf 0) (0) (inner u27 (Fn.pf 0))).onDev (fun d => d.updCtx ((inner u27 (Fn.pf 0)).u 32 2 % 128) fun x => { x with cmds := x.cmds ++ [(⟨qi (Fn.pf 0) (0), (inner u27 (Fn.pf 0)).id⟩, (inner u27 (Fn.pf 0)))] })).onDev (·.cachePut (Fn.pf 0).code (comp true))), ((((u27.started (Fn.pf 0) (0) (inner u27 (Fn.pf 0))).onDev (fun d => d.updCtx ((inner u27 (Fn.pf 0)).u 32 2 % 128) fun x => { x with cmds := x.cmds ++ [(⟨qi (Fn.pf 0) (0), (inner u27 (Fn.pf 0)).id⟩, (inner u27 (Fn.pf 0)))] })).onDev (·.cachePut (Fn.pf 0).code (comp true))).dispatchDims ((inner u27 (Fn.pf 0)).u 32 2 % 128) (inner u27 (Fn.pf 0))).1, [1, 65536, 2], rfl, rfl, rfl, rfl, snd_of (by decide +kernel), bare_of (by decide +kernel), by decide +kernel⟩,
   ⟨u14, .pf 0, 0, inner u14 (Fn.pf 0), (inner u14 (Fn.pf 0)).u 32 2 % 128, ⟨qi (Fn.pf 0) (0), (inner u14 (Fn.pf 0)).id⟩, (u14.started (Fn.pf 0) (0) (inner u14 (Fn.pf 0))).onDev (fun d => d.updCtx ((inner u14 (Fn.pf 0)).u 32 2 % 128) fun x => { x with cmds := x.cmds ++ [(⟨qi (Fn.pf 0) (0), (inner u14 (Fn.pf 0)).id⟩, (inner u14 (Fn.pf 0)))] }), comp false, rfl, rfl, rfl, bare_of (by decide +kernel), by decide +kernel⟩,
   ⟨u15, .pf 0, 0, inner u15 (Fn.pf 0), (inner u15 (Fn.pf 0)).u 32 2 % 128, ⟨qi (Fn.pf 0) (0), (inner u15 (Fn.pf 0)).id⟩, (u15.started (Fn.pf 0) (0) (inner u15 (Fn.pf 0))).onDev (fun d => d.updCtx ((inner u15 (Fn.pf 0)).u 32 2 % 128) fun x => { x with cmds := x.cmds ++ [(⟨qi (Fn.pf 0) (0), (inner u15 (Fn.pf 0)).id⟩, (inner u15 (Fn.pf 0)))] }), rfl, rfl, rfl, bare_of (by decide +kernel), by decide +kernel⟩,
   ⟨u16, 7, 127, step14, ref0, cmdOf 0x36 [127], running_of (by decide +kernel), by decide +kernel⟩,
   ⟨u18, 7, 127, by decide +kernel⟩,
   ⟨u19, 127, by decide +kernel⟩,
   ⟨u30, 7, 126, by decide +kernel⟩,
   ⟨u21, 127, comp true, ref0, cmdOf 0x31 [127], 255, running_of (by decide +kernel), by decide +kernel⟩⟩

def body14 : List Nat := [127,0,0,0] ++ b32 1 ++ b32 1
def v14 (s : State) : State := s.onDev (fun d => ((d.ctxStep 127).ctxLatch 127).updCtx 127 fun x => { x with got := [] })
def u28 : State := run14 0x35 { active := true, pass := some p14 }
def u29 : State := run14 0x34 { active := true, pass := some p14, pipes := Tbl.put ([] : Tbl (Option Pipe)) 0 (some (comp false)) } id 5 body14
def u17 : State := run14 0x34 { active := true, pass := some p14, pipes := Tbl.put ([] : Tbl (Option Pipe)) 0 (some (comp false)) }
def u20 : State := run14 0x36 { active := true } (fun d => clus { (asg 126 0x10 0 7 d) with gpu := { d.gpu with ctx := d.gpu.ctx.put 126 { active := true, deadline := 10^10 } } } 7 { run := some 127, req := some 126 })
def u22 : State := run14 0x31 { loading := some { comp true with kib := 1025 } }
def u23 : State := sw14 ⟨2,some ref0,false⟩ roles
def use14 (k : Nat) : BenchUse := { kind := 2, resource := 7, spare := k }
/-- Cluster 7 stands on physical cluster 9; it moved there from its own or from 8. -/
def u24 (two : Bool) : State := sw14 ⟨2,some ref0,true⟩ fun d =>
  { ((roles d).setF GPU_SC_STAT.ROLE 7 2).setF GPU_SC_STAT.ROLE 9 0 |>.setF GPU_SC_STAT.LOGICAL 9 7 with mgt := { d.mgt with bench := if two then [use14 9, use14 8] else [use14 9] } }
def u25 : State := st fun d => asg 127 4 0 5 { d with gpu := { d.gpu with ctx := Tbl.put ([] : Tbl GpuCtx) 127 { need := 3 } } }
def u26 : State := run14 0x36 { active := true } (fun d => clus d 7 {})

/-- The premises of each clause of `ClustersRunAndEvict` hold together. -/
theorem witness_ClustersRunAndEvict :
    (∃ (s : State) (k : Fin 8) (st : GpuStep) (g : Nat) (ref : CmdRef) (c : Cmd) (v : State), s.dev.Running ref ∧ v = s.onDev (fun d => ((d.ctxStep g).ctxLatch g).updCtx g fun x => { x with got := [] }) ∧ s.dev.regsWf = true ∧ s.dev.tablesWf = true ∧ (s.dev.cluster k.val).run = some g ∧ (s.dev.gctx g).cmds = [(ref, c)] ∧ (s.dev.gctx g).active = true ∧
      s.dev.stopped g = false ∧ s.dev.ctxHalted g = false ∧ c.opcode = 0x36 ∧ st.fault = false ∧ st.accs = [] ∧ (s.dev.gctx g).todo ≤ st.groups) ∧
    (∃ (s : State) (k : Fin 8) (st : GpuStep) (g : Nat) (ref : CmdRef) (c : Cmd) (v : State), s.dev.Running ref ∧ v = s.onDev (fun d => ((d.ctxStep g).ctxLatch g).updCtx g fun x => { x with got := [] }) ∧ s.dev.regsWf = true ∧ s.dev.tablesWf = true ∧ (s.dev.cluster k.val).run = some g ∧ (s.dev.gctx g).cmds = [(ref, c)] ∧ (s.dev.gctx g).active = true ∧
      s.dev.stopped g = false ∧ s.dev.ctxHalted g = false ∧ c.opcode = 0x36 ∧ st.fault = false ∧ st.accs = [] ∧ st.groups < (s.dev.gctx g).todo) ∧
    (∃ (s : State) (k : Fin 8) (st : GpuStep) (g : Nat) (ref : CmdRef) (c : Cmd) (v : State) (p : PassSt) (pipe : Pipe) (args : List Nat) (res : List ResEntry) (w : State), s.dev.Running ref ∧ v = s.onDev (fun d => ((d.ctxStep g).ctxLatch g).updCtx g fun x => { x with got := [] }) ∧ v.drawArgs g c = (w, none, args) ∧ s.dev.regsWf = true ∧ s.dev.tablesWf = true ∧ (s.dev.cluster k.val).run = some g ∧ (s.dev.gctx g).cmds = [(ref, c)] ∧ (s.dev.gctx g).active = true ∧
      s.dev.stopped g = false ∧ s.dev.ctxHalted g = false ∧ c.opcode = 0x34 ∧ st.fault = false ∧
      st.accs = [] ∧ st.prims = [] ∧ (s.dev.gctx g).pass = some p ∧ (s.dev.gctx g).pipes.get (c.u 34 1) = some pipe ∧ (w.readTable g (c.u 56 8) pipe.setSize).2 = (none, res) ∧
      ((w.readTable g (c.u 56 8) pipe.setSize).1.drawFetch g c pipe args).2 = none) ∧
    (∃ (s : State) (k : Fin 8) (st : GpuStep) (g : Nat) (ref : CmdRef) (c : Cmd) (v : State), s.dev.Running ref ∧ v = s.onDev (fun d => ((d.ctxStep g).ctxLatch g).updCtx g fun x => { x with got := [] }) ∧ s.dev.regsWf = true ∧ s.dev.tablesWf = true ∧ (s.dev.cluster k.val).run = some g ∧ (s.dev.gctx g).cmds = [(ref, c)] ∧ (s.dev.gctx g).active = true ∧
      s.dev.stopped g = false ∧ s.dev.ctxHalted g = false ∧ c.opcode = 0x35 ∧ st.fault = false ∧ (v.passTiles g st).2 = (none, true)) ∧
    (∃ (s : State) (k : Fin 8) (st : GpuStep) (g : Nat) (ref : CmdRef) (c : Cmd) (v : State), s.dev.Running ref ∧ v = s.onDev (fun d => ((d.ctxStep g).ctxLatch g).updCtx g fun x => { x with got := [] }) ∧ s.dev.regsWf = true ∧ s.dev.tablesWf = true ∧ (s.dev.cluster k.val).run = some g ∧ (s.dev.gctx g).cmds = [(ref, c)] ∧ (s.dev.gctx g).active = true ∧
      s.dev.stopped g = false ∧ s.dev.ctxHalted g = false ∧ c.opcode = 0x34 ∧ st.fault = false ∧ (v.drawBin g c st).2 = some ST_TILE_OOM) ∧
    (∃ (s : State) (k : Fin 8) (st : GpuStep) (g : Nat) (ref : CmdRef) (c : Cmd) (v : State), s.dev.Running ref ∧ v = s.onDev (fun d => ((d.ctxStep g).ctxLatch g).updCtx g fun x => { x with got := [] }) ∧ s.dev.regsWf = true ∧ s.dev.tablesWf = true ∧ (s.dev.cluster k.val).run = some g ∧ (s.dev.gctx g).cmds = [(ref, c)] ∧ (s.dev.gctx g).active = true ∧
      s.dev.stopped g = false ∧ s.dev.ctxHalted g = false ∧ st.fault = true) ∧
    (∃ (x : GpuCtx) (p : PassSt) (n a : Nat) (p1 : PassSt), x.binPlace p n = some (a, p1) ∧ x.arenaBase ≤ a) ∧
    (∃ (x : GpuCtx) (p : PassSt) (n a : Nat) (p1 : PassSt), x.binPlace p n = some (a, p1) ∧ a < x.arenaBase) ∧
    (∃ (s : State) (k : Fin 8), s.dev.regsWf = true ∧ s.dev.tablesWf = true ∧ (s.dev.cluster k.val).run.isSome = true ∧ (s.dev.cluster k.val).since + 1000 * s.dev.timeslice ≤ s.dev.now) ∧
    (∃ (s : State) (g : Fin 128), s.dev.regsWf = true ∧ s.dev.tablesWf = true ∧ s.dev.ctxReady g.val = true ∧ (s.dev.gctx g.val).deadline ≠ 0 ∧ (s.dev.gctx g.val).fired = false ∧ (s.dev.gctx g.val).deadline ≤ s.dev.now + 1000 * (s.dev.gctx g.val).guard ∧
      (s.dev.holdsClusters g.val).length < s.dev.ctxNeed g.val) ∧
    (∃ (s : State) (g : Fin 128) (k h : Nat) (ref : CmdRef) (c : Cmd), s.dev.Running ref ∧ s.dev.regsWf = true ∧ s.dev.tablesWf = true ∧ k < 8 ∧ s.dev.ctxReady g.val = true ∧ (s.dev.gctx g.val).deadline ≠ 0 ∧ (s.dev.gctx g.val).deadline ≤ s.dev.now ∧ s.dev.holdsClusters g.val = [] ∧ (s.dev.cluster k).req = some g.val ∧ bit (s.dev.ctxMask g.val) k = true ∧ s.dev.levelFits k g.val = true ∧ (∀ j < 8, j ≠ k → (s.dev.cluster j).req ≠ some g.val) ∧ (s.dev.cluster k).run = some h ∧ h < 128 ∧ s.dev.noEvict h = false ∧ s.dev.stopped h = false ∧ (s.dev.gctx h).cmds = [(ref, c)]) ∧
    (∃ (s : State) (g : Fin 128) (p : Pipe) (ref : CmdRef) (c : Cmd) (h : Nat), s.dev.Running ref ∧ s.dev.regsWf = true ∧ s.dev.tablesWf = true ∧ (s.dev.gctx g.val).loading = some p ∧ (s.dev.gctx g.val).cmds = [(ref, c)] ∧ p.pin = false ∧ p.kib ≤ 1024 ∧ ((List.range 256).find? fun h => ((s.dev.gctx g.val).pipes.get h).isNone) = some h) ∧
    (∃ (s : State) (g : Fin 128) (p : Pipe) (ref : CmdRef) (c : Cmd), s.dev.Running ref ∧ s.dev.regsWf = true ∧ s.dev.tablesWf = true ∧ (s.dev.gctx g.val).loading = some p ∧ (s.dev.gctx g.val).cmds = [(ref, c)] ∧ p.pin = false ∧ 1024 < p.kib) ∧
    (∃ (s : State) (k : Fin 8) (r : SwapReq) (p : Nat), s.dev.regsWf = true ∧ s.dev.tablesWf = true ∧ (s.dev.cluster k.val).swap = some r ∧ r.back = false ∧ ((List.range 10).find? fun p => s.dev.f GPU_SC_STAT.ROLE p == 1) = some p ∧ s.dev.physOf k.val ≠ p) ∧
    (∃ (s : State) (k : Fin 8) (r : SwapReq) (p : Nat) (u : BenchUse), s.dev.regsWf = true ∧ s.dev.tablesWf = true ∧ (s.dev.cluster k.val).swap = some r ∧ r.back = true ∧
      (s.dev.mgt.bench.filter fun u => u.kind == 2 && u.resource == k.val) = [u] ∧ p = k.val ∧ s.dev.physOf k.val ≠ p) ∧
    (∃ (s : State) (k : Fin 8) (r : SwapReq) (p : Nat) (u u1 : BenchUse) (us : List BenchUse), s.dev.regsWf = true ∧ s.dev.tablesWf = true ∧ (s.dev.cluster k.val).swap = some r ∧ r.back = true ∧
      (s.dev.mgt.bench.filter fun u => u.kind == 2 && u.resource == k.val) = u :: u1 :: us ∧ p = u1.spare ∧ s.dev.physOf k.val ≠ p) ∧
    (∃ (s : State) (who : Fn) (g : Fin 128) (val : Word), s.dev.Accepts who .GPU_CTX_ASSIGN g.val val ∧ s.dev.regsWf = true ∧ s.dev.tablesWf = true ∧ assigner who = true ∧ s.dev.holdsClusters g.val = [] ∧ s.dev.mayGive who (s.dev.ctxOwner g.val) = true ∧ s.dev.mayGive who (GPU_CTX_ASSIGN.OWNER.get val) = true ∧ bit val.toNat 21 = false) ∧
    (∃ (s : State) (who : Fn) (g : Fin 128) (val : Word), s.dev.regsWf = true ∧ s.dev.tablesWf = true ∧ assigner who = true ∧ s.dev.holdsClusters g.val = [] ∧ (s.dev.mayGive who (s.dev.ctxOwner g.val) = false ∨ s.dev.mayGive who (GPU_CTX_ASSIGN.OWNER.get val) = false) ∧ GPU_CTX_ASSIGN.OWNER.get val ≠ s.dev.ctxOwner g.val) ∧
    (∃ (s : State) (who : Fn) (g : Fin 128) (val : Word), s.dev.Accepts who .GPU_CTX_ASSIGN g.val val ∧ s.dev.regsWf = true ∧ s.dev.tablesWf = true ∧ assigner who = true ∧ s.dev.holdsClusters g.val = [] ∧ s.dev.mayGive who (s.dev.ctxOwner g.val) = true ∧ s.dev.mayGive who (GPU_CTX_ASSIGN.OWNER.get val) = true ∧
      bit val.toNat 21 = true ∧ s.dev.secureCtx (GPU_CTX_ASSIGN.OWNER.get val) = true) :=
  ⟨⟨u16, 7, step14, 127, ref0, cmdOf 0x36 [127], v14 u16, running_of (by decide +kernel), rfl, by decide +kernel⟩,
   ⟨u16, 7, { step14 with groups := 1 }, 127, ref0, cmdOf 0x36 [127], v14 u16, running_of (by decide +kernel), rfl, by decide +kernel⟩,
   ⟨u17, 7, step14, 127, ref0, cmdOf 0x34 [127], v14 u17, p14, comp false, [0, 0, 0, 0, 0], [], ((v14 u17).drawArgs 127 (cmdOf 0x34 [127])).1, running_of (by decide +kernel), rfl, snd_of (by decide +kernel), by decide +kernel⟩,
   ⟨u28, 7, { step14 with tiles := [⟨0, []⟩] }, 127, ref0, cmdOf 0x35 [127], v14 u28, running_of (by decide +kernel), rfl, by decide +kernel⟩,
   ⟨u29, 7, { step14 with prims := [⟨[(0, [1])]⟩] }, 127, ref0, cmdOf 0x34 body14, v14 u29, running_of (by decide +kernel), rfl, by decide +kernel⟩,
   ⟨u16, 7, { step14 with fault := true }, 127, ref0, cmdOf 0x36 [127], v14 u16, running_of (by decide +kernel), rfl, by decide +kernel⟩,
   ⟨{ arenaBase := 0x1000, arenaKib := 1 }, p14, 1024, 0x1000, { p14 with arenaUsed := 1024 }, by decide +kernel⟩,
   ⟨{ arenaBase := 0x1000, basketMib := 1 }, p14, 16, 0, { p14 with basketUsed := 16 }, by decide +kernel⟩,
   ⟨u18, 7, by decide +kernel⟩,
   ⟨u19, 127, by decide +kernel⟩,
   ⟨u20, 126, 7, 127, ref0, cmdOf 0x36 [127], running_of (by decide +kernel), by decide +kernel⟩,
   ⟨u21, 127, comp true, ref0, cmdOf 0x31 [127], 255, running_of (by decide +kernel), by decide +kernel⟩,
   ⟨u22, 127, { comp true with kib := 1025 }, ref0, cmdOf 0x31 [127], running_of (by decide +kernel), by decide +kernel⟩,
   ⟨u23, 7, ⟨2,some ref0,false⟩, 9, by decide +kernel⟩,
   ⟨u24 false, 7, ⟨2,some ref0,true⟩, 7, use14 9, by decide +kernel⟩,
   ⟨u24 true, 7, ⟨2,some ref0,true⟩, 8, use14 9, use14 8, [], by decide +kernel⟩,
   ⟨u25, .pf 0, 127, 0xE010, accepts_of (by decide +kernel), by decide +kernel⟩,
   ⟨u26, .pf 1, 127, 0xE005, by decide +kernel⟩,
   ⟨u25, .sp0, 127, 0x20E001, accepts_of (by decide +kernel), by decide +kernel⟩⟩

end W14

namespace W15

def b16 (n : Nat) : List Nat := (toLe n 2).map (·.toNat)
def b32 (n : Nat) : List Nat := (toLe n 4).map (·.toNat)
def b64 (n : Nat) : List Nat := (toLe n 8).map (·.toNat)
def own15 (d : Dev) : Dev := putL CPE_CH_ASSIGN.OWNER 63 4 (putL CVU_ASSIGN.OWNER 7 4 d)
def cpB (fl a b n : Nat) : List Nat := [63, fl, 0, 0, 0, 0, 0, 0] ++ b64 a ++ b64 b ++ b64 n
def two (fl : Nat) : List Nat := [63, fl] ++ b16 3 ++ b32 5 ++ b64 0x100000 ++ b64 0x200000 ++ b32 64 ++ b32 8
def cvt : List Nat := [63, 0, 1, 2] ++ b16 3 ++ b16 2 ++ b64 0x100000 ++ b64 0x200000 ++ b16 64 ++ b16 32 ++ b32 0
def crcB : List Nat := [63, 0, 7, 0, 0, 0, 0, 0] ++ b64 0x100000 ++ b64 20 ++ b64 0
def job15 (op : Nat) (body : List Nat) : CpJob := { ref := ⟨qi (.pf 0) 0, 0⟩, cmd := cmdOf op body, code := 4 }
def run15 (op : Nat) (body : List Nat) (h : Dev → Dev := id) : State :=
  st fun d => h ((own15 (queued (.pf 0) 3 { cmdOf op body with phase := .running } { d with gpu := { d.gpu with chans := Tbl.put ([] : Tbl CpChan) 63 { run := some (job15 op body) } } })).setF CPE_CH_STAT.BUSY 63 1)
def busy15 (d : Dev) : Dev := own15 { d with gpu := { d.gpu with chans := Tbl.put ([] : Tbl CpChan) 63 { run := some (job15 0x60 []) } } }
def held15 (d : Dev) : Dev := own15 { d with own := { d.own with ceWorldHeld := Tbl.put ([] : Tbl (Option Word)) 3 (some 0x8001) } }
def tchImg (host : Bool) (bad : Option Nat) : List Byte :=
  let l := b32 1000 ++ b16 100 ++ [8, if host then 7 else 3, 2, 1, 1, 1] ++ b16 100 ++ b16 10 ++ b64 0x300000 ++ [4] ++ List.replicate 7 0 ++
    [1, 5, 2, 6, 0, 3] ++ List.replicate 58 0 ++ ([1,0,0,0] ++ b16 100 ++ b16 50 ++ b16 0 ++ b16 80 ++ b16 0 ++ [0,0]) ++
    ([2,0,5,1] ++ b16 100 ++ b16 50 ++ b16 0 ++ b16 80 ++ b16 0 ++ [0,0]) ++ List.replicate 480 0
  (match bad with | some k => l.set k 0xFF | none => l).map (BitVec.ofNat 8)
def mem15 (img : List Byte) (s : State) : State := owned 4 1 0x100000 (loaded 0x100000 img s)
def eng15 (x : TchEng) (state : Nat) (d : Dev) : Dev := ((putL TCH_TE_ASSIGN.OWNER 3 4 { d with tch := Tbl.put ([] : Tbl TchEng) 3 x }).setF TCH_TE_STAT.STATE 3 state).setF TCH_TE_STAT.CONFIGURED 3 1
def tc15 (op : Nat) (body : List Nat) (x : TchEng := {}) (state : Nat := 0) (f : Fn := .pf 0) (h : Dev → Dev := id) : State :=
  st fun d => h (queued f 5 (cmdOf op body) (eng15 x state d))
def scan15 (x : TchEng) (h : Dev → Dev := id) : State := owned 4 1 0x300000 (st fun d => h (eng15 { x with cfg := if x.cfg = [] then tchImg false none else x.cfg } 1 d))
def counts15 : ScanCounts := ⟨List.replicate 100 200, List.replicate 64 300, List.replicate 64 100⟩
def pt15 (st : PtState) (n deb : Nat) : Point := { st := st, n := n, kept := 100, base := 50, deb := deb }
def cfg15 : TchCfg := tchImg false none
def run1 (d : Dev) : Dev := queued (.pf 0) 5 { cmdOf 0x82 [3] with phase := .running } d

def u1 : State := bare (.pf 0) 3 0x60 (cpB 0 0x100000 0x100001 64) (own15)
def u2 : State := bare (.pf 0) 3 0x61 ((two 0).set 18 0x10) (own15)
def u3 : State := bare (.pf 0) 3 0x62 (cpB 0 0x100000 0 64) (id)
def u4 : State := bare (.pf 0) 3 0x63 (cvt.set 2 5) (own15)
def u5 : State := bare (.pf 0) 3 0x64 (crcB.set 2 8) (own15)
def u6 : State := bare (.pf 0) 3 0x60 (cpB 0 0x100000 0x100040 64) (own15)
def u7 : State := bare (.pf 0) 3 0x61 (two 0) (own15)
def u8 : State := bare (.pf 0) 3 0x62 (cpB 0 0x100000 64 0) (own15)
def u9 : State := bare (.pf 0) 3 0x63 cvt (own15)
def u10 : State := bare (.pf 0) 3 0x64 crcB (own15)
def u11 : State := bare (.pf 0) 3 0x60 (cpB 0 0x100000 0x100040 64) (busy15)
def u12 : State := bare (.pf 0) 3 0x61 (two 0) (busy15)
def u13 : State := bare (.pf 0) 3 0x62 (cpB 0 0x100000 64 0) (busy15)
def u14 : State := bare (.pf 0) 3 0x63 cvt (busy15)
def u15 : State := bare (.pf 0) 3 0x64 crcB (busy15)
def v0 : State := bare (.pf 0) 3 0x60 (cpB 0 0x100000 0x100040 64) held15
def v1 : State := bare (.pf 0) 3 0x61 (two 0) held15
def v2 : State := bare (.pf 0) 3 0x62 (cpB 0 0x100000 64 0) held15
def v3 : State := bare (.pf 0) 3 0x63 cvt held15
def v4 : State := bare (.pf 0) 3 0x64 crcB held15
def u16 : State := owned 4 1 0x100000 (run15 0x60 (cpB 0 0x100000 0x100040 64))
def u17 : State := run15 0x60 (cpB 0 0x100000 0x100040 64) (fun d => putL CNV_CE_PEER.SRC_EN 63 1 d)
def u18 : State := st fun d => own15 { d with gpu := { d.gpu with chans := Tbl.put ([] : Tbl CpChan) 63 { queue := [job15 0x60 []] } } } |> fun d => queued (.pf 0) 3 { cmdOf 0x60 [] with phase := .running } d
def u19 : State := run15 0x60 []
def u20 : State := st own15

/-- The premises of each clause of `CopyCommandsRunOnTheirChannels` hold together. -/
theorem witness_CopyCommandsRunOnTheirChannels :
    (∃ (s : State) (f : Fn) (q : Fin 8) (c : Cmd) (st res : Nat), s.Bare f q c ∧ s.dev.regsWf = true ∧ s.dev.tablesWf = true ∧ c.opcode = 0x60 ∧ s.dev.copyErr f c = some (st, res)) ∧
    (∃ (s : State) (f : Fn) (q : Fin 8) (c : Cmd) (st res : Nat), s.Bare f q c ∧ s.dev.regsWf = true ∧ s.dev.tablesWf = true ∧ c.opcode = 0x61 ∧ s.dev.copyErr f c = some (st, res)) ∧
    (∃ (s : State) (f : Fn) (q : Fin 8) (c : Cmd) (st res : Nat), s.Bare f q c ∧ s.dev.regsWf = true ∧ s.dev.tablesWf = true ∧ c.opcode = 0x62 ∧ s.dev.copyErr f c = some (st, res)) ∧
    (∃ (s : State) (f : Fn) (q : Fin 8) (c : Cmd) (st res : Nat), s.Bare f q c ∧ s.dev.regsWf = true ∧ s.dev.tablesWf = true ∧ c.opcode = 0x63 ∧ s.dev.copyErr f c = some (st, res)) ∧
    (∃ (s : State) (f : Fn) (q : Fin 8) (c : Cmd) (st res : Nat), s.Bare f q c ∧ s.dev.regsWf = true ∧ s.dev.tablesWf = true ∧ c.opcode = 0x64 ∧ s.dev.copyErr f c = some (st, res)) ∧
    (∃ (s : State) (f : Fn) (q : Fin 8) (c : Cmd), s.Bare f q c ∧ s.dev.regsWf = true ∧ s.dev.tablesWf = true ∧ c.opcode = 0x60 ∧ s.dev.copyErr f c = none ∧ s.dev.vfHeld f.code = false ∧ (s.dev.chan c.cpChan).run = none ∧ (s.dev.chan c.cpChan).queue = [] ∧ s.dev.chanWorldHeld (c.cpChan / 16) (c.cpChan % 16) = false ∧ (c.opcode = 0x64 → s.dev.fb CVU_CTRL.BUSY (c.u 34 1 % 8) = false)) ∧
    (∃ (s : State) (f : Fn) (q : Fin 8) (c : Cmd), s.Bare f q c ∧ s.dev.regsWf = true ∧ s.dev.tablesWf = true ∧ c.opcode = 0x61 ∧ s.dev.copyErr f c = none ∧ s.dev.vfHeld f.code = false ∧ (s.dev.chan c.cpChan).run = none ∧ (s.dev.chan c.cpChan).queue = [] ∧ s.dev.chanWorldHeld (c.cpChan / 16) (c.cpChan % 16) = false ∧ (c.opcode = 0x64 → s.dev.fb CVU_CTRL.BUSY (c.u 34 1 % 8) = false)) ∧
    (∃ (s : State) (f : Fn) (q : Fin 8) (c : Cmd), s.Bare f q c ∧ s.dev.regsWf = true ∧ s.dev.tablesWf = true ∧ c.opcode = 0x62 ∧ s.dev.copyErr f c = none ∧ s.dev.vfHeld f.code = false ∧ (s.dev.chan c.cpChan).run = none ∧ (s.dev.chan c.cpChan).queue = [] ∧ s.dev.chanWorldHeld (c.cpChan / 16) (c.cpChan % 16) = false ∧ (c.opcode = 0x64 → s.dev.fb CVU_CTRL.BUSY (c.u 34 1 % 8) = false)) ∧
    (∃ (s : State) (f : Fn) (q : Fin 8) (c : Cmd), s.Bare f q c ∧ s.dev.regsWf = true ∧ s.dev.tablesWf = true ∧ c.opcode = 0x63 ∧ s.dev.copyErr f c = none ∧ s.dev.vfHeld f.code = false ∧ (s.dev.chan c.cpChan).run = none ∧ (s.dev.chan c.cpChan).queue = [] ∧ s.dev.chanWorldHeld (c.cpChan / 16) (c.cpChan % 16) = false ∧ (c.opcode = 0x64 → s.dev.fb CVU_CTRL.BUSY (c.u 34 1 % 8) = false)) ∧
    (∃ (s : State) (f : Fn) (q : Fin 8) (c : Cmd), s.Bare f q c ∧ s.dev.regsWf = true ∧ s.dev.tablesWf = true ∧ c.opcode = 0x64 ∧ s.dev.copyErr f c = none ∧ s.dev.vfHeld f.code = false ∧ (s.dev.chan c.cpChan).run = none ∧ (s.dev.chan c.cpChan).queue = [] ∧ s.dev.chanWorldHeld (c.cpChan / 16) (c.cpChan % 16) = false ∧ (c.opcode = 0x64 → s.dev.fb CVU_CTRL.BUSY (c.u 34 1 % 8) = false)) ∧
    (∃ (s : State) (f : Fn) (q : Fin 8) (c : Cmd), s.Bare f q c ∧ s.dev.regsWf = true ∧ s.dev.tablesWf = true ∧ c.opcode = 0x60 ∧ s.dev.copyErr f c = none ∧ s.dev.vfHeld f.code = false ∧ (s.dev.chan c.cpChan).run.isSome = true ∧ ∀ j ∈ (s.dev.chan c.cpChan).queue, j.cmd.secure = s.dev.chanSecure (c.cpChan / 16) (c.cpChan % 16)) ∧
    (∃ (s : State) (f : Fn) (q : Fin 8) (c : Cmd), s.Bare f q c ∧ s.dev.regsWf = true ∧ s.dev.tablesWf = true ∧ c.opcode = 0x61 ∧ s.dev.copyErr f c = none ∧ s.dev.vfHeld f.code = false ∧ (s.dev.chan c.cpChan).run.isSome = true ∧ ∀ j ∈ (s.dev.chan c.cpChan).queue, j.cmd.secure = s.dev.chanSecure (c.cpChan / 16) (c.cpChan % 16)) ∧
    (∃ (s : State) (f : Fn) (q : Fin 8) (c : Cmd), s.Bare f q c ∧ s.dev.regsWf = true ∧ s.dev.tablesWf = true ∧ c.opcode = 0x62 ∧ s.dev.copyErr f c = none ∧ s.dev.vfHeld f.code = false ∧ (s.dev.chan c.cpChan).run.isSome = true ∧ ∀ j ∈ (s.dev.chan c.cpChan).queue, j.cmd.secure = s.dev.chanSecure (c.cpChan / 16) (c.cpChan % 16)) ∧
    (∃ (s : State) (f : Fn) (q : Fin 8) (c : Cmd), s.Bare f q c ∧ s.dev.regsWf = true ∧ s.dev.tablesWf = true ∧ c.opcode = 0x63 ∧ s.dev.copyErr f c = none ∧ s.dev.vfHeld f.code = false ∧ (s.dev.chan c.cpChan).run.isSome = true ∧ ∀ j ∈ (s.dev.chan c.cpChan).queue, j.cmd.secure = s.dev.chanSecure (c.cpChan / 16) (c.cpChan % 16)) ∧
    (∃ (s : State) (f : Fn) (q : Fin 8) (c : Cmd), s.Bare f q c ∧ s.dev.regsWf = true ∧ s.dev.tablesWf = true ∧ c.opcode = 0x64 ∧ s.dev.copyErr f c = none ∧ s.dev.vfHeld f.code = false ∧ (s.dev.chan c.cpChan).run.isSome = true ∧ ∀ j ∈ (s.dev.chan c.cpChan).queue, j.cmd.secure = s.dev.chanSecure (c.cpChan / 16) (c.cpChan % 16)) ∧
    (∃ (s : State) (f : Fn) (q : Fin 8) (c : Cmd), s.Bare f q c ∧ s.dev.regsWf = true ∧ s.dev.tablesWf = true ∧ c.opcode = 0x60 ∧ s.dev.copyErr f c = none ∧ s.dev.vfHeld f.code = false ∧ (s.dev.chan c.cpChan).run = none ∧ s.dev.chanWorldHeld (c.cpChan / 16) (c.cpChan % 16) = true) ∧
    (∃ (s : State) (f : Fn) (q : Fin 8) (c : Cmd), s.Bare f q c ∧ s.dev.regsWf = true ∧ s.dev.tablesWf = true ∧ c.opcode = 0x61 ∧ s.dev.copyErr f c = none ∧ s.dev.vfHeld f.code = false ∧ (s.dev.chan c.cpChan).run = none ∧ s.dev.chanWorldHeld (c.cpChan / 16) (c.cpChan % 16) = true) ∧
    (∃ (s : State) (f : Fn) (q : Fin 8) (c : Cmd), s.Bare f q c ∧ s.dev.regsWf = true ∧ s.dev.tablesWf = true ∧ c.opcode = 0x62 ∧ s.dev.copyErr f c = none ∧ s.dev.vfHeld f.code = false ∧ (s.dev.chan c.cpChan).run = none ∧ s.dev.chanWorldHeld (c.cpChan / 16) (c.cpChan % 16) = true) ∧
    (∃ (s : State) (f : Fn) (q : Fin 8) (c : Cmd), s.Bare f q c ∧ s.dev.regsWf = true ∧ s.dev.tablesWf = true ∧ c.opcode = 0x63 ∧ s.dev.copyErr f c = none ∧ s.dev.vfHeld f.code = false ∧ (s.dev.chan c.cpChan).run = none ∧ s.dev.chanWorldHeld (c.cpChan / 16) (c.cpChan % 16) = true) ∧
    (∃ (s : State) (f : Fn) (q : Fin 8) (c : Cmd), s.Bare f q c ∧ s.dev.regsWf = true ∧ s.dev.tablesWf = true ∧ c.opcode = 0x64 ∧ s.dev.copyErr f c = none ∧ s.dev.vfHeld f.code = false ∧ (s.dev.chan c.cpChan).run = none ∧ s.dev.chanWorldHeld (c.cpChan / 16) (c.cpChan % 16) = true) ∧
    (∃ (s : State) (e : Fin 4) (ch : Fin 16) (x : Nat) (j : CpJob), x = cpeIdx e.val ch.val ∧ s.dev.Running j.ref ∧ s.dev.regsWf = true ∧ s.dev.tablesWf = true ∧ (s.dev.chan x).run = some j ∧ (s.dev.chan x).queue = [] ∧ s.dev.f CPE_CH_ASSIGN.OWNER x = s.dev.cpOwner x ∧ s.dev.vfHeld j.code = false ∧ s.dev.cpSrcPeer x = none ∧ s.dev.cpDstPeer x = none ∧ j.cmd.srcHost = false ∧ 0x60 ≤ j.cmd.opcode ∧ j.cmd.opcode ≤ 0x64) ∧
    (∃ (s : State) (e : Fin 4) (ch : Fin 16) (peer : PeerReply) (x : Nat) (j : CpJob) (st : Nat), x = cpeIdx e.val ch.val ∧ s.dev.Running j.ref ∧ s.dev.regsWf = true ∧ s.dev.tablesWf = true ∧ (s.dev.chan x).run = some j ∧ (s.dev.chan x).queue = [] ∧ s.dev.f CPE_CH_ASSIGN.OWNER x = s.dev.cpOwner x ∧ s.dev.cpPeerFault x j.cmd peer = some st) ∧
    (∃ (s : State) (who : Fn) (e : Fin 4) (ch : Fin 16) (val : Word) (x new : Nat), x = cpeIdx e.val ch.val ∧ new = CPE_CH_ASSIGN.OWNER.get val ∧ s.dev.regsWf = true ∧ s.dev.tablesWf = true ∧ assigner who = true ∧ new ≠ s.dev.f CPE_CH_ASSIGN.OWNER x ∧ s.dev.mayGive who (s.dev.f CPE_CH_ASSIGN.OWNER x) = true ∧ s.dev.mayGive who new = true ∧ s.dev.fb CPE_CH_STAT.BUSY x = false ∧ new ≠ s.dev.cpOwner x) ∧
    (∃ (s : State) (who : Fn) (e : Fin 4) (ch : Fin 16) (val : Word) (x new : Nat), x = cpeIdx e.val ch.val ∧ new = CPE_CH_ASSIGN.OWNER.get val ∧ s.dev.regsWf = true ∧ s.dev.tablesWf = true ∧ assigner who = true ∧ new ≠ s.dev.f CPE_CH_ASSIGN.OWNER x ∧ s.dev.mayGive who (s.dev.f CPE_CH_ASSIGN.OWNER x) = true ∧ s.dev.mayGive who new = true ∧ s.dev.fb CPE_CH_STAT.BUSY x = true) ∧
    (∃ (s : State) (who : Fn) (e : Fin 4) (ch : Fin 16) (val : Word) (x new : Nat), x = cpeIdx e.val ch.val ∧ new = CPE_CH_ASSIGN.OWNER.get val ∧ s.dev.regsWf = true ∧ s.dev.tablesWf = true ∧ assigner who = true ∧ new ≠ s.dev.f CPE_CH_ASSIGN.OWNER x ∧ (s.dev.mayGive who (s.dev.f CPE_CH_ASSIGN.OWNER x) = false ∨ s.dev.mayGive who new = false)) ∧
    (∃ (s : State) (who : Fn) (g : Fin 128) (val : Word), s.dev.Accepts who .GPU_CTX_ASSIGN g.val val ∧ s.dev.regsWf = true ∧ s.dev.tablesWf = true ∧ assigner who = true ∧ s.dev.holdsClusters g.val = [] ∧ s.dev.mayGive who (s.dev.ctxOwner g.val) = true ∧ s.dev.mayGive who (GPU_CTX_ASSIGN.OWNER.get val) = true ∧ bit val.toNat 21 = false) :=
  ⟨⟨u1, .pf 0, 0, inner u1 (Fn.pf 0), ST_BAD_GEOMETRY, errByte 48, bare_of (by decide +kernel), by decide +kernel⟩,
   ⟨u2, .pf 0, 0, inner u2 (Fn.pf 0), ST_BAD_GEOMETRY, errByte 48, bare_of (by decide +kernel), by decide +kernel⟩,
   ⟨u3, .pf 0, 0, inner u3 (Fn.pf 0), ST_NOT_OWNER, errByte 32, bare_of (by decide +kernel), by decide +kernel⟩,
   ⟨u4, .pf 0, 0, inner u4 (Fn.pf 0), ST_BAD_FORMAT, errByte 34, bare_of (by decide +kernel), by decide +kernel⟩,
   ⟨u5, .pf 0, 0, inner u5 (Fn.pf 0), ST_NOT_OWNER, errByte 34, bare_of (by decide +kernel), by decide +kernel⟩,
   ⟨u6, .pf 0, 0, inner u6 (Fn.pf 0), bare_of (by decide +kernel), by decide +kernel⟩,
   ⟨u7, .pf 0, 0, inner u7 (Fn.pf 0), bare_of (by decide +kernel), by decide +kernel⟩,
   ⟨u8, .pf 0, 0, inner u8 (Fn.pf 0), bare_of (by decide +kernel), by decide +kernel⟩,
   ⟨u9, .pf 0, 0, inner u9 (Fn.pf 0), bare_of (by decide +kernel), by decide +kernel⟩,
   ⟨u10, .pf 0, 0, inner u10 (Fn.pf 0), bare_of (by decide +kernel), by decide +kernel⟩,
   ⟨u11, .pf 0, 0, inner u11 (Fn.pf 0), bare_of (by decide +kernel), by decide +kernel⟩,
   ⟨u12, .pf 0, 0, inner u12 (Fn.pf 0), bare_of (by decide +kernel), by decide +kernel⟩,
   ⟨u13, .pf 0, 0, inner u13 (Fn.pf 0), bare_of (by decide +kernel), by decide +kernel⟩,
   ⟨u14, .pf 0, 0, inner u14 (Fn.pf 0), bare_of (by decide +kernel), by decide +kernel⟩,
   ⟨u15, .pf 0, 0, inner u15 (Fn.pf 0), bare_of (by decide +kernel), by decide +kernel⟩,
   ⟨v0, .pf 0, 0, inner v0 (Fn.pf 0), bare_of (by decide +kernel), by decide +kernel⟩,
   ⟨v1, .pf 0, 0, inner v1 (Fn.pf 0), bare_of (by decide +kernel), by decide +kernel⟩,
   ⟨v2, .pf 0, 0, inner v2 (Fn.pf 0), bare_of (by decide +kernel), by decide +kernel⟩,
   ⟨v3, .pf 0, 0, inner v3 (Fn.pf 0), bare_of (by decide +kernel), by decide +kernel⟩,
   ⟨v4, .pf 0, 0, inner v4 (Fn.pf 0), bare_of (by decide +kernel), by decide +kernel⟩,
   ⟨u16, 3, 15, cpeIdx 3 15, job15 0x60 (cpB 0 0x100000 0x100040 64), rfl, running_of (by decide +kernel), by decide +kernel⟩,
   ⟨u17, 3, 15, ⟨[],false,false⟩, cpeIdx 3 15, job15 0x60 (cpB 0 0x100000 0x100040 64), ST_OWN_REFUSED, rfl, running_of (by decide +kernel), by decide +kernel⟩,
   ⟨u18, .pf 0, 3, 15, 0x10, cpeIdx 3 15, CPE_CH_ASSIGN.OWNER.get 0x10, rfl, rfl, by decide +kernel⟩,
   ⟨u19, .pf 0, 3, 15, 0x10, cpeIdx 3 15, CPE_CH_ASSIGN.OWNER.get 0x10, rfl, rfl, by decide +kernel⟩,
   ⟨u20, .pf 1, 3, 15, 5, cpeIdx 3 15, CPE_CH_ASSIGN.OWNER.get (5), rfl, rfl, by decide +kernel⟩,
   ⟨u20, .pf 0, 127, 0xE010, accepts_of (by decide +kernel), by decide +kernel⟩⟩

def u21 : State := tc15 0x80 [3,0,0,0,0,0,0,0,1]
def u22 : State := tc15 0x81 [3] {} 1
def u23 : State := tc15 0x82 [2]
def u24 : State := tc15 0x83 [3,1]
def u25 : State := mem15 (tchImg false (some 33)) (tc15 0x80 ([3,0,0,0,0,0,0,0] ++ b64 0x100000))
def u26 : State := mem15 (tchImg false none) (tc15 0x80 ([3,0,0,0,0,0,0,0] ++ b64 0x100000))
def u27 : State := mem15 (tchImg false none) (tc15 0x80 ([3,0,0,0,0,0,0,0] ++ b64 0x100000) {} 1)
def u28 : State := tc15 0x80 ([3,1,0,0,0,0,0,0] ++ b64 0x10000000000000)
def u29 : State := tc15 0x81 [3] { cfg := tchImg false none, pts := Tbl.put ([] : Tbl Point) 5 (pt15 .track 0 0) }
def u30 : State := tc15 0x82 [3] { cfg := tchImg false none }
def u31 : State := tc15 0x82 [3] { cfg := tchImg false none } 1
def u32 : State := tc15 0x83 ([3,0,0,0] ++ b32 0xFFFFFFFF) { cfg := tchImg false none, pts := Tbl.put ([] : Tbl Point) 965 (pt15 .touched 0 0) }
def u33 : State := tc15 0x83 ([3,0,0,0] ++ b32 0xFFFFFFFF) { cfg := tchImg false none } 1

/-- The premises of each clause of `TouchCommandsConfigureEngines` hold together. -/
theorem witness_TouchCommandsConfigureEngines :
    (∃ (s : State) (f : Fn) (q : Fin 8) (c : Cmd) (errs : List (Bool × Nat × Nat)) (st res : Nat), errs = [(decide (2 ≤ c.u 33 1) || (f == .sp0 && c.u 33 1 != 0), ST_BAD_FIELD, errByte 33), (!c.zero 34 39, ST_BAD_FIELD, errByte 34), (c.u 40 8 % 64 != 0, ST_BAD_FIELD, errByte 40), (!c.zero 48 63, ST_BAD_FIELD, errByte 48)] ∧ s.Bare f q c ∧ s.dev.regsWf = true ∧ s.dev.tablesWf = true ∧ c.opcode = 0x80 ∧ firstError (s.dev.tchHead f c ++ errs) = some (st, res)) ∧
    (∃ (s : State) (f : Fn) (q : Fin 8) (c : Cmd) (e : Nat) (errs : List (Bool × Nat × Nat)) (st res : Nat), e = c.u 32 1 % 4 ∧ errs = [(!c.zero 33 63, ST_BAD_FIELD, errByte 33), (!s.dev.fb TCH_TE_STAT.CONFIGURED e, ST_BAD_FIELD, errByte 32), (s.dev.tchState e != 0, ST_BUSY, errByte 32)] ∧ s.Bare f q c ∧ s.dev.regsWf = true ∧ s.dev.tablesWf = true ∧ c.opcode = 0x81 ∧ firstError (s.dev.tchHead f c ++ errs) = some (st, res)) ∧
    (∃ (s : State) (f : Fn) (q : Fin 8) (c : Cmd) (errs : List (Bool × Nat × Nat)) (st res : Nat), errs = [(!c.zero 33 63, ST_BAD_FIELD, errByte 33)] ∧ s.Bare f q c ∧ s.dev.regsWf = true ∧ s.dev.tablesWf = true ∧ c.opcode = 0x82 ∧ firstError (s.dev.tchHead f c ++ errs) = some (st, res)) ∧
    (∃ (s : State) (f : Fn) (q : Fin 8) (c : Cmd) (errs : List (Bool × Nat × Nat)) (st res : Nat), errs = [(!c.zero 33 35, ST_BAD_FIELD, errByte 33), (!c.zero 40 63, ST_BAD_FIELD, errByte 40)] ∧ s.Bare f q c ∧ s.dev.regsWf = true ∧ s.dev.tablesWf = true ∧ c.opcode = 0x83 ∧ firstError (s.dev.tchHead f c ++ errs) = some (st, res)) ∧
    (∃ (s : State) (f : Fn) (q : Fin 8) (c : Cmd) (errs : List (Bool × Nat × Nat)) (img : List Byte) (k : _), errs = [(decide (2 ≤ c.u 33 1) || (f == .sp0 && c.u 33 1 != 0), ST_BAD_FIELD, errByte 33), (!c.zero 34 39, ST_BAD_FIELD, errByte 34), (c.u 40 8 % 64 != 0, ST_BAD_FIELD, errByte 40), (!c.zero 48 63, ST_BAD_FIELD, errByte 48)] ∧ s.Bare f q c ∧ s.dev.regsWf = true ∧ s.dev.tablesWf = true ∧ c.opcode = 0x80 ∧ firstError (s.dev.tchHead f c ++ errs) = none ∧ c.opcode = 0x80 ∧ c.u 33 1 = 0 ∧ ((s.started f q c).readMem ⟨f.code, c.secure⟩ 13 (c.u 40 8) 608).2 = .ok img ∧ TchCfg.fault img = some k) ∧
    (∃ (s : State) (f : Fn) (q : Fin 8) (c : Cmd) (e : Nat) (errs : List (Bool × Nat × Nat)) (img : List Byte), e = c.u 32 1 % 4 ∧ errs = [(decide (2 ≤ c.u 33 1) || (f == .sp0 && c.u 33 1 != 0), ST_BAD_FIELD, errByte 33), (!c.zero 34 39, ST_BAD_FIELD, errByte 34), (c.u 40 8 % 64 != 0, ST_BAD_FIELD, errByte 40), (!c.zero 48 63, ST_BAD_FIELD, errByte 48)] ∧ s.Bare f q c ∧ s.dev.regsWf = true ∧ s.dev.tablesWf = true ∧ c.opcode = 0x80 ∧ firstError (s.dev.tchHead f c ++ errs) = none ∧ c.opcode = 0x80 ∧ c.u 33 1 = 0 ∧ ((s.started f q c).readMem ⟨f.code, c.secure⟩ 13 (c.u 40 8) 608).2 = .ok img ∧ TchCfg.fault img = none ∧ if TchCfg.ringHost img then f ≠ .sp0 else s.dev.inDevice (le img 16 8) (le img 16 8 + 32 * TchCfg.ringSize img - 1) = true ∧ s.dev.tchState e = 0) ∧
    (∃ (s : State) (f : Fn) (q : Fin 8) (c : Cmd) (e : Nat) (errs : List (Bool × Nat × Nat)) (img : List Byte), e = c.u 32 1 % 4 ∧ errs = [(decide (2 ≤ c.u 33 1) || (f == .sp0 && c.u 33 1 != 0), ST_BAD_FIELD, errByte 33), (!c.zero 34 39, ST_BAD_FIELD, errByte 34), (c.u 40 8 % 64 != 0, ST_BAD_FIELD, errByte 40), (!c.zero 48 63, ST_BAD_FIELD, errByte 48)] ∧ s.Bare f q c ∧ s.dev.regsWf = true ∧ s.dev.tablesWf = true ∧ c.opcode = 0x80 ∧ firstError (s.dev.tchHead f c ++ errs) = none ∧ c.opcode = 0x80 ∧ c.u 33 1 = 0 ∧ ((s.started f q c).readMem ⟨f.code, c.secure⟩ 13 (c.u 40 8) 608).2 = .ok img ∧ TchCfg.fault img = none ∧ if TchCfg.ringHost img then f ≠ .sp0 else s.dev.inDevice (le img 16 8) (le img 16 8 + 32 * TchCfg.ringSize img - 1) = true ∧ s.dev.tchState e ≠ 0) ∧
    (∃ (s : State) (f : Fn) (q : Fin 8) (c : Cmd) (errs : List (Bool × Nat × Nat)), errs = [(decide (2 ≤ c.u 33 1) || (f == .sp0 && c.u 33 1 != 0), ST_BAD_FIELD, errByte 33), (!c.zero 34 39, ST_BAD_FIELD, errByte 34), (c.u 40 8 % 64 != 0, ST_BAD_FIELD, errByte 40), (!c.zero 48 63, ST_BAD_FIELD, errByte 48)] ∧ s.Bare f q c ∧ s.dev.regsWf = true ∧ s.dev.tablesWf = true ∧ c.opcode = 0x80 ∧ firstError (s.dev.tchHead f c ++ errs) = none ∧ c.opcode = 0x80 ∧ c.u 33 1 = 1) ∧
    (∃ (s : State) (f : Fn) (q : Fin 8) (c : Cmd) (e : Nat) (errs : List (Bool × Nat × Nat)), e = c.u 32 1 % 4 ∧ errs = [(!c.zero 33 63, ST_BAD_FIELD, errByte 33), (!s.dev.fb TCH_TE_STAT.CONFIGURED e, ST_BAD_FIELD, errByte 32), (s.dev.tchState e != 0, ST_BUSY, errByte 32)] ∧ s.Bare f q c ∧ s.dev.regsWf = true ∧ s.dev.tablesWf = true ∧ c.opcode = 0x81 ∧ firstError (s.dev.tchHead f c ++ errs) = none ∧ c.opcode = 0x81) ∧
    (∃ (s : State) (f : Fn) (q : Fin 8) (c : Cmd) (e : Nat) (errs : List (Bool × Nat × Nat)), e = c.u 32 1 % 4 ∧ errs = [(!c.zero 33 63, ST_BAD_FIELD, errByte 33)] ∧ s.Bare f q c ∧ s.dev.regsWf = true ∧ s.dev.tablesWf = true ∧ c.opcode = 0x82 ∧ firstError (s.dev.tchHead f c ++ errs) = none ∧ c.opcode = 0x82 ∧ s.dev.tchState e = 0) ∧
    (∃ (s : State) (f : Fn) (q : Fin 8) (c : Cmd) (e : Nat) (errs : List (Bool × Nat × Nat)), e = c.u 32 1 % 4 ∧ errs = [(!c.zero 33 63, ST_BAD_FIELD, errByte 33)] ∧ s.Bare f q c ∧ s.dev.regsWf = true ∧ s.dev.tablesWf = true ∧ c.opcode = 0x82 ∧ firstError (s.dev.tchHead f c ++ errs) = none ∧ c.opcode = 0x82 ∧ s.dev.tchState e ≠ 0) ∧
    (∃ (s : State) (f : Fn) (q : Fin 8) (c : Cmd) (e : Nat) (errs : List (Bool × Nat × Nat)), e = c.u 32 1 % 4 ∧ errs = [(!c.zero 33 35, ST_BAD_FIELD, errByte 33), (!c.zero 40 63, ST_BAD_FIELD, errByte 40)] ∧ s.Bare f q c ∧ s.dev.regsWf = true ∧ s.dev.tablesWf = true ∧ c.opcode = 0x83 ∧ firstError (s.dev.tchHead f c ++ errs) = none ∧ c.opcode = 0x83 ∧ s.dev.tchState e = 0) ∧
    (∃ (s : State) (f : Fn) (q : Fin 8) (c : Cmd) (e : Nat) (errs : List (Bool × Nat × Nat)), e = c.u 32 1 % 4 ∧ errs = [(!c.zero 33 35, ST_BAD_FIELD, errByte 33), (!c.zero 40 63, ST_BAD_FIELD, errByte 40)] ∧ s.Bare f q c ∧ s.dev.regsWf = true ∧ s.dev.tablesWf = true ∧ c.opcode = 0x83 ∧ firstError (s.dev.tchHead f c ++ errs) = none ∧ c.opcode = 0x83 ∧ s.dev.tchState e ≠ 0) :=
  ⟨⟨u21, .pf 0, 0, inner u21 (Fn.pf 0), [(decide (2 ≤ (inner u21 (Fn.pf 0)).u 33 1) || ((Fn.pf 0) == .sp0 && (inner u21 (Fn.pf 0)).u 33 1 != 0), ST_BAD_FIELD, errByte 33), (!(inner u21 (Fn.pf 0)).zero 34 39, ST_BAD_FIELD, errByte 34), ((inner u21 (Fn.pf 0)).u 40 8 % 64 != 0, ST_BAD_FIELD, errByte 40), (!(inner u21 (Fn.pf 0)).zero 48 63, ST_BAD_FIELD, errByte 48)], ST_BAD_FIELD, errByte 40, rfl, bare_of (by decide +kernel), by decide +kernel⟩,
   ⟨u22, .pf 0, 0, inner u22 (Fn.pf 0), (inner u22 (Fn.pf 0)).u 32 1 % 4, [(!(inner u22 (Fn.pf 0)).zero 33 63, ST_BAD_FIELD, errByte 33), (!u22.dev.fb TCH_TE_STAT.CONFIGURED ((inner u22 (Fn.pf 0)).u 32 1 % 4), ST_BAD_FIELD, errByte 32), (u22.dev.tchState ((inner u22 (Fn.pf 0)).u 32 1 % 4) != 0, ST_BUSY, errByte 32)], ST_BUSY, errByte 32, rfl, rfl, bare_of (by decide +kernel), by decide +kernel⟩,
   ⟨u23, .pf 0, 0, inner u23 (Fn.pf 0), [(!(inner u23 (Fn.pf 0)).zero 33 63, ST_BAD_FIELD, errByte 33)], ST_NOT_OWNER, errByte 32, rfl, bare_of (by decide +kernel), by decide +kernel⟩,
   ⟨u24, .pf 0, 0, inner u24 (Fn.pf 0), [(!(inner u24 (Fn.pf 0)).zero 33 35, ST_BAD_FIELD, errByte 33), (!(inner u24 (Fn.pf 0)).zero 40 63, ST_BAD_FIELD, errByte 40)], ST_BAD_FIELD, errByte 33, rfl, bare_of (by decide +kernel), by decide +kernel⟩,
   ⟨u25, .pf 0, 0, inner u25 (Fn.pf 0), [(decide (2 ≤ (inner u25 (Fn.pf 0)).u 33 1) || ((Fn.pf 0) == .sp0 && (inner u25 (Fn.pf 0)).u 33 1 != 0), ST_BAD_FIELD, errByte 33), (!(inner u25 (Fn.pf 0)).zero 34 39, ST_BAD_FIELD, errByte 34), ((inner u25 (Fn.pf 0)).u 40 8 % 64 != 0, ST_BAD_FIELD, errByte 40), (!(inner u25 (Fn.pf 0)).zero 48 63, ST_BAD_FIELD, errByte 48)], tchImg false (some 33), 1, rfl, bare_of (by decide +kernel), by decide +kernel⟩,
   ⟨u26, .pf 0, 0, inner u26 (Fn.pf 0), (inner u26 (Fn.pf 0)).u 32 1 % 4, [(decide (2 ≤ (inner u26 (Fn.pf 0)).u 33 1) || ((Fn.pf 0) == .sp0 && (inner u26 (Fn.pf 0)).u 33 1 != 0), ST_BAD_FIELD, errByte 33), (!(inner u26 (Fn.pf 0)).zero 34 39, ST_BAD_FIELD, errByte 34), ((inner u26 (Fn.pf 0)).u 40 8 % 64 != 0, ST_BAD_FIELD, errByte 40), (!(inner u26 (Fn.pf 0)).zero 48 63, ST_BAD_FIELD, errByte 48)], tchImg false none, rfl, rfl, bare_of (by decide +kernel), by decide +kernel⟩,
   ⟨u27, .pf 0, 0, inner u27 (Fn.pf 0), (inner u27 (Fn.pf 0)).u 32 1 % 4, [(decide (2 ≤ (inner u27 (Fn.pf 0)).u 33 1) || ((Fn.pf 0) == .sp0 && (inner u27 (Fn.pf 0)).u 33 1 != 0), ST_BAD_FIELD, errByte 33), (!(inner u27 (Fn.pf 0)).zero 34 39, ST_BAD_FIELD, errByte 34), ((inner u27 (Fn.pf 0)).u 40 8 % 64 != 0, ST_BAD_FIELD, errByte 40), (!(inner u27 (Fn.pf 0)).zero 48 63, ST_BAD_FIELD, errByte 48)], tchImg false none, rfl, rfl, bare_of (by decide +kernel), by decide +kernel⟩,
   ⟨u28, .pf 0, 0, inner u28 (Fn.pf 0), [(decide (2 ≤ (inner u28 (Fn.pf 0)).u 33 1) || ((Fn.pf 0) == .sp0 && (inner u28 (Fn.pf 0)).u 33 1 != 0), ST_BAD_FIELD, errByte 33), (!(inner u28 (Fn.pf 0)).zero 34 39, ST_BAD_FIELD, errByte 34), ((inner u28 (Fn.pf 0)).u 40 8 % 64 != 0, ST_BAD_FIELD, errByte 40), (!(inner u28 (Fn.pf 0)).zero 48 63, ST_BAD_FIELD, errByte 48)], rfl, bare_of (by decide +kernel), by decide +kernel⟩,
   ⟨u29, .pf 0, 0, inner u29 (Fn.pf 0), (inner u29 (Fn.pf 0)).u 32 1 % 4, [(!(inner u29 (Fn.pf 0)).zero 33 63, ST_BAD_FIELD, errByte 33), (!u29.dev.fb TCH_TE_STAT.CONFIGURED ((inner u29 (Fn.pf 0)).u 32 1 % 4), ST_BAD_FIELD, errByte 32), (u29.dev.tchState ((inner u29 (Fn.pf 0)).u 32 1 % 4) != 0, ST_BUSY, errByte 32)], rfl, rfl, bare_of (by decide +kernel), by decide +kernel⟩,
   ⟨u30, .pf 0, 0, inner u30 (Fn.pf 0), (inner u30 (Fn.pf 0)).u 32 1 % 4, [(!(inner u30 (Fn.pf 0)).zero 33 63, ST_BAD_FIELD, errByte 33)], rfl, rfl, bare_of (by decide +kernel), by decide +kernel⟩,
   ⟨u31, .pf 0, 0, inner u31 (Fn.pf 0), (inner u31 (Fn.pf 0)).u 32 1 % 4, [(!(inner u31 (Fn.pf 0)).zero 33 63, ST_BAD_FIELD, errByte 33)], rfl, rfl, bare_of (by decide +kernel), by decide +kernel⟩,
   ⟨u32, .pf 0, 0, inner u32 (Fn.pf 0), (inner u32 (Fn.pf 0)).u 32 1 % 4, [(!(inner u32 (Fn.pf 0)).zero 33 35, ST_BAD_FIELD, errByte 33), (!(inner u32 (Fn.pf 0)).zero 40 63, ST_BAD_FIELD, errByte 40)], rfl, rfl, bare_of (by decide +kernel), by decide +kernel⟩,
   ⟨u33, .pf 0, 0, inner u33 (Fn.pf 0), (inner u33 (Fn.pf 0)).u 32 1 % 4, [(!(inner u33 (Fn.pf 0)).zero 33 35, ST_BAD_FIELD, errByte 33), (!(inner u33 (Fn.pf 0)).zero 40 63, ST_BAD_FIELD, errByte 40)], rfl, rfl, bare_of (by decide +kernel), by decide +kernel⟩⟩

def at15 (n : Nat) (d : Dev) : Dev := { d with time := { d.time with ltime := n } }
def due15 : Nat := 10 ^ 6 + 1000 * TchCfg.scanUs cfg15
def u44 : State := scan15 { nextAt := 10 ^ 6 } (at15 (10 ^ 6 - 1))
def u45 : State := scan15 { inScan := true, startedAt := 10 ^ 6 } (at15 (due15 - 1))
def u34 : State := scan15 { nextAt := 10 ^ 6 } (at15 (10 ^ 6))
def u35 : State := scan15 { inScan := true, startedAt := 10 ^ 6 } (at15 due15)
def u36 : State := scan15 { inScan := true, startedAt := 10 ^ 6, work := [.stop ⟨qi (.pf 0) 0, 0⟩] } (fun d => at15 due15 ((run1 d).setF TCH_TE_ASSIGN.OWNER 3 5))
def u37 : State := scan15 { inScan := true, startedAt := 10 ^ 6, quiet := true } (at15 due15)
def u38 : State := scan15 { inScan := true, startedAt := 10 ^ 6, work := [.stop ⟨qi (.pf 0) 0, 0⟩] } (fun d => at15 due15 (run1 d))

def u47 : State := scan15 { inScan := true, quiet := true, startedAt := 10 ^ 6, nextAt := 10 ^ 6 + 10000, cfg := toLe 10 4 ++ cfg15.drop 4 } (at15 due15)

/-- The premises of each clause of `TouchScansMovePointsAndReport` hold together. -/
theorem witness_TouchScansMovePointsAndReport :
    (∃ (s : State) (e : Fin 4) (x : TchEng), x = s.dev.eng e.val ∧ s.dev.regsWf = true ∧ s.dev.tablesWf = true ∧ s.dev.tchState e.val = 1 ∧ s.dev.now < x.nextAt) ∧
    (∃ (s : State) (e : Fin 4) (x : TchEng), x = s.dev.eng e.val ∧ s.dev.regsWf = true ∧ s.dev.tablesWf = true ∧ s.dev.tchState e.val = 1 ∧ x.nextAt ≤ s.dev.now ∧ x.inScan = false) ∧
    (∃ (s : State) (e : Fin 4) (x : TchEng), x = s.dev.eng e.val ∧ s.dev.regsWf = true ∧ s.dev.tablesWf = true ∧ s.dev.tchState e.val = 1 ∧ x.nextAt ≤ s.dev.now ∧ x.inScan = true ∧ TchCfg.scanLong x.cfg = false) ∧
    (∃ (s : State) (e : Fin 4) (x : TchEng), x = s.dev.eng e.val ∧ s.dev.regsWf = true ∧ s.dev.tablesWf = true ∧ s.dev.tchState e.val = 1 ∧ s.dev.now < x.startedAt + 1000 * TchCfg.scanUs x.cfg) ∧
    (∃ (s : State) (e : Fin 4) (x : TchEng), x = s.dev.eng e.val ∧ s.dev.regsWf = true ∧ s.dev.tablesWf = true ∧ s.dev.tchState e.val = 1 ∧ x.inScan = true ∧ x.startedAt + 1000 * TchCfg.scanUs x.cfg ≤ s.dev.now ∧ s.dev.tchOwnerDue e.val = true ∧ x.toSpare = []) ∧
    (∃ (s : State) (e : Fin 4) (x : TchEng), x = s.dev.eng e.val ∧ s.dev.regsWf = true ∧ s.dev.tablesWf = true ∧ s.dev.tchState e.val = 1 ∧ x.inScan = true ∧ x.startedAt + 1000 * TchCfg.scanUs x.cfg ≤ s.dev.now ∧ s.dev.tchOwnerDue e.val = false ∧ x.work = [] ∧ (x.quiet = true ∨ x.frozen = true) ∧ TchCfg.scanLong x.cfg = false) ∧
    (∃ (s : State) (e : Fin 4) (x : TchEng), x = s.dev.eng e.val ∧ s.dev.regsWf = true ∧ s.dev.tablesWf = true ∧ s.dev.tchState e.val = 1 ∧ x.inScan = true ∧ x.startedAt + 1000 * TchCfg.scanUs x.cfg ≤ s.dev.now ∧ s.dev.tchOwnerDue e.val = false ∧ x.work = [] ∧ x.quiet = false ∧ x.frozen = false ∧ x.toSpare = []) ∧
    (∃ (s : State) (e : Fin 4) (x : TchEng) (ref : _), x = s.dev.eng e.val ∧ s.dev.Running ref ∧ s.dev.regsWf = true ∧ s.dev.tablesWf = true ∧ s.dev.tchState e.val = 1 ∧ x.inScan = true ∧ x.startedAt + 1000 * TchCfg.scanUs x.cfg ≤ s.dev.now ∧ s.dev.tchOwnerDue e.val = false ∧ x.work = [.stop ref]) ∧
    (∃ (s : State) (e : Fin 4) (p : Point), s.dev.regsWf = true ∧ s.dev.tablesWf = true ∧ s.dev.tchState e.val = 1 ∧ p.st = .init ∧ p.n = 3) ∧
    (∃ (s : State) (e : Fin 4) (p : Point), s.dev.regsWf = true ∧ s.dev.tablesWf = true ∧ s.dev.tchState e.val = 1 ∧ p.st = .recal ∧ p.n ≠ 0) ∧
    (∃ (s : State) (e : Fin 4) (p : Point) (cfg : TchCfg) (o : TObj) (count : Nat), s.dev.regsWf = true ∧ s.dev.tablesWf = true ∧ s.dev.tchState e.val = 1 ∧ p.st = .track ∧ (le cfg 10 1) ≤ p.deb + 1 ∧ ((if cfg.glove then o.gloveTh else o.touchTh : Nat) : Int) ≤ (count : Int) - p.base ∧ -(le cfg 12 2 : Int) < (count : Int) - p.base) ∧
    (∃ (s : State) (e : Fin 4) (p : Point) (cfg : TchCfg) (o : TObj) (count : Nat), s.dev.regsWf = true ∧ s.dev.tablesWf = true ∧ s.dev.tchState e.val = 1 ∧ p.st = .touched ∧ (count : Int) - p.base < (o.relTh : Int) ∧ (p.neg + 1 < 2 ∨ -(le cfg 12 2 : Int) < (count : Int) - p.base)) ∧
    (∃ (s : State) (e : Fin 4) (x : TchEng), x = s.dev.eng e.val ∧ s.dev.regsWf = true ∧ s.dev.tablesWf = true ∧ s.dev.tchState e.val = 1 ∧ x.nextAt ≤ s.dev.now ∧ x.inScan = true ∧ TchCfg.scanLong x.cfg = true) ∧
    (∃ (s : State) (e : Fin 4) (x : TchEng), x = s.dev.eng e.val ∧ s.dev.regsWf = true ∧ s.dev.tablesWf = true ∧ s.dev.tchState e.val = 1 ∧ x.inScan = true ∧ x.startedAt + 1000 * TchCfg.scanUs x.cfg ≤ s.dev.now ∧ s.dev.tchOwnerDue e.val = false ∧ x.work = [] ∧ x.quiet = true ∧ TchCfg.scanLong x.cfg = true ∧ x.due = false) ∧
    (∃ (s : State) (e : Fin 4) (p : Point), s.dev.regsWf = true ∧ s.dev.tablesWf = true ∧ s.dev.tchState e.val = 1 ∧ p.st = .recal ∧ p.n = 0) ∧
    (∃ (s : State) (e k : Fin 4) (who : Fn) (val : Word), s.dev.regsWf = true ∧ s.dev.tablesWf = true ∧ s.dev.tchState e.val = 1 ∧ s.dev.tchState k.val = 0 ∧ assigner who = true ∧ TCH_TE_ASSIGN.OWNER.get val ≠ s.dev.tchOwner k.val ∧ TCH_TE_ASSIGN.OWNER.get val ≠ s.dev.f TCH_TE_ASSIGN.OWNER k.val ∧
      s.dev.mayGive who (s.dev.f TCH_TE_ASSIGN.OWNER k.val) = true ∧ s.dev.mayGive who (TCH_TE_ASSIGN.OWNER.get val) = true) ∧
    (∃ (s : State) (e : Fin 4) (who : Fn) (val : Word), s.dev.Accepts who .TCH_RPT_HEAD e.val val ∧ s.dev.regsWf = true ∧ s.dev.tablesWf = true ∧ s.dev.tchState e.val = 1 ∧ s.dev.reachesEngine who e.val = true) ∧
    (∃ (s : State) (e : Fin 4), s.dev.regsWf = true ∧ s.dev.tablesWf = true ∧ s.dev.tchState e.val = 1 ∧ s.dev.acholtRuns = true ∧ s.dev.checkDue e.val = true) :=
  ⟨⟨u44, 3, u44.dev.eng 3, rfl, by decide +kernel⟩,
   ⟨u34, 3, u34.dev.eng 3, rfl, by decide +kernel⟩,
   ⟨u35, 3, u35.dev.eng 3, rfl, by decide +kernel⟩,
   ⟨u45, 3, u45.dev.eng 3, rfl, by decide +kernel⟩,
   ⟨u36, 3, u36.dev.eng 3, rfl, by decide +kernel⟩,
   ⟨u37, 3, u37.dev.eng 3, rfl, by decide +kernel⟩,
   ⟨u35, 3, u35.dev.eng 3, rfl, by decide +kernel⟩,
   ⟨u38, 3, u38.dev.eng 3, ⟨qi (.pf 0) 0, 0⟩, rfl, running_of (by decide +kernel), by decide +kernel⟩,
   ⟨u35, 3, pt15 .init 3 0, by decide +kernel⟩,
   ⟨u35, 3, pt15 .recal 1 0, by decide +kernel⟩,
   ⟨u35, 3, pt15 .track 0 0, cfg15, cfg15.obj 0, 130, by decide +kernel⟩,
   ⟨u35, 3, pt15 .touched 0 0, cfg15, cfg15.obj 0, 99, by decide +kernel⟩,
   ⟨u47, 3, u47.dev.eng 3, rfl, by decide +kernel⟩,
   ⟨u47, 3, u47.dev.eng 3, rfl, by decide +kernel⟩,
   ⟨u35, 3, pt15 .recal 0 0, by decide +kernel⟩,
   ⟨u35, 3, 2, .pf 0, 0x10, by decide +kernel⟩,
   ⟨u35, 3, .pf 0, 9, accepts_of (by decide +kernel), by decide +kernel⟩,
   ⟨u35, 3, by decide +kernel⟩⟩

def u39 : State := st fun d => eng15 { cfg := cfg15, work := [.stop ⟨qi (.pf 0) 0, 0⟩] } 0 (run1 d)
def u40 : State := st fun d => eng15 { cfg := cfg15 } 1 d
def u41 : State := st fun d => eng15 { cfg := cfg15, unreleased := 9 } 1 d
def u46 : State := st fun d => at15 (10 ^ 10 - 1) (eng15 { cfg := cfg15, checkAt := 10 ^ 10 } 1 d)
def u42 : State := st fun d => eng15 { cfg := cfg15 } 0 (d.setF TCH_TE_STAT.SPARES_USED 3 3)
def u43 : State := st fun d => (eng15 { cfg := cfg15 } 0 d).setF TCH_TE_STAT.SPARES_USED 3 4

/-- The premises of each clause of `TouchOwnersHeadsAndSpares` hold together. -/
theorem witness_TouchOwnersHeadsAndSpares :
    (∃ (s : State) (e : Fin 4) (who : Fn) (val : Word) (new : Nat), new = TCH_TE_ASSIGN.OWNER.get val ∧ s.dev.regsWf = true ∧ s.dev.tablesWf = true ∧ assigner who = true ∧ new ≠ s.dev.f TCH_TE_ASSIGN.OWNER e.val ∧ s.dev.mayGive who (s.dev.f TCH_TE_ASSIGN.OWNER e.val) = true ∧ s.dev.mayGive who new = true ∧ s.dev.tchState e.val = 0 ∧ new ≠ s.dev.tchOwner e.val) ∧
    (∃ (s : State) (e : Fin 4) (who : Fn) (val : Word) (new : Nat), new = TCH_TE_ASSIGN.OWNER.get val ∧ s.dev.regsWf = true ∧ s.dev.tablesWf = true ∧ assigner who = true ∧ new ≠ s.dev.f TCH_TE_ASSIGN.OWNER e.val ∧ s.dev.mayGive who (s.dev.f TCH_TE_ASSIGN.OWNER e.val) = true ∧ s.dev.mayGive who new = true ∧ s.dev.tchState e.val ≠ 0) ∧
    (∃ (s : State) (e : Fin 4) (who : Fn) (val : Word) (new : Nat), new = TCH_TE_ASSIGN.OWNER.get val ∧ s.dev.regsWf = true ∧ s.dev.tablesWf = true ∧ assigner who = true ∧ new ≠ s.dev.f TCH_TE_ASSIGN.OWNER e.val ∧ (s.dev.mayGive who (s.dev.f TCH_TE_ASSIGN.OWNER e.val) = false ∨ s.dev.mayGive who new = false)) ∧
    (∃ (s : State) (e : Fin 4) (who : Fn) (val : Word), s.dev.Accepts who .TCH_RPT_HEAD e.val val ∧ s.dev.regsWf = true ∧ s.dev.tablesWf = true ∧ s.dev.reachesEngine who e.val = true) ∧
    (∃ (s : State) (e : Fin 4) (who : Fn), s.dev.regsWf = true ∧ s.dev.tablesWf = true ∧ s.dev.reachesEngine who e.val = false) ∧
    (∃ (s : State) (e : Fin 4), s.dev.regsWf = true ∧ s.dev.tablesWf = true ∧ s.dev.checkDue e.val = false) ∧
    (∃ (s : State) (e : Fin 4) (l : Fin 64), s.dev.regsWf = true ∧ s.dev.tablesWf = true ∧ s.dev.acholtRuns = true ∧ s.dev.checkDue e.val = true ∧ s.dev.autoBench 6 = true ∧ s.dev.lineFailed e.val l.val = false ∧ (s.dev.eng e.val).toSpare = [] ∧ s.dev.tchState e.val = 0 ∧ s.dev.f TCH_TE_STAT.SPARES_USED e.val < 4) ∧
    (∃ (s : State) (e : Fin 4) (l : Fin 64), s.dev.regsWf = true ∧ s.dev.tablesWf = true ∧ s.dev.acholtRuns = true ∧ s.dev.checkDue e.val = true ∧ s.dev.autoBench 6 = true ∧ s.dev.lineFailed e.val l.val = false ∧ (s.dev.eng e.val).toSpare = [] ∧ s.dev.tchState e.val = 0 ∧ 4 ≤ s.dev.f TCH_TE_STAT.SPARES_USED e.val) ∧
    (∃ (s : State) (e : Fin 4) (l : Fin 64), s.dev.regsWf = true ∧ s.dev.tablesWf = true ∧ s.dev.acholtRuns = true ∧ s.dev.checkDue e.val = true ∧ s.dev.autoBench 6 = true ∧ s.dev.lineFailed e.val l.val = false ∧ (s.dev.eng e.val).toSpare = [] ∧ s.dev.tchState e.val ≠ 0) :=
  ⟨⟨u39, 3, .pf 0, 0x10, TCH_TE_ASSIGN.OWNER.get 0x10, rfl, by decide +kernel⟩,
   ⟨u40, 3, .sp0, 1, TCH_TE_ASSIGN.OWNER.get (1), rfl, by decide +kernel⟩,
   ⟨u40, 3, .pf 1, 1, TCH_TE_ASSIGN.OWNER.get (1), rfl, by decide +kernel⟩,
   ⟨u41, 3, .pf 0, 7, accepts_of (by decide +kernel), by decide +kernel⟩,
   ⟨u41, 3, .vf 0, by decide +kernel⟩,
   ⟨u46, 3, by decide +kernel⟩,
   ⟨u42, 3, 63, by decide +kernel⟩,
   ⟨u43, 3, 63, by decide +kernel⟩,
   ⟨u40, 3, 63, by decide +kernel⟩⟩

end W15

namespace W16

def bytes16 (s : State) : State := [0, 5, 0x7FFFFF, 0x400000, ddrBase, ddrBase+4096, ddrBase+2^30].foldl (fun s k => { s with mem := s.mem.setByte k 0x77 }) s
def straps16 (hot : Bool) : Straps := { bootSel := 2, convoyId := 3, aphDir := 0xF0, gib := 16, ecc := true, hot := hot }
def ph (p : PwrPhase) (h : Dev → Dev := id) : State := bytes16 (st fun d => h { d with pwr := { d.pwr with phase := p } })
def tchImg : List Byte :=
  let b16 := fun n => (toLe n 2).map (·.toNat)
  let b32 := fun n => (toLe n 4).map (·.toNat)
  let b64 := fun n => (toLe n 8).map (·.toNat)
  let l := b32 1000 ++ b16 100 ++ [8, 3, 2, 1, 1, 1] ++ b16 100 ++ b16 10 ++ b64 0x300000 ++ [4] ++ List.replicate 7 0 ++
    [1, 5, 2, 6, 0, 3] ++ List.replicate 58 0 ++ ([1,0,0,0] ++ b16 100 ++ b16 50 ++ b16 0 ++ b16 80 ++ b16 0 ++ [0,0]) ++
    ([2,0,5,1] ++ b16 100 ++ b16 50 ++ b16 0 ++ b16 80 ++ b16 0 ++ [0,0]) ++ List.replicate 480 0
  l.map (BitVec.ofNat 8)
def wk (n : Nat) (d : Dev) : Dev := ((putL TCH_WAKE_CFG.PIN_EN 3 1 (putL TCH_WAKE_CFG.WAKE_EN 3 1 { d with tch := Tbl.put ([] : Tbl TchEng) 3 { cfg := tchImg, pts := Tbl.put ([] : Tbl Point) 965 { st := .track, base := 10, deb := n } } })).setF TCH_TE_STAT.STATE 3 2)
def lw (r : Reg) (v : Word) (d : Dev) : Dev := { d.setReg r 0 v with live := Tbl.putD regDefault d.live (r.key 0) v }
def cnt16 (n : BitVec 16) : ScanCounts := ⟨[], List.replicate 64 n, []⟩

def u1 : State := ph .on
def u2 : State := ph .reset (fun d => { d with pwr := { d.pwr with held := true } })
def u3 : State := ph .reset
def u18 : State := ph .calendar
def u4 : State := ph .dormant (fun d => lw .PWR_WAKE_EN 2 (((((d.setF MGT_CAL_SUB.VALID 0 1).setF MGT_CAL_SUB.ALARM_EN 0 1).setF MGT_CAL_SUB.WAKE_EN 0 1).setReg .MGT_CAL_SEC 0 0xFFFFFFFF).setReg .MGT_CAL_ALARM 0 0))

/-- The premises of each clause of `ColdResetsTripsAndCalendar` hold together. -/
theorem witness_ColdResetsTripsAndCalendar :
    (∃ (s : State), s.dev.regsWf = true ∧ s.dev.tablesWf = true) ∧
    (∃ (s : State) (st : Straps), s.dev.regsWf = true ∧ s.dev.tablesWf = true ∧ (s.dev.pwr.phase = .reset ∨ s.dev.pwr.phase = .calendar) ∧ s.dev.pwr.held = true ∧ st.hot = true) ∧
    (∃ (s : State) (st : Straps), s.dev.regsWf = true ∧ s.dev.tablesWf = true ∧ (s.dev.pwr.phase = .reset ∨ s.dev.pwr.phase = .calendar) ∧ (s.dev.pwr.held = false ∨ st.hot = false)) ∧
    (∃ (s : State), s.dev.regsWf = true ∧ s.dev.tablesWf = true ∧ s.dev.pwr.phase = .calendar) ∧
    (∃ (s : State), s.dev.regsWf = true ∧ s.dev.tablesWf = true ∧ s.dev.pwr.phase ≠ .calendar) ∧
    (∃ (s : State), s.dev.regsWf = true ∧ s.dev.tablesWf = true ∧ s.dev.fb MGT_CAL_SUB.VALID 0 = true) ∧
    (∃ (s : State), s.dev.regsWf = true ∧ s.dev.tablesWf = true ∧ s.dev.fb MGT_CAL_SUB.VALID 0 = false) :=
  ⟨⟨u1, by decide +kernel⟩,
   ⟨u2, straps16 true, by decide +kernel⟩,
   ⟨u3, straps16 true, by decide +kernel⟩,
   ⟨u18, by decide +kernel⟩,
   ⟨u3, by decide +kernel⟩,
   ⟨u4, by decide +kernel⟩,
   ⟨u1, by decide +kernel⟩⟩

def u5 : State := ph .on (fun d => d.setReg .OWN_HOLD_PWR 0 0x800000)
def u6 : State := ph .on (fun d => d)
def u7 : State := ph .on (fun d => { d with hrq := {}, ports := [] })
def u8 : State := ph .entering (fun d => (d.setReg .PWR_WAKE_EN 0 5))
def u9 : State := ph .dormant (lw .PWR_WAKE_EN 0x3F)
def u10 : State := ph .entering (fun d => d.setReg .PWR_WAKE_EN 0 0x3F)
def u11 : State := ph .dormant (wk 0)
def u19 : State := ph .dormant (fun d => (wk 0 d).updEng 3 fun x => { x with nextAt := 1 })
def u12 : State := ph .dormant (fun d => lw .TCH_WAKE_MASK 0 (lw .PWR_WAKE_EN 1 { (wk 0 d).setReg .TCH_WAKE_MASK 3 2 with live := Tbl.putD regDefault (wk 0 d).live (Reg.TCH_WAKE_MASK.key 3) 2 }))
def u13 : State := ph .railWait
def u14 : State := ph .railWait (fun d => { d with own := { d.own with tableBase := 0 } })
def u15 : State := ph .resuming

/-- The premises of each clause of `DormantIsEnteredAndLeft` hold together. -/
theorem witness_DormantIsEnteredAndLeft :
    (∃ (s : State) (who : Fn) (val : Word), s.dev.regsWf = true ∧ s.dev.tablesWf = true ∧ notVf who = true ∧ bit val.toNat 0 = true ∧ s.dev.pwr.phase = .on) ∧
    (∃ (s : State) (who : Fn) (val : Word), s.dev.regsWf = true ∧ s.dev.tablesWf = true ∧ notVf who = true ∧ bit val.toNat 0 = true ∧ s.dev.pwr.phase = .on ∧ s.dev.dormBusy = true) ∧
    (∃ (s : State) (who : Fn) (val : Word), s.dev.regsWf = true ∧ s.dev.tablesWf = true ∧ notVf who = true ∧ bit val.toNat 0 = true ∧ s.dev.pwr.phase = .on ∧ s.dev.dormBusy = false) ∧
    (∃ (s : State), s.dev.regsWf = true ∧ s.dev.tablesWf = true ∧ s.dev.pwr.phase = .entering ∧ s.dev.msys.walk.phase = .idle ∧ s.dev.msys.swap = none) ∧
    (∃ (s : State) (srcs : List WakeSrc) (k : Nat), s.dev.regsWf = true ∧ s.dev.tablesWf = true ∧ s.dev.pwr.phase = .dormant ∧ wakeOf (s.dev.liveReg .PWR_WAKE_EN 0).toNat (srcs.map s.dev.wakeNum) = some k) ∧
    (∃ (s : State) (srcs : List WakeSrc) (k : Nat), s.dev.regsWf = true ∧ s.dev.tablesWf = true ∧ s.dev.pwr.phase = .entering ∧ wakeOf (s.dev.reg .PWR_WAKE_EN 0).toNat (srcs.map s.dev.wakeNum) = some k) ∧
    (∃ (s : State) (counts : ScanCounts) (e : Nat) (w : Dev × List Nat), w = (s.dev.updEng e fun x => { x with nextAt := x.nextAt + s.dev.wakePeriod e }).wakeStep e counts ∧ s.dev.regsWf = true ∧ s.dev.tablesWf = true ∧ s.dev.wakeEngine = some e ∧ s.dev.pwr.phase = .dormant ∧ s.dev.now < (s.dev.eng e).nextAt) ∧
    (∃ (s : State) (counts : ScanCounts) (e : Nat) (w : Dev × List Nat), w = (s.dev.updEng e fun x => { x with nextAt := x.nextAt + s.dev.wakePeriod e }).wakeStep e counts ∧ s.dev.regsWf = true ∧ s.dev.tablesWf = true ∧ s.dev.wakeEngine = some e ∧ s.dev.pwr.phase = .dormant ∧ (s.dev.eng e).nextAt ≤ s.dev.now ∧ w.2 = []) ∧
    (∃ (s : State) (counts : ScanCounts) (e : Nat) (w : Dev × List Nat), w = (s.dev.updEng e fun x => { x with nextAt := x.nextAt + s.dev.wakePeriod e }).wakeStep e counts ∧ s.dev.regsWf = true ∧ s.dev.tablesWf = true ∧ s.dev.wakeEngine = some e ∧ s.dev.pwr.phase = .dormant ∧ (s.dev.eng e).nextAt ≤ s.dev.now ∧ w.2 ≠ [] ∧ bit (s.dev.liveReg .PWR_WAKE_EN 0).toNat 0 = true) ∧
    (∃ (s : State), s.dev.regsWf = true ∧ s.dev.tablesWf = true ∧ s.dev.pwr.phase = .railWait ∧ s.dev.pwr.railAt ≤ s.dev.now) ∧
    (∃ (s : State), s.dev.regsWf = true ∧ s.dev.tablesWf = true ∧ s.dev.pwr.phase = .railWait ∧ s.dev.pwr.railAt ≤ s.dev.now ∧ s.dev.tableKept = true) ∧
    (∃ (s : State), s.dev.regsWf = true ∧ s.dev.tablesWf = true ∧ s.dev.pwr.phase = .railWait ∧ s.dev.pwr.railAt ≤ s.dev.now ∧ s.dev.tableKept = false) ∧
    (∃ (s : State), s.dev.regsWf = true ∧ s.dev.tablesWf = true ∧ s.dev.pwr.phase = .resuming ∧ s.dev.msys.trained = true) :=
  ⟨⟨u5, .pf 0, 1, by decide +kernel⟩,
   ⟨u6, .pf 0, 1, by decide +kernel⟩,
   ⟨u7, .pf 0, 1, by decide +kernel⟩,
   ⟨u8, by decide +kernel⟩,
   ⟨u9, [.gpio 3, .alarm, .sp0], 2, by decide +kernel⟩,
   ⟨u10, [.alarm, .sp0], 2, by decide +kernel⟩,
   ⟨u19, cnt16 20, 3, (u19.dev.updEng 3 fun x => { x with nextAt := x.nextAt + u19.dev.wakePeriod 3 }).wakeStep 3 (cnt16 20), rfl, by decide +kernel⟩,
   ⟨u11, cnt16 20, 3, (u11.dev.updEng 3 fun x => { x with nextAt := x.nextAt + u11.dev.wakePeriod 3 }).wakeStep 3 (cnt16 20), rfl, by decide +kernel⟩,
   ⟨u12, cnt16 300, 3, (u12.dev.updEng 3 fun x => { x with nextAt := x.nextAt + u12.dev.wakePeriod 3 }).wakeStep 3 (cnt16 300), rfl, by decide +kernel⟩,
   ⟨u13, by decide +kernel⟩,
   ⟨u13, by decide +kernel⟩,
   ⟨u14, by decide +kernel⟩,
   ⟨u15, by decide +kernel⟩⟩

def u16 : State := ph .on (fun d => (d.setReg .OWN_HOLD_PWR 0 3).setReg .PWR_DOM_STAT 0 0x7FFFFF)

/-- The premises of each clause of `DomainsAndClocksFollowRequests` hold together. -/
theorem witness_DomainsAndClocksFollowRequests :
    ∃ (s : State) (who : Fn) (val : Word) (n : Nat), n = 23 ∧ s.dev.regsWf = true ∧ notVf who = true ∧ val.toNat % 2 ^ n ≠ 0 :=
  ⟨u16, .pf 0, 0x7FFFFF, 23, rfl, by decide +kernel⟩

def u20 : State := ph .on (fun d => { d with vin := { d.vin with we := Tbl.put ([] : Tbl WarpSt) 1 { job := some { code := 4 } } } })
def u17 : State := ph .on (fun d => { d with msys := { d.msys with trained := false } })

/-- The premises of each clause of `HostPortsResetAndAnswer` hold together. -/
theorem witness_HostPortsResetAndAnswer :
    (∃ (s : State) (p : Fin 2), s.dev.regsWf = true ∧ s.dev.tablesWf = true ∧ (∀ e < 2, ∀ j ∈ (s.dev.we e).job, (portCodes p.val).contains j.code = false) ∧
      (∀ x < 64, ∀ j ∈ (s.dev.chan x).run, (portCodes p.val).contains j.code = false) ∧ s.dev.mbx.bulk = []) ∧
    (∃ (s : State), s.dev.regsWf = true ∧ s.dev.tablesWf = true ∧ s.dev.pwr.phase ≠ .entering) ∧
    (∃ (s : State), s.dev.regsWf = true ∧ s.dev.tablesWf = true ∧ s.dev.msys.trained = false) ∧
    (∃ (s : State) (p : Fin 2), s.dev.regsWf = true ∧ s.dev.tablesWf = true ∧ s.dev.msys.trained = true ∧ (s.dev.ports.get p.val).vfEnable = false) ∧
    (∃ (s : State) (p : Fin 2) (f : Fn), s.dev.regsWf = true ∧ s.dev.tablesWf = true ∧ s.dev.msys.trained = true ∧ (portCodes p.val).contains f.code = true) ∧
    (∃ (s : State), s.dev.regsWf = true ∧ s.dev.tablesWf = true ∧ s.dev.msys.trained = true) ∧
    (∃ (s : State), s.dev.regsWf = true ∧ s.dev.tablesWf = true ∧ s.dev.own.bootWaiting = false) :=
  ⟨⟨u20, 1, by decide +kernel⟩,
   ⟨u1, by decide +kernel⟩,
   ⟨u17, by decide +kernel⟩,
   ⟨u1, 1, by decide +kernel⟩,
   ⟨u1, 1, .vf 63, by decide +kernel⟩,
   ⟨u1, by decide +kernel⟩,
   ⟨u17, by decide +kernel⟩⟩

end W16

namespace W17

def b16 (n : Nat) : List Nat := (toLe n 2).map (·.toNat)
def b64 (n : Nat) : List Nat := (toLe n 8).map (·.toNat)
def hset (fl : Nat := 3) : List Nat := [7, fl, 10, 0x20] ++ b16 150 ++ b16 8000 ++ b16 500 ++ b16 1000 ++ b16 300 ++ b16 600 ++ b16 200 ++ b16 900 ++ b16 9000 ++ b16 20000 ++ b16 100 ++ [20, 100, 10, 5, 0x3B, 1]
def ch17 : HapCh := { cfg := (hset 3).map (BitVec.ofNat 8) }
def hap17 (h : HapCh) (state : Nat) (d : Dev) : Dev := (putL HAP_EFF_ASSIGN.OWNER 31 4 (putL HAP_CH_ASSIGN.OWNER 7 4 { d with hap := { d.hap with chans := Tbl.put ([] : Tbl HapCh) 7 h } })).setF HAP_CH_STAT.STATE 7 state
def hc (op : Nat) (body : List Nat) (state : Nat) (h : HapCh := ch17) (g : Dev → Dev := id) : State := st fun d => g (queued (.pf 0) 5 (cmdOf op body) (hap17 h state d))
def eff17 : List Byte := ([2, 1, 0, 0, 0, 0, 0, 0] ++ [1, 0, 100, 0] ++ b16 100 ++ b16 50 ++ [4, 0, 0, 0] ++ b16 0 ++ b16 3).map (BitVec.ofNat 8)
def mem17 (img : List Byte) (s : State) : State := owned 4 1 0x100000 (loaded 0x100000 img s)
def trig (e : Nat) (d : Dev) : Dev := (((d.setF HAP_TRIG_CFG.EN 7 1).setF HAP_TRIG_CFG.CH 7 7).setF HAP_TRIG_CFG.EFFECT 7 e).setF HAP_TRIG_CFG.FILT 7 1
def stp : CmdRef := ⟨qi (.pf 0) 0, 0⟩
def rr (d : Dev) : Dev := queued (.pf 0) 5 { cmdOf 0x8A [7] with phase := .running } d
def h17 (h : HapCh) (state : Nat) (g : Dev → Dev := id) : State := st fun d => g (rr (hap17 h state d))

def u1 : State := hc 0x88 hset 2
def u2 : State := hc 0x89 [7,0,160] 2
def u3 : State := hc 0x8A [6] 2
def u4 : State := hc 0x88 hset 0 {}
def u5 : State := hc 0x89 [7,0,128] 1
def u6 : State := hc 0x89 [7,0,159] 0
def u7 : State := hc 0x89 [7,0,159] 1
def u8 : State := hc 0x89 [7,0,159] 2
def u9 : State := hc 0x89 [7,0,159] 2 ch17 (fun d => d.setF HAP_CH_STAT.QUEUED 7 1)
def u10 : State := hc 0x8A [7] 2 ch17 (fun d => d.setF HAP_CH_STAT.QUEUED 7 1)
def u11 : State := hc 0x8A [7] 4 ch17 (fun d => d.setF HAP_CH_STAT.QUEUED 7 1)
def u12 : State := hc 0x8B ([0,0,127,0,0,0,0,0] ++ b64 0x100000) 0
def u13 : State := mem17 eff17 (hc 0x8B ([0,0,159,0,0,0,0,0] ++ b64 0x100000) 0)
def u14 : State := st fun d => trig 128 (hap17 ch17 1 d)
def u15 : State := st fun d => trig 159 (hap17 ch17 1 d)
def u16 : State := st fun d => (hap17 ch17 1 d)

def u35 : State := hc 0x89 [7,0,120] 4 ch17 (fun d => d.setF HAP_CH_STAT.QUEUED 7 1)

/-- The premises of each clause of `HapticCommandsAndTriggers` hold together. -/
theorem witness_HapticCommandsAndTriggers :
    (∃ (s : State) (f : Fn) (q : Fin 8) (c : Cmd) (k : Nat) (errs : List (Bool × Nat × Nat)) (st res : Nat), k = c.u 32 1 % 8 ∧ errs = hapSetErr c ++ [(s.dev.hapBusy k, ST_BUSY, errByte 32)] ∧ s.Bare f q c ∧ s.dev.regsWf = true ∧ s.dev.tablesWf = true ∧ c.opcode = 0x88 ∧ firstError (s.dev.hapHead f c ++ errs) = some (st, res)) ∧
    (∃ (s : State) (f : Fn) (q : Fin 8) (c : Cmd) (errs : List (Bool × Nat × Nat)) (st res : Nat), errs = [(c.u 33 1 / 2 != 0, ST_BAD_FIELD, errByte 33), (decide (160 ≤ c.u 34 1), ST_BAD_FIELD, errByte 34), (!c.zero 35 63, ST_BAD_FIELD, errByte 35)] ∧ s.Bare f q c ∧ s.dev.regsWf = true ∧ s.dev.tablesWf = true ∧ c.opcode = 0x89 ∧ firstError (s.dev.hapHead f c ++ errs) = some (st, res)) ∧
    (∃ (s : State) (f : Fn) (q : Fin 8) (c : Cmd) (errs : List (Bool × Nat × Nat)) (st res : Nat), errs = [(!c.zero 33 63, ST_BAD_FIELD, errByte 33)] ∧ s.Bare f q c ∧ s.dev.regsWf = true ∧ s.dev.tablesWf = true ∧ c.opcode = 0x8A ∧ firstError (s.dev.hapHead f c ++ errs) = some (st, res)) ∧
    (∃ (s : State) (f : Fn) (q : Fin 8) (c : Cmd) (k : Nat) (errs : List (Bool × Nat × Nat)), k = c.u 32 1 % 8 ∧ errs = hapSetErr c ++ [(s.dev.hapBusy k, ST_BUSY, errByte 32)] ∧ s.Bare f q c ∧ s.dev.regsWf = true ∧ s.dev.tablesWf = true ∧ c.opcode = 0x88 ∧ firstError (s.dev.hapHead f c ++ errs) = none ∧ c.opcode = 0x88 ∧ s.dev.f HAP_CH_ASSIGN.OWNER k = s.dev.hapOwner k) ∧
    (∃ (s : State) (f : Fn) (q : Fin 8) (c : Cmd) (k : Nat) (errs : List (Bool × Nat × Nat)), k = c.u 32 1 % 8 ∧ errs = [(c.u 33 1 / 2 != 0, ST_BAD_FIELD, errByte 33), (decide (160 ≤ c.u 34 1), ST_BAD_FIELD, errByte 34), (!c.zero 35 63, ST_BAD_FIELD, errByte 35)] ∧ s.Bare f q c ∧ s.dev.regsWf = true ∧ s.dev.tablesWf = true ∧ c.opcode = 0x89 ∧ firstError (s.dev.hapHead f c ++ errs) = none ∧ c.opcode = 0x89 ∧ s.dev.effectOk k (c.u 34 1) = false) ∧
    (∃ (s : State) (f : Fn) (q : Fin 8) (c : Cmd) (k : Nat) (errs : List (Bool × Nat × Nat)), k = c.u 32 1 % 8 ∧ errs = [(c.u 33 1 / 2 != 0, ST_BAD_FIELD, errByte 33), (decide (160 ≤ c.u 34 1), ST_BAD_FIELD, errByte 34), (!c.zero 35 63, ST_BAD_FIELD, errByte 35)] ∧ s.Bare f q c ∧ s.dev.regsWf = true ∧ s.dev.tablesWf = true ∧ c.opcode = 0x89 ∧ firstError (s.dev.hapHead f c ++ errs) = none ∧ c.opcode = 0x89 ∧ s.dev.effectOk k (c.u 34 1) = true ∧ (s.dev.hapState k = 0 ∨ s.dev.hapState k = 5)) ∧
    (∃ (s : State) (f : Fn) (q : Fin 8) (c : Cmd) (k : Nat) (errs : List (Bool × Nat × Nat)), k = c.u 32 1 % 8 ∧ errs = [(c.u 33 1 / 2 != 0, ST_BAD_FIELD, errByte 33), (decide (160 ≤ c.u 34 1), ST_BAD_FIELD, errByte 34), (!c.zero 35 63, ST_BAD_FIELD, errByte 35)] ∧ s.Bare f q c ∧ s.dev.regsWf = true ∧ s.dev.tablesWf = true ∧ c.opcode = 0x89 ∧ firstError (s.dev.hapHead f c ++ errs) = none ∧ c.opcode = 0x89 ∧ s.dev.effectOk k (c.u 34 1) = true ∧ s.dev.vfHeld f.code = false ∧ s.dev.hapState k = 1 ∧ c.u 34 1 ≠ 120 ∧ s.dev.hapLimit k = 0) ∧
    (∃ (s : State) (f : Fn) (q : Fin 8) (c : Cmd) (k : Nat) (errs : List (Bool × Nat × Nat)), k = c.u 32 1 % 8 ∧ errs = [(c.u 33 1 / 2 != 0, ST_BAD_FIELD, errByte 33), (decide (160 ≤ c.u 34 1), ST_BAD_FIELD, errByte 34), (!c.zero 35 63, ST_BAD_FIELD, errByte 35)] ∧ s.Bare f q c ∧ s.dev.regsWf = true ∧ s.dev.tablesWf = true ∧ c.opcode = 0x89 ∧ firstError (s.dev.hapHead f c ++ errs) = none ∧ c.opcode = 0x89 ∧ s.dev.effectOk k (c.u 34 1) = true ∧ s.dev.vfHeld f.code = false ∧ s.dev.hapState k = 2 ∧ c.u 34 1 ≠ 120 ∧ bit (c.u 33 1) 0 = false ∧ s.dev.fb HAP_CH_STAT.QUEUED k = false) ∧
    (∃ (s : State) (f : Fn) (q : Fin 8) (c : Cmd) (k : Nat) (errs : List (Bool × Nat × Nat)), k = c.u 32 1 % 8 ∧ errs = [(c.u 33 1 / 2 != 0, ST_BAD_FIELD, errByte 33), (decide (160 ≤ c.u 34 1), ST_BAD_FIELD, errByte 34), (!c.zero 35 63, ST_BAD_FIELD, errByte 35)] ∧ s.Bare f q c ∧ s.dev.regsWf = true ∧ s.dev.tablesWf = true ∧ c.opcode = 0x89 ∧ firstError (s.dev.hapHead f c ++ errs) = none ∧ c.opcode = 0x89 ∧ s.dev.effectOk k (c.u 34 1) = true ∧ s.dev.vfHeld f.code = false ∧ s.dev.hapState k = 2 ∧ c.u 34 1 ≠ 120 ∧ bit (c.u 33 1) 0 = false ∧ s.dev.fb HAP_CH_STAT.QUEUED k = true) ∧
    (∃ (s : State) (f : Fn) (q : Fin 8) (c : Cmd) (k : Nat) (errs : List (Bool × Nat × Nat)), k = c.u 32 1 % 8 ∧ errs = [(!c.zero 33 63, ST_BAD_FIELD, errByte 33)] ∧ s.Bare f q c ∧ s.dev.regsWf = true ∧ s.dev.tablesWf = true ∧ c.opcode = 0x8A ∧ firstError (s.dev.hapHead f c ++ errs) = none ∧ c.opcode = 0x8A ∧ s.dev.hapState k = 2) ∧
    (∃ (s : State) (f : Fn) (q : Fin 8) (c : Cmd) (k : Nat) (errs : List (Bool × Nat × Nat)), k = c.u 32 1 % 8 ∧ errs = [(!c.zero 33 63, ST_BAD_FIELD, errByte 33)] ∧ s.Bare f q c ∧ s.dev.regsWf = true ∧ s.dev.tablesWf = true ∧ c.opcode = 0x8A ∧ firstError (s.dev.hapHead f c ++ errs) = none ∧ c.opcode = 0x8A ∧ s.dev.hapState k ≠ 2 ∧ s.dev.hapState k ≠ 3) ∧
    (∃ (s : State) (f : Fn) (q : Fin 8) (c : Cmd) (s0 : _) (st res : Nat), s0 = s.started f q c ∧ s.Bare f q c ∧ s.dev.regsWf = true ∧ s.dev.tablesWf = true ∧ c.opcode = 0x8B ∧ (s0.hapLoad f c).2 = (st, res)) ∧
    (∃ (s : State) (f : Fn) (q : Fin 8) (c : Cmd) (s0 : _) (h : _) (bs : List Byte), s0 = s.started f q c ∧ s.Bare f q c ∧ s.dev.regsWf = true ∧ s.dev.tablesWf = true ∧ c.opcode = 0x8B ∧ c.ext = 0 ∧ c.conts = [] ∧ c.zero 32 33 = true ∧ 128 ≤ c.u 34 1 ∧ c.u 34 1 < 160 ∧ c.zero 35 39 = true ∧ c.u 40 8 % 64 = 0 ∧ c.zero 48 63 = true ∧ s.dev.fl HAP_EFF_ASSIGN.OWNER (c.u 34 1 - 128) = f.code ∧ s.dev.inDevice (c.u 40 8) (c.u 40 8 + 7) = true ∧ (s0.readMem ⟨f.code, c.secure⟩ 13 (c.u 40 8) 8).2 = .ok h ∧ 1 ≤ le h 0 1 ∧ le h 0 1 ≤ 63 ∧ s.dev.inDevice (c.u 40 8) (c.u 40 8 + 8 * le h 0 1 + 7) = true ∧ (s0.readMem ⟨f.code, c.secure⟩ 13 (c.u 40 8) (8 + 8 * le h 0 1)).2 = .ok bs ∧ hapBad bs = none ∧ s.dev.effectUsed (c.u 34 1) = false) ∧
    (∃ (s : State) (n : Fin 8) (held : Bool) (k e : Nat), s.dev.regsWf = true ∧ s.dev.tablesWf = true ∧ s.dev.fb HAP_TRIG_CFG.EN n.val = true ∧ (s.dev.fb HAP_TRIG_CFG.FILT n.val = true → held = true) ∧ s.dev.f HAP_TRIG_CFG.EDGE n.val ≠ 1 ∧ k = s.dev.f HAP_TRIG_CFG.CH n.val ∧ e = s.dev.f HAP_TRIG_CFG.EFFECT n.val ∧ s.dev.effectOk k e = false) ∧
    (∃ (s : State) (n : Fin 8) (held : Bool) (k e : Nat), s.dev.regsWf = true ∧ s.dev.tablesWf = true ∧ s.dev.fb HAP_TRIG_CFG.EN n.val = true ∧ (s.dev.fb HAP_TRIG_CFG.FILT n.val = true → held = true) ∧ s.dev.f HAP_TRIG_CFG.EDGE n.val ≠ 1 ∧ k = s.dev.f HAP_TRIG_CFG.CH n.val ∧ e = s.dev.f HAP_TRIG_CFG.EFFECT n.val ∧ s.dev.effectOk k e = true ∧ s.dev.vfHeld (s.dev.hapOwner k) = false ∧ s.dev.hapState k = 1 ∧ e ≠ 120 ∧ s.dev.hapLimit k = 0) ∧
    (∃ (s : State) (n : Fin 8), s.dev.regsWf = true ∧ s.dev.tablesWf = true ∧ s.dev.fb HAP_TRIG_CFG.EN n.val = false) ∧
    (∃ (s : State) (f : Fn) (q : Fin 8) (c : Cmd) (k : Nat) (errs : List (Bool × Nat × Nat)), k = c.u 32 1 % 8 ∧ errs = [(c.u 33 1 / 2 != 0, ST_BAD_FIELD, errByte 33), (decide (160 ≤ c.u 34 1), ST_BAD_FIELD, errByte 34), (!c.zero 35 63, ST_BAD_FIELD, errByte 35)] ∧ s.Bare f q c ∧ s.dev.regsWf = true ∧ s.dev.tablesWf = true ∧ c.opcode = 0x89 ∧
      firstError (s.dev.hapHead f c ++ errs) = none ∧ s.dev.effectOk k (c.u 34 1) = true ∧ s.dev.vfHeld f.code = false ∧ c.u 34 1 = 120 ∧ s.dev.hapState k = 4) :=
  ⟨⟨u1, .pf 0, 0, inner u1 (Fn.pf 0), (inner u1 (Fn.pf 0)).u 32 1 % 8, hapSetErr (inner u1 (Fn.pf 0)) ++ [(u1.dev.hapBusy ((inner u1 (Fn.pf 0)).u 32 1 % 8), ST_BUSY, errByte 32)], ST_BUSY, errByte 32, rfl, rfl, bare_of (by decide +kernel), by decide +kernel⟩,
   ⟨u2, .pf 0, 0, inner u2 (Fn.pf 0), [((inner u2 (Fn.pf 0)).u 33 1 / 2 != 0, ST_BAD_FIELD, errByte 33), (decide (160 ≤ (inner u2 (Fn.pf 0)).u 34 1), ST_BAD_FIELD, errByte 34), (!(inner u2 (Fn.pf 0)).zero 35 63, ST_BAD_FIELD, errByte 35)], ST_BAD_FIELD, errByte 34, rfl, bare_of (by decide +kernel), by decide +kernel⟩,
   ⟨u3, .pf 0, 0, inner u3 (Fn.pf 0), [(!(inner u3 (Fn.pf 0)).zero 33 63, ST_BAD_FIELD, errByte 33)], ST_NOT_OWNER, errByte 32, rfl, bare_of (by decide +kernel), by decide +kernel⟩,
   ⟨u4, .pf 0, 0, inner u4 (Fn.pf 0), (inner u4 (Fn.pf 0)).u 32 1 % 8, hapSetErr (inner u4 (Fn.pf 0)) ++ [(u4.dev.hapBusy ((inner u4 (Fn.pf 0)).u 32 1 % 8), ST_BUSY, errByte 32)], rfl, rfl, bare_of (by decide +kernel), by decide +kernel⟩,
   ⟨u5, .pf 0, 0, inner u5 (Fn.pf 0), (inner u5 (Fn.pf 0)).u 32 1 % 8, [((inner u5 (Fn.pf 0)).u 33 1 / 2 != 0, ST_BAD_FIELD, errByte 33), (decide (160 ≤ (inner u5 (Fn.pf 0)).u 34 1), ST_BAD_FIELD, errByte 34), (!(inner u5 (Fn.pf 0)).zero 35 63, ST_BAD_FIELD, errByte 35)], rfl, rfl, bare_of (by decide +kernel), by decide +kernel⟩,
   ⟨u6, .pf 0, 0, inner u6 (Fn.pf 0), (inner u6 (Fn.pf 0)).u 32 1 % 8, [((inner u6 (Fn.pf 0)).u 33 1 / 2 != 0, ST_BAD_FIELD, errByte 33), (decide (160 ≤ (inner u6 (Fn.pf 0)).u 34 1), ST_BAD_FIELD, errByte 34), (!(inner u6 (Fn.pf 0)).zero 35 63, ST_BAD_FIELD, errByte 35)], rfl, rfl, bare_of (by decide +kernel), by decide +kernel⟩,
   ⟨u7, .pf 0, 0, inner u7 (Fn.pf 0), (inner u7 (Fn.pf 0)).u 32 1 % 8, [((inner u7 (Fn.pf 0)).u 33 1 / 2 != 0, ST_BAD_FIELD, errByte 33), (decide (160 ≤ (inner u7 (Fn.pf 0)).u 34 1), ST_BAD_FIELD, errByte 34), (!(inner u7 (Fn.pf 0)).zero 35 63, ST_BAD_FIELD, errByte 35)], rfl, rfl, bare_of (by decide +kernel), by decide +kernel⟩,
   ⟨u8, .pf 0, 0, inner u8 (Fn.pf 0), (inner u8 (Fn.pf 0)).u 32 1 % 8, [((inner u8 (Fn.pf 0)).u 33 1 / 2 != 0, ST_BAD_FIELD, errByte 33), (decide (160 ≤ (inner u8 (Fn.pf 0)).u 34 1), ST_BAD_FIELD, errByte 34), (!(inner u8 (Fn.pf 0)).zero 35 63, ST_BAD_FIELD, errByte 35)], rfl, rfl, bare_of (by decide +kernel), by decide +kernel⟩,
   ⟨u9, .pf 0, 0, inner u9 (Fn.pf 0), (inner u9 (Fn.pf 0)).u 32 1 % 8, [((inner u9 (Fn.pf 0)).u 33 1 / 2 != 0, ST_BAD_FIELD, errByte 33), (decide (160 ≤ (inner u9 (Fn.pf 0)).u 34 1), ST_BAD_FIELD, errByte 34), (!(inner u9 (Fn.pf 0)).zero 35 63, ST_BAD_FIELD, errByte 35)], rfl, rfl, bare_of (by decide +kernel), by decide +kernel⟩,
   ⟨u10, .pf 0, 0, inner u10 (Fn.pf 0), (inner u10 (Fn.pf 0)).u 32 1 % 8, [(!(inner u10 (Fn.pf 0)).zero 33 63, ST_BAD_FIELD, errByte 33)], rfl, rfl, bare_of (by decide +kernel), by decide +kernel⟩,
   ⟨u11, .pf 0, 0, inner u11 (Fn.pf 0), (inner u11 (Fn.pf 0)).u 32 1 % 8, [(!(inner u11 (Fn.pf 0)).zero 33 63, ST_BAD_FIELD, errByte 33)], rfl, rfl, bare_of (by decide +kernel), by decide +kernel⟩,
   ⟨u12, .pf 0, 0, inner u12 (Fn.pf 0), u12.started (Fn.pf 0) (0) (inner u12 (Fn.pf 0)), ST_BAD_FIELD, errByte 34, rfl, bare_of (by decide +kernel), by decide +kernel⟩,
   ⟨u13, .pf 0, 0, inner u13 (Fn.pf 0), u13.started (Fn.pf 0) (0) (inner u13 (Fn.pf 0)), eff17.take 8, eff17, rfl, bare_of (by decide +kernel), by decide +kernel⟩,
   ⟨u14, 7, true, 7, 128, by decide +kernel⟩,
   ⟨u15, 7, true, 7, 159, by decide +kernel⟩,
   ⟨u16, 7, by decide +kernel⟩,
   ⟨u35, .pf 0, 0, inner u35 (Fn.pf 0), (inner u35 (Fn.pf 0)).u 32 1 % 8, [((inner u35 (Fn.pf 0)).u 33 1 / 2 != 0, ST_BAD_FIELD, errByte 33), (decide (160 ≤ (inner u35 (Fn.pf 0)).u 34 1), ST_BAD_FIELD, errByte 34), (!(inner u35 (Fn.pf 0)).zero 35 63, ST_BAD_FIELD, errByte 35)], rfl, rfl, bare_of (by decide +kernel), by decide +kernel⟩⟩

def u17 : State := h17 ch17 2
def u31 : State := h17 { ch17 with pos := 10 ^ 6 } 2
def u32 : State := h17 { ch17 with slow := 249, ticks := 624 } 3
def u33 : State := h17 { ch17 with weak := 250 } 2
def u18 : State := h17 { ch17 with bridge := .pull, width := 88, slow := 250 } 3
def u19 : State := h17 { ch17 with shorting := true, ticks := 125, bridge := .short, stops := [stp] } 3
def u20 : State := h17 { ch17 with shorting := true, ticks := 125, bridge := .short, stops := [stp] } 3 (fun d => (d.setF HAP_CH_STAT.QUEUED 7 1).setF HAP_CH_STAT.QEFFECT 7 33)
def u21 : State := h17 { ch17 with shorting := true, ticks := 125, bridge := .short, stops := [stp], temp := 200 } 3
def u22 : State := h17 ch17 4 (fun d => d.setF HAP_CH_STAT.CAUSE 7 1)
def u23 : State := h17 { ch17 with bridge := .push, stops := [stp] } 2
def u24 : State := h17 { ch17 with bridge := .push, width := 3 } 2

/-- A RAM effect with NO_BRAKE is over. -/
def u36 (temp : Int) : State := h17 { ch17 with pos := 10 ^ 6, temp := temp, stops := [stp] } 2 (fun d =>
  { d.setF HAP_CH_STAT.EFFECT 7 159 with hap := { d.hap with effects := Tbl.put ([] : Tbl (List Byte)) 31 eff17 } })

/-- The premises of each clause of `HapticChannelsMoveThroughStates` hold together. -/
theorem witness_HapticChannelsMoveThroughStates :
    (∃ (s : State) (k : Fin 8), s.dev.regsWf = true ∧ s.dev.tablesWf = true ∧ s.dev.f HAP_CH_ASSIGN.OWNER k.val = s.dev.hapOwner k.val ∧ s.dev.hapState k.val = 2 ∧ s.dev.effectOver k.val = false) ∧
    (∃ (s : State) (k : Fin 8), s.dev.regsWf = true ∧ s.dev.tablesWf = true ∧ s.dev.f HAP_CH_ASSIGN.OWNER k.val = s.dev.hapOwner k.val ∧ s.dev.hapState k.val = 2 ∧ s.dev.effectOver k.val = true ∧ s.dev.noBrake (s.dev.f HAP_CH_STAT.EFFECT k.val) = false) ∧
    (∃ (s : State) (k : Fin 8), s.dev.regsWf = true ∧ s.dev.tablesWf = true ∧ s.dev.f HAP_CH_ASSIGN.OWNER k.val = s.dev.hapOwner k.val ∧ (s.dev.hapCh k.val).brakeOver = false) ∧
    (∃ (s : State) (k : Fin 8), s.dev.regsWf = true ∧ s.dev.tablesWf = true ∧ s.dev.f HAP_CH_ASSIGN.OWNER k.val = s.dev.hapOwner k.val ∧ s.dev.hapState k.val = 3 ∧ (s.dev.hapCh k.val).brakeOver = true) ∧
    (∃ (s : State) (k : Fin 8), s.dev.regsWf = true ∧ s.dev.tablesWf = true ∧ s.dev.f HAP_CH_ASSIGN.OWNER k.val = s.dev.hapOwner k.val ∧ s.dev.hapState k.val = 3 ∧ (s.dev.hapCh k.val).shorting = true ∧ 2000 ≤ 16 * (s.dev.hapCh k.val).ticks ∧ s.dev.hapLimit k.val = 0 ∧ s.dev.fb HAP_CH_STAT.QUEUED k.val = false) ∧
    (∃ (s : State) (k : Fin 8), s.dev.regsWf = true ∧ s.dev.tablesWf = true ∧ s.dev.f HAP_CH_ASSIGN.OWNER k.val = s.dev.hapOwner k.val ∧ s.dev.hapState k.val = 3 ∧ (s.dev.hapCh k.val).shorting = true ∧ 2000 ≤ 16 * (s.dev.hapCh k.val).ticks ∧ s.dev.hapLimit k.val = 0 ∧ s.dev.fb HAP_CH_STAT.QUEUED k.val = true) ∧
    (∃ (s : State) (k : Fin 8), s.dev.regsWf = true ∧ s.dev.tablesWf = true ∧ s.dev.f HAP_CH_ASSIGN.OWNER k.val = s.dev.hapOwner k.val ∧ s.dev.hapState k.val = 3 ∧ (s.dev.hapCh k.val).shorting = true ∧ 2000 ≤ 16 * (s.dev.hapCh k.val).ticks ∧ s.dev.hapLimit k.val ≠ 0) ∧
    (∃ (s : State) (k : Fin 8) (mo : Nat) (r0 temp : Int), s.dev.regsWf = true ∧ s.dev.tablesWf = true ∧ s.dev.f HAP_CH_ASSIGN.OWNER k.val = s.dev.hapOwner k.val ∧ s.dev.hapState k.val = 4 ∧ r0 = ((max 1 ((s.dev.hapCh k.val).u 38 2) : Nat) : Int) ∧ temp = 25 + ((mo : Int) - r0) * 100000 / (393 * r0) ∧ s.dev.f HAP_CH_STAT.CAUSE k.val = 1 ∧ ((s.dev.hapCh k.val).u 59 1 : Int) - 10 < temp) ∧
    (∃ (s : State) (k : Fin 8) (mo : Nat) (r0 temp : Int), s.dev.regsWf = true ∧ s.dev.tablesWf = true ∧ s.dev.f HAP_CH_ASSIGN.OWNER k.val = s.dev.hapOwner k.val ∧ s.dev.hapState k.val = 4 ∧ r0 = ((max 1 ((s.dev.hapCh k.val).u 38 2) : Nat) : Int) ∧ temp = 25 + ((mo : Int) - r0) * 100000 / (393 * r0) ∧ temp ≤ ((s.dev.hapCh k.val).u 59 1 : Int) - 10 ∧ (s.dev.hapCh k.val).squareSum < 25000 * ((s.dev.hapCh k.val).u 48 2) ^ 2 ∧ s.dev.driveTime k.val < (s.dev.hapCh k.val).u 58 1 * 10000000 ∧ s.dev.fb HAP_CH_STAT.QUEUED k.val = false) ∧
    (∃ (s : State) (k : Fin 8) (ma : Int), s.dev.regsWf = true ∧ s.dev.tablesWf = true ∧ s.dev.f HAP_CH_ASSIGN.OWNER k.val = s.dev.hapOwner k.val ∧ 3 * (s.dev.hapCh k.val).u 46 2 < 2 * ma.natAbs ∧ s.dev.hapState k.val ≠ 0 ∧ s.dev.hapState k.val ≠ 5) ∧
    (∃ (s : State) (k : Fin 8), s.dev.regsWf = true ∧ s.dev.tablesWf = true ∧ s.dev.f HAP_CH_ASSIGN.OWNER k.val = s.dev.hapOwner k.val ∧ s.dev.hapState k.val = 2 ∧ 1000 ≤ 4 * (s.dev.hapCh k.val).weak) ∧
    (∃ (s : State) (k : Fin 8) (ma : Int), s.dev.regsWf = true ∧ s.dev.tablesWf = true ∧ s.dev.f HAP_CH_ASSIGN.OWNER k.val = s.dev.hapOwner k.val ∧ (s.dev.hapCh k.val).u 46 2 ≤ ma.natAbs ∧ ((s.dev.hapCh k.val).bridge = .push ∨ (s.dev.hapCh k.val).bridge = .pull)) ∧
    (∃ (s : State) (k : Fin 8), s.dev.regsWf = true ∧ s.dev.tablesWf = true ∧ s.dev.f HAP_CH_ASSIGN.OWNER k.val = s.dev.hapOwner k.val ∧ s.dev.hapState k.val = 2 ∧ s.dev.effectOver k.val = true ∧ s.dev.noBrake (s.dev.f HAP_CH_STAT.EFFECT k.val) = true ∧ s.dev.hapLimit k.val = 0 ∧ s.dev.fb HAP_CH_STAT.QUEUED k.val = false) ∧
    (∃ (s : State) (k : Fin 8), s.dev.regsWf = true ∧ s.dev.tablesWf = true ∧ s.dev.f HAP_CH_ASSIGN.OWNER k.val = s.dev.hapOwner k.val ∧ s.dev.hapState k.val = 2 ∧ s.dev.effectOver k.val = true ∧ s.dev.noBrake (s.dev.f HAP_CH_STAT.EFFECT k.val) = true ∧ s.dev.hapLimit k.val ≠ 0) ∧
    (∃ (s : State) (k : Fin 8) (ma : Int), s.dev.regsWf = true ∧ s.dev.tablesWf = true ∧ s.dev.f HAP_CH_ASSIGN.OWNER k.val = s.dev.hapOwner k.val ∧ 2 * ma.natAbs ≤ 3 * (s.dev.hapCh k.val).u 46 2) ∧
    (∃ (s : State) (k : Fin 8) (ma : Int), s.dev.regsWf = true ∧ s.dev.tablesWf = true ∧ s.dev.f HAP_CH_ASSIGN.OWNER k.val = s.dev.hapOwner k.val ∧ ma.natAbs < (s.dev.hapCh k.val).u 46 2) :=
  ⟨⟨u17, 7, by decide +kernel⟩,
   ⟨u31, 7, by decide +kernel⟩,
   ⟨u32, 7, by decide +kernel⟩,
   ⟨u18, 7, by decide +kernel⟩,
   ⟨u19, 7, by decide +kernel⟩,
   ⟨u20, 7, by decide +kernel⟩,
   ⟨u21, 7, by decide +kernel⟩,
   ⟨u22, 7, 10076, 8000, 91, by decide +kernel⟩,
   ⟨u22, 7, 10075, 8000, 90, by decide +kernel⟩,
   ⟨u23, 7, -901, by decide +kernel⟩,
   ⟨u33, 7, by decide +kernel⟩,
   ⟨u24, 7, 600, by decide +kernel⟩,
   ⟨u36 25, 7, by decide +kernel⟩,
   ⟨u36 101, 7, by decide +kernel⟩,
   ⟨u23, 7, 900, by decide +kernel⟩,
   ⟨u23, 7, -599, by decide +kernel⟩⟩

def u25 : State := h17 { ch17 with res := 8000 } 2 (fun d => d.setF HAP_CH_STAT.EFFECT 7 64)
def u34 : State := h17 { ch17 with res := 8000, freq := 150, pos := 2084 } 2
def s17 (v a : Nat) : HapSample := ⟨BitVec.ofNat 16 v, BitVec.ofNat 16 a⟩
/-- The current's full scale is 2000 mA. -/
def u37 : State := h17 { cfg := (ch17.cfg.set 18 0xD0).set 19 7 } 2
def u38 : State := h17 { ch17 with gapping := true, freq := 150, pos := 2084, cross := some 100 } 2
def u26 : State := h17 { ch17 with res := 8000 } 1
def u27 : State := h17 { ch17 with accFails := 2, accUs := 125 } 2
def u28 : State := h17 { ch17 with accFails := 1, accUs := 125 } 2
def u29 : State := h17 ch17 1
def u30 : State := h17 ch17 1 (fun d => d.setReg .OWN_PIN_WORLD 1 0xFFFFFFFF)

/-- The premises of each clause of `HapticMeasurementsAndOwners` hold together. -/
theorem witness_HapticMeasurementsAndOwners :
    (∃ (s : State) (k : Fin 8) (h : HapCh) (samples : List HapSample) (xs : List (Int × Int)), h = s.dev.hapCh k.val ∧
      xs = samples.map (fun x => ((x.volts.toInt * (h.u 52 2 : Int)).tdiv 32768, (x.amps.toInt * (h.u 50 2 : Int)).tdiv 32768)) ∧ s.dev.regsWf = true ∧ s.dev.tablesWf = true ∧ (∃ x ∈ xs, 3 * h.u 46 2 < 2 * x.2.natAbs) ∧ s.dev.f HAP_CH_ASSIGN.OWNER k.val = s.dev.hapOwner k.val ∧ s.dev.hapState k.val ≠ 0 ∧ s.dev.hapState k.val ≠ 5) ∧
    (∃ (s : State) (k : Fin 8) (h : HapCh) (samples : List HapSample) (xs : List (Int × Int)), h = s.dev.hapCh k.val ∧
      xs = samples.map (fun x => ((x.volts.toInt * (h.u 52 2 : Int)).tdiv 32768, (x.amps.toInt * (h.u 50 2 : Int)).tdiv 32768)) ∧ s.dev.regsWf = true ∧ s.dev.tablesWf = true ∧ (∀ x ∈ xs, 2 * x.2.natAbs ≤ 3 * h.u 46 2) ∧ (∃ x ∈ xs, h.cutBy x.2 = true) ∧ s.dev.hapState k.val ≠ 0) ∧
    (∃ (s : State) (k : Fin 8) (h : HapCh) (samples : List HapSample) (xs : List (Int × Int)), h = s.dev.hapCh k.val ∧
      xs = samples.map (fun x => ((x.volts.toInt * (h.u 52 2 : Int)).tdiv 32768, (x.amps.toInt * (h.u 50 2 : Int)).tdiv 32768)) ∧ s.dev.regsWf = true ∧ s.dev.tablesWf = true ∧ (∀ x ∈ xs, 2 * x.2.natAbs ≤ 3 * h.u 46 2) ∧ (∀ x ∈ xs, h.cutBy x.2 = false) ∧ s.dev.hapState k.val = 1) ∧
    (∃ (s : State) (k : Fin 8) (h : HapCh) (samples : List HapSample) (xs : List (Int × Int)), h = s.dev.hapCh k.val ∧
      xs = samples.map (fun x => ((x.volts.toInt * (h.u 52 2 : Int)).tdiv 32768, (x.amps.toInt * (h.u 50 2 : Int)).tdiv 32768)) ∧ s.dev.regsWf = true ∧ s.dev.tablesWf = true ∧ (∀ x ∈ xs, 2 * x.2.natAbs ≤ 3 * h.u 46 2) ∧ (∀ x ∈ xs, h.cutBy x.2 = false) ∧ s.dev.hapState k.val = 2 ∧ h.gapping = false ∧ h.gapNow = true) ∧
    (∃ (s : State) (k : Fin 8) (h : HapCh) (samples : List HapSample) (xs : List (Int × Int)), h = s.dev.hapCh k.val ∧
      xs = samples.map (fun x => ((x.volts.toInt * (h.u 52 2 : Int)).tdiv 32768, (x.amps.toInt * (h.u 50 2 : Int)).tdiv 32768)) ∧ s.dev.regsWf = true ∧ s.dev.tablesWf = true ∧ (∀ x ∈ xs, 2 * x.2.natAbs ≤ 3 * h.u 46 2) ∧ (∀ x ∈ xs, h.cutBy x.2 = false) ∧ s.dev.hapState k.val = 2 ∧ h.gapping = false ∧ h.gapNow = false ∧ s.dev.f HAP_CH_STAT.EFFECT k.val < 128 ∧ (romLevel (s.dev.f HAP_CH_STAT.EFFECT k.val) (16 * h.pos)).isSome = true) ∧
    (∃ (s : State) (k : Fin 8) (h : HapCh) (samples : List HapSample) (xs : List (Int × Int)), h = s.dev.hapCh k.val ∧
      xs = samples.map (fun x => ((x.volts.toInt * (h.u 52 2 : Int)).tdiv 32768, (x.amps.toInt * (h.u 50 2 : Int)).tdiv 32768)) ∧ s.dev.regsWf = true ∧ s.dev.tablesWf = true ∧ s.dev.hapState k.val = 2 ∧ h.gapping = true ∧ (∀ x ∈ xs, 2 * x.2.natAbs ≤ 3 * h.u 46 2) ∧ h.gapVels (16 * h.pos - 16) xs = []) ∧
    (∃ (s : State) (k : Fin 8) (h : HapCh) (samples : List HapSample) (xs : List (Int × Int)), h = s.dev.hapCh k.val ∧
      xs = samples.map (fun x => ((x.volts.toInt * (h.u 52 2 : Int)).tdiv 32768, (x.amps.toInt * (h.u 50 2 : Int)).tdiv 32768)) ∧ s.dev.regsWf = true ∧ s.dev.tablesWf = true ∧ s.dev.hapState k.val = 2 ∧ h.gapping = true ∧ (∀ x ∈ xs, 2 * x.2.natAbs ≤ 3 * h.u 46 2) ∧ (∃ v, (h.gapVels (16 * h.pos - 16) xs).getLast? = some v) ∧ (∃ t0 t1, zeroCross (h.gapVels (16 * h.pos - 16) xs) = some t1 ∧ h.cross = some t0 ∧ t0 < t1)) ∧
    (∃ (s : State) (k : Fin 8) (h : HapCh) (samples : List HapSample) (xs : List (Int × Int)), h = s.dev.hapCh k.val ∧
      xs = samples.map (fun x => ((x.volts.toInt * (h.u 52 2 : Int)).tdiv 32768, (x.amps.toInt * (h.u 50 2 : Int)).tdiv 32768)) ∧ s.dev.regsWf = true ∧ s.dev.tablesWf = true ∧ (s.dev.hapState k.val ≠ 2 ∨ h.gapping = false)) ∧
    (∃ (s : State) (k : Fin 8) (h : HapCh), h = s.dev.hapCh k.val ∧ s.dev.regsWf = true ∧ s.dev.tablesWf = true ∧ s.dev.hapState k.val ≠ 0 ∧ bit (h.u 33 1) 1 = true ∧ h.fallback = false ∧ 125 ≤ h.accUs) ∧
    (∃ (s : State) (k : Fin 8) (h : HapCh), h = s.dev.hapCh k.val ∧ s.dev.regsWf = true ∧ s.dev.tablesWf = true ∧ s.dev.hapState k.val ≠ 0 ∧ bit (h.u 33 1) 1 = true ∧ h.fallback = false ∧ 125 ≤ h.accUs ∧ h.accFails < 2) ∧
    (∃ (s : State) (k : Fin 8) (h : HapCh), h = s.dev.hapCh k.val ∧ s.dev.regsWf = true ∧ s.dev.tablesWf = true ∧ s.dev.hapState k.val ≠ 0 ∧ bit (h.u 33 1) 1 = true ∧ h.fallback = false ∧ 125 ≤ h.accUs ∧ 2 ≤ h.accFails) ∧
    (∃ (s : State) (who : Fn) (k : Fin 8) (val : Word) (new : Nat), new = HAP_CH_ASSIGN.OWNER.get val ∧ s.dev.regsWf = true ∧ s.dev.tablesWf = true ∧ assigner who = true ∧ new ≠ s.dev.f HAP_CH_ASSIGN.OWNER k.val ∧ s.dev.mayGive who (s.dev.f HAP_CH_ASSIGN.OWNER k.val) = true ∧ s.dev.mayGive who new = true ∧ new ≠ s.dev.hapOwner k.val ∧ (s.dev.hapState k.val = 0 ∨ s.dev.hapState k.val = 1 ∨ s.dev.hapState k.val = 5)) ∧
    (∃ (s : State) (who : Fn) (k : Fin 8) (val : Word) (new : Nat), new = HAP_CH_ASSIGN.OWNER.get val ∧ s.dev.regsWf = true ∧ s.dev.tablesWf = true ∧ assigner who = true ∧ new ≠ s.dev.f HAP_CH_ASSIGN.OWNER k.val ∧ s.dev.mayGive who (s.dev.f HAP_CH_ASSIGN.OWNER k.val) = true ∧ s.dev.mayGive who new = true ∧ new ≠ s.dev.hapOwner k.val ∧ s.dev.hapState k.val = 2) ∧
    (∃ (s : State) (who : Fn) (k : Fin 8) (val : Word) (new : Nat), new = HAP_CH_ASSIGN.OWNER.get val ∧ s.dev.regsWf = true ∧ s.dev.tablesWf = true ∧ assigner who = true ∧ new ≠ s.dev.f HAP_CH_ASSIGN.OWNER k.val ∧ (s.dev.mayGive who (s.dev.f HAP_CH_ASSIGN.OWNER k.val) = false ∨ s.dev.mayGive who new = false)) ∧
    (∃ (s : State) (who : Fn) (k : Fin 32) (val : Word) (new : Nat), new = HAP_EFF_ASSIGN.OWNER.get val ∧ s.dev.regsWf = true ∧ s.dev.tablesWf = true ∧ assigner who = true ∧ s.dev.mayGive who (s.dev.f HAP_EFF_ASSIGN.OWNER k.val) = true ∧ s.dev.mayGive who new = true) ∧
    (∃ (s : State) (who : Fn) (k : Fin 32) (val : Word) (new : Nat), new = HAP_EFF_ASSIGN.OWNER.get val ∧ s.dev.regsWf = true ∧ s.dev.tablesWf = true ∧ assigner who = true ∧ (s.dev.mayGive who (s.dev.f HAP_EFF_ASSIGN.OWNER k.val) = false ∨ s.dev.mayGive who new = false)) ∧
    (∃ (s : State) (who : Fn) (n : Fin 8) (val : Word), s.dev.regsWf = true ∧ s.dev.tablesWf = true ∧ assigner who = true ∧ ((s.dev.htrigSecure n.val = true ∧ s.dev.secure who = false) ∨ s.dev.htrigSecure n.val ≠ s.dev.secureCode (s.dev.hapOwner (HAP_TRIG_CFG.CH.get val)))) ∧
    (∃ (s : State) (who : Fn) (n : Fin 8) (val : Word), s.dev.Accepts who .HAP_TRIG_CFG n.val val ∧ s.dev.regsWf = true ∧ s.dev.tablesWf = true ∧ assigner who = true ∧ (s.dev.htrigSecure n.val = true → s.dev.secure who = true) ∧ s.dev.htrigSecure n.val = s.dev.secureCode (s.dev.hapOwner (HAP_TRIG_CFG.CH.get val))) :=
  ⟨⟨u37, 7, u37.dev.hapCh 7, [s17 0 0, s17 0 0x8000, s17 0 0, s17 0 0], (([s17 0 0, s17 0 0x8000, s17 0 0, s17 0 0] : List HapSample).map (fun x => ((x.volts.toInt * ((u37.dev.hapCh 7).u 52 2 : Int)).tdiv 32768, (x.amps.toInt * ((u37.dev.hapCh 7).u 50 2 : Int)).tdiv 32768))), rfl, rfl, by decide +kernel⟩,
   ⟨u24, 7, u24.dev.hapCh 7, [s17 0 0, s17 0 0x7FFF, s17 0 0, s17 0 0], (([s17 0 0, s17 0 0x7FFF, s17 0 0, s17 0 0] : List HapSample).map (fun x => ((x.volts.toInt * ((u24.dev.hapCh 7).u 52 2 : Int)).tdiv 32768, (x.amps.toInt * ((u24.dev.hapCh 7).u 50 2 : Int)).tdiv 32768))), rfl, rfl, by decide +kernel⟩,
   ⟨u26, 7, u26.dev.hapCh 7, List.replicate 4 (s17 5 0x7FFF), ((List.replicate 4 (s17 5 0x7FFF) : List HapSample).map (fun x => ((x.volts.toInt * ((u26.dev.hapCh 7).u 52 2 : Int)).tdiv 32768, (x.amps.toInt * ((u26.dev.hapCh 7).u 50 2 : Int)).tdiv 32768))), rfl, rfl, by decide +kernel⟩,
   ⟨u34, 7, u34.dev.hapCh 7, List.replicate 4 (s17 5 0x7FFF), ((List.replicate 4 (s17 5 0x7FFF) : List HapSample).map (fun x => ((x.volts.toInt * ((u34.dev.hapCh 7).u 52 2 : Int)).tdiv 32768, (x.amps.toInt * ((u34.dev.hapCh 7).u 50 2 : Int)).tdiv 32768))), rfl, rfl, by decide +kernel⟩,
   ⟨u25, 7, u25.dev.hapCh 7, List.replicate 4 (s17 5 0x7FFF), ((List.replicate 4 (s17 5 0x7FFF) : List HapSample).map (fun x => ((x.volts.toInt * ((u25.dev.hapCh 7).u 52 2 : Int)).tdiv 32768, (x.amps.toInt * ((u25.dev.hapCh 7).u 50 2 : Int)).tdiv 32768))), rfl, rfl, by decide +kernel⟩,
   ⟨u38, 7, u38.dev.hapCh 7, List.replicate 12 (s17 5 0x7FFF), ((List.replicate 12 (s17 5 0x7FFF) : List HapSample).map (fun x => ((x.volts.toInt * ((u38.dev.hapCh 7).u 52 2 : Int)).tdiv 32768, (x.amps.toInt * ((u38.dev.hapCh 7).u 50 2 : Int)).tdiv 32768))), rfl, rfl, by decide +kernel⟩,
   ⟨u38, 7, u38.dev.hapCh 7, List.replicate 6 (s17 0x8000 0) ++ List.replicate 6 (s17 0x4000 0), ((List.replicate 6 (s17 0x8000 0) ++ List.replicate 6 (s17 0x4000 0) : List HapSample).map (fun x => ((x.volts.toInt * ((u38.dev.hapCh 7).u 52 2 : Int)).tdiv 32768, (x.amps.toInt * ((u38.dev.hapCh 7).u 50 2 : Int)).tdiv 32768))), rfl, rfl, by decide +kernel, by decide +kernel, by decide +kernel, by decide +kernel, by decide +kernel,
     Option.isSome_iff_exists.mp (by decide +kernel), 100, 33356, by decide +kernel⟩,
   ⟨u26, 7, u26.dev.hapCh 7, List.replicate 12 (s17 0 0), ((List.replicate 12 (s17 0 0) : List HapSample).map (fun x => ((x.volts.toInt * ((u26.dev.hapCh 7).u 52 2 : Int)).tdiv 32768, (x.amps.toInt * ((u26.dev.hapCh 7).u 50 2 : Int)).tdiv 32768))), rfl, rfl, by decide +kernel⟩,
   ⟨u27, 7, u27.dev.hapCh 7, rfl, by decide +kernel⟩,
   ⟨u28, 7, u28.dev.hapCh 7, rfl, by decide +kernel⟩,
   ⟨u27, 7, u27.dev.hapCh 7, rfl, by decide +kernel⟩,
   ⟨u29, .pf 0, 7, 0x10, HAP_CH_ASSIGN.OWNER.get 0x10, rfl, by decide +kernel⟩,
   ⟨u17, .pf 0, 7, 0x10, HAP_CH_ASSIGN.OWNER.get 0x10, rfl, by decide +kernel⟩,
   ⟨u17, .pf 1, 7, 5, HAP_CH_ASSIGN.OWNER.get (5), rfl, by decide +kernel⟩,
   ⟨u17, .pf 0, 31, 0x10, HAP_EFF_ASSIGN.OWNER.get 0x10, rfl, by decide +kernel⟩,
   ⟨u17, .pf 1, 31, 5, HAP_EFF_ASSIGN.OWNER.get (5), rfl, by decide +kernel⟩,
   ⟨u30, .pf 0, 7, 0x7, by decide +kernel⟩,
   ⟨u29, .pf 0, 7, 7, accepts_of (by decide +kernel), by decide +kernel⟩⟩

end W17

namespace W18

def b16 (n : Nat) : List Nat := (toLe n 2).map (·.toNat)
def b32 (n : Nat) : List Nat := (toLe n 4).map (·.toNat)
def b64 (n : Nat) : List Nat := (toLe n 8).map (·.toNat)
def own18 (d : Dev) : Dev := ([0, 1, 72, 73, 95] : List Nat).foldl (fun (d : Dev) k => d.setF AUD_SRC_CFG.OWNER k 4) ((((d.setF AUD_BUS_ASSIGN.OWNER 0 4).setF AUD_SNK_CFG.OWNER 62 4).setF AUD_SNK_CFG.OWNER 63 4).setF AUD_BUS_ASSIGN.OWNER 23 4)
def bus18 (k : Nat) (x : List Nat) : List Nat := [k, 0, 0, 0, 0, 0, 0, 0] ++ x ++ List.replicate (328 - x.length) 0 ++ b16 0 ++ b16 100 ++ b16 0 ++ b16 0 ++ b16 10 ++ b16 1 ++ b32 0 ++ b16 0 ++ b16 0 ++ b16 0 ++ b16 0 ++ List.replicate 24 0
def snk18 (k a : Nat) : List Nat := [k, 0, a, 0xFF] ++ List.replicate 28 0
def ham18 (bs ss : List (List Nat)) (ramp : Nat := 500) : List Byte := ((b32 0x41484D50 ++ b16 1 ++ [bs.length, ss.length] ++ b16 ramp ++ List.replicate 54 0) ++ bs.flatten ++ ss.flatten).map (BitVec.ofNat 8)
def mem18 (img : List Byte) (s : State) : State := owned 4 1 0x100000 (loaded 0x100000 img s)
def ac (op : Nat) (body : List Nat) (g : Dev → Dev := id) : State := st fun d => queued (.pf 0) 4 (cmdOf op body) (g (own18 d))
def hm (img : List Byte) (g : Dev → Dev := id) : State := mem18 img (ac 0x70 ([0,0,0,0,0,0,0,0] ++ b64 0x100000) g)
def h1 : List Byte := ham18 [bus18 23 [0x48, 1]] [snk18 63 128]
def h2 : List Byte := ham18 [bus18 23 []] [snk18 63 128] 499
def stp : CmdRef := ⟨qi (.pf 0) 0, 0⟩
def rr (d : Dev) : Dev := queued (.pf 0) 4 { cmdOf 0x71 [11] with phase := .running } d
def run18 (g : Dev → Dev) : State := st fun d => g ((rr (own18 d)).setF AUD_GLB_CTRL.RUN 0 1)
def ins18 : AudioIn := default

def u1 : State := ac 0x71 ([11,1,0,0,0,0,0,0] ++ b64 0x200000 ++ b32 4194304)
def u2 : State := ac 0x72 ([7,255,0,0,0,0,0,0] ++ b64 0x200000 ++ b32 1048576 ++ b16 65535)
def u3 : State := ac 0x73 [7]
def u4 : State := ac 0x71 [12]
def u5 : State := ac 0x72 ([7,255,0,0,0,0,0,0] ++ b64 0x2000000 ++ b32 1048577 ++ b16 65535)
def u6 : State := ac 0x73 [7] (fun d => d.setF AUD_SRC_CFG.OWNER 95 5)
def u7 : State := ac 0x70 ([0,0,0,0,0,0,0,0] ++ b64 0x8000000000)
def u8 : State := hm h1 (fun d => d.setF AUD_BUS_ASSIGN.OWNER 23 5)
def u9 : State := hm h2
def u10 : State := hm h1 (fun d => d.setF AUD_SRC_CFG.OWNER 0x48 5)
def u11 : State := hm h1

/-- The premises of each clause of `AudioCommandsWaitForTheBoundary` hold together. -/
theorem witness_AudioCommandsWaitForTheBoundary :
    (∃ (s : State) (f : Fn) (q : Fin 8) (c : Cmd) (errs : List (Bool × Nat × Nat)), errs = [(decide (12 ≤ c.u 32 1 % 16) || c.u 32 1 / 16 != 0, ST_BAD_FIELD, errByte 32), (!s.dev.ownsStream f.code (c.u 32 1 % 16), ST_NOT_OWNER, errByte 32), (c.ext != 0, ST_BAD_FIELD, errOutside), (!c.conts.isEmpty, ST_BAD_FIELD, errAt 32), (decide (4 ≤ c.u 33 1) || (f == .sp0 && bit (c.u 33 1) 1), ST_BAD_FIELD, errByte 33), (!c.zero 34 39, ST_BAD_FIELD, errByte 34), (c.u 33 1 % 2 == 1 && c.u 40 8 % 64 != 0, ST_BAD_FIELD, errByte 40), (c.u 33 1 % 2 == 1 && (decide (c.u 48 4 < 4096 ∨ 4194304 < c.u 48 4) || c.u 48 4 % 64 != 0), ST_BAD_FIELD, errByte 48), (!c.zero 52 63, ST_BAD_FIELD, errByte 52), (c.u 33 1 % 2 == 1 && s.dev.streamOn (c.u 32 1 % 16), ST_BUSY, errByte 32)] ∧ s.Bare f q c ∧ s.dev.regsWf = true ∧ s.dev.tablesWf = true ∧ c.opcode = 0x71 ∧ firstError errs = none) ∧
    (∃ (s : State) (f : Fn) (q : Fin 8) (c : Cmd) (errs : List (Bool × Nat × Nat)), errs = [(c.u 32 1 / 8 != 0, ST_BAD_FIELD, errByte 32), (s.dev.srcOwner (88 + c.u 32 1 % 8) != f.code, ST_NOT_OWNER, errByte 32), (c.ext != 0, ST_BAD_FIELD, errOutside), (!c.conts.isEmpty, ST_BAD_FIELD, errAt 32), (!c.zero 34 39, ST_BAD_FIELD, errByte 34), (decide (c.u 48 4 < 1 ∨ 1048576 < c.u 48 4), ST_BAD_FIELD, errByte 48), (!c.zero 54 63, ST_BAD_FIELD, errByte 54), (!inBanks (c.u 40 8) (c.u 40 8 + 2 * c.u 48 4 - 1), ST_BAD_GEOMETRY, errByte 40)] ∧ s.Bare f q c ∧ s.dev.regsWf = true ∧ s.dev.tablesWf = true ∧ c.opcode = 0x72 ∧ firstError errs = none) ∧
    (∃ (s : State) (f : Fn) (q : Fin 8) (c : Cmd) (errs : List (Bool × Nat × Nat)), errs = [(c.u 32 1 / 8 != 0, ST_BAD_FIELD, errByte 32), (s.dev.srcOwner (88 + c.u 32 1 % 8) != f.code, ST_NOT_OWNER, errByte 32), (c.ext != 0, ST_BAD_FIELD, errOutside), (!c.conts.isEmpty, ST_BAD_FIELD, errAt 32), (!c.zero 33 63, ST_BAD_FIELD, errByte 33)] ∧ s.Bare f q c ∧ s.dev.regsWf = true ∧ s.dev.tablesWf = true ∧ c.opcode = 0x73 ∧ firstError errs = none) ∧
    (∃ (s : State) (f : Fn) (q : Fin 8) (c : Cmd) (errs : List (Bool × Nat × Nat)) (st res : Nat), errs = [(decide (12 ≤ c.u 32 1 % 16) || c.u 32 1 / 16 != 0, ST_BAD_FIELD, errByte 32), (!s.dev.ownsStream f.code (c.u 32 1 % 16), ST_NOT_OWNER, errByte 32), (c.ext != 0, ST_BAD_FIELD, errOutside), (!c.conts.isEmpty, ST_BAD_FIELD, errAt 32), (decide (4 ≤ c.u 33 1) || (f == .sp0 && bit (c.u 33 1) 1), ST_BAD_FIELD, errByte 33), (!c.zero 34 39, ST_BAD_FIELD, errByte 34), (c.u 33 1 % 2 == 1 && c.u 40 8 % 64 != 0, ST_BAD_FIELD, errByte 40), (c.u 33 1 % 2 == 1 && (decide (c.u 48 4 < 4096 ∨ 4194304 < c.u 48 4) || c.u 48 4 % 64 != 0), ST_BAD_FIELD, errByte 48), (!c.zero 52 63, ST_BAD_FIELD, errByte 52), (c.u 33 1 % 2 == 1 && s.dev.streamOn (c.u 32 1 % 16), ST_BUSY, errByte 32)] ∧ s.Bare f q c ∧ s.dev.regsWf = true ∧ s.dev.tablesWf = true ∧ c.opcode = 0x71 ∧ firstError errs = some (st, res)) ∧
    (∃ (s : State) (f : Fn) (q : Fin 8) (c : Cmd) (errs : List (Bool × Nat × Nat)) (st res : Nat), errs = [(c.u 32 1 / 8 != 0, ST_BAD_FIELD, errByte 32), (s.dev.srcOwner (88 + c.u 32 1 % 8) != f.code, ST_NOT_OWNER, errByte 32), (c.ext != 0, ST_BAD_FIELD, errOutside), (!c.conts.isEmpty, ST_BAD_FIELD, errAt 32), (!c.zero 34 39, ST_BAD_FIELD, errByte 34), (decide (c.u 48 4 < 1 ∨ 1048576 < c.u 48 4), ST_BAD_FIELD, errByte 48), (!c.zero 54 63, ST_BAD_FIELD, errByte 54), (!inBanks (c.u 40 8) (c.u 40 8 + 2 * c.u 48 4 - 1), ST_BAD_GEOMETRY, errByte 40)] ∧ s.Bare f q c ∧ s.dev.regsWf = true ∧ s.dev.tablesWf = true ∧ c.opcode = 0x72 ∧ firstError errs = some (st, res)) ∧
    (∃ (s : State) (f : Fn) (q : Fin 8) (c : Cmd) (errs : List (Bool × Nat × Nat)) (st res : Nat), errs = [(c.u 32 1 / 8 != 0, ST_BAD_FIELD, errByte 32), (s.dev.srcOwner (88 + c.u 32 1 % 8) != f.code, ST_NOT_OWNER, errByte 32), (c.ext != 0, ST_BAD_FIELD, errOutside), (!c.conts.isEmpty, ST_BAD_FIELD, errAt 32), (!c.zero 33 63, ST_BAD_FIELD, errByte 33)] ∧ s.Bare f q c ∧ s.dev.regsWf = true ∧ s.dev.tablesWf = true ∧ c.opcode = 0x73 ∧ firstError errs = some (st, res)) ∧
    (∃ (s : State) (f : Fn) (q : Fin 8) (c : Cmd) (st res : Nat), s.Bare f q c ∧ s.dev.regsWf = true ∧ s.dev.tablesWf = true ∧ c.opcode = 0x70 ∧ firstError [(!c.conts.isEmpty, ST_BAD_FIELD, errAt 32), (!c.zero 32 39, ST_BAD_FIELD, errByte 32), (!c.zero 48 63, ST_BAD_FIELD, errByte 48), (c.u 40 8 % 64 != 0, ST_BAD_FIELD, errByte 40), (!s.dev.inDevice (c.u 40 8) (c.u 40 8 + 63), ST_BAD_GEOMETRY, errByte 40)] = some (st, res)) ∧
    (∃ (s : State) (f : Fn) (q : Fin 8) (c : Cmd) (s0 : State) (hd : _) (h : _) (i : Nat), s0 = s.started f q c ∧ s.Bare f q c ∧ s.dev.regsWf = true ∧ s.dev.tablesWf = true ∧ c.opcode = 0x70 ∧ c.conts = [] ∧ c.zero 32 39 = true ∧ c.zero 48 63 = true ∧ c.u 40 8 % 64 = 0 ∧ s.dev.inDevice (c.u 40 8) (c.u 40 8 + 63) = true ∧ (s0.readMem ⟨f.code, c.secure⟩ 13 (c.u 40 8) 64).2 = .ok hd ∧ s.dev.inDevice (c.u 40 8) (c.u 40 8 + 64 + 384 * hNbus hd + 32 * hNsink hd - 1) = true ∧ (s0.readMem ⟨f.code, c.secure⟩ 13 (c.u 40 8) (64 + 384 * hNbus hd + 32 * hNsink hd)).2 = .ok h ∧ s.dev.hamperOwner f.code h = some i) ∧
    (∃ (s : State) (f : Fn) (q : Fin 8) (c : Cmd) (s0 : State) (hd : _) (h : _) (i : Nat), s0 = s.started f q c ∧ s.Bare f q c ∧ s.dev.regsWf = true ∧ s.dev.tablesWf = true ∧ c.opcode = 0x70 ∧ c.conts = [] ∧ c.zero 32 39 = true ∧ c.zero 48 63 = true ∧ c.u 40 8 % 64 = 0 ∧ s.dev.inDevice (c.u 40 8) (c.u 40 8 + 63) = true ∧ (s0.readMem ⟨f.code, c.secure⟩ 13 (c.u 40 8) 64).2 = .ok hd ∧ s.dev.inDevice (c.u 40 8) (c.u 40 8 + 64 + 384 * hNbus hd + 32 * hNsink hd - 1) = true ∧ (s0.readMem ⟨f.code, c.secure⟩ 13 (c.u 40 8) (64 + 384 * hNbus hd + 32 * hNsink hd)).2 = .ok h ∧ s.dev.hamperOwner f.code h = none ∧ s.dev.hamperFields f.code h = some i) ∧
    (∃ (s : State) (f : Fn) (q : Fin 8) (c : Cmd) (s0 : State) (hd : _) (h : _) (i : Nat), s0 = s.started f q c ∧ s.Bare f q c ∧ s.dev.regsWf = true ∧ s.dev.tablesWf = true ∧ c.opcode = 0x70 ∧ c.conts = [] ∧ c.zero 32 39 = true ∧ c.zero 48 63 = true ∧ c.u 40 8 % 64 = 0 ∧ s.dev.inDevice (c.u 40 8) (c.u 40 8 + 63) = true ∧ (s0.readMem ⟨f.code, c.secure⟩ 13 (c.u 40 8) 64).2 = .ok hd ∧ s.dev.inDevice (c.u 40 8) (c.u 40 8 + 64 + 384 * hNbus hd + 32 * hNsink hd - 1) = true ∧ (s0.readMem ⟨f.code, c.secure⟩ 13 (c.u 40 8) (64 + 384 * hNbus hd + 32 * hNsink hd)).2 = .ok h ∧ s.dev.hamperOwner f.code h = none ∧ s.dev.hamperFields f.code h = none ∧ s.dev.hamperRights f.code h = some i) ∧
    (∃ (s : State) (f : Fn) (q : Fin 8) (c : Cmd) (s0 : State) (hd : _) (h : _), s0 = s.started f q c ∧ s.Bare f q c ∧ s.dev.regsWf = true ∧ s.dev.tablesWf = true ∧ c.opcode = 0x70 ∧ c.conts = [] ∧ c.zero 32 39 = true ∧ c.zero 48 63 = true ∧ c.u 40 8 % 64 = 0 ∧ s.dev.inDevice (c.u 40 8) (c.u 40 8 + 63) = true ∧ (s0.readMem ⟨f.code, c.secure⟩ 13 (c.u 40 8) 64).2 = .ok hd ∧ s.dev.inDevice (c.u 40 8) (c.u 40 8 + 64 + 384 * hNbus hd + 32 * hNsink hd - 1) = true ∧ (s0.readMem ⟨f.code, c.secure⟩ 13 (c.u 40 8) (64 + 384 * hNbus hd + 32 * hNsink hd)).2 = .ok h ∧ s.dev.hamperOwner f.code h = none ∧ s.dev.hamperFields f.code h = none ∧ s.dev.hamperRights f.code h = none) :=
  ⟨⟨u1, .pf 0, 0, inner u1 (Fn.pf 0), [(decide (12 ≤ (inner u1 (Fn.pf 0)).u 32 1 % 16) || (inner u1 (Fn.pf 0)).u 32 1 / 16 != 0, ST_BAD_FIELD, errByte 32), (!u1.dev.ownsStream (Fn.pf 0).code ((inner u1 (Fn.pf 0)).u 32 1 % 16), ST_NOT_OWNER, errByte 32), ((inner u1 (Fn.pf 0)).ext != 0, ST_BAD_FIELD, errOutside), (!(inner u1 (Fn.pf 0)).conts.isEmpty, ST_BAD_FIELD, errAt 32), (decide (4 ≤ (inner u1 (Fn.pf 0)).u 33 1) || ((Fn.pf 0) == .sp0 && bit ((inner u1 (Fn.pf 0)).u 33 1) 1), ST_BAD_FIELD, errByte 33), (!(inner u1 (Fn.pf 0)).zero 34 39, ST_BAD_FIELD, errByte 34), ((inner u1 (Fn.pf 0)).u 33 1 % 2 == 1 && (inner u1 (Fn.pf 0)).u 40 8 % 64 != 0, ST_BAD_FIELD, errByte 40), ((inner u1 (Fn.pf 0)).u 33 1 % 2 == 1 && (decide ((inner u1 (Fn.pf 0)).u 48 4 < 4096 ∨ 4194304 < (inner u1 (Fn.pf 0)).u 48 4) || (inner u1 (Fn.pf 0)).u 48 4 % 64 != 0), ST_BAD_FIELD, errByte 48), (!(inner u1 (Fn.pf 0)).zero 52 63, ST_BAD_FIELD, errByte 52), ((inner u1 (Fn.pf 0)).u 33 1 % 2 == 1 && u1.dev.streamOn ((inner u1 (Fn.pf 0)).u 32 1 % 16), ST_BUSY, errByte 32)], rfl, bare_of (by decide +kernel), by decide +kernel⟩,
   ⟨u2, .pf 0, 0, inner u2 (Fn.pf 0), [((inner u2 (Fn.pf 0)).u 32 1 / 8 != 0, ST_BAD_FIELD, errByte 32), (u2.dev.srcOwner (88 + (inner u2 (Fn.pf 0)).u 32 1 % 8) != (Fn.pf 0).code, ST_NOT_OWNER, errByte 32), ((inner u2 (Fn.pf 0)).ext != 0, ST_BAD_FIELD, errOutside), (!(inner u2 (Fn.pf 0)).conts.isEmpty, ST_BAD_FIELD, errAt 32), (!(inner u2 (Fn.pf 0)).zero 34 39, ST_BAD_FIELD, errByte 34), (decide ((inner u2 (Fn.pf 0)).u 48 4 < 1 ∨ 1048576 < (inner u2 (Fn.pf 0)).u 48 4), ST_BAD_FIELD, errByte 48), (!(inner u2 (Fn.pf 0)).zero 54 63, ST_BAD_FIELD, errByte 54), (!inBanks ((inner u2 (Fn.pf 0)).u 40 8) ((inner u2 (Fn.pf 0)).u 40 8 + 2 * (inner u2 (Fn.pf 0)).u 48 4 - 1), ST_BAD_GEOMETRY, errByte 40)], rfl, bare_of (by decide +kernel), by decide +kernel⟩,
   ⟨u3, .pf 0, 0, inner u3 (Fn.pf 0), [((inner u3 (Fn.pf 0)).u 32 1 / 8 != 0, ST_BAD_FIELD, errByte 32), (u3.dev.srcOwner (88 + (inner u3 (Fn.pf 0)).u 32 1 % 8) != (Fn.pf 0).code, ST_NOT_OWNER, errByte 32), ((inner u3 (Fn.pf 0)).ext != 0, ST_BAD_FIELD, errOutside), (!(inner u3 (Fn.pf 0)).conts.isEmpty, ST_BAD_FIELD, errAt 32), (!(inner u3 (Fn.pf 0)).zero 33 63, ST_BAD_FIELD, errByte 33)], rfl, bare_of (by decide +kernel), by decide +kernel⟩,
   ⟨u4, .pf 0, 0, inner u4 (Fn.pf 0), [(decide (12 ≤ (inner u4 (Fn.pf 0)).u 32 1 % 16) || (inner u4 (Fn.pf 0)).u 32 1 / 16 != 0, ST_BAD_FIELD, errByte 32), (!u4.dev.ownsStream (Fn.pf 0).code ((inner u4 (Fn.pf 0)).u 32 1 % 16), ST_NOT_OWNER, errByte 32), ((inner u4 (Fn.pf 0)).ext != 0, ST_BAD_FIELD, errOutside), (!(inner u4 (Fn.pf 0)).conts.isEmpty, ST_BAD_FIELD, errAt 32), (decide (4 ≤ (inner u4 (Fn.pf 0)).u 33 1) || ((Fn.pf 0) == .sp0 && bit ((inner u4 (Fn.pf 0)).u 33 1) 1), ST_BAD_FIELD, errByte 33), (!(inner u4 (Fn.pf 0)).zero 34 39, ST_BAD_FIELD, errByte 34), ((inner u4 (Fn.pf 0)).u 33 1 % 2 == 1 && (inner u4 (Fn.pf 0)).u 40 8 % 64 != 0, ST_BAD_FIELD, errByte 40), ((inner u4 (Fn.pf 0)).u 33 1 % 2 == 1 && (decide ((inner u4 (Fn.pf 0)).u 48 4 < 4096 ∨ 4194304 < (inner u4 (Fn.pf 0)).u 48 4) || (inner u4 (Fn.pf 0)).u 48 4 % 64 != 0), ST_BAD_FIELD, errByte 48), (!(inner u4 (Fn.pf 0)).zero 52 63, ST_BAD_FIELD, errByte 52), ((inner u4 (Fn.pf 0)).u 33 1 % 2 == 1 && u4.dev.streamOn ((inner u4 (Fn.pf 0)).u 32 1 % 16), ST_BUSY, errByte 32)], ST_BAD_FIELD, errByte 32, rfl, bare_of (by decide +kernel), by decide +kernel⟩,
   ⟨u5, .pf 0, 0, inner u5 (Fn.pf 0), [((inner u5 (Fn.pf 0)).u 32 1 / 8 != 0, ST_BAD_FIELD, errByte 32), (u5.dev.srcOwner (88 + (inner u5 (Fn.pf 0)).u 32 1 % 8) != (Fn.pf 0).code, ST_NOT_OWNER, errByte 32), ((inner u5 (Fn.pf 0)).ext != 0, ST_BAD_FIELD, errOutside), (!(inner u5 (Fn.pf 0)).conts.isEmpty, ST_BAD_FIELD, errAt 32), (!(inner u5 (Fn.pf 0)).zero 34 39, ST_BAD_FIELD, errByte 34), (decide ((inner u5 (Fn.pf 0)).u 48 4 < 1 ∨ 1048576 < (inner u5 (Fn.pf 0)).u 48 4), ST_BAD_FIELD, errByte 48), (!(inner u5 (Fn.pf 0)).zero 54 63, ST_BAD_FIELD, errByte 54), (!inBanks ((inner u5 (Fn.pf 0)).u 40 8) ((inner u5 (Fn.pf 0)).u 40 8 + 2 * (inner u5 (Fn.pf 0)).u 48 4 - 1), ST_BAD_GEOMETRY, errByte 40)], ST_BAD_FIELD, errByte 48, rfl, bare_of (by decide +kernel), by decide +kernel⟩,
   ⟨u6, .pf 0, 0, inner u6 (Fn.pf 0), [((inner u6 (Fn.pf 0)).u 32 1 / 8 != 0, ST_BAD_FIELD, errByte 32), (u6.dev.srcOwner (88 + (inner u6 (Fn.pf 0)).u 32 1 % 8) != (Fn.pf 0).code, ST_NOT_OWNER, errByte 32), ((inner u6 (Fn.pf 0)).ext != 0, ST_BAD_FIELD, errOutside), (!(inner u6 (Fn.pf 0)).conts.isEmpty, ST_BAD_FIELD, errAt 32), (!(inner u6 (Fn.pf 0)).zero 33 63, ST_BAD_FIELD, errByte 33)], ST_NOT_OWNER, errByte 32, rfl, bare_of (by decide +kernel), by decide +kernel⟩,
   ⟨u7, .pf 0, 0, inner u7 (Fn.pf 0), ST_BAD_GEOMETRY, errByte 40, bare_of (by decide +kernel), by decide +kernel⟩,
   ⟨u8, .pf 0, 0, inner u8 (Fn.pf 0), u8.started (Fn.pf 0) (0) (inner u8 (Fn.pf 0)), h1.take 64, h1, 23, rfl, bare_of (by decide +kernel), by decide +kernel⟩,
   ⟨u9, .pf 0, 0, inner u9 (Fn.pf 0), u9.started (Fn.pf 0) (0) (inner u9 (Fn.pf 0)), h2.take 64, h2, 0xFFFF, rfl, bare_of (by decide +kernel), by decide +kernel⟩,
   ⟨u10, .pf 0, 0, inner u10 (Fn.pf 0), u10.started (Fn.pf 0) (0) (inner u10 (Fn.pf 0)), h1.take 64, h1, 23, rfl, bare_of (by decide +kernel), by decide +kernel⟩,
   ⟨u11, .pf 0, 0, inner u11 (Fn.pf 0), u11.started (Fn.pf 0) (0) (inner u11 (Fn.pf 0)), h1.take 64, h1, rfl, bare_of (by decide +kernel), by decide +kernel⟩⟩

def u12 : State := st own18
def u13 : State := run18 (fun d => { d with aud := { d.aud with n := 2^64 - 1, work := [.stream stp 11 true 0x200000 4096 false] } })
def u14 : State := run18 (fun d => (d.setF AUD_TDM_CFG.ENABLE 7 1).setF AUD_GLB_CTRL.GRAPH_CLK 0 8)
def u15 : State := run18 (fun d => (d.setF AUD_TDM_CFG.ENABLE 7 1).setF AUD_GLB_CTRL.GRAPH_CLK 0 7)
def u16 : State := run18 (fun d => ((d.setF AUD_TDM_CFG.ENABLE 7 1).setF AUD_TDM_CFG.MASTER 7 1).setF AUD_GLB_CTRL.GRAPH_CLK 0 8)
def u17 : State := run18 (fun d => { d with aud := { d.aud with amps := Tbl.put ([] : Tbl AmpSt) 7 ⟨true, some d.now⟩ } })
def u18 : State := run18 (fun d => { d with aud := { d.aud with amps := Tbl.put ([] : Tbl AmpSt) 7 ⟨true, some (d.now+1)⟩ } })
def u19 : State := run18 id
def u20 : State := run18 (fun d => { d with aud := { d.aud with buses := Tbl.put ([] : Tbl BusSt) 23 { cur := (h1.drop 64).take 384 } } })
def u21 : State := run18 (fun d => { d with aud := { d.aud with sinks := Tbl.put ([] : Tbl SinkSt) 63 { cur := (h1.drop 448) } } })

/-- The premises of each clause of `AudioBoundariesClocksAndOwners` hold together. -/
theorem witness_AudioBoundariesClocksAndOwners :
    (∃ (s : State), s.dev.regsWf = true ∧ s.dev.tablesWf = true ∧ (s.dev.fb AUD_GLB_CTRL.RUN 0 = false ∨ s.dev.pace.enableWaits = true)) ∧
    (∃ (s : State), s.dev.regsWf = true ∧ s.dev.tablesWf = true ∧ s.dev.fb AUD_GLB_CTRL.RUN 0 = true ∧ s.dev.pace.enableWaits = false) ∧
    (∃ (s : State) (r : CmdRef), s.dev.Running r ∧ s.dev.regsWf = true ∧ s.dev.tablesWf = true ∧ s.dev.fb AUD_GLB_CTRL.RUN 0 = true ∧ s.dev.pace.enableWaits = false ∧ (∃ n run base size host, AudWork.stream r n run base size host ∈ s.dev.aud.work)) ∧
    (∃ (s : State) (p : Fin 8), s.dev.regsWf = true ∧ s.dev.tablesWf = true ∧ s.dev.fb AUD_TDM_CFG.ENABLE p.val = true ∧ s.dev.fb AUD_TDM_CFG.MASTER p.val = false ∧ s.dev.fb AUD_GLB_CTRL.RUN 0 = true ∧ s.dev.clockPort = some p.val) ∧
    (∃ (s : State) (p : Fin 8), s.dev.regsWf = true ∧ s.dev.tablesWf = true ∧ s.dev.fb AUD_TDM_CFG.ENABLE p.val = true ∧ s.dev.fb AUD_TDM_CFG.MASTER p.val = false ∧ (s.dev.fb AUD_GLB_CTRL.RUN 0 = false ∨ s.dev.clockPort ≠ some p.val)) ∧
    (∃ (s : State) (p : Fin 8), s.dev.regsWf = true ∧ s.dev.tablesWf = true ∧ (s.dev.fb AUD_TDM_CFG.ENABLE p.val = false ∨ s.dev.fb AUD_TDM_CFG.MASTER p.val = true)) ∧
    (∃ (s : State) (k : Fin 8) (off : Nat), s.dev.regsWf = true ∧ s.dev.tablesWf = true ∧ (s.dev.aud.amps.get k.val).offAt = some off ∧ off ≤ s.dev.now) ∧
    (∃ (s : State) (k : Fin 8) (off : Nat), s.dev.regsWf = true ∧ s.dev.tablesWf = true ∧ (s.dev.aud.amps.get k.val).offAt = some off ∧ s.dev.now < off) ∧
    (∃ (s : State) (who : Fn) (val : Word) (i : Fin 96) (held : Word), held = (if i.val < 64 then val else val &&& 0xFF) ∧ s.dev.Accepts who .AUD_SRC_CFG i.val held ∧ s.dev.regsWf = true ∧ s.dev.tablesWf = true ∧ assigner who = true ∧ s.dev.ownerOk who (s.dev.srcOwner i.val) (AUD_SRC_CFG.OWNER.get val) = true) ∧
    (∃ (s : State) (who : Fn) (val : Word) (i : Fin 96), s.dev.regsWf = true ∧ s.dev.tablesWf = true ∧ assigner who = true ∧ s.dev.ownerOk who (s.dev.srcOwner i.val) (AUD_SRC_CFG.OWNER.get val) = false) ∧
    (∃ (s : State) (who : Fn) (val : Word) (b : Fin 24), s.dev.Accepts who .AUD_BUS_ASSIGN b.val val ∧ s.dev.regsWf = true ∧ s.dev.tablesWf = true ∧ assigner who = true ∧ s.dev.ownerOk who (s.dev.busOwner b.val) (AUD_BUS_ASSIGN.OWNER.get val) = true ∧ AUD_BUS_ASSIGN.OWNER.get val ≠ s.dev.busOwner b.val) ∧
    (∃ (s : State) (who : Fn) (val : Word) (j : Fin 64), s.dev.Accepts who .AUD_SNK_CFG j.val val ∧ s.dev.regsWf = true ∧ s.dev.tablesWf = true ∧ assigner who = true ∧ s.dev.ownerOk who (s.dev.snkOwner j.val) (AUD_SNK_CFG.OWNER.get val) = true ∧ s.dev.placeTaken j.val val = false ∧ AUD_SNK_CFG.OWNER.get val ≠ s.dev.snkOwner j.val) :=
  ⟨⟨u12, by decide +kernel⟩,
   ⟨u13, by decide +kernel⟩,
   ⟨u13, stp, running_of (by decide +kernel), by decide +kernel, by decide +kernel, by decide +kernel, by decide +kernel, 11, true, 0x200000, 4096, false, by decide +kernel⟩,
   ⟨u14, 7, by decide +kernel⟩,
   ⟨u15, 7, by decide +kernel⟩,
   ⟨u16, 7, by decide +kernel⟩,
   ⟨u17, 7, u17.dev.now, by decide +kernel⟩,
   ⟨u18, 7, u18.dev.now+1, by decide +kernel⟩,
   ⟨u19, .pf 0, 0xFFFFFF10, 95, 0x10, (by decide), accepts_of (by decide +kernel), by decide +kernel⟩,
   ⟨u19, .pf 1, 5, 95, by decide +kernel⟩,
   ⟨u20, .pf 0, 0x10, 23, accepts_of (by decide +kernel), by decide +kernel⟩,
   ⟨u21, .sp0, 1, 63, accepts_of (by decide +kernel), by decide +kernel⟩⟩

end W18

namespace W19

def b16 (n : Nat) : List Nat := (toLe n 2).map (·.toNat)
def b32 (n : Nat) : List Nat := (toLe n 4).map (·.toNat)
def b64 (n : Nat) : List Nat := (toLe n 8).map (·.toNat)
def mx (slots : List (Nat × Nat × MbxSlot)) (ends : List (Nat × MbxEnd)) (d : Dev) : Dev :=
  slots.foldl (fun d x => d.setSlot 63 x.1 x.2.1 x.2.2) (ends.foldl (fun d x => d.updEnd 63 x.1 fun _ => x.2) (((d.setF MBX_BIND.END_A 63 4).setF MBX_BIND.END_B 63 5)))
def data19 : Tbl Word := Tbl.put (Tbl.put ([] : Tbl Word) 0 0xDEADBEEF) 15 7
def full : MbxSlot := { data := data19, posted := true }
def stp : CmdRef := ⟨qi (.pf 0) 0, 0⟩
def bc (op : Nat) (body : List Nat) (g : Dev → Dev) : State := owned 4 1 0x100000 (st fun d => queued (.pf 0) 6 (cmdOf op body) (g d))
def bulk19 (dl : Option Nat) : MbxBulk := { ref := stp, code := 4, sec := false, send := false, chan := 63, side := 1, count := 3, buf := 0x100000, host := false, deadline := dl, moved := 2, resets := 1 }
def cv (g : Dev → Dev) : State := st fun d => g (putL CVU_ASSIGN.OWNER 7 4 d)

def u1 : State := st id
def u2 : State := st (mx [(0,3,full)] [])
def u3 : State := st (mx [(0,3,{ data := data19 }),(0,1,full)] [(0,{ order := [1], timeout := 9, txNotice := true }),(1,{ rxNotice := true })])
def u4 : State := st (fun d => { mx [(0,3,{ data := data19 })] [] d with ports := d.ports.put 1 {} })
def u5 : State := st (mx [(1,2,full),(1,0,full)] [(1,{ order := [2,0], txNotice := true, rxNotice := true }),(0,{ rxNotice := true, txNotice := true })])
def u6 : State := st (mx [] [(1,{ txNotice := true, rxNotice := true }),(0,{ rxNotice := true, txNotice := true })])
def u7 : State := st (mx [(1,2,{ full with deadline := some 0 }),(1,0,full)] [(1,{ order := [0,2] }),(0,{ rxNotice := true, txNotice := true })])
def u8 : State := st (mx [(1,2,{ full with deadline := some 1000 }),(1,0,full)] [(1,{ order := [0,2] }),(0,{ rxNotice := true, txNotice := true })])
def u11 : State := bc 0x90 ([63,1,0,0,0,0,0,0] ++ b64 0x100000) (mx [(0,1,full)] [(0,{ order := [1] })])
def u13 : State := bc 0x91 ([63,1,0,0] ++ b32 4000000000 ++ b64 0x100000) (mx [(1,2,{ full with senderReset := true }),(1,0,full)] [(1,{ order := [2,0], txNotice := true, rxNotice := true }),(0,{ rxNotice := true, txNotice := true })])
def u14 : State := st (fun d => let d := mx [] [] (queued (.pf 0) 6 { cmdOf 0x91 [] with phase := .running } d); { d with mbx := { d.mbx with bulk := [bulk19 none, bulk19 (some 0)] } })

/-- The premises of each clause of `MailboxMessagesArePostedAndPopped` hold together. -/
theorem witness_MailboxMessagesArePostedAndPopped :
    (∃ (s : State) (c : Fin 64) (who : Fn), s.dev.regsWf = true ∧ s.dev.tablesWf = true ∧ (∀ b ∈ s.dev.mbx.bulk, b.chan ≠ c.val) ∧ s.dev.mbxSide c.val who.code = none) ∧
    (∃ (s : State) (c : Fin 64) (who : Fn) (val : Word) (e : Nat) (k : Fin 4), s.dev.regsWf = true ∧ s.dev.tablesWf = true ∧ (∀ b ∈ s.dev.mbx.bulk, b.chan ≠ c.val) ∧ s.dev.mbxSide c.val who.code = some e ∧ val.toNat % 16 = 2 ^ k.val ∧ (s.dev.mbxSlot c.val e k.val).posted = true) ∧
    (∃ (s : State) (c : Fin 64) (who : Fn) (val : Word) (e : Nat) (k : Fin 4), s.dev.regsWf = true ∧ s.dev.tablesWf = true ∧ (∀ b ∈ s.dev.mbx.bulk, b.chan ≠ c.val) ∧ s.dev.mbxSide c.val who.code = some e ∧ val.toNat % 16 = 2 ^ k.val ∧ (s.dev.mbxSlot c.val e k.val).posted = false ∧ s.dev.rxResets c.val e = false) ∧
    (∃ (s : State) (c : Fin 64) (who : Fn) (val : Word) (e : Nat) (k : Fin 4), s.dev.regsWf = true ∧ s.dev.tablesWf = true ∧ (∀ b ∈ s.dev.mbx.bulk, b.chan ≠ c.val) ∧ s.dev.mbxSide c.val who.code = some e ∧ val.toNat % 16 = 2 ^ k.val ∧ (s.dev.mbxSlot c.val e k.val).posted = false ∧ s.dev.rxResets c.val e = true ∧ (s.dev.mbxEnd c.val e).txNotice = false) ∧
    (∃ (s : State) (c : Fin 64) (who : Fn) (val : Word) (e : Nat) (k : _) (rest : _), s.dev.regsWf = true ∧ s.dev.tablesWf = true ∧ (∀ b ∈ s.dev.mbx.bulk, b.chan ≠ c.val) ∧ s.dev.mbxSide c.val who.code = some e ∧ bit val.toNat 0 = true ∧ (s.dev.mbxEnd c.val (1 - e)).order = k :: rest ∧ (s.dev.mbxSlot c.val (1 - e) k).bulk = none) ∧
    (∃ (s : State) (c : Fin 64) (who : Fn) (val : Word) (e : Nat), s.dev.regsWf = true ∧ s.dev.tablesWf = true ∧ (∀ b ∈ s.dev.mbx.bulk, b.chan ≠ c.val) ∧ s.dev.mbxSide c.val who.code = some e ∧ bit val.toNat 0 = true ∧ (s.dev.mbxEnd c.val (1 - e)).order = []) ∧
    (∃ (s : State) (c : Fin 64) (e : Fin 2) (k : Fin 4) (at' : Nat), s.dev.regsWf = true ∧ s.dev.tablesWf = true ∧ (∀ b ∈ s.dev.mbx.bulk, b.chan ≠ c.val) ∧ (s.dev.mbxSlot c.val e.val k.val).deadline = some at' ∧ (s.dev.mbxSlot c.val e.val k.val).posted = true ∧ at' ≤ s.dev.now ∧ (s.dev.mbxSlot c.val e.val k.val).bulk = none ∧ (s.dev.mbxEnd c.val e.val).txNotice = false) ∧
    (∃ (s : State) (c : Fin 64) (e : Fin 2) (k : Fin 4) (at' : Nat), s.dev.regsWf = true ∧ s.dev.tablesWf = true ∧ (∀ b ∈ s.dev.mbx.bulk, b.chan ≠ c.val) ∧ (s.dev.mbxSlot c.val e.val k.val).deadline = some at' ∧ (s.dev.mbxSlot c.val e.val k.val).posted = true ∧ s.dev.now < at') ∧
    (∃ (s : State) (c : Fin 64) (f : Fn) (q : Fin 8) (x : Cmd) (s0 : State) (e : Nat) (bs : List Byte), s0 = s.started f q x ∧ s.Bare f q x ∧ s.dev.regsWf = true ∧ s.dev.tablesWf = true ∧ x.u 32 1 = c.val ∧ x.u 33 1 = 1 ∧ bit (x.u 34 1) 0 = false ∧ s.dev.mbxSide c.val f.code = some e ∧ (∀ b ∈ s.dev.mbx.bulk, b.chan ≠ c.val) ∧
      x.opcode = 0x90 ∧ s.dev.mbxErr f x false = none ∧ (s.dev.mbxSlot c.val e 0).posted = false ∧ s.dev.rxResets c.val e = false ∧ (s0.readMem ⟨f.code, x.secure⟩ 13 (x.u 40 8) 64).2 = .ok bs) ∧
    (∃ (s : State) (c : Fin 64) (f : Fn) (q : Fin 8) (x : Cmd) (s0 : State) (e : Nat) (k : Nat) (rest : List Nat) (m : MbxSlot), s0 = s.started f q x ∧ m = s.dev.mbxSlot c.val (1 - e) k ∧ s.Bare f q x ∧ s.dev.regsWf = true ∧ s.dev.tablesWf = true ∧ x.u 32 1 = c.val ∧ x.u 33 1 = 1 ∧ bit (x.u 34 1) 0 = false ∧ s.dev.mbxSide c.val f.code = some e ∧ (∀ b ∈ s.dev.mbx.bulk, b.chan ≠ c.val) ∧
      x.opcode = 0x91 ∧ s.dev.mbxErr f x true = none ∧ (s.dev.mbxEnd c.val (1 - e)).order = k :: rest ∧ m.bulk = none ∧ (s0.writeMem ⟨f.code, x.secure⟩ 13 (x.u 40 8) ((List.range 16).map fun w => toLe (m.data.get w).toNat 4).flatten).2 = true) ∧
    (∃ (s : State) (c : Fin 64) (e : Fin 2) (b : MbxBulk), s.dev.Running b.ref ∧ s.dev.regsWf = true ∧ s.dev.tablesWf = true ∧ (s.dev.mbx.bulk.find? fun b => !b.send && b.chan == c.val && b.side == e.val && (match b.deadline with | some t => decide (t ≤ s.dev.now) | none => false)) = some b) :=
  ⟨⟨u1, 63, .pf 0, by decide +kernel⟩,
   ⟨u2, 63, .pf 0, 0xFFFFFFF8, 0, 3, by decide +kernel⟩,
   ⟨u3, 63, .pf 0, 8, 0, 3, by decide +kernel⟩,
   ⟨u4, 63, .pf 0, 8, 0, 3, by decide +kernel⟩,
   ⟨u5, 63, .pf 0, 1, 0, 2, [0], by decide +kernel⟩,
   ⟨u6, 63, .pf 0, 1, 0, by decide +kernel⟩,
   ⟨u7, 63, 1, 2, 0, by decide +kernel⟩,
   ⟨u8, 63, 1, 2, 1000, by decide +kernel⟩,
   ⟨u11, 63, .pf 0, 0, inner u11 (Fn.pf 0), u11.started (Fn.pf 0) (0) (inner u11 (Fn.pf 0)), 0, List.replicate 64 0, rfl, bare_of (by decide +kernel), by decide +kernel⟩,
   ⟨u13, 63, .pf 0, 0, inner u13 (Fn.pf 0), u13.started (Fn.pf 0) (0) (inner u13 (Fn.pf 0)), 0, 2, [0], u13.dev.mbxSlot 63 1 2, rfl, rfl, bare_of (by decide +kernel), by decide +kernel⟩,
   ⟨u14, 63, 1, bulk19 (some 0), running_of (by decide +kernel), by decide +kernel⟩⟩

def u9 : State := bc 0x90 ([63,0,0,0,0,0,0,0] ++ b64 0x100000) (mx [] [])
def u10 : State := bc 0x91 ([63,1,0,0] ++ b32 4000000001 ++ b64 0x100000) (mx [] [])
def u12 : State := bc 0x91 ([63,1,0,0] ++ b32 4000000000 ++ b64 0x100000) (mx [] [])

/-- The premises of each clause of `BulkMessagesMoveThroughBuffers` hold together. Left out: a premise on an opaque constant of Config, which no state settles. -/
theorem witness_BulkMessagesMoveThroughBuffers :
    (∃ (s : State) (f : Fn) (q : Fin 8) (c : Cmd) (ch e : Nat) (recv : _) (st res : Nat), ch = c.u 32 1 % 64 ∧ recv = false ∧ s.Bare f q c ∧ s.dev.regsWf = true ∧ s.dev.tablesWf = true ∧ s.dev.mbxSide ch f.code = some e ∧ c.opcode = 0x90 ∧ s.dev.mbxErr f c recv = some (st, res)) ∧
    (∃ (s : State) (f : Fn) (q : Fin 8) (c : Cmd) (ch e : Nat) (recv : _) (st res : Nat), ch = c.u 32 1 % 64 ∧ recv = true ∧ s.Bare f q c ∧ s.dev.regsWf = true ∧ s.dev.tablesWf = true ∧ s.dev.mbxSide ch f.code = some e ∧ c.opcode = 0x91 ∧ s.dev.mbxErr f c recv = some (st, res)) ∧
    (∃ (s : State) (f : Fn) (q : Fin 8) (c : Cmd) (s0 : State) (ch e : Nat) (bs : List Byte), s0 = s.started f q c ∧ ch = c.u 32 1 % 64 ∧ s.Bare f q c ∧ s.dev.regsWf = true ∧ s.dev.tablesWf = true ∧ s.dev.mbxSide ch f.code = some e ∧ (∀ b ∈ s.dev.mbx.bulk, b.chan ≠ ch) ∧ bit (c.u 34 1) 0 = false ∧ c.u 33 1 = 1 ∧ c.opcode = 0x90 ∧ s.dev.mbxErr f c false = none ∧ (s.dev.mbxSlot ch e 0).posted = false ∧ s.dev.rxResets ch e = false ∧ (s0.readMem ⟨f.code, c.secure⟩ 13 (c.u 40 8) 64).2 = .ok bs) ∧
    (∃ (s : State) (f : Fn) (q : Fin 8) (c : Cmd) (ch e : Nat), ch = c.u 32 1 % 64 ∧ s.Bare f q c ∧ s.dev.regsWf = true ∧ s.dev.tablesWf = true ∧ s.dev.mbxSide ch f.code = some e ∧ (∀ b ∈ s.dev.mbx.bulk, b.chan ≠ ch) ∧ bit (c.u 34 1) 0 = false ∧ c.u 33 1 = 1 ∧ c.opcode = 0x91 ∧ s.dev.mbxErr f c true = none ∧ (s.dev.mbxEnd ch (1 - e)).order = []) ∧
    (∃ (s : State) (f : Fn) (q : Fin 8) (c : Cmd) (ch e : Nat) (k : _) (rest : _) (m : _), ch = c.u 32 1 % 64 ∧ m = s.dev.mbxSlot ch (1 - e) k ∧ s.Bare f q c ∧ s.dev.regsWf = true ∧ s.dev.tablesWf = true ∧ s.dev.mbxSide ch f.code = some e ∧ (∀ b ∈ s.dev.mbx.bulk, b.chan ≠ ch) ∧ bit (c.u 34 1) 0 = false ∧ c.u 33 1 = 1 ∧ c.opcode = 0x91 ∧ s.dev.mbxErr f c true = none ∧ (s.dev.mbxEnd ch (1 - e)).order = k :: rest ∧ m.bulk = none) ∧
    (∃ (s : State) (c : Fin 64) (e : Fin 2) (b : MbxBulk), s.dev.Running b.ref ∧ s.dev.regsWf = true ∧ s.dev.tablesWf = true ∧ (s.dev.mbx.bulk.find? fun b => !b.send && b.chan == c.val && b.side == e.val && (match b.deadline with | some t => decide (t ≤ s.dev.now) | none => false)) = some b) ∧
    (∃ (s : State) (who : Fn) (c : Fin 64) (val : Word) (e : Nat) (k : Fin 4), s.dev.regsWf = true ∧ s.dev.tablesWf = true ∧ s.dev.mbxSide c.val who.code = some e ∧ (∀ b ∈ s.dev.mbx.bulk, b.chan ≠ c.val) ∧ val.toNat % 16 = 2 ^ k.val ∧ (s.dev.mbxSlot c.val e k.val).posted = false ∧ s.dev.rxResets c.val e = false) ∧
    (∃ (s : State) (who : Fn) (c : Fin 64) (val : Word) (e : Nat) (k : Nat) (rest : List Nat), s.dev.regsWf = true ∧ s.dev.tablesWf = true ∧ s.dev.mbxSide c.val who.code = some e ∧ (∀ b ∈ s.dev.mbx.bulk, b.chan ≠ c.val) ∧ bit val.toNat 0 = true ∧ (s.dev.mbxEnd c.val (1 - e)).order = k :: rest ∧ (s.dev.mbxSlot c.val (1 - e) k).bulk = none) ∧
    (∃ (s : State) (c : Fin 64) (e : Fin 2) (k : Fin 4) (at' : Nat), s.dev.regsWf = true ∧ s.dev.tablesWf = true ∧ (∀ b ∈ s.dev.mbx.bulk, b.chan ≠ c.val) ∧ (s.dev.mbxSlot c.val e.val k.val).deadline = some at' ∧ (s.dev.mbxSlot c.val e.val k.val).posted = true ∧ (s.dev.mbxSlot c.val e.val k.val).bulk = none ∧ at' ≤ s.dev.now) :=
  ⟨⟨u9, .pf 0, 0, inner u9 (Fn.pf 0), (inner u9 (Fn.pf 0)).u 32 1 % 64, 0, false, ST_BAD_FIELD, errByte 33, rfl, rfl, bare_of (by decide +kernel), by decide +kernel⟩,
   ⟨u10, .pf 0, 0, inner u10 (Fn.pf 0), (inner u10 (Fn.pf 0)).u 32 1 % 64, 0, true, ST_BAD_FIELD, errByte 36, rfl, rfl, bare_of (by decide +kernel), by decide +kernel⟩,
   ⟨u11, .pf 0, 0, inner u11 (Fn.pf 0), u11.started (Fn.pf 0) (0) (inner u11 (Fn.pf 0)), (inner u11 (Fn.pf 0)).u 32 1 % 64, 0, List.replicate 64 0, rfl, rfl, bare_of (by decide +kernel), by decide +kernel⟩,
   ⟨u12, .pf 0, 0, inner u12 (Fn.pf 0), (inner u12 (Fn.pf 0)).u 32 1 % 64, 0, rfl, bare_of (by decide +kernel), by decide +kernel⟩,
   ⟨u13, .pf 0, 0, inner u13 (Fn.pf 0), (inner u13 (Fn.pf 0)).u 32 1 % 64, 0, 2, [0], u13.dev.mbxSlot ((inner u13 (Fn.pf 0)).u 32 1 % 64) (1 - (0)) (2), rfl, rfl, bare_of (by decide +kernel), by decide +kernel⟩,
   ⟨u14, 63, 1, bulk19 (some 0), running_of (by decide +kernel), by decide +kernel⟩,
   ⟨u3, .pf 0, 63, 8, 0, 3, by decide +kernel⟩,
   ⟨u5, .pf 0, 63, 1, 0, 2, [0], by decide +kernel⟩,
   ⟨u7, 63, 1, 2, 0, by decide +kernel⟩⟩

def u15 : State := cv (fun d => d.setF CVU_CTRL.POLY 7 2)
def u16 : State := cv (fun d => d.setF CVU_CTRL.BUSY 7 1)
def u17 : State := cv (fun d => { d with mbx := { d.mbx with cvu := Tbl.put ([] : Tbl (Option Nat)) 7 (some 5) } })

/-- Unit 7 belongs to VF 0 of port 0. -/
def u18 (busy : Nat) : State := st fun d => (putL CVU_ASSIGN.OWNER 7 0x10 d).setF CVU_CTRL.BUSY 7 busy

/-- The premises of each clause of `CheckValueUnitsFollowTheirOwner` hold together. -/
theorem witness_CheckValueUnitsFollowTheirOwner :
    (∃ (s : State) (who : Fn) (u : Fin 8), s.dev.regsWf = true ∧ s.dev.tablesWf = true ∧ s.dev.holds who (s.dev.cvuOwner u.val) = true ∧ s.dev.fb CVU_CTRL.BUSY u.val = false) ∧
    (∃ (s : State) (who : Fn) (u : Fin 8), s.dev.regsWf = true ∧ s.dev.tablesWf = true ∧ s.dev.holds who (s.dev.cvuOwner u.val) = true ∧ s.dev.fb CVU_CTRL.BUSY u.val = true) ∧
    (∃ (s : State) (who : Fn) (u : Fin 8), s.dev.regsWf = true ∧ s.dev.tablesWf = true ∧ s.dev.holds who (s.dev.cvuOwner u.val) = false) ∧
    (∃ (s : State) (who : Fn) (u : Fin 8) (val : Word), s.dev.Accepts who .CVU_CTRL u.val val ∧ s.dev.regsWf = true ∧ s.dev.tablesWf = true ∧ s.dev.holds who (s.dev.cvuOwner u.val) = true) ∧
    (∃ (s : State) (who : Fn) (u : Fin 8) (val : Word) (new : _), new = CVU_ASSIGN.OWNER.get val ∧ s.dev.regsWf = true ∧ s.dev.tablesWf = true ∧ assigner who = true ∧ new ≠ s.dev.f CVU_ASSIGN.OWNER u.val ∧ s.dev.mayGive who (s.dev.f CVU_ASSIGN.OWNER u.val) = true ∧ s.dev.mayGive who new = true ∧ s.dev.fb CVU_CTRL.BUSY u.val = false ∧ new ≠ s.dev.cvuOwner u.val) ∧
    (∃ (s : State) (who : Fn) (u : Fin 8) (val : Word) (new : _), new = CVU_ASSIGN.OWNER.get val ∧ s.dev.regsWf = true ∧ s.dev.tablesWf = true ∧ assigner who = true ∧ new ≠ s.dev.f CVU_ASSIGN.OWNER u.val ∧ s.dev.mayGive who (s.dev.f CVU_ASSIGN.OWNER u.val) = true ∧ s.dev.mayGive who new = true ∧ s.dev.fb CVU_CTRL.BUSY u.val = true) ∧
    (∃ (s : State) (who : Fn) (u : Fin 8) (val : Word) (new : _), new = CVU_ASSIGN.OWNER.get val ∧ s.dev.regsWf = true ∧ s.dev.tablesWf = true ∧ assigner who = true ∧ new ≠ s.dev.f CVU_ASSIGN.OWNER u.val ∧ (s.dev.mayGive who (s.dev.f CVU_ASSIGN.OWNER u.val) = false ∨ s.dev.mayGive who new = false)) ∧
    (∃ (s : State) (who : Fn) (u : Fin 8) (val : Word), s.dev.regsWf = true ∧ s.dev.tablesWf = true ∧ s.dev.holds who (s.dev.cvuOwner u.val) = false ∧ s.dev.mayCvu who u.val = true ∧ bit val.toNat 2 = true ∧ s.dev.fb CVU_CTRL.BUSY u.val = false) ∧
    (∃ (s : State) (who : Fn) (u : Fin 8) (val : Word), s.dev.regsWf = true ∧ s.dev.tablesWf = true ∧ s.dev.holds who (s.dev.cvuOwner u.val) = false ∧ s.dev.mayCvu who u.val = true ∧ bit val.toNat 2 = true ∧ s.dev.fb CVU_CTRL.BUSY u.val = true) ∧
    (∃ (s : State) (who : Fn) (u : Fin 8) (val : Word), s.dev.regsWf = true ∧ s.dev.tablesWf = true ∧ s.dev.holds who (s.dev.cvuOwner u.val) = false ∧ s.dev.mayCvu who u.val = true ∧ bit val.toNat 2 = false) ∧
    (∃ (s : State) (who : Fn) (u : Fin 8), s.dev.regsWf = true ∧ s.dev.tablesWf = true ∧ s.dev.holds who (s.dev.cvuOwner u.val) = false ∧ s.dev.mayCvu who u.val = false) :=
  ⟨⟨u15, .pf 0, 7, by decide +kernel⟩,
   ⟨u16, .pf 0, 7, by decide +kernel⟩,
   ⟨u16, .pf 1, 7, by decide +kernel⟩,
   ⟨u17, .pf 0, 7, 4, accepts_of (by decide +kernel), by decide +kernel⟩,
   ⟨u17, .pf 0, 7, 0x10, CVU_ASSIGN.OWNER.get 0x10, rfl, by decide +kernel⟩,
   ⟨u16, .pf 0, 7, 0x10, CVU_ASSIGN.OWNER.get 0x10, rfl, by decide +kernel⟩,
   ⟨u16, .pf 1, 7, 5, CVU_ASSIGN.OWNER.get (5), rfl, by decide +kernel⟩,
   ⟨u18 0, .pf 0, 7, 4, by decide +kernel⟩,
   ⟨u18 1, .pf 0, 7, 4, by decide +kernel⟩,
   ⟨u18 0, .pf 0, 7, 3, by decide +kernel⟩,
   ⟨u18 0, .pf 1, 7, by decide +kernel⟩⟩

end W19

namespace W20

def b16 (n : Nat) : List Nat := (toLe n 2).map (·.toNat)
def b32 (n : Nat) : List Nat := (toLe n 4).map (·.toNat)
def b64 (n : Nat) : List Nat := (toLe n 8).map (·.toNat)
def w20a : State := st fun d => d
def w20b : State := st fun d => (d.updPart fun p => { p with resets := p.resets.put 0x10 (some 5), ran := p.ran.put 0x10 true }).setF HRQ_Q_CFG.TYPE (8*16) 5
def w20c : State := st fun d => d.updPart fun p => { p with resets := p.resets.put 4 (some 5) }
def w20d : State := st fun d => d.updPart fun p => { p with resets := (p.resets.put 4 (some 5)).put 0x10 (some 7) }
def w20e : State := st fun d => { d with vin := { d.vin with we := Tbl.put ([] : Tbl WarpSt) 1 { job := some { code := 4 } } } }
def fz (op : Nat) (body : List Nat) (state : Nat) (g : Dev → Dev := id) : State := owned 4 1 0x100000 (owned 0x10 3 0x300000 (st fun d => g (queued (.pf 0) 7 (cmdOf op body) (d.setF GLB_VF_STAT.STATE 1 state))))
def stp : CmdRef := ⟨qi (.pf 0) 0, 0⟩
def fr (t : Option Nat) (g : Dev → Dev := id) : State := st fun d => g ((queued (.pf 0) 7 { cmdOf 0xA8 [1] with phase := .running } (d.setF GLB_VF_STAT.STATE 1 3)).updPart fun p => { p with freezes := p.freezes.put 1 (some (stp, t)) })
def hap20 (d : Dev) : Dev := (putL HAP_CH_ASSIGN.OWNER 7 0x11 d).setF HAP_CH_STAT.STATE 7 2
def img20 (ty : Nat) : List Byte :=
  let body : List Byte := [1,2,3,4]
  let h := toLe 0x4B534352 4 ++ toLe 0x0100 2 ++ toLe 0 1 ++ toLe 1 1 ++ toLe 84 4 ++ toLe 0x11 1 ++ toLe 0 1 ++ toLe 0 2 ++ List.replicate 44 0
  h ++ toLe (crcOf 1 h) 4 ++ (toLe ty 2 ++ toLe 1 2 ++ toLe 80 4 ++ toLe 4 4 ++ toLe (crcOf 1 body) 4) ++ body
def mem20 (img : List Byte) (s : State) : State := loaded 0x100000 img s
def sk (op fl : Nat) (n : Nat) (state : Nat) (g : Dev → Dev := id) (a : Nat := 0x100000) : State := fz op ([1, fl, 0, 0, 0, 0, 0, 0] ++ b64 a ++ b32 n) state g
def dirty (a : Nat) (s : State) : State := s.setOwnByte a (s.ownByte a ||| 0x80)
def hv (fl n : Nat) (out : Nat := 0x100000) : State := dirty 0x100000 (owned 4 2 0x100000 (fz 0xAC ([0, fl, 0, 0, 0, 0, 0, 0] ++ b64 0x100000 ++ b32 n ++ b32 0 ++ b64 out) 4))
theorem toLe_length (x k : Nat) : (toLe x k).length = k := by
  induction k generalizing x with
  | zero => rfl
  | succ k ih => rw [toLe, List.length_cons, ih]

/-- An image holds its header. -/
theorem sack_lt {s : State} {v n : Nat} (h : n < 64) : n < (s.rucksack v).length := by
  simp only [State.rucksack, List.length_append, toLe_length, List.length_replicate]
  omega

theorem foldl_length_le {α β : Type} (f : List β → α → List β) (h : ∀ acc a, (f acc a).length ≤ acc.length + 1) (l : List α) (acc : List β) :
    (l.foldl f acc).length ≤ acc.length + l.length := by
  induction l generalizing acc with
  | nil => simp
  | cons a l ih => exact Nat.le_trans (ih (f acc a)) (by have := h acc a; rw [List.length_cons]; omega)

theorem ranges_length_le (s : State) (c : Nat) : (s.ranges c).length ≤ 32768 + s.dev.msys.ddrBytes / 4096 := by
  unfold State.ranges
  rw [List.length_reverse]
  refine Nat.le_trans (foldl_length_le _ ?_ _ _) (by simp)
  intro acc a
  dsimp only
  split
  · omega
  · split
    · split <;> simp
    · simp

theorem flatten_length_of {β : Type} {n : Nat} (l : List (List β)) (h : ∀ x ∈ l, x.length = n) : l.flatten.length = n * l.length := by
  induction l with
  | nil => simp
  | cons a l ih =>
    rw [List.flatten_cons, List.length_append, h a (by simp), ih fun x hx => h x (by simp [hx]), List.length_cons, Nat.mul_succ, Nat.add_comm]

theorem flatten_length_le {β : Type} {n : Nat} (l : List (List β)) (h : ∀ x ∈ l, x.length ≤ n) : l.flatten.length ≤ n * l.length := by
  induction l with
  | nil => simp
  | cons a l ih =>
    have h1 := h a (by simp)
    have h2 := ih fun x hx => h x (by simp [hx])
    rw [List.flatten_cons, List.length_append, List.length_cons, Nat.mul_succ]
    omega

theorem sectionDescs_length (off : Nat) (l : List (Nat × List Byte)) : (sectionDescs off l).length = 16 * l.length := by
  induction l generalizing off with
  | nil => rfl
  | cons a l ih => obtain ⟨ty, bs⟩ := a; simp only [sectionDescs, List.length_append, toLe_length, ih, List.length_cons]; omega

/-- The image of a VF that owns no resource, and pages whose list leaves room, is no longer than R521 has it. -/
theorem sack_le {s : State} {v : Nat} (hr : s.dev.resources (0x10 + v) = []) (hm : 16 * (32768 + s.dev.msys.ddrBytes / 4096) + 272 ≤ sackMost) :
    (s.rucksack v).length ≤ sackMost := by
  have hmem : ((s.ranges (0x10 + v)).map fun r => toLe r.1 8 ++ toLe r.2 4 ++ toLe 0 4).flatten.length ≤ 16 * (32768 + s.dev.msys.ddrBytes / 4096) := by
    rw [flatten_length_of (n := 16) _ (by intro x hx; obtain ⟨r, -, rfl⟩ := List.mem_map.mp hx; simp [toLe_length]), List.length_map]
    exact Nat.mul_le_mul_left 16 (ranges_length_le s _)
  have hs : (s.sections (0x10 + v)).length ≤ 12 ∧ ((s.sections (0x10 + v)).map (·.2)).flatten.length + 272 ≤ sackMost := by
    have h11 := List.length_filter_le (s.dev.vfPart (0x10 + v)).has ((List.range 11).map (3 + ·))
    rw [List.length_map, List.length_range] at h11
    unfold State.sections
    dsimp only
    rw [hr]
    generalize ((s.ranges (0x10 + v)).map fun r => toLe r.1 8 ++ toLe r.2 4 ++ toLe 0 4).flatten = mem at hmem ⊢
    generalize hl : ((List.range 11).map (3 + ·)).filter (s.dev.vfPart (0x10 + v)).has = l at h11 ⊢
    simp only [List.map_nil, List.flatten_nil, if_true, List.nil_append, List.length_nil, Nat.sub_zero]
    have h2 := flatten_length_le (n := (sackMost - (64 + 16 * 13) - mem.length) / 11)
      (l.map fun ty => (Config.packSection ty (s.dev.vfPart (0x10 + v))).take ((sackMost - (64 + 16 * 13) - mem.length) / 11))
      (by intro x hx; obtain ⟨ty, -, rfl⟩ := List.mem_map.mp hx; exact List.length_take_le _ _)
    rw [List.length_map] at h2
    have h3 : (sackMost - (64 + 16 * 13) - mem.length) / 11 * l.length ≤ (sackMost - (64 + 16 * 13) - mem.length) / 11 * 11 := Nat.mul_le_mul_left _ h11
    have h4 := Nat.div_mul_le_self (sackMost - (64 + 16 * 13) - mem.length) 11
    split
    · simp only [List.nil_append, List.length_map, List.map_map, Function.comp_def]
      omega
    · simp only [List.length_append, List.length_map, List.map_append, List.map_map, Function.comp_def, List.flatten_append, List.map_cons, List.map_nil,
        List.flatten_cons, List.flatten_nil, List.append_nil, List.length_cons, List.length_nil]
      omega
  simp only [State.rucksack, List.length_append, toLe_length, List.length_replicate, sectionDescs_length]
  omega

/-- VF 1 owns no resource, and LPDDR5X has 1 GiB. -/
def u23 : State := fz 0xAA ([1, 1, 0, 0, 0, 0, 0, 0] ++ b64 0x100000 ++ b32 sackMost) 4 (fun d => { d with msys := { d.msys with ddrBytes := 2 ^ 30 } })
def s23 : State := u23.started (.pf 0) 0 (inner u23 (.pf 0))
theorem sack23 : (s23.rucksack 1).length ≤ sackMost := sack_le (s := s23) (v := 1) (by decide +kernel) (by decide +kernel)

def u1 : State := st id

/-- The premises of each clause of `FunctionsResetAndReturn` hold together. -/
theorem witness_FunctionsResetAndReturn :
    (∃ (s : State) (v : Fin 64), s.dev.regsWf = true ∧ s.dev.tablesWf = true ∧ (s.dev.vfState v.val = 0 ∨ s.dev.inReset (0x10 + v.val) = true)) ∧
    (∃ (s : State) (v : Fin 64), s.dev.regsWf = true ∧ s.dev.tablesWf = true ∧ s.dev.vfState v.val ≠ 0 ∧ s.dev.inReset (0x10 + v.val) = false ∧ (∀ e < 2, ∀ j ∈ (s.dev.we e).job, j.code ≠ 0x10 + v.val) ∧ (∀ x < 64, ∀ j ∈ (s.dev.chan x).run, j.code ≠ 0x10 + v.val) ∧ s.dev.mbx.bulk = []) ∧
    (∃ (s : State) (v : Fin 64), s.dev.regsWf = true ∧ s.dev.tablesWf = true ∧ s.dev.inReset (0x10 + v.val) = false) ∧
    (∃ (s : State) (v : Fin 64) (t0 : _), s.dev.regsWf = true ∧ s.dev.tablesWf = true ∧ s.dev.part.resets.get (0x10 + v.val) = some t0) ∧
    (∃ (s : State) (p : Fin 2), s.dev.regsWf = true ∧ s.dev.tablesWf = true ∧ s.dev.inReset (4 + p.val) = false ∧ (∀ e < 2, ∀ j ∈ (s.dev.we e).job, j.code ∉ s.dev.flrCodes (.pf p)) ∧ (∀ x < 64, ∀ j ∈ (s.dev.chan x).run, j.code ∉ s.dev.flrCodes (.pf p)) ∧ s.dev.mbx.bulk = []) ∧
    (∃ (s : State) (p : Fin 2) (t0 : _), (∀ v, v / 32 = p.val → s.dev.vfState v ≠ 0 → s.dev.inReset (0x10 + v) = false) ∧ s.dev.regsWf = true ∧ s.dev.tablesWf = true ∧ s.dev.part.resets.get (4 + p.val) = some t0) ∧
    (∃ (s : State) (p : Fin 2) (t0 : _), (∃ v, v / 32 = p.val ∧ s.dev.vfState v ≠ 0 ∧ s.dev.inReset (0x10 + v) = true) ∧ s.dev.regsWf = true ∧ s.dev.tablesWf = true ∧ s.dev.part.resets.get (4 + p.val) = some t0) :=
  ⟨⟨u1, 63, by decide +kernel⟩,
   ⟨w20e, 0, by decide +kernel⟩,
   ⟨w20a, 0, by decide +kernel⟩,
   ⟨w20b, 0, 5, by decide +kernel⟩,
   ⟨w20e, 1, by decide +kernel⟩,
   ⟨w20c, 0, 5, (fun v h => (show ∀ w < 32, w20c.dev.vfState w ≠ 0 → w20c.dev.inReset (0x10 + w) = false by decide +kernel) v (by have h0 : v / 32 = 0 := h; omega)), by decide +kernel⟩,
   ⟨w20d, 0, 5, ⟨0, by decide +kernel⟩, by decide +kernel⟩⟩

def u2 : State := fz 0xA8 [1,0,0,0] 5
def u3 : State := fz 0xA9 [1,0,0,0] 1
def u4 : State := fz 0xA8 ([1,0,0,0] ++ b32 7) 4
def u5 : State := fz 0xA8 ([1,0,0,0] ++ b32 7) 1 hap20
def u6 : State := fz 0xA9 [1] 4 hap20
def u7 : State := fr (some 0)
def u8 : State := fr (some 0) hap20
def u9 : State := fr (some 1000) hap20
def u16 : State := sk 0xAB 1 84 1
def u21 : State := hv 1 1

/-- The premises of each clause of `VfsFreezeAndThaw` hold together. -/
theorem witness_VfsFreezeAndThaw :
    (∃ (s : State) (f : Fn) (q : Fin 8) (c : Cmd) (v : Nat) (s0 : State) (errs : List (Bool × Nat × Nat)) (st res : Nat), s0 = s.started f q c ∧ v = c.u 32 1 % 64 ∧ errs = [s0.dev.vfAborts c, (!c.zero 33 35, ST_BAD_FIELD, errByte 33), (!c.zero 40 63, ST_BAD_FIELD, errByte 40), (s0.dev.vfState v == 3 || s0.dev.vfState v == 5, ST_BUSY, errByte 32)] ∧ s.Bare f q c ∧ s.dev.regsWf = true ∧ s.dev.tablesWf = true ∧ c.opcode = 0xA8 ∧ firstError (s0.dev.vfHead f c ++ errs) = some (st, res)) ∧
    (∃ (s : State) (f : Fn) (q : Fin 8) (c : Cmd) (v : Nat) (s0 : State) (errs : List (Bool × Nat × Nat)) (st res : Nat), s0 = s.started f q c ∧ v = c.u 32 1 % 64 ∧ errs = [(!c.zero 33 63, ST_BAD_FIELD, errByte 33), (s0.dev.vfState v != 4, ST_BAD_FIELD, errByte 32)] ∧ s.Bare f q c ∧ s.dev.regsWf = true ∧ s.dev.tablesWf = true ∧ c.opcode = 0xA9 ∧ firstError (s0.dev.vfHead f c ++ errs) = some (st, res)) ∧
    (∃ (s : State) (f : Fn) (q : Fin 8) (c : Cmd) (v : Nat) (s0 : State) (errs : List (Bool × Nat × Nat)), s0 = s.started f q c ∧ v = c.u 32 1 % 64 ∧ errs = [s0.dev.vfAborts c, (!c.zero 33 35, ST_BAD_FIELD, errByte 33), (!c.zero 40 63, ST_BAD_FIELD, errByte 40), (s0.dev.vfState v == 3 || s0.dev.vfState v == 5, ST_BUSY, errByte 32)] ∧ s.Bare f q c ∧ s.dev.regsWf = true ∧ s.dev.tablesWf = true ∧ c.opcode = 0xA8 ∧ firstError (s0.dev.vfHead f c ++ errs) = none ∧ s.dev.vfState v = 4) ∧
    (∃ (s : State) (f : Fn) (q : Fin 8) (c : Cmd) (v : Nat) (s0 : State) (errs : List (Bool × Nat × Nat)), s0 = s.started f q c ∧ v = c.u 32 1 % 64 ∧ errs = [s0.dev.vfAborts c, (!c.zero 33 35, ST_BAD_FIELD, errByte 33), (!c.zero 40 63, ST_BAD_FIELD, errByte 40), (s0.dev.vfState v == 3 || s0.dev.vfState v == 5, ST_BUSY, errByte 32)] ∧ s.Bare f q c ∧ s.dev.regsWf = true ∧ s.dev.tablesWf = true ∧ c.opcode = 0xA8 ∧ firstError (s0.dev.vfHead f c ++ errs) = none ∧ s.dev.vfState v ≠ 4 ∧ (∀ e < 2, ∀ j ∈ (s.dev.we e).job, j.code ≠ 0x10 + v) ∧ (∀ x < 64, ∀ j ∈ (s.dev.chan x).run, j.code ≠ 0x10 + v)) ∧
    (∃ (s : State) (f : Fn) (q : Fin 8) (c : Cmd) (ref : CmdRef) (v : Nat) (s0 : State) (errs : List (Bool × Nat × Nat)), ref = ⟨qi f q, c.id⟩ ∧ s0 = s.started f q c ∧ v = c.u 32 1 % 64 ∧ errs = [(!c.zero 33 63, ST_BAD_FIELD, errByte 33), (s0.dev.vfState v != 4, ST_BAD_FIELD, errByte 32)] ∧ s.Bare f q c ∧ (∀ g, ∀ x ∈ (s.dev.gctx g).cmds, x.1 ≠ ref) ∧ (∀ x, ∀ j ∈ (s.dev.chan x).queue, j.ref ≠ ref) ∧ (∀ g ∈ s.dev.disp.groups, ref ∉ g.cmds) ∧ (∀ b ∈ s.dev.mbx.bulk, b.ref ≠ ref) ∧ s.dev.regsWf = true ∧ s.dev.tablesWf = true ∧ c.opcode = 0xA9 ∧ firstError (s0.dev.vfHead f c ++ errs) = none) ∧
    (∃ (s : State) (v : Fin 64) (x : CmdRef × Option Nat), s.dev.Running x.1 ∧ s.dev.regsWf = true ∧ s.dev.tablesWf = true ∧ s.dev.part.freezes.get v.val = some x ∧ s.dev.atRest (0x10 + v.val) = true) ∧
    (∃ (s : State) (v : Fin 64) (x : CmdRef × Option Nat), s.dev.regsWf = true ∧ s.dev.tablesWf = true ∧ s.dev.part.freezes.get v.val = some x ∧ s.dev.atRest (0x10 + v.val) = false) ∧
    (∃ (s : State) (v : Fin 64) (x : CmdRef × Option Nat) (at' : _), s.dev.Running x.1 ∧ s.dev.regsWf = true ∧ s.dev.tablesWf = true ∧ s.dev.part.freezes.get v.val = some x ∧ x.2 = some at' ∧ at' ≤ s.dev.now ∧ s.dev.atRest (0x10 + v.val) = false) ∧
    (∃ (s : State) (v : Fin 64) (x : CmdRef × Option Nat), (∀ at', x.2 = some at' → s.dev.now < at') ∧ s.dev.regsWf = true ∧ s.dev.tablesWf = true ∧ s.dev.part.freezes.get v.val = some x) ∧
    (∃ (s : State) (f : Fn) (q : Fin 8) (c : Cmd) (v : Nat) (s0 : State), s0 = s.started f q c ∧ v = c.u 32 1 % 64 ∧ s.Bare f q c ∧ s.dev.regsWf = true ∧ s.dev.tablesWf = true ∧ bit (c.u 33 1) 0 = true ∧ c.opcode = 0xAA ∧ firstError (s0.dev.sackErr f c ++ [(s0.dev.vfState v != 4, ST_BAD_FIELD, errByte 32)]) = none ∧ s0.dev.canSend f = true ∧
      (s0.rucksack v).length ≤ min (c.u 48 4) sackMost) ∧
    (∃ (s : State) (f : Fn) (q : Fin 8) (c : Cmd) (v : Nat) (s0 : State), s0 = s.started f q c ∧ v = c.u 32 1 % 64 ∧ s.Bare f q c ∧ s.dev.regsWf = true ∧ s.dev.tablesWf = true ∧ bit (c.u 33 1) 0 = true ∧ c.opcode = 0xAB ∧ firstError (s0.dev.sackErr f c ++ [(decide (c.u 48 4 < 64), ST_BAD_FIELD, errAt 0xFFFF)]) = none) ∧
    (∃ (s : State) (f : Fn) (q : Fin 8) (c : Cmd) (v : Nat) (s0 : State), s0 = s.started f q c ∧ v = c.u 32 1 % 64 ∧ s.Bare f q c ∧ s.dev.regsWf = true ∧ s.dev.tablesWf = true ∧ bit (c.u 33 1) 0 = true ∧ c.opcode = 0xAC ∧ s0.harvestErr f c = none ∧ s0.dev.canSend f = true ∧ c.u 48 4 ≤ 512) :=
  ⟨⟨u2, .pf 0, 0, inner u2 (Fn.pf 0), (inner u2 (Fn.pf 0)).u 32 1 % 64, u2.started (Fn.pf 0) (0) (inner u2 (Fn.pf 0)), [(u2.started (Fn.pf 0) (0) (inner u2 (Fn.pf 0))).dev.vfAborts (inner u2 (Fn.pf 0)), (!(inner u2 (Fn.pf 0)).zero 33 35, ST_BAD_FIELD, errByte 33), (!(inner u2 (Fn.pf 0)).zero 40 63, ST_BAD_FIELD, errByte 40), ((u2.started (Fn.pf 0) (0) (inner u2 (Fn.pf 0))).dev.vfState ((inner u2 (Fn.pf 0)).u 32 1 % 64) == 3 || (u2.started (Fn.pf 0) (0) (inner u2 (Fn.pf 0))).dev.vfState ((inner u2 (Fn.pf 0)).u 32 1 % 64) == 5, ST_BUSY, errByte 32)], ST_BUSY, errByte 32, rfl, rfl, rfl, bare_of (by decide +kernel), by decide +kernel⟩,
   ⟨u3, .pf 0, 0, inner u3 (Fn.pf 0), (inner u3 (Fn.pf 0)).u 32 1 % 64, u3.started (Fn.pf 0) (0) (inner u3 (Fn.pf 0)), [(!(inner u3 (Fn.pf 0)).zero 33 63, ST_BAD_FIELD, errByte 33), ((u3.started (Fn.pf 0) (0) (inner u3 (Fn.pf 0))).dev.vfState ((inner u3 (Fn.pf 0)).u 32 1 % 64) != 4, ST_BAD_FIELD, errByte 32)], ST_BAD_FIELD, errByte 32, rfl, rfl, rfl, bare_of (by decide +kernel), by decide +kernel⟩,
   ⟨u4, .pf 0, 0, inner u4 (Fn.pf 0), (inner u4 (Fn.pf 0)).u 32 1 % 64, u4.started (Fn.pf 0) (0) (inner u4 (Fn.pf 0)), [(u4.started (Fn.pf 0) (0) (inner u4 (Fn.pf 0))).dev.vfAborts (inner u4 (Fn.pf 0)), (!(inner u4 (Fn.pf 0)).zero 33 35, ST_BAD_FIELD, errByte 33), (!(inner u4 (Fn.pf 0)).zero 40 63, ST_BAD_FIELD, errByte 40), ((u4.started (Fn.pf 0) (0) (inner u4 (Fn.pf 0))).dev.vfState ((inner u4 (Fn.pf 0)).u 32 1 % 64) == 3 || (u4.started (Fn.pf 0) (0) (inner u4 (Fn.pf 0))).dev.vfState ((inner u4 (Fn.pf 0)).u 32 1 % 64) == 5, ST_BUSY, errByte 32)], rfl, rfl, rfl, bare_of (by decide +kernel), by decide +kernel⟩,
   ⟨u5, .pf 0, 0, inner u5 (Fn.pf 0), (inner u5 (Fn.pf 0)).u 32 1 % 64, u5.started (Fn.pf 0) (0) (inner u5 (Fn.pf 0)), [(u5.started (Fn.pf 0) (0) (inner u5 (Fn.pf 0))).dev.vfAborts (inner u5 (Fn.pf 0)), (!(inner u5 (Fn.pf 0)).zero 33 35, ST_BAD_FIELD, errByte 33), (!(inner u5 (Fn.pf 0)).zero 40 63, ST_BAD_FIELD, errByte 40), ((u5.started (Fn.pf 0) (0) (inner u5 (Fn.pf 0))).dev.vfState ((inner u5 (Fn.pf 0)).u 32 1 % 64) == 3 || (u5.started (Fn.pf 0) (0) (inner u5 (Fn.pf 0))).dev.vfState ((inner u5 (Fn.pf 0)).u 32 1 % 64) == 5, ST_BUSY, errByte 32)], rfl, rfl, rfl, bare_of (by decide +kernel), by decide +kernel⟩,
   ⟨u6, .pf 0, 0, inner u6 (Fn.pf 0), ⟨qi (Fn.pf 0) (0), (inner u6 (Fn.pf 0)).id⟩, (inner u6 (Fn.pf 0)).u 32 1 % 64, u6.started (Fn.pf 0) (0) (inner u6 (Fn.pf 0)), [(!(inner u6 (Fn.pf 0)).zero 33 63, ST_BAD_FIELD, errByte 33), ((u6.started (Fn.pf 0) (0) (inner u6 (Fn.pf 0))).dev.vfState ((inner u6 (Fn.pf 0)).u 32 1 % 64) != 4, ST_BAD_FIELD, errByte 32)], rfl, rfl, rfl, rfl, bare_of (by decide +kernel), (by intro g x hx; cases hx), (by intro x j hj; cases hj), by decide +kernel⟩,
   ⟨u7, 1, (stp, some 0), running_of (by decide +kernel), by decide +kernel⟩,
   ⟨u8, 1, (stp, some 0), by decide +kernel⟩,
   ⟨u8, 1, (stp, some 0), 0, running_of (by decide +kernel), by decide +kernel⟩,
   ⟨u9, 1, (stp, some 1000), (by intro a h; cases h; decide +kernel), by decide +kernel⟩,
   ⟨u23, .pf 0, 0, inner u23 (Fn.pf 0), 1, s23, rfl, by decide +kernel, bare_of (by decide +kernel), by decide +kernel, by decide +kernel, by decide +kernel, by decide +kernel, by decide +kernel, by decide +kernel,
     Nat.le_trans sack23 (by decide +kernel)⟩,
   ⟨u16, .pf 0, 0, inner u16 (Fn.pf 0), (inner u16 (Fn.pf 0)).u 32 1 % 64, u16.started (Fn.pf 0) (0) (inner u16 (Fn.pf 0)), rfl, rfl, bare_of (by decide +kernel), by decide +kernel⟩,
   ⟨u21, .pf 0, 0, inner u21 (Fn.pf 0), (inner u21 (Fn.pf 0)).u 32 1 % 64, u21.started (Fn.pf 0) (0) (inner u21 (Fn.pf 0)), rfl, rfl, bare_of (by decide +kernel), by decide +kernel⟩⟩

def u10 : State := sk 0xAA 0 4096 1
def u11 : State := sk 0xAA 0 8192 4
def u12 : State := sk 0xAA 0 4 4
def u14 : State := sk 0xAA 0 4096 4 hap20
def u15 : State := sk 0xAB 0 63 4
def u17 : State := mem20 (img20 14) (sk 0xAB 0 84 1)
def u18 : State := mem20 (img20 4) (sk 0xAB 0 84 4)
def u19 : State := mem20 (img20 4) (sk 0xAB 0 84 1)
def u20 : State := hv 0 0
def u22 : State := hv 0 2

/-- The premises of each clause of `RucksacksAndHarvestsMoveState` hold together. Left out: a premise on an opaque constant of Config, which no state settles. -/
theorem witness_RucksacksAndHarvestsMoveState :
    (∃ (s : State) (f : Fn) (q : Fin 8) (c : Cmd) (v : Nat) (s0 : State) (e : _) (st res : Nat), s0 = s.started f q c ∧ v = c.u 32 1 % 64 ∧ e = firstError (s0.dev.sackErr f c ++ [(s0.dev.vfState v != 4, ST_BAD_FIELD, errByte 32)]) ∧ s.Bare f q c ∧ s.dev.regsWf = true ∧ s.dev.tablesWf = true ∧ c.opcode = 0xAA ∧ e = some (st, res)) ∧
    (∃ (s : State) (f : Fn) (q : Fin 8) (c : Cmd) (v : Nat) (s0 : State) (e : _), s0 = s.started f q c ∧ v = c.u 32 1 % 64 ∧ e = firstError (s0.dev.sackErr f c ++ [(s0.dev.vfState v != 4, ST_BAD_FIELD, errByte 32)]) ∧ s.Bare f q c ∧ s.dev.regsWf = true ∧ s.dev.tablesWf = true ∧ c.opcode = 0xAA ∧ e = none ∧ bit (c.u 33 1) 0 = false ∧ s0.ownsBuffer f (c.u 40 8) (c.u 48 4) = false) ∧
    (∃ (s : State) (f : Fn) (q : Fin 8) (c : Cmd) (v : Nat) (s0 : State) (e : _) (img : List Byte), s0 = s.started f q c ∧ v = c.u 32 1 % 64 ∧ e = firstError (s0.dev.sackErr f c ++ [(s0.dev.vfState v != 4, ST_BAD_FIELD, errByte 32)]) ∧ img = s0.rucksack v ∧ s.Bare f q c ∧ min (c.u 48 4) sackMost < img.length ∧ s.dev.regsWf = true ∧ s.dev.tablesWf = true ∧ c.opcode = 0xAA ∧ e = none ∧ (bit (c.u 33 1) 0 = true ∨ s0.ownsBuffer f (c.u 40 8) (c.u 48 4) = true)) ∧
    (∃ (s : State) (f : Fn) (q : Fin 8) (c : Cmd) (v : Nat) (s0 : State) (e : _), s0 = s.started f q c ∧ v = c.u 32 1 % 64 ∧ e = firstError (s0.dev.sackErr f c ++ [(s0.dev.vfState v != 4, ST_BAD_FIELD, errByte 32)]) ∧ s.Bare f q c ∧ s.dev.regsWf = true ∧ s.dev.tablesWf = true ∧ c.opcode = 0xAA ∧ e = none ∧ (bit (c.u 33 1) 0 = true ∨ s0.ownsBuffer f (c.u 40 8) (c.u 48 4) = true) ∧ bit (c.u 33 1) 0 = true ∧ s0.dev.canSend f = true ∧ (s0.rucksack v).length ≤ min (c.u 48 4) sackMost) ∧
    (∃ (s : State) (f : Fn) (q : Fin 8) (c : Cmd) (v : Nat) (s0 : State) (e : _), s0 = s.started f q c ∧ v = c.u 32 1 % 64 ∧ e = firstError (s0.dev.sackErr f c ++ [(s0.dev.vfState v != 4, ST_BAD_FIELD, errByte 32)]) ∧ s.Bare f q c ∧ s.dev.regsWf = true ∧ s.dev.tablesWf = true ∧ c.opcode = 0xAA ∧ e = none ∧ (bit (c.u 33 1) 0 = true ∨ s0.ownsBuffer f (c.u 40 8) (c.u 48 4) = true) ∧ bit (c.u 33 1) 0 = false) ∧
    (∃ (s : State) (f : Fn) (q : Fin 8) (c : Cmd) (s0 : State) (e : _) (st res : Nat), s0 = s.started f q c ∧ e = firstError (s0.dev.sackErr f c ++ [(decide (c.u 48 4 < 64), ST_BAD_FIELD, errAt 0xFFFF)]) ∧ s.Bare f q c ∧ s.dev.regsWf = true ∧ s.dev.tablesWf = true ∧ c.opcode = 0xAB ∧ e = some (st, res)) ∧
    (∃ (s : State) (f : Fn) (q : Fin 8) (c : Cmd) (s0 : State) (e : _), s0 = s.started f q c ∧ e = firstError (s0.dev.sackErr f c ++ [(decide (c.u 48 4 < 64), ST_BAD_FIELD, errAt 0xFFFF)]) ∧ s.Bare f q c ∧ s.dev.regsWf = true ∧ s.dev.tablesWf = true ∧ c.opcode = 0xAB ∧ e = none ∧ bit (c.u 33 1) 0 = true) ∧
    (∃ (s : State) (f : Fn) (q : Fin 8) (c : Cmd) (s0 : State) (e : _) (img : List Byte) (st i : Nat), s0 = s.started f q c ∧ e = firstError (s0.dev.sackErr f c ++ [(decide (c.u 48 4 < 64), ST_BAD_FIELD, errAt 0xFFFF)]) ∧ s.Bare f q c ∧ s.dev.regsWf = true ∧ s.dev.tablesWf = true ∧ c.opcode = 0xAB ∧ e = none ∧ bit (c.u 33 1) 0 = false ∧ s0.ownsBuffer f (c.u 40 8) (c.u 48 4) = true ∧ (s0.readMem ⟨f.code, c.secure⟩ 9 (c.u 40 8) (c.u 48 4)).2 = .ok img ∧ s0.dev.imgErr img (c.u 48 4) = some (st, i)) ∧
    (∃ (s : State) (f : Fn) (q : Fin 8) (c : Cmd) (v : Nat) (s0 : State) (e : _) (img : List Byte), s0 = s.started f q c ∧ v = c.u 32 1 % 64 ∧ e = firstError (s0.dev.sackErr f c ++ [(decide (c.u 48 4 < 64), ST_BAD_FIELD, errAt 0xFFFF)]) ∧ s.Bare f q c ∧ s.dev.regsWf = true ∧ s.dev.tablesWf = true ∧ c.opcode = 0xAB ∧ e = none ∧ bit (c.u 33 1) 0 = false ∧ s0.ownsBuffer f (c.u 40 8) (c.u 48 4) = true ∧ (s0.readMem ⟨f.code, c.secure⟩ 9 (c.u 40 8) (c.u 48 4)).2 = .ok img ∧ s0.dev.imgErr img (c.u 48 4) = none ∧ s0.dev.restorable v = false) ∧
    (∃ (s : State) (f : Fn) (q : Fin 8) (c : Cmd) (v : Nat) (s0 : State) (e : _) (img : List Byte) (p : Machine.VfPart), s0 = s.started f q c ∧ v = c.u 32 1 % 64 ∧ e = firstError (s0.dev.sackErr f c ++ [(decide (c.u 48 4 < 64), ST_BAD_FIELD, errAt 0xFFFF)]) ∧ s.Bare f q c ∧ s.dev.regsWf = true ∧ s.dev.tablesWf = true ∧ c.opcode = 0xAB ∧ e = none ∧ bit (c.u 33 1) 0 = false ∧ s0.ownsBuffer f (c.u 40 8) (c.u 48 4) = true ∧ (s0.readMem ⟨f.code, c.secure⟩ 9 (c.u 40 8) (c.u 48 4)).2 = .ok img ∧ s0.dev.imgErr img (c.u 48 4) = none ∧ s0.dev.restorable v = true ∧ bit (le img 13 1) 0 = s.dev.secureVf v ∧ (s.dev.secureVf v = true → c.secure = true) ∧ (∀ x ∈ imgSections img, s0.ownsAll (0x10 + v) x.1 (x.2.2.getD []) = true) ∧ s0.dev.partErr (0x10 + v) (s.dev.secureVf v) p = none) ∧
    (∃ (s : State) (f : Fn) (q : Fin 8) (c : Cmd) (s0 : State) (st res : Nat), s0 = s.started f q c ∧ s.Bare f q c ∧ s.dev.regsWf = true ∧ s.dev.tablesWf = true ∧ c.opcode = 0xAC ∧ s0.harvestErr f c = some (st, res)) ∧
    (∃ (s : State) (f : Fn) (q : Fin 8) (c : Cmd) (s0 : State), s0 = s.started f q c ∧ s.Bare f q c ∧ s.dev.regsWf = true ∧ s.dev.tablesWf = true ∧ c.opcode = 0xAC ∧ s0.harvestErr f c = none ∧ bit (c.u 33 1) 0 = true ∧ s0.dev.canSend f = true ∧ c.u 48 4 ≤ 512) ∧
    (∃ (s : State) (f : Fn) (q : Fin 8) (c : Cmd) (s0 : State) (r : _), s0 = s.started f q c ∧ r = s0.harvest f c.secure false (c.u 48 4 / 512 + 1) (c.u 40 8) (c.u 48 4) (c.u 56 8) ∧ s.Bare f q c ∧ s.dev.regsWf = true ∧ s.dev.tablesWf = true ∧ c.opcode = 0xAC ∧ s0.harvestErr f c = none ∧ bit (c.u 33 1) 0 = false ∧ r.2 = none) :=
  ⟨⟨u10, .pf 0, 0, inner u10 (Fn.pf 0), (inner u10 (Fn.pf 0)).u 32 1 % 64, u10.started (Fn.pf 0) (0) (inner u10 (Fn.pf 0)), firstError ((u10.started (Fn.pf 0) (0) (inner u10 (Fn.pf 0))).dev.sackErr (Fn.pf 0) (inner u10 (Fn.pf 0)) ++ [((u10.started (Fn.pf 0) (0) (inner u10 (Fn.pf 0))).dev.vfState ((inner u10 (Fn.pf 0)).u 32 1 % 64) != 4, ST_BAD_FIELD, errByte 32)]), ST_BAD_FIELD, errByte 32, rfl, rfl, rfl, bare_of (by decide +kernel), by decide +kernel⟩,
   ⟨u11, .pf 0, 0, inner u11 (Fn.pf 0), (inner u11 (Fn.pf 0)).u 32 1 % 64, u11.started (Fn.pf 0) (0) (inner u11 (Fn.pf 0)), firstError ((u11.started (Fn.pf 0) (0) (inner u11 (Fn.pf 0))).dev.sackErr (Fn.pf 0) (inner u11 (Fn.pf 0)) ++ [((u11.started (Fn.pf 0) (0) (inner u11 (Fn.pf 0))).dev.vfState ((inner u11 (Fn.pf 0)).u 32 1 % 64) != 4, ST_BAD_FIELD, errByte 32)]), rfl, rfl, rfl, bare_of (by decide +kernel), by decide +kernel⟩,
   ⟨u12, .pf 0, 0, inner u12 (Fn.pf 0), (inner u12 (Fn.pf 0)).u 32 1 % 64, u12.started (Fn.pf 0) (0) (inner u12 (Fn.pf 0)), firstError ((u12.started (Fn.pf 0) (0) (inner u12 (Fn.pf 0))).dev.sackErr (Fn.pf 0) (inner u12 (Fn.pf 0)) ++ [((u12.started (Fn.pf 0) (0) (inner u12 (Fn.pf 0))).dev.vfState ((inner u12 (Fn.pf 0)).u 32 1 % 64) != 4, ST_BAD_FIELD, errByte 32)]), (u12.started (Fn.pf 0) (0) (inner u12 (Fn.pf 0))).rucksack ((inner u12 (Fn.pf 0)).u 32 1 % 64), rfl, rfl, rfl, rfl, bare_of (by decide +kernel), sack_lt (by decide +kernel), by decide +kernel⟩,
   ⟨u23, .pf 0, 0, inner u23 (.pf 0), 1, s23, _, rfl, by decide +kernel, rfl, bare_of (by decide +kernel), by decide +kernel, by decide +kernel, by decide +kernel, by decide +kernel, by decide +kernel, by decide +kernel, by decide +kernel,
     Nat.le_trans sack23 (by decide +kernel)⟩,
   ⟨u14, .pf 0, 0, inner u14 (Fn.pf 0), (inner u14 (Fn.pf 0)).u 32 1 % 64, u14.started (Fn.pf 0) (0) (inner u14 (Fn.pf 0)), firstError ((u14.started (Fn.pf 0) (0) (inner u14 (Fn.pf 0))).dev.sackErr (Fn.pf 0) (inner u14 (Fn.pf 0)) ++ [((u14.started (Fn.pf 0) (0) (inner u14 (Fn.pf 0))).dev.vfState ((inner u14 (Fn.pf 0)).u 32 1 % 64) != 4, ST_BAD_FIELD, errByte 32)]), rfl, rfl, rfl, bare_of (by decide +kernel), by decide +kernel⟩,
   ⟨u15, .pf 0, 0, inner u15 (Fn.pf 0), u15.started (Fn.pf 0) (0) (inner u15 (Fn.pf 0)), firstError ((u15.started (Fn.pf 0) (0) (inner u15 (Fn.pf 0))).dev.sackErr (Fn.pf 0) (inner u15 (Fn.pf 0)) ++ [(decide ((inner u15 (Fn.pf 0)).u 48 4 < 64), ST_BAD_FIELD, errAt 0xFFFF)]), ST_BAD_FIELD, errAt 0xFFFF, rfl, rfl, bare_of (by decide +kernel), by decide +kernel⟩,
   ⟨u16, .pf 0, 0, inner u16 (Fn.pf 0), u16.started (Fn.pf 0) (0) (inner u16 (Fn.pf 0)), firstError ((u16.started (Fn.pf 0) (0) (inner u16 (Fn.pf 0))).dev.sackErr (Fn.pf 0) (inner u16 (Fn.pf 0)) ++ [(decide ((inner u16 (Fn.pf 0)).u 48 4 < 64), ST_BAD_FIELD, errAt 0xFFFF)]), rfl, rfl, bare_of (by decide +kernel), by decide +kernel⟩,
   ⟨u17, .pf 0, 0, inner u17 (Fn.pf 0), u17.started (Fn.pf 0) (0) (inner u17 (Fn.pf 0)), firstError ((u17.started (Fn.pf 0) (0) (inner u17 (Fn.pf 0))).dev.sackErr (Fn.pf 0) (inner u17 (Fn.pf 0)) ++ [(decide ((inner u17 (Fn.pf 0)).u 48 4 < 64), ST_BAD_FIELD, errAt 0xFFFF)]), img20 14, ST_VERSION, 0, rfl, rfl, bare_of (by decide +kernel), by decide +kernel⟩,
   ⟨u18, .pf 0, 0, inner u18 (Fn.pf 0), (inner u18 (Fn.pf 0)).u 32 1 % 64, u18.started (Fn.pf 0) (0) (inner u18 (Fn.pf 0)), firstError ((u18.started (Fn.pf 0) (0) (inner u18 (Fn.pf 0))).dev.sackErr (Fn.pf 0) (inner u18 (Fn.pf 0)) ++ [(decide ((inner u18 (Fn.pf 0)).u 48 4 < 64), ST_BAD_FIELD, errAt 0xFFFF)]), img20 4, rfl, rfl, rfl, bare_of (by decide +kernel), by decide +kernel⟩,
   ⟨u19, .pf 0, 0, inner u19 (Fn.pf 0), (inner u19 (Fn.pf 0)).u 32 1 % 64, u19.started (Fn.pf 0) (0) (inner u19 (Fn.pf 0)), firstError ((u19.started (Fn.pf 0) (0) (inner u19 (Fn.pf 0))).dev.sackErr (Fn.pf 0) (inner u19 (Fn.pf 0)) ++ [(decide ((inner u19 (Fn.pf 0)).u 48 4 < 64), ST_BAD_FIELD, errAt 0xFFFF)]), img20 4, ({} : VfPart), rfl, rfl, rfl, bare_of (by decide +kernel), by decide +kernel⟩,
   ⟨u20, .pf 0, 0, inner u20 (Fn.pf 0), u20.started (Fn.pf 0) (0) (inner u20 (Fn.pf 0)), ST_BAD_FIELD, errByte 48, rfl, bare_of (by decide +kernel), by decide +kernel⟩,
   ⟨u21, .pf 0, 0, inner u21 (Fn.pf 0), u21.started (Fn.pf 0) (0) (inner u21 (Fn.pf 0)), rfl, bare_of (by decide +kernel), by decide +kernel⟩,
   ⟨u22, .pf 0, 0, inner u22 (Fn.pf 0), u22.started (Fn.pf 0) (0) (inner u22 (Fn.pf 0)), (u22.started (Fn.pf 0) (0) (inner u22 (Fn.pf 0))).harvest (Fn.pf 0) (inner u22 (Fn.pf 0)).secure false ((inner u22 (Fn.pf 0)).u 48 4 / 512 + 1) ((inner u22 (Fn.pf 0)).u 40 8) ((inner u22 (Fn.pf 0)).u 48 4) ((inner u22 (Fn.pf 0)).u 56 8), rfl, rfl, bare_of (by decide +kernel), by decide +kernel⟩⟩

end W20

namespace W21

def cn (g : Dev → Dev) : State := st fun d => g ((d.setF CNV_STAT.POSITION 0 1).setF CNV_STAT.MEMBERS 0 15)
def up (k : Nat) (d : Dev) : Dev := (d.setF CNV_PORT_STAT.UP k 1).setF CNV_PORT_STAT.LANES k 8
def tr (k : Nat) (d : Dev) : Dev := d.setF CNV_PORT_STAT.TRAINING k 1
def adopted (d : Dev) : Dev := { d with time := { d.time with adopted := true } }
def pi21 (p : Fin 4) (m : Bool) : PeerInfo := { pos := p, member := m, revision := 0xFE, memGib := 63, lanes := 8, ltime := 2^64 + 99, chans := [63, 0] }
def mxr (slots : List (Nat × Nat × MbxSlot)) (ends : List (Nat × MbxEnd)) (upb : Bool) (d : Dev) : Dev :=
  slots.foldl (fun d x => d.setSlot 63 x.1 x.2.1 x.2.2) (ends.foldl (fun d x => d.updEnd 63 x.1 fun _ => x.2) (((d.setF MBX_BIND.END_A 63 4).setF MBX_BIND.REMOTE 63 1 |>.setF MBX_BIND.PEER 63 2 |>.setF MBX_BIND.UP 63 (b2n upb))))
def shr (d : Dev) : Dev := { d with own := { d.own with shared := [{ base := 0x100000, pages := 2, peers := 15, funcs := 0 }] } }
def full : MbxSlot := { data := Tbl.put ([] : Tbl Word) 15 7, posted := true }
def gl (state : Nat) (refs : Nat) (d : Dev) : Dev := { ((((d.setF DSP_TG_GL.SRC_TYPE 11 3).setF DSP_TG_GL.PEER 11 2).setF DSP_TG_GL.SRC_IDX 11 5).setF DSP_TG_STAT.STATE 11 3).setF DSP_TG_STAT.GL_STATE 11 state with disp := { d.disp with outs := Tbl.put ([] : Tbl OutSt) 11 { refs := refs } } }

def u1 : State := st id
def u2 : State := cn (tr 2)
def u3 : State := cn (tr 2 ∘ mxr [] [] false)
def u4 : State := cn (up 2 ∘ adopted)
def u5 : State := cn id
def u6 : State := cn (up 2)
def u7 : State := cn (up 2 ∘ (fun d => d.setF CNV_PORT_STAT.SPARE_USED 2 1))
def u8 : State := cn (up 0 ∘ gl 1 3)
def u11 : State := cn (fun d => up 0 { d with vin := { d.vin with cs := Tbl.put ([] : Tbl CsSt) 15 { newest := some 2 } } })

/-- The premises of each clause of `ConvoyLinksTrainAndFail` hold together. -/
theorem witness_ConvoyLinksTrainAndFail :
    (∃ (s : State) (k : Fin 3), s.dev.regsWf = true ∧ s.dev.tablesWf = true ∧ (s.dev.cnvTrains k.val = false ∨ s.dev.fb CNV_PORT_STAT.UP k.val = true)) ∧
    (∃ (s : State) (k : Fin 3) (peer : PeerInfo), s.dev.regsWf = true ∧ s.dev.tablesWf = true ∧ s.dev.cnvTrains k.val = true ∧ s.dev.fb CNV_PORT_STAT.UP k.val = false ∧ (peer.member = false ∨ peer.pos.val ≠ s.dev.peerAt k.val)) ∧
    (∃ (s : State) (k : Fin 3) (peer : PeerInfo), s.dev.regsWf = true ∧ s.dev.tablesWf = true ∧ s.dev.cnvTrains k.val = true ∧ s.dev.fb CNV_PORT_STAT.UP k.val = false ∧ peer.member = true ∧ peer.pos.val = s.dev.peerAt k.val ∧ (∀ c ∈ s.dev.spanning peer.pos.val, s.dev.fb MBX_BIND.UP c = false)) ∧
    (∃ (s : State) (k : Fin 3), s.dev.regsWf = true ∧ s.dev.tablesWf = true ∧ s.dev.fb CNV_PORT_STAT.UP k.val = true) ∧
    (∃ (s : State) (k : Fin 3), s.dev.regsWf = true ∧ s.dev.tablesWf = true ∧ s.dev.fb CNV_PORT_STAT.UP k.val = true ∧ s.dev.spanning (s.dev.peerAt k.val) = [] ∧ s.dev.mbx.bulk = []) ∧
    (∃ (s : State) (k : Fin 3), s.dev.regsWf = true ∧ s.dev.tablesWf = true ∧ s.dev.fb CNV_PORT_STAT.UP k.val = false) ∧
    (∃ (s : State) (k : Fin 3), s.dev.regsWf = true ∧ s.dev.tablesWf = true ∧ s.dev.acholtRuns = true ∧ s.dev.cnvTrains k.val = true ∧ s.dev.fb CNV_PORT_STAT.SPARE_USED k.val = false ∧ s.dev.autoBench 4 = true) ∧
    (∃ (s : State) (k : Fin 3), s.dev.regsWf = true ∧ s.dev.tablesWf = true ∧ s.dev.acholtRuns = true ∧ s.dev.cnvTrains k.val = true ∧ (s.dev.fb CNV_PORT_STAT.SPARE_USED k.val = true ∨ s.dev.autoBench 4 = false)) ∧
    (∃ (s : State) (k : Fin 3), s.dev.regsWf = true ∧ s.dev.tablesWf = true ∧ s.dev.leaderPort = some k.val ∧ s.dev.time.adopted = true ∧ s.dev.fb CNV_PORT_STAT.UP k.val = true) ∧
    (∃ (s : State) (p : Fin 4) (n src : Fin 12), s.dev.regsWf = true ∧ s.dev.tablesWf = true ∧ s.dev.peerUp? p.val = true ∧ s.dev.f DSP_TG_GL.SRC_TYPE n.val = 3 ∧ s.dev.f DSP_TG_GL.PEER n.val = p.val ∧ s.dev.f DSP_TG_GL.SRC_IDX n.val = src.val ∧ s.dev.tgScans n.val = true ∧ s.dev.glState n.val ≠ 0) ∧
    (∃ (s : State) (p : Fin 4) (cs : Fin 16) (j : _), s.dev.regsWf = true ∧ s.dev.tablesWf = true ∧ s.dev.peerUp? p.val = true ∧ (s.dev.cs cs.val).newest = some j) :=
  ⟨⟨u1, 2, by decide +kernel⟩,
   ⟨u2, 2, pi21 0 false, by decide +kernel⟩,
   ⟨u3, 2, pi21 0 true, by decide +kernel⟩,
   ⟨u4, 2, by decide +kernel⟩,
   ⟨u4, 2, by decide +kernel⟩,
   ⟨u5, 2, by decide +kernel⟩,
   ⟨u6, 2, by decide +kernel⟩,
   ⟨u7, 2, by decide +kernel⟩,
   ⟨u4, 2, by decide +kernel⟩,
   ⟨u8, 2, 11, 5, by decide +kernel⟩,
   ⟨u11, 2, 15, 2, by decide +kernel⟩⟩

def u9 : State := cn (up 0)
def u10 : State := owned 3 2 0x100000 (cn (up 0 ∘ shr))
def u12 : State := cn (up 0 ∘ mxr [] [] true)
def u15 : State := cn (up 0 ∘ mxr [(1,3,full)] [(1,{ order := [3] })] true)
def u13 : State := cn (up 0 ∘ mxr [(0,3,full),(0,1,full)] [(0,{ order := [1,3], txNotice := true })] true)
def u14 : State := cn (up 0 ∘ mxr [(0,3,full),(0,1,full),(1,2,full),(1,3,{ full with posted := false })] [(0,{ order := [1,3] }),(1,{ order := [2], opened := true })] true)

/-- The premises of each clause of `ConvoyTimeAndPeersAreServed` hold together. -/
theorem witness_ConvoyTimeAndPeersAreServed :
    (∃ (s : State) (k : Nat), s.dev.regsWf = true ∧ s.dev.tablesWf = true ∧ s.dev.leaderPort = some k ∧ s.dev.time.adopted = true ∧ s.dev.fb CNV_PORT_STAT.UP k = true) ∧
    (∃ (s : State) (peer : Fin 4), s.dev.regsWf = true ∧ s.dev.tablesWf = true ∧ s.dev.peerUp? peer.val = false) ∧
    (∃ (s : State) (peer : Fin 4) (src n : Fin 12) (stamp : Nat), (s.dev.out n.val).lastRef ≠ some stamp ∧ s.dev.regsWf = true ∧ s.dev.tablesWf = true ∧ s.dev.peerUp? peer.val = true ∧ s.dev.f DSP_TG_GL.SRC_TYPE n.val = 3 ∧ s.dev.f DSP_TG_GL.PEER n.val = peer.val ∧ s.dev.f DSP_TG_GL.SRC_IDX n.val = src.val ∧ (∀ m, m < 12 → m ≠ n.val → ¬(s.dev.f DSP_TG_GL.SRC_TYPE m = 3 ∧ s.dev.f DSP_TG_GL.PEER m = peer.val ∧ s.dev.f DSP_TG_GL.SRC_IDX m = src.val)) ∧ s.dev.tgScans n.val = true ∧ s.dev.glState n.val ≠ 0) ∧
    (∃ (s : State) (p : Fin 4), s.dev.regsWf = true ∧ s.dev.tablesWf = true ∧ s.dev.peerUp? p.val = false) ∧
    (∃ (s : State) (p : Fin 4), s.dev.regsWf = true ∧ s.dev.tablesWf = true ∧ s.dev.peerUp? p.val = true) ∧
    (∃ (s : State) (p : Fin 4) (sec w : Bool) (addr : _) (r : Req) (unit : Nat), s.dev.regsWf = true ∧ s.dev.tablesWf = true ∧ s.dev.peerUp? p.val = true ∧ r = ⟨0x60 + p.val, sec⟩ ∧ unit = unitPeer (s.dev.peerPort p.val) ∧ s.checkAccess r 8 addr w = false) ∧
    (∃ (s : State) (p : Fin 4) (sec w : Bool) (addr : _) (rivals : _) (r : Req) (unit : Nat), s.dev.regsWf = true ∧ s.dev.tablesWf = true ∧ s.dev.peerUp? p.val = true ∧ r = ⟨0x60 + p.val, sec⟩ ∧ unit = unitPeer (s.dev.peerPort p.val) ∧ s.checkAccess r 8 addr w = true ∧ (s.dev.round (s.dev.arbiterOf addr) ⟨6, r.mid, unit, sec⟩ rivals).2 = false) ∧
    (∃ (s : State) (p : Fin 4) (sec w : Bool) (addr : _) (r : Req) (unit : Nat), s.dev.regsWf = true ∧ s.dev.tablesWf = true ∧ s.dev.peerUp? p.val = true ∧ r = ⟨0x60 + p.val, sec⟩ ∧ unit = unitPeer (s.dev.peerPort p.val) ∧ s.checkAccess r 8 addr w = true ∧ w = true) ∧
    (∃ (s : State) (p : Fin 4) (sec w : Bool) (addr len ns : _) (bs : List Byte) (r : Req) (unit : Nat), s.dev.regsWf = true ∧ s.dev.tablesWf = true ∧ s.dev.peerUp? p.val = true ∧ r = ⟨0x60 + p.val, sec⟩ ∧ unit = unitPeer (s.dev.peerPort p.val) ∧ s.checkAccess r 8 addr w = true ∧ w = false ∧ ((s.won r unit addr len true ns).readEcc r 8 addr len []).2 = .ok bs) ∧
    (∃ (s : State) (p : Fin 4) (cs : Fin 16) (k : _), s.dev.regsWf = true ∧ s.dev.tablesWf = true ∧ s.dev.peerUp? p.val = true ∧ (s.dev.cs cs.val).newest = some k) ∧
    (∃ (s : State) (p : Fin 4) (c : Fin 64) (k : Fin 4), s.dev.regsWf = true ∧ s.dev.tablesWf = true ∧ s.dev.peerUp? p.val = true ∧ (∀ b ∈ s.dev.mbx.bulk, b.chan ≠ c.val) ∧ (s.dev.spansTo c.val p.val = false ∨ (s.dev.mbxSlot c.val 1 k.val).posted = true)) ∧
    (∃ (s : State) (p : Fin 4) (c : Fin 64) (k : Fin 4), s.dev.regsWf = true ∧ s.dev.tablesWf = true ∧ s.dev.peerUp? p.val = true ∧ (∀ b ∈ s.dev.mbx.bulk, b.chan ≠ c.val) ∧ s.dev.spansTo c.val p.val = true ∧ (s.dev.mbxSlot c.val 1 k.val).posted = false ∧ s.dev.rxResets c.val 1 = false) ∧
    (∃ (s : State) (p : Fin 4) (c : Fin 64) (k : Fin 4), s.dev.regsWf = true ∧ s.dev.tablesWf = true ∧ s.dev.peerUp? p.val = true ∧ (∀ b ∈ s.dev.mbx.bulk, b.chan ≠ c.val) ∧ s.dev.spansTo c.val p.val = true ∧ (s.dev.mbxSlot c.val 0 k.val).posted = true) ∧
    (∃ (s : State) (p : Fin 4) (c : Fin 64), s.dev.regsWf = true ∧ s.dev.tablesWf = true ∧ s.dev.peerUp? p.val = true ∧ (∀ b ∈ s.dev.mbx.bulk, b.chan ≠ c.val) ∧ s.dev.spansTo c.val p.val = true) ∧
    (∃ (s : State) (p : Fin 4) (c : Fin 64), s.dev.regsWf = true ∧ s.dev.tablesWf = true ∧ s.dev.peerUp? p.val = true ∧ (∀ b ∈ s.dev.mbx.bulk, b.chan ≠ c.val) ∧ s.dev.spansTo c.val p.val = true ∧ (∀ j ∈ (s.dev.mbxEnd c.val 0).order, j < 4)) ∧
    (∃ (s : State) (p : Fin 4) (c : Fin 64) (k : Fin 4), s.dev.regsWf = true ∧ s.dev.tablesWf = true ∧ s.dev.peerUp? p.val = true ∧ (∀ b ∈ s.dev.mbx.bulk, b.chan ≠ c.val) ∧ (s.dev.spansTo c.val p.val = false ∨ (s.dev.mbxSlot c.val 1 k.val).posted = false)) ∧
    (∃ (s : State) (p : Fin 4) (c : Fin 64) (k : Fin 4), s.dev.regsWf = true ∧ s.dev.tablesWf = true ∧ s.dev.peerUp? p.val = true ∧ (∀ b ∈ s.dev.mbx.bulk, b.chan ≠ c.val) ∧ s.dev.spansTo c.val p.val = true ∧ (s.dev.mbxSlot c.val 1 k.val).posted = true) ∧
    (∃ (s : State) (k : Fin 3) (peer : PeerInfo), s.dev.regsWf = true ∧ s.dev.tablesWf = true ∧ s.dev.cnvTrains k.val = true ∧ s.dev.fb CNV_PORT_STAT.UP k.val = false ∧ peer.member = true ∧ peer.pos.val = s.dev.peerAt k.val) ∧
    (∃ (s : State) (k : Fin 3), s.dev.regsWf = true ∧ s.dev.tablesWf = true ∧ s.dev.fb CNV_PORT_STAT.UP k.val = true) ∧
    (∃ (s : State) (k : Fin 3), s.dev.regsWf = true ∧ s.dev.tablesWf = true ∧ s.dev.acholtRuns = true ∧ s.dev.cnvTrains k.val = true ∧ s.dev.fb CNV_PORT_STAT.SPARE_USED k.val = false ∧ s.dev.autoBench 4 = true) :=
  ⟨⟨u4, 2, by decide +kernel⟩,
   ⟨u5, 2, by decide +kernel⟩,
   ⟨u8, 2, 5, 11, 0, by decide +kernel⟩,
   ⟨u5, 2, by decide +kernel⟩,
   ⟨u9, 2, by decide +kernel⟩,
   ⟨u9, 2, false, true, 0x100000, ⟨0x62, false⟩, _, by decide +kernel, by decide +kernel, by decide +kernel, by decide +kernel, rfl, by decide +kernel⟩,
   ⟨u10, 2, false, true, 0x100ffe, [⟨3, 0x63, 40, false⟩], ⟨0x62, false⟩, unitPeer (u10.dev.peerPort 2), by decide +kernel⟩,
   ⟨u10, 2, false, true, 0x100ffe, ⟨0x62, false⟩, unitPeer (u10.dev.peerPort 2), by decide +kernel⟩,
   ⟨u10, 2, false, false, 0x100ffe, 4, 7, ([0,0,0,0] : List Byte), ⟨0x62, false⟩, unitPeer (u10.dev.peerPort 2), by decide +kernel⟩,
   ⟨u11, 2, 15, 2, by decide +kernel⟩,
   ⟨u9, 2, 63, 3, by decide +kernel⟩,
   ⟨u12, 2, 63, 3, by decide +kernel⟩,
   ⟨u13, 2, 63, 3, by decide +kernel⟩,
   ⟨u12, 2, 63, by decide +kernel⟩,
   ⟨u14, 2, 63, by decide +kernel⟩,
   ⟨u12, 2, 63, 3, by decide +kernel⟩,
   ⟨u15, 2, 63, 3, by decide +kernel⟩,
   ⟨u3, 2, pi21 0 true, by decide +kernel⟩,
   ⟨u4, 2, by decide +kernel⟩,
   ⟨u6, 2, by decide +kernel⟩⟩

end W21

namespace W22

def b16 (n : Nat) : List Nat := (toLe n 2).map (·.toNat)
def b32 (n : Nat) : List Nat := (toLe n 4).map (·.toNat)
def b64 (n : Nat) : List Nat := (toLe n 8).map (·.toNat)
def mg (op : Nat) (body : List Nat) (g : Dev → Dev := id) (n : Nat := 4) : State := owned 4 n 0x100000 (enved (.pf 0) 7 op body g)
def m (h : MgtSt → MgtSt) (d : Dev) : Dev := { d with mgt := h d.mgt }
def mem22 (img : List Byte) (s : State) : State := loaded 0x100000 img s
def fwImg (ver rb : Nat) : List Byte := ([0x41,0x48,0x57,0x46] ++ b16 1 ++ [rb,0] ++ b32 ver ++ b32 64 ++ b64 0 ++ List.replicate 40 0).map (BitVec.ofNat 8)
def fwAt (k ver rb : Nat) (d : Dev) : Dev := m (fun x => { x with flash := flashPut x.flash (fwSlotAt k) (fwImg ver rb) }) d
def ent (k : Nat) (t : Nat := 5) : LogEntry := ⟨t, 4, 0, k, 99, 1, 2, [1,2,3,4,5,6,7,8,9,10]⟩
def logs (n mir : Nat) (d : Dev) : Dev := m (fun x => { x with log := (List.range n).reverse.map (fun k => ent k), nextSeq := n, nextMirror := mir }) d
def early1 (ending : Bool) : EarlyEntry := { (default : EarlyEntry) with output := 11, ending := ending, pfEnd := true }
def ev (l : List EarlyEntry) (d : Dev) : Dev := (m (fun x => { x with early := l }) d).setF DSP_TG_STAT.STATE 11 3
def eEnt : List Byte := [3, 0, 5] ++ List.replicate 509 0
def eImg : List Byte := toLe 0x57564C45 4 ++ toLe 1 2 ++ [1, 0] ++ toLe 576 4 ++ toLe (crcOf 1 eEnt) 4 ++ List.replicate 48 0 ++ eEnt
def lkImg (epoch : Nat) : List Byte := (b32 0x4C544B4C ++ b16 1 ++ b16 epoch ++ b32 184 ++ b32 1 ++ b64 0 ++ b64 ddrBase ++ b64 0 ++ List.replicate 24 0 ++ b16 4 ++ b16 1 ++ b32 72 ++ b32 0xF ++ List.replicate 12 0 ++ List.replicate 96 0).map (BitVec.ofNat 8)
def bsw (kind back index : Nat) (g : Dev → Dev := id) : State := mg 0xA5 ([0,0,kind,back] ++ b16 index) g
def spareGpu (d : Dev) : Dev := (d.setF GPU_SC_STAT.ROLE 9 1)

def u1 : State := mg 0xA0 ([0,0,0,0,0,0,0,0] ++ b64 0x100004)
def u2 : State := mg 0xA1 ([0,0,0,0,0,0,0,0] ++ b64 0x100000 ++ b32 2049)
def u3 : State := mg 0xA2 [0,1]
def u4 : State := mg 0xA3 [0,0,16]
def u5 : State := mg 0xA4 [0,1]
def u6 : State := mg 0xA4 [0,2,0]
def u7 : State := mg 0xA4 [0,3,0]
def u8 : State := mg 0xA4 [0,4,0]
def u9 : State := mg 0xA6 [0,0,7]
def u10 : State := mg 0xA7 [0,0,16]
def u11 : State := mg 0xAD [0,2,1]
def u12 : State := mg 0xAE ([0,0,0,0] ++ b32 5 ++ b16 0x8000)
def u13 : State := mg 0xAE [0,1,4]
def u14 : State := mg 0xAE [0,2,0x80]

/-- The premises of each clause of `ManagementErrorsAreReported` hold together. Left out: a premise on an opaque constant of Config, which no state settles. -/
theorem witness_ManagementErrorsAreReported :
    (∃ (s s0 : State) (f : Fn) (q : Fin 8) (c : Cmd) (errs : List (Bool × Nat × Nat)) (st res : Nat), errs = mgtHead f c false (within 40 47) ++ [s0.dev.mgtBuf c 552] ∧ s.Begins f q c s0 ∧ s0.dev.regsWf = true ∧ s0.dev.tablesWf = true ∧ c.opcode = 0xA0 ∧ firstError errs = some (st, res)) ∧
    (∃ (s s0 : State) (f : Fn) (q : Fin 8) (c : Cmd) (errs : List (Bool × Nat × Nat)) (st res : Nat), errs = mgtHead f c false (within 36 51) ++ [(!decide (1 ≤ c.u 48 4 ∧ c.u 48 4 ≤ 2048), ST_BAD_FIELD, errByte 48), s0.dev.mgtBuf c (32 * c.u 48 4)] ∧ s.Begins f q c s0 ∧ s0.dev.regsWf = true ∧ s0.dev.tablesWf = true ∧ c.opcode = 0xA1 ∧ firstError errs = some (st, res)) ∧
    (∃ (s s0 : State) (f : Fn) (q : Fin 8) (c : Cmd) (errs : List (Bool × Nat × Nat)) (st res : Nat), errs = mgtHead f c true (· == 33) ++ [(s0.dev.mgt.epochSteps == 32 || decide (s0.dev.f OWN_LOCK_STAT.EPOCH 0 < s0.dev.mgt.epochSteps + 1), ST_BAD_FIELD, errByte 33)] ∧ s.Begins f q c s0 ∧ s0.dev.regsWf = true ∧ s0.dev.tablesWf = true ∧ c.opcode = 0xA2 ∧ c.u 33 1 = 1 ∧ firstError errs = some (st, res)) ∧
    (∃ (s s0 : State) (f : Fn) (q : Fin 8) (c : Cmd) (errs : List (Bool × Nat × Nat)) (st res : Nat), errs = mgtHead f c true (· == 34) ++ [(decide (16 ≤ c.u 34 1), ST_BAD_FIELD, errByte 34)] ∧ s.Begins f q c s0 ∧ s0.dev.regsWf = true ∧ s0.dev.tablesWf = true ∧ c.opcode = 0xA3 ∧ firstError errs = some (st, res)) ∧
    (∃ (s s0 : State) (f : Fn) (q : Fin 8) (c : Cmd) (errs : List (Bool × Nat × Nat)) (st res : Nat), s.Begins f q c s0 ∧ s0.dev.regsWf = true ∧ s0.dev.tablesWf = true ∧ c.opcode = 0xA4 ∧ c.u 33 1 = 1 ∧ firstError errs = some (st, res)) ∧
    (∃ (s s0 : State) (f : Fn) (q : Fin 8) (c : Cmd) (errs : List (Bool × Nat × Nat)) (st res : Nat), errs = mgtHead f c true (fun b => b == 33 || b == 34) ++ [(decide (2 ≤ c.u 34 1), ST_BAD_FIELD, errByte 34), (!s0.dev.mgt.verified, ST_BAD_FIELD, errOutside)] ∧ s.Begins f q c s0 ∧ s0.dev.regsWf = true ∧ s0.dev.tablesWf = true ∧ c.opcode = 0xA4 ∧ c.u 33 1 = 2 ∧ firstError errs = some (st, res)) ∧
    (∃ (s s0 : State) (f : Fn) (q : Fin 8) (c : Cmd) (errs : List (Bool × Nat × Nat)) (st res : Nat), errs = mgtHead f c true (· == 33) ++ [(!s0.dev.onTrial, ST_BAD_FIELD, errOutside)] ∧ s.Begins f q c s0 ∧ s0.dev.regsWf = true ∧ s0.dev.tablesWf = true ∧ c.opcode = 0xA4 ∧ c.u 33 1 = 3 ∧ firstError errs = some (st, res)) ∧
    (∃ (s s0 : State) (f : Fn) (q : Fin 8) (c : Cmd) (errs : List (Bool × Nat × Nat)) (st res : Nat), errs = mgtHead f c true (· == 33) ++ [(s0.dev.mgt.trial, ST_BAD_FIELD, errOutside), (decide (s0.dev.mgt.imageRollback ≤ s0.dev.mgt.fwSteps), ST_BAD_FIELD, errOutside)] ∧ s.Begins f q c s0 ∧ s0.dev.regsWf = true ∧ s0.dev.tablesWf = true ∧ c.opcode = 0xA4 ∧ c.u 33 1 = 4 ∧ firstError errs = some (st, res)) ∧
    (∃ (s s0 : State) (f : Fn) (q : Fin 8) (c : Cmd) (errs : List (Bool × Nat × Nat)) (st res : Nat), errs = mgtHead f c true (· == 34) ++ [(decide (8 ≤ c.u 34 1), ST_BAD_FIELD, errByte 34), (!((List.range 8).any fun j => j != c.u 34 1 && s0.dev.holdsRevoke j), ST_NOT_PERMITTED, errByte 34)] ∧ s.Begins f q c s0 ∧ s0.dev.regsWf = true ∧ s0.dev.tablesWf = true ∧ c.opcode = 0xA6 ∧ firstError errs = some (st, res)) ∧
    (∃ (s s0 : State) (f : Fn) (q : Fin 8) (c : Cmd) (errs : List (Bool × Nat × Nat)) (st res : Nat), errs = mgtHead f c true (· == 34) ++ [(decide (16 ≤ c.u 34 1), ST_BAD_FIELD, errByte 34)] ∧ s.Begins f q c s0 ∧ s0.dev.regsWf = true ∧ s0.dev.tablesWf = true ∧ c.opcode = 0xA7 ∧ firstError errs = some (st, res)) ∧
    (∃ (s s0 : State) (f : Fn) (q : Fin 8) (c : Cmd) (errs : List (Bool × Nat × Nat)) (st res : Nat), errs = mgtHead f c true (· == 33) ∧ s.Begins f q c s0 ∧ s0.dev.regsWf = true ∧ s0.dev.tablesWf = true ∧ c.opcode = 0xAD ∧ c.u 33 1 = 2 ∧ firstError errs = some (st, res)) ∧
    (∃ (s s0 : State) (f : Fn) (q : Fin 8) (c : Cmd) (errs : List (Bool × Nat × Nat)) (st res : Nat), errs = mgtHead f c false (fun b => b == 33 || within 36 41 b) ++ [(c.u 33 1 != 0, ST_BAD_FIELD, errByte 33), (decide (0x8000 ≤ c.u 40 2), ST_BAD_FIELD, errByte 40)] ∧ s.Begins f q c s0 ∧ s0.dev.regsWf = true ∧ s0.dev.tablesWf = true ∧ c.opcode = 0xAE ∧ c.u 33 1 ≠ 1 ∧ c.u 33 1 ≠ 2 ∧ firstError errs = some (st, res)) ∧
    (∃ (s s0 : State) (f : Fn) (q : Fin 8) (c : Cmd) (errs : List (Bool × Nat × Nat)) (st res : Nat), errs = mgtHead f c false (fun b => b == 33 || b == 34 || within 36 39 b) ++ [(decide (4 ≤ c.u 34 1), ST_BAD_FIELD, errByte 34)] ∧ s.Begins f q c s0 ∧ s0.dev.regsWf = true ∧ s0.dev.tablesWf = true ∧ c.opcode = 0xAE ∧ c.u 33 1 = 1 ∧ firstError errs = some (st, res)) ∧
    (∃ (s s0 : State) (f : Fn) (q : Fin 8) (c : Cmd) (errs : List (Bool × Nat × Nat)) (st res : Nat), errs = mgtHead f c false (fun b => b == 33 || b == 34) ++ [(c.u 34 1 == 0x80, ST_BAD_FIELD, errByte 34)] ∧ s.Begins f q c s0 ∧ s0.dev.regsWf = true ∧ s0.dev.tablesWf = true ∧ c.opcode = 0xAE ∧ c.u 33 1 = 2 ∧ firstError errs = some (st, res)) :=
  ⟨⟨u1, u1.started (Fn.pf 0) (0) (inner u1 (Fn.pf 0)), .pf 0, 0, inner u1 (Fn.pf 0), mgtHead (Fn.pf 0) (inner u1 (Fn.pf 0)) false (within 40 47) ++ [(u1.started (Fn.pf 0) (0) (inner u1 (Fn.pf 0))).dev.mgtBuf (inner u1 (Fn.pf 0)) 552], ST_BAD_GEOMETRY, errByte 40, rfl, begins_accepted (by decide +kernel), by decide +kernel⟩,
   ⟨u2, u2.started (Fn.pf 0) (0) (inner u2 (Fn.pf 0)), .pf 0, 0, inner u2 (Fn.pf 0), mgtHead (Fn.pf 0) (inner u2 (Fn.pf 0)) false (within 36 51) ++ [(!decide (1 ≤ (inner u2 (Fn.pf 0)).u 48 4 ∧ (inner u2 (Fn.pf 0)).u 48 4 ≤ 2048), ST_BAD_FIELD, errByte 48), (u2.started (Fn.pf 0) (0) (inner u2 (Fn.pf 0))).dev.mgtBuf (inner u2 (Fn.pf 0)) (32 * (inner u2 (Fn.pf 0)).u 48 4)], ST_BAD_FIELD, errByte 48, rfl, begins_accepted (by decide +kernel), by decide +kernel⟩,
   ⟨u3, u3.started (Fn.pf 0) (0) (inner u3 (Fn.pf 0)), .pf 0, 0, inner u3 (Fn.pf 0), mgtHead (Fn.pf 0) (inner u3 (Fn.pf 0)) true (· == 33) ++ [((u3.started (Fn.pf 0) (0) (inner u3 (Fn.pf 0))).dev.mgt.epochSteps == 32 || decide ((u3.started (Fn.pf 0) (0) (inner u3 (Fn.pf 0))).dev.f OWN_LOCK_STAT.EPOCH 0 < (u3.started (Fn.pf 0) (0) (inner u3 (Fn.pf 0))).dev.mgt.epochSteps + 1), ST_BAD_FIELD, errByte 33)], ST_BAD_FIELD, errByte 33, rfl, begins_accepted (by decide +kernel), by decide +kernel⟩,
   ⟨u4, u4.started (Fn.pf 0) (0) (inner u4 (Fn.pf 0)), .pf 0, 0, inner u4 (Fn.pf 0), mgtHead (Fn.pf 0) (inner u4 (Fn.pf 0)) true (· == 34) ++ [(decide (16 ≤ (inner u4 (Fn.pf 0)).u 34 1), ST_BAD_FIELD, errByte 34)], ST_BAD_FIELD, errByte 34, rfl, begins_accepted (by decide +kernel), by decide +kernel⟩,
   ⟨u5, u5.started (Fn.pf 0) (0) (inner u5 (Fn.pf 0)), .pf 0, 0, inner u5 (Fn.pf 0), mgtHead (Fn.pf 0) (inner u5 (Fn.pf 0)) true (· == 33) ++ [(!((u5.started (Fn.pf 0) (0) (inner u5 (Fn.pf 0))).dev.fwForm ((u5.started (Fn.pf 0) (0) (inner u5 (Fn.pf 0))).dev.fwHeader (u5.started (Fn.pf 0) (0) (inner u5 (Fn.pf 0))).dev.fwOther) && fwSigned ((u5.started (Fn.pf 0) (0) (inner u5 (Fn.pf 0))).dev.fwImage (u5.started (Fn.pf 0) (0) (inner u5 (Fn.pf 0))).dev.fwOther)), ST_BAD_FIELD, errOutside), (!(u5.started (Fn.pf 0) (0) (inner u5 (Fn.pf 0))).dev.fwLevel ((u5.started (Fn.pf 0) (0) (inner u5 (Fn.pf 0))).dev.fwHeader (u5.started (Fn.pf 0) (0) (inner u5 (Fn.pf 0))).dev.fwOther), ST_VERSION, errOutside)], ST_BAD_FIELD, errOutside, begins_accepted (by decide +kernel), by decide +kernel⟩,
   ⟨u6, u6.started (Fn.pf 0) (0) (inner u6 (Fn.pf 0)), .pf 0, 0, inner u6 (Fn.pf 0), mgtHead (Fn.pf 0) (inner u6 (Fn.pf 0)) true (fun b => b == 33 || b == 34) ++ [(decide (2 ≤ (inner u6 (Fn.pf 0)).u 34 1), ST_BAD_FIELD, errByte 34), (!(u6.started (Fn.pf 0) (0) (inner u6 (Fn.pf 0))).dev.mgt.verified, ST_BAD_FIELD, errOutside)], ST_BAD_FIELD, errOutside, rfl, begins_accepted (by decide +kernel), by decide +kernel⟩,
   ⟨u7, u7.started (Fn.pf 0) (0) (inner u7 (Fn.pf 0)), .pf 0, 0, inner u7 (Fn.pf 0), mgtHead (Fn.pf 0) (inner u7 (Fn.pf 0)) true (· == 33) ++ [(!(u7.started (Fn.pf 0) (0) (inner u7 (Fn.pf 0))).dev.onTrial, ST_BAD_FIELD, errOutside)], ST_BAD_FIELD, errOutside, rfl, begins_accepted (by decide +kernel), by decide +kernel⟩,
   ⟨u8, u8.started (Fn.pf 0) (0) (inner u8 (Fn.pf 0)), .pf 0, 0, inner u8 (Fn.pf 0), mgtHead (Fn.pf 0) (inner u8 (Fn.pf 0)) true (· == 33) ++ [((u8.started (Fn.pf 0) (0) (inner u8 (Fn.pf 0))).dev.mgt.trial, ST_BAD_FIELD, errOutside), (decide ((u8.started (Fn.pf 0) (0) (inner u8 (Fn.pf 0))).dev.mgt.imageRollback ≤ (u8.started (Fn.pf 0) (0) (inner u8 (Fn.pf 0))).dev.mgt.fwSteps), ST_BAD_FIELD, errOutside)], ST_BAD_FIELD, errOutside, rfl, begins_accepted (by decide +kernel), by decide +kernel⟩,
   ⟨u9, u9.started (Fn.pf 0) (0) (inner u9 (Fn.pf 0)), .pf 0, 0, inner u9 (Fn.pf 0), mgtHead (Fn.pf 0) (inner u9 (Fn.pf 0)) true (· == 34) ++ [(decide (8 ≤ (inner u9 (Fn.pf 0)).u 34 1), ST_BAD_FIELD, errByte 34), (!((List.range 8).any fun j => j != (inner u9 (Fn.pf 0)).u 34 1 && (u9.started (Fn.pf 0) (0) (inner u9 (Fn.pf 0))).dev.holdsRevoke j), ST_NOT_PERMITTED, errByte 34)], ST_NOT_PERMITTED, errByte 34, rfl, begins_accepted (by decide +kernel), by decide +kernel⟩,
   ⟨u10, u10.started (Fn.pf 0) (0) (inner u10 (Fn.pf 0)), .pf 0, 0, inner u10 (Fn.pf 0), mgtHead (Fn.pf 0) (inner u10 (Fn.pf 0)) true (· == 34) ++ [(decide (16 ≤ (inner u10 (Fn.pf 0)).u 34 1), ST_BAD_FIELD, errByte 34)], ST_BAD_FIELD, errByte 34, rfl, begins_accepted (by decide +kernel), by decide +kernel⟩,
   ⟨u11, u11.started (Fn.pf 0) (0) (inner u11 (Fn.pf 0)), .pf 0, 0, inner u11 (Fn.pf 0), mgtHead (Fn.pf 0) (inner u11 (Fn.pf 0)) true (· == 33), ST_BAD_FIELD, errByte 34, rfl, begins_accepted (by decide +kernel), by decide +kernel⟩,
   ⟨u12, u12.started (Fn.pf 0) (0) (inner u12 (Fn.pf 0)), .pf 0, 0, inner u12 (Fn.pf 0), mgtHead (Fn.pf 0) (inner u12 (Fn.pf 0)) false (fun b => b == 33 || within 36 41 b) ++ [((inner u12 (Fn.pf 0)).u 33 1 != 0, ST_BAD_FIELD, errByte 33), (decide (0x8000 ≤ (inner u12 (Fn.pf 0)).u 40 2), ST_BAD_FIELD, errByte 40)], ST_BAD_FIELD, errByte 40, rfl, begins_accepted (by decide +kernel), by decide +kernel⟩,
   ⟨u13, u13.started (Fn.pf 0) (0) (inner u13 (Fn.pf 0)), .pf 0, 0, inner u13 (Fn.pf 0), mgtHead (Fn.pf 0) (inner u13 (Fn.pf 0)) false (fun b => b == 33 || b == 34 || within 36 39 b) ++ [(decide (4 ≤ (inner u13 (Fn.pf 0)).u 34 1), ST_BAD_FIELD, errByte 34)], ST_BAD_FIELD, errByte 34, rfl, begins_accepted (by decide +kernel), by decide +kernel⟩,
   ⟨u14, u14.started (Fn.pf 0) (0) (inner u14 (Fn.pf 0)), .pf 0, 0, inner u14 (Fn.pf 0), mgtHead (Fn.pf 0) (inner u14 (Fn.pf 0)) false (fun b => b == 33 || b == 34) ++ [((inner u14 (Fn.pf 0)).u 34 1 == 0x80, ST_BAD_FIELD, errByte 34)], ST_BAD_FIELD, errByte 34, rfl, begins_accepted (by decide +kernel), by decide +kernel⟩⟩

def u15 : State := mg 0xA0 ([0,0,0,0,0,0,0,0] ++ b64 0x100FC0)
def u16 : State := mg 0xA1 ([0,0,0,0] ++ b32 3 ++ b64 0x100000 ++ b32 2048) (logs 5 5)
def u17 : State := mg 0xA0 ([0,0,0,0,0,0,0,0] ++ b64 0x100FC0) id 1
def at22 (n : Nat) (d : Dev) : Dev := { d with time := { d.time with ltime := n } }
def u51 : State := st (at22 999999 ∘ m fun x => { x with sensorDue := 10 ^ 6 })
def u52 : State := st (at22 (10 ^ 6) ∘ m fun x => { x with sensorDue := 10 ^ 6 })
def u53 : State := st (fun d => (at22 (10 ^ 6) (m (fun x => { x with sensorDue := 10 ^ 6 }) d)).setF DSP_TG_STAT.STATE 11 3)
def u54 : State := st (at22 (10 ^ 9 - 1) ∘ m fun x => { x with ageDue := 10 ^ 9 })
def u55 : State := st (m fun x => { x with recovery := true })
def u56 : State := st (at22 (10 ^ 9) ∘ m fun x => { x with ageDue := 10 ^ 9 })
def u19 : State := st id
def u20 : State := st (logs 5 4)

/-- The premises of each clause of `SensorsAndLogsAreRead` hold together. -/
theorem witness_SensorsAndLogsAreRead :
    (∃ (s s0 : State) (f : Fn) (q : Fin 8) (c : Cmd) (bs : List Byte), bs = (s0.dev.mgt.sensorWindow ++ List.replicate 552 0).take 552 ∧ s.Begins f q c s0 ∧ s.dev.regsWf = true ∧ s.dev.tablesWf = true ∧ s0.dev.regsWf = true ∧ s0.dev.tablesWf = true ∧ c.opcode = 0xA0 ∧ firstError (mgtHead f c false (within 40 47) ++ [s0.dev.mgtBuf c 552]) = none ∧ s0.refusedLine (cmdReq f c) (c.u 40 8) bs.length true = none) ∧
    (∃ (s s0 : State) (f : Fn) (q : Fin 8) (c : Cmd) (bs : List Byte) (res : Nat), res = min (c.u 48 4) (s0.dev.mgt.nextSeq - max (c.u 36 4) s0.dev.logOldest) ∧ bs = ((List.range res).map fun j => logShow c.secure (s0.dev.logBytes (max (c.u 36 4) s0.dev.logOldest + j))).flatten ∧ s.Begins f q c s0 ∧ s.dev.regsWf = true ∧ s.dev.tablesWf = true ∧ s0.dev.regsWf = true ∧ s0.dev.tablesWf = true ∧ c.opcode = 0xA1 ∧ firstError (mgtHead f c false (within 36 51) ++ [(!decide (1 ≤ c.u 48 4 ∧ c.u 48 4 ≤ 2048), ST_BAD_FIELD, errByte 48), s0.dev.mgtBuf c (32 * c.u 48 4)]) = none ∧ s0.refusedLine (cmdReq f c) (c.u 40 8) bs.length true = none) ∧
    (∃ (s s0 : State) (f : Fn) (q : Fin 8) (c : Cmd) (bs : List Byte) (x : _), bs = (s0.dev.mgt.sensorWindow ++ List.replicate 552 0).take 552 ∧ s.Begins f q c s0 ∧ s.dev.regsWf = true ∧ s.dev.tablesWf = true ∧ s0.dev.regsWf = true ∧ s0.dev.tablesWf = true ∧ c.opcode = 0xA0 ∧ firstError (mgtHead f c false (within 40 47) ++ [s0.dev.mgtBuf c 552]) = none ∧ s0.refusedLine (cmdReq f c) (c.u 40 8) bs.length true = some x) ∧
    (∃ (s : State), s.dev.regsWf = true ∧ s.dev.tablesWf = true ∧ (s.dev.acholtRuns = false ∨ s.dev.now < s.dev.mgt.sensorDue)) ∧
    (∃ (s : State), s.dev.regsWf = true ∧ s.dev.tablesWf = true ∧ s.dev.acholtRuns = true ∧ s.dev.mgt.sensorDue ≤ s.dev.now) ∧
    (∃ (s : State) (mvs : List Nat) (core : Nat), core = (mvs.take 5).foldl min 1023 ∧ s.dev.regsWf = true ∧ s.dev.tablesWf = true ∧ s.dev.acholtRuns = true ∧ s.dev.mgt.sensorDue ≤ s.dev.now ∧ mvs ≠ [] ∧ core < 720 ∧ s.dev.floorHeld = true) ∧
    (∃ (s : State), s.dev.regsWf = true ∧ s.dev.tablesWf = true ∧ (s.dev.acholtRuns = false ∨ s.dev.now < s.dev.mgt.ageDue)) ∧
    (∃ (s : State), s.dev.regsWf = true ∧ s.dev.tablesWf = true ∧ (s.dev.acholtRuns = false ∨ s.dev.mgt.recovery = true)) ∧
    (∃ (s : State), s.dev.regsWf = true ∧ s.dev.tablesWf = true ∧ s.dev.acholtRuns = true ∧ s.dev.mgt.ageDue ≤ s.dev.now) ∧
    (∃ (s : State), s.dev.regsWf = true ∧ s.dev.tablesWf = true ∧ s.dev.acholtRuns = true ∧ s.dev.mgt.recovery = false ∧ s.dev.mgt.nextMirror < s.dev.mgt.nextSeq) :=
  ⟨⟨u15, u15.started (Fn.pf 0) (0) (inner u15 (Fn.pf 0)), .pf 0, 0, inner u15 (Fn.pf 0), ((u15.started (Fn.pf 0) (0) (inner u15 (Fn.pf 0))).dev.mgt.sensorWindow ++ List.replicate 552 0).take 552, rfl, begins_accepted (by decide +kernel), by decide +kernel⟩,
   ⟨u16, u16.started (Fn.pf 0) (0) (inner u16 (Fn.pf 0)), .pf 0, 0, inner u16 (Fn.pf 0), ((List.range (min ((inner u16 (Fn.pf 0)).u 48 4) ((u16.started (Fn.pf 0) (0) (inner u16 (Fn.pf 0))).dev.mgt.nextSeq - max ((inner u16 (Fn.pf 0)).u 36 4) (u16.started (Fn.pf 0) (0) (inner u16 (Fn.pf 0))).dev.logOldest))).map fun j => logShow (inner u16 (Fn.pf 0)).secure ((u16.started (Fn.pf 0) (0) (inner u16 (Fn.pf 0))).dev.logBytes (max ((inner u16 (Fn.pf 0)).u 36 4) (u16.started (Fn.pf 0) (0) (inner u16 (Fn.pf 0))).dev.logOldest + j))).flatten, min ((inner u16 (Fn.pf 0)).u 48 4) ((u16.started (Fn.pf 0) (0) (inner u16 (Fn.pf 0))).dev.mgt.nextSeq - max ((inner u16 (Fn.pf 0)).u 36 4) (u16.started (Fn.pf 0) (0) (inner u16 (Fn.pf 0))).dev.logOldest), rfl, rfl, begins_accepted (by decide +kernel), by decide +kernel⟩,
   ⟨u17, u17.started (Fn.pf 0) (0) (inner u17 (Fn.pf 0)), .pf 0, 0, inner u17 (Fn.pf 0), ((u17.started (Fn.pf 0) (0) (inner u17 (Fn.pf 0))).dev.mgt.sensorWindow ++ List.replicate 552 0).take 552, 0x101000, rfl, begins_accepted (by decide +kernel), by decide +kernel⟩,
   ⟨u51, by decide +kernel⟩,
   ⟨u52, by decide +kernel⟩,
   ⟨u53, [735, 719], 719, rfl, by decide +kernel⟩,
   ⟨u54, by decide +kernel⟩,
   ⟨u55, by decide +kernel⟩,
   ⟨u56, by decide +kernel⟩,
   ⟨u20, by decide +kernel⟩⟩

def u21 : State := mem22 [1,2,0xFF] (mg 0xA4 ([0,0,0,0] ++ b32 4096 ++ b64 0x100000 ++ b32 4096) (fwAt 1 5 2))
def u22 : State := mg 0xA4 ([0,0,0,0] ++ b32 0x800000 ++ b64 0x100000 ++ b32 4096)
def u23 : State := mg 0xA4 [0,1] (fwAt 1 0xFFFFFFFF 64)
def u24 : State := mg 0xA4 [0,2,0] (m fun x => { x with verified := true, tries := 2 })
def u25 : State := mg 0xA4 [0,3] (m fun x => { x with trial := true, active := 0 })
def u26 : State := mg 0xA4 [0,4] (m fun x => { x with imageRollback := 70, fwSteps := 2 })
def u27 : State := mg 0xA4 [0,4] (m fun x => { x with imageRollback := 70, fwSteps := 63, fusesUsed := 8 })
def u28 : State := mg 0xA4 [0,4] (m fun x => { x with imageRollback := 70, fwSteps := 63, fusesUsed := 7 })
def u29 : State := st (m fun x => { x with phase := .starting, bootSel := 2 })
def u30 : State := st (fwAt 0 77 3 ∘ m fun x => { x with phase := .starting, bootSel := 0 })
def u57 : State := st (fwAt 1 77 3 ∘ m fun x => { x with phase := .starting, bootSel := 0, trial := true, tries := 3 })
def u58 : State := st (fwAt 1 77 3 ∘ m fun x => { x with phase := .starting, bootSel := 0 })
def u59 : State := st (at22 (2 * 10 ^ 8) ∘ m fun x => { x with watchdogAt := 10 ^ 8 })
def u60 : State := st (at22 (2 * 10 ^ 8 - 1) ∘ m fun x => { x with watchdogAt := 10 ^ 8 })
def u31 : State := st (m fun x => { x with phase := .starting, bootSel := 0 })
def u32 : State := st (fun d => m (fun x => { x with phase := .recovery }) { d with hrq := { d.hrq with window := (([0x56,0x43,0x45,0x52] : List Byte).zipIdx.foldl (fun t x => Tbl.putD (fun _ => (0 : Byte)) t (0x3FFFC + x.2) x.1) ((fwImg 78 9).zipIdx.foldl (fun t x => Tbl.putD (fun _ => (0 : Byte)) t x.2 x.1) [])) } })
def u33 : State := st (fun d => m (fun x => { x with phase := .recovery }) { d with hrq := { d.hrq with window := ((fwImg 78 9).zipIdx.foldl (fun t x => Tbl.putD (fun _ => (0 : Byte)) t x.2 x.1) []) } })
def u34 : State := st (m fun x => { x with phase := .recovery })

def u61 : State := mg 0xA4 [0,2,1] (m fun x => { x with verified := true, tries := 2 })

/-- The premises of each clause of `FirmwareIsUpdatedAndStarted` hold together. Left out: a premise on an opaque constant of Config, which no state settles. -/
theorem witness_FirmwareIsUpdatedAndStarted :
    (∃ (s s0 : State) (f : Fn) (q : Fin 8) (c : Cmd) (bs : List Byte) (errs : List (Bool × Nat × Nat)), errs = mgtHead f c true (fun b => b == 33 || within 36 51 b) ++ [(c.u 33 1 != 0, ST_BAD_FIELD, errByte 33), (s0.dev.mgt.trial, ST_BUSY, errOutside), (c.u 36 4 % 4096 != 0, ST_BAD_FIELD, errByte 36), (c.u 48 4 % 4096 != 0 || !decide (4096 ≤ c.u 48 4 ∧ c.u 48 4 ≤ 0x100000), ST_BAD_FIELD, errByte 48), (decide (0x800000 < c.u 36 4 + c.u 48 4), ST_BAD_FIELD, errByte 36), s0.dev.mgtBuf c (c.u 48 4)] ∧ s.Begins f q c s0 ∧ s.dev.regsWf = true ∧ s.dev.tablesWf = true ∧ s0.dev.regsWf = true ∧ s0.dev.tablesWf = true ∧ c.opcode = 0xA4 ∧ c.u 33 1 = 0 ∧ firstError errs = none ∧ (s0.readMem (cmdReq f c) 13 (c.u 40 8) (c.u 48 4)).2 = .ok bs) ∧
    (∃ (s s0 : State) (f : Fn) (q : Fin 8) (c : Cmd) (errs : List (Bool × Nat × Nat)) (st res : Nat), errs = mgtHead f c true (fun b => b == 33 || within 36 51 b) ++ [(c.u 33 1 != 0, ST_BAD_FIELD, errByte 33), (s0.dev.mgt.trial, ST_BUSY, errOutside), (c.u 36 4 % 4096 != 0, ST_BAD_FIELD, errByte 36), (c.u 48 4 % 4096 != 0 || !decide (4096 ≤ c.u 48 4 ∧ c.u 48 4 ≤ 0x100000), ST_BAD_FIELD, errByte 48), (decide (0x800000 < c.u 36 4 + c.u 48 4), ST_BAD_FIELD, errByte 36), s0.dev.mgtBuf c (c.u 48 4)] ∧ s.Begins f q c s0 ∧ s.dev.regsWf = true ∧ s.dev.tablesWf = true ∧ s0.dev.regsWf = true ∧ s0.dev.tablesWf = true ∧ c.opcode = 0xA4 ∧ (c.u 33 1 = 0 ∨ 4 < c.u 33 1) ∧ firstError errs = some (st, res)) ∧
    (∃ (s s0 : State) (f : Fn) (q : Fin 8) (c : Cmd), s.Begins f q c s0 ∧ c.Plain (· == 33) ∧ s.dev.regsWf = true ∧ s.dev.tablesWf = true ∧ s0.dev.regsWf = true ∧ s0.dev.tablesWf = true ∧ c.opcode = 0xA4 ∧ c.u 33 1 = 1 ∧ s0.dev.fwForm (s0.dev.fwHeader s0.dev.fwOther) = true ∧ s0.dev.fwLevel (s0.dev.fwHeader s0.dev.fwOther) = true) ∧
    (∃ (s s0 : State) (f : Fn) (q : Fin 8) (c : Cmd), s.Begins f q c s0 ∧ (c.Plain (fun b => b == 33 || b == 34)) ∧ s.dev.regsWf = true ∧ s.dev.tablesWf = true ∧ s0.dev.regsWf = true ∧ s0.dev.tablesWf = true ∧ c.opcode = 0xA4 ∧ c.u 33 1 = 2 ∧ c.u 34 1 < 2 ∧ s0.dev.mgt.verified = true) ∧
    (∃ (s s0 : State) (f : Fn) (q : Fin 8) (c : Cmd), s.Begins f q c s0 ∧ c.Plain (· == 33) ∧ s.dev.regsWf = true ∧ s.dev.tablesWf = true ∧ s0.dev.regsWf = true ∧ s0.dev.tablesWf = true ∧ c.opcode = 0xA4 ∧ c.u 33 1 = 3 ∧ s0.dev.onTrial = true) ∧
    (∃ (s s0 : State) (f : Fn) (q : Fin 8) (c : Cmd), s.Begins f q c s0 ∧ c.Plain (· == 33) ∧ s.dev.regsWf = true ∧ s.dev.tablesWf = true ∧ s0.dev.regsWf = true ∧ s0.dev.tablesWf = true ∧ c.opcode = 0xA4 ∧ c.u 33 1 = 4 ∧ s0.dev.mgt.trial = false ∧ s0.dev.mgt.fwSteps < s0.dev.mgt.imageRollback) ∧
    (∃ (s s0 : State) (f : Fn) (q : Fin 8) (c : Cmd) (bad : List (Fin 64)), s.Begins f q c s0 ∧ c.Plain (· == 33) ∧ s.dev.regsWf = true ∧ s.dev.tablesWf = true ∧ s0.dev.regsWf = true ∧ s0.dev.tablesWf = true ∧ c.opcode = 0xA4 ∧ c.u 33 1 = 4 ∧ s0.dev.mgt.trial = false ∧ s0.dev.mgt.fwSteps < s0.dev.mgt.imageRollback ∧ (∃ b ∈ bad, b.val = s0.dev.mgt.fwSteps) ∧ 8 ≤ s0.dev.mgt.fusesUsed ∧ s0.dev.mgt.fwSteps < 64) ∧
    (∃ (s s0 : State) (f : Fn) (q : Fin 8) (c : Cmd) (bad : List (Fin 64)), s.Begins f q c s0 ∧ c.Plain (· == 33) ∧ s.dev.regsWf = true ∧ s.dev.tablesWf = true ∧ s0.dev.regsWf = true ∧ s0.dev.tablesWf = true ∧ c.opcode = 0xA4 ∧ c.u 33 1 = 4 ∧ s0.dev.mgt.trial = false ∧ s0.dev.mgt.fwSteps < s0.dev.mgt.imageRollback ∧ (∃ b ∈ bad, b.val = s0.dev.mgt.fwSteps) ∧ s0.dev.mgt.fusesUsed < 8 ∧ min 64 s0.dev.mgt.imageRollback = s0.dev.mgt.fwSteps + 1) ∧
    (∃ (s : State), s.dev.regsWf = true ∧ s.dev.tablesWf = true ∧ s.dev.mgt.phase = .starting ∧ s.dev.mgt.bootSel = 2) ∧
    (∃ (s : State), s.dev.regsWf = true ∧ s.dev.tablesWf = true ∧ s.dev.mgt.phase = .starting ∧ s.dev.mgt.bootSel ≠ 2 ∧ (s.dev.mgt.trial && s.dev.mgt.tries == 3) = false) ∧
    (∃ (s : State) (a : Nat), a = s.dev.mgt.active % 2 ∧ s.dev.regsWf = true ∧ s.dev.tablesWf = true ∧ s.dev.mgt.phase = .starting ∧ s.dev.mgt.bootSel ≠ 2 ∧ s.dev.fwForm (s.dev.fwHeader (1 - a)) = true ∧ s.dev.fwLevel (s.dev.fwHeader (1 - a)) = true ∧ (s.dev.mgt.trial && s.dev.mgt.tries == 3) = true) ∧
    (∃ (s : State) (a : Nat), a = s.dev.mgt.active % 2 ∧ s.dev.regsWf = true ∧ s.dev.tablesWf = true ∧ s.dev.mgt.phase = .starting ∧ s.dev.mgt.bootSel ≠ 2 ∧ s.dev.fwForm (s.dev.fwHeader (1 - a)) = true ∧ s.dev.fwLevel (s.dev.fwHeader (1 - a)) = true ∧ (s.dev.mgt.trial && s.dev.mgt.tries == 3) = false ∧ s.dev.slotValid a = false) ∧
    (∃ (s : State), s.dev.regsWf = true ∧ s.dev.tablesWf = true ∧ s.dev.mgt.phase = .starting ∧ s.dev.mgt.bootSel ≠ 2 ∧ s.dev.slotValid 0 = false ∧ s.dev.slotValid 1 = false) ∧
    (∃ (s : State) (go : _), s.dev.regsWf = true ∧ s.dev.tablesWf = true ∧ s.dev.mgt.phase = .recovery ∧ go) ∧
    (∃ (s : State) (go : _), s.dev.regsWf = true ∧ s.dev.tablesWf = true ∧ s.dev.mgt.phase = .recovery ∧ ¬go) ∧
    (∃ (s : State), s.dev.regsWf = true ∧ s.dev.tablesWf = true ∧ s.dev.mgt.phase = .running) ∧
    (∃ (s : State), s.dev.regsWf = true ∧ s.dev.tablesWf = true ∧ s.dev.acholtRuns = true ∧ s.dev.mgt.watchdogAt + 100000000 ≤ s.dev.now ∧ s.dev.mbx.bulk = []) ∧
    (∃ (s : State), s.dev.regsWf = true ∧ s.dev.tablesWf = true ∧ (s.dev.acholtRuns = false ∨ s.dev.now < s.dev.mgt.watchdogAt + 100000000)) ∧
    (∃ (s s0 : State) (f : Fn) (q : Fin 8) (c : Cmd), s.Begins f q c s0 ∧ c.Plain (fun b => b == 33 || b == 34) ∧ s.dev.regsWf = true ∧ s.dev.tablesWf = true ∧ s0.dev.regsWf = true ∧ s0.dev.tablesWf = true ∧ c.opcode = 0xA4 ∧ c.u 33 1 = 2 ∧ c.u 34 1 = 1 ∧ s0.dev.mgt.verified = true ∧ s0.dev.mbx.bulk = []) :=
  ⟨⟨u21, u21.started (Fn.pf 0) (0) (inner u21 (Fn.pf 0)), .pf 0, 0, inner u21 (Fn.pf 0), [1,2,0xFF] ++ List.replicate 4093 0, mgtHead (Fn.pf 0) (inner u21 (Fn.pf 0)) true (fun b => b == 33 || within 36 51 b) ++ [((inner u21 (Fn.pf 0)).u 33 1 != 0, ST_BAD_FIELD, errByte 33), ((u21.started (Fn.pf 0) (0) (inner u21 (Fn.pf 0))).dev.mgt.trial, ST_BUSY, errOutside), ((inner u21 (Fn.pf 0)).u 36 4 % 4096 != 0, ST_BAD_FIELD, errByte 36), ((inner u21 (Fn.pf 0)).u 48 4 % 4096 != 0 || !decide (4096 ≤ (inner u21 (Fn.pf 0)).u 48 4 ∧ (inner u21 (Fn.pf 0)).u 48 4 ≤ 0x100000), ST_BAD_FIELD, errByte 48), (decide (0x800000 < (inner u21 (Fn.pf 0)).u 36 4 + (inner u21 (Fn.pf 0)).u 48 4), ST_BAD_FIELD, errByte 36), (u21.started (Fn.pf 0) (0) (inner u21 (Fn.pf 0))).dev.mgtBuf (inner u21 (Fn.pf 0)) ((inner u21 (Fn.pf 0)).u 48 4)], rfl, begins_accepted (by decide +kernel), by decide +kernel⟩,
   ⟨u22, u22.started (Fn.pf 0) (0) (inner u22 (Fn.pf 0)), .pf 0, 0, inner u22 (Fn.pf 0), mgtHead (Fn.pf 0) (inner u22 (Fn.pf 0)) true (fun b => b == 33 || within 36 51 b) ++ [((inner u22 (Fn.pf 0)).u 33 1 != 0, ST_BAD_FIELD, errByte 33), ((u22.started (Fn.pf 0) (0) (inner u22 (Fn.pf 0))).dev.mgt.trial, ST_BUSY, errOutside), ((inner u22 (Fn.pf 0)).u 36 4 % 4096 != 0, ST_BAD_FIELD, errByte 36), ((inner u22 (Fn.pf 0)).u 48 4 % 4096 != 0 || !decide (4096 ≤ (inner u22 (Fn.pf 0)).u 48 4 ∧ (inner u22 (Fn.pf 0)).u 48 4 ≤ 0x100000), ST_BAD_FIELD, errByte 48), (decide (0x800000 < (inner u22 (Fn.pf 0)).u 36 4 + (inner u22 (Fn.pf 0)).u 48 4), ST_BAD_FIELD, errByte 36), (u22.started (Fn.pf 0) (0) (inner u22 (Fn.pf 0))).dev.mgtBuf (inner u22 (Fn.pf 0)) ((inner u22 (Fn.pf 0)).u 48 4)], ST_BAD_FIELD, errByte 36, rfl, begins_accepted (by decide +kernel), by decide +kernel⟩,
   ⟨u23, u23.started (Fn.pf 0) (0) (inner u23 (Fn.pf 0)), .pf 0, 0, inner u23 (Fn.pf 0), begins_accepted (by decide +kernel), plain_of (by decide +kernel), by decide +kernel⟩,
   ⟨u24, u24.started (Fn.pf 0) (0) (inner u24 (Fn.pf 0)), .pf 0, 0, inner u24 (Fn.pf 0), begins_accepted (by decide +kernel), plain_of (by decide +kernel), by decide +kernel⟩,
   ⟨u25, u25.started (Fn.pf 0) (0) (inner u25 (Fn.pf 0)), .pf 0, 0, inner u25 (Fn.pf 0), begins_accepted (by decide +kernel), plain_of (by decide +kernel), by decide +kernel⟩,
   ⟨u26, u26.started (Fn.pf 0) (0) (inner u26 (Fn.pf 0)), .pf 0, 0, inner u26 (Fn.pf 0), begins_accepted (by decide +kernel), plain_of (by decide +kernel), by decide +kernel⟩,
   ⟨u27, u27.started (Fn.pf 0) (0) (inner u27 (Fn.pf 0)), .pf 0, 0, inner u27 (Fn.pf 0), [63], begins_accepted (by decide +kernel), plain_of (by decide +kernel), by decide +kernel⟩,
   ⟨u28, u28.started (Fn.pf 0) (0) (inner u28 (Fn.pf 0)), .pf 0, 0, inner u28 (Fn.pf 0), [63], begins_accepted (by decide +kernel), plain_of (by decide +kernel), by decide +kernel⟩,
   ⟨u29, by decide +kernel⟩,
   ⟨u30, by decide +kernel⟩,
   ⟨u57, 0, by decide +kernel⟩,
   ⟨u58, 0, by decide +kernel⟩,
   ⟨u31, by decide +kernel⟩,
   ⟨u32, True, by decide +kernel⟩,
   ⟨u33, False, by decide +kernel⟩,
   ⟨u19, by decide +kernel⟩,
   ⟨u59, by decide +kernel⟩,
   ⟨u60, by decide +kernel⟩,
   ⟨u61, u61.started (.pf 0) 0 (inner u61 (.pf 0)), .pf 0, 0, inner u61 (.pf 0), begins_accepted (by decide +kernel), plain_of (by decide +kernel), by decide +kernel⟩⟩

def u35 : State := bsw 1 0 0
def u36 : State := st (m fun x => { x with bench := [⟨5, 5, 0⟩] })
def u37 : State := st (m fun x => { x with bench := [⟨5, 5, 0⟩,⟨4,6,0⟩] })
def u38 : State := st (m fun x => { x with bench := [⟨5, 5, 0⟩,⟨5,7,0⟩,⟨5,8,0⟩,⟨5,9,0⟩] })

/-- The checks of BENCH_SWAP. -/
def bsErr (s0 : State) (f : Fn) (c : Cmd) : Option (Nat × Nat) :=
  firstError (mgtHead f c true (within 34 37) ++ [(!([0, 2, 3, 4, 6] : List Nat).contains (c.u 34 1), ST_BAD_FIELD, errByte 34), (decide (2 ≤ c.u 35 1), ST_BAD_FIELD, errByte 35), (!forcedOk (c.u 34 1) (c.u 36 2), ST_BAD_FIELD, errByte 36), (c.u 35 1 == 1 && !s0.dev.benchRetired (c.u 34 1) (c.u 36 2), ST_BAD_FIELD, errByte 36), (s0.dev.swapBusy (c.u 34 1), ST_BUSY, errOutside), (c.u 35 1 != 1 && !s0.dev.spareFree (c.u 34 1) (c.u 36 2), ST_BENCH_EXHAUSTED, errOutside)])

def u62 : State := bsw 0 0 15
def u63 : State := bsw 2 0 7 spareGpu
def u64 : State := bsw 3 0 11
def u65 : State := bsw 4 0 25
def u66 : State := bsw 6 0 255 (fun d => d.setF TCH_TE_STAT.STATE 3 2)
def u67 : State := st fun d => queued (.pf 0) 7 { cmdOf 0xA5 [0,0,2,0,7,0] with phase := .running } { spareGpu d with gpu := { (spareGpu d).gpu with clusters := Tbl.put ([] : Tbl ClusterSt) 7 { swap := some ⟨3, some ⟨qi (.pf 0) 0, 0⟩, false⟩ } } }

/-- The premises of each clause of `BenchSwapsAreForced` hold together. -/
theorem witness_BenchSwapsAreForced :
    (∃ (s s0 : State) (f : Fn) (q : Fin 8) (c : Cmd), s.Begins f q c s0 ∧ s.dev.regsWf = true ∧ s.dev.tablesWf = true ∧ s0.dev.regsWf = true ∧ s0.dev.tablesWf = true ∧ c.opcode = 0xA5) ∧
    (∃ (s : State) (lane : Nat), s.dev.regsWf = true ∧ s.dev.tablesWf = true ∧ (s.dev.autoBench 5 = false ∨ s.dev.benchRetired 5 lane = true)) ∧
    (∃ (s : State) (lane : Nat) (used : _), used = (s.dev.mgt.bench.filter fun u => u.kind == 5).length ∧ s.dev.regsWf = true ∧ s.dev.tablesWf = true ∧ s.dev.autoBench 5 = true ∧ s.dev.benchRetired 5 lane = false ∧ used < 4) ∧
    (∃ (s : State) (lane : Nat) (used : _), used = (s.dev.mgt.bench.filter fun u => u.kind == 5).length ∧ s.dev.regsWf = true ∧ s.dev.tablesWf = true ∧ s.dev.autoBench 5 = true ∧ s.dev.benchRetired 5 lane = false ∧ 4 ≤ used) ∧
    (∃ (s s0 : State) (f : Fn) (q : Fin 8) (c : Cmd) (st res : Nat), s.Begins f q c s0 ∧ s.dev.regsWf = true ∧ s.dev.tablesWf = true ∧ s0.dev.regsWf = true ∧ s0.dev.tablesWf = true ∧ c.opcode = 0xA5 ∧ bsErr s0 f c = some (st, res)) ∧
    (∃ (s s0 : State) (f : Fn) (q : Fin 8) (c : Cmd), s.Begins f q c s0 ∧ s.dev.regsWf = true ∧ s.dev.tablesWf = true ∧ s0.dev.regsWf = true ∧ s0.dev.tablesWf = true ∧ c.opcode = 0xA5 ∧ bsErr s0 f c = none ∧ c.u 34 1 = 0) ∧
    (∃ (s s0 : State) (f : Fn) (q : Fin 8) (c : Cmd), s.Begins f q c s0 ∧ s.dev.regsWf = true ∧ s.dev.tablesWf = true ∧ s0.dev.regsWf = true ∧ s0.dev.tablesWf = true ∧ c.opcode = 0xA5 ∧ bsErr s0 f c = none ∧ c.u 34 1 = 2) ∧
    (∃ (s s0 : State) (f : Fn) (q : Fin 8) (c : Cmd), s.Begins f q c s0 ∧ s.dev.regsWf = true ∧ s.dev.tablesWf = true ∧ s0.dev.regsWf = true ∧ s0.dev.tablesWf = true ∧ c.opcode = 0xA5 ∧ bsErr s0 f c = none ∧ c.u 34 1 = 3) ∧
    (∃ (s s0 : State) (f : Fn) (q : Fin 8) (c : Cmd), s.Begins f q c s0 ∧ s.dev.regsWf = true ∧ s.dev.tablesWf = true ∧ s0.dev.regsWf = true ∧ s0.dev.tablesWf = true ∧ c.opcode = 0xA5 ∧ bsErr s0 f c = none ∧ c.u 34 1 = 4) ∧
    (∃ (s s0 : State) (f : Fn) (q : Fin 8) (c : Cmd), s.Begins f q c s0 ∧ s.dev.regsWf = true ∧ s.dev.tablesWf = true ∧ s0.dev.regsWf = true ∧ s0.dev.tablesWf = true ∧ c.opcode = 0xA5 ∧ bsErr s0 f c = none ∧ c.u 34 1 = 6 ∧ s0.dev.tchState (c.u 36 2 / 64) ≠ 0) ∧
    (∃ (s : State) (k : Fin 8) (ref : CmdRef) (p : Nat), s.dev.Running ref ∧ s.dev.regsWf = true ∧ s.dev.tablesWf = true ∧ (s.dev.cluster k.val).swap = some ⟨3, some ref, false⟩ ∧ ((List.range 10).find? fun p => s.dev.f GPU_SC_STAT.ROLE p == 1) = some p ∧ s.dev.physOf k.val ≠ p) :=
  ⟨⟨u35, u35.started (Fn.pf 0) (0) (inner u35 (Fn.pf 0)), .pf 0, 0, inner u35 (Fn.pf 0), begins_accepted (by decide +kernel), by decide +kernel⟩,
   ⟨u36, 5, by decide +kernel⟩,
   ⟨u37, 6, (u37.dev.mgt.bench.filter fun u => u.kind == 5).length, rfl, by decide +kernel⟩,
   ⟨u38, 6, (u38.dev.mgt.bench.filter fun u => u.kind == 5).length, rfl, by decide +kernel⟩,
   ⟨u35, u35.started (.pf 0) 0 (inner u35 (.pf 0)), .pf 0, 0, inner u35 (.pf 0), ST_BAD_FIELD, errByte 34, begins_accepted (by decide +kernel), by decide +kernel⟩,
   ⟨u62, u62.started (.pf 0) 0 (inner u62 (.pf 0)), .pf 0, 0, inner u62 (.pf 0), begins_accepted (by decide +kernel), by decide +kernel⟩,
   ⟨u63, u63.started (.pf 0) 0 (inner u63 (.pf 0)), .pf 0, 0, inner u63 (.pf 0), begins_accepted (by decide +kernel), by decide +kernel⟩,
   ⟨u64, u64.started (.pf 0) 0 (inner u64 (.pf 0)), .pf 0, 0, inner u64 (.pf 0), begins_accepted (by decide +kernel), by decide +kernel⟩,
   ⟨u65, u65.started (.pf 0) 0 (inner u65 (.pf 0)), .pf 0, 0, inner u65 (.pf 0), begins_accepted (by decide +kernel), by decide +kernel⟩,
   ⟨u66, u66.started (.pf 0) 0 (inner u66 (.pf 0)), .pf 0, 0, inner u66 (.pf 0), begins_accepted (by decide +kernel), by decide +kernel⟩,
   ⟨u67, 7, ⟨qi (.pf 0) 0, 0⟩, 8, running_of (by decide +kernel), by decide +kernel⟩⟩

def u39 : State := mg 0xAD ([0,0,0,0,0,0,0,0] ++ b64 0x100000 ++ b32 63)
def u40 : State := mem22 eImg (mg 0xAD ([0,0,0,0,0,0,0,0] ++ b64 0x100000 ++ b32 576))
def u41 : State := mg 0xAD [0,2] (m fun x => { x with flash := flashPut [] (earlyArea - 4) eImg })
def u42 : State := mg 0xAD [0,3]
def u43 : State := mg 0xAD ([0,1,0,0] ++ b16 0x7FF) (ev [early1 false])
def u44 : State := mg 0xAD ([0,1,0,0] ++ b16 0x800) (ev [early1 false])
def u45 : State := mg 0xA2 ([0,2,0,0,0,0,0,0] ++ b64 0x100000 ++ b32 184)
def u46 : State := mem22 (lkImg 3) (mg 0xA2 ([0,0,0,0,0,0,0,0] ++ b64 0x100000 ++ b32 184) (m fun x => { x with epochSteps := 4 }))
def u47 : State := mem22 (lkImg 3) (mg 0xA2 ([0,0,0,0,0,0,0,0] ++ b64 0x100000 ++ b32 184) (m fun x => { x with epochSteps := 3 }))
def u48 : State := mg 0xAF ([0,0,2,0,1,0,0,0] ++ b64 0)
def u49 : State := mg 0xAF ([0,0,1,127,16,0,0,0] ++ b64 0 ++ List.replicate 16 0xA5)
def u50 : State := mg 0xAF ([0,0,1,127,16,16,0,0] ++ b64 0x100000 ++ List.replicate 16 0xA5)

/-- The premises of each clause of `EarlyViewsLocksAndBusesAreServed` hold together. Left out: a premise on an opaque constant of Config, which no state settles. -/
theorem witness_EarlyViewsLocksAndBusesAreServed :
    (∃ (s s0 : State) (f : Fn) (q : Fin 8) (c : Cmd) (e : _) (st res : Nat), e = firstError (mgtHead f c true (fun b => b == 33 || within 40 51 b) ++ [(!decide (64 ≤ c.u 48 4 ∧ c.u 48 4 ≤ earlyRoom), ST_BAD_FIELD, errByte 48), s0.dev.mgtBuf c (c.u 48 4)]) ∧ s.Begins f q c s0 ∧ s0.dev.regsWf = true ∧ s0.dev.tablesWf = true ∧ c.opcode = 0xAD ∧ c.u 33 1 = 0 ∧ e = some (st, res)) ∧
    (∃ (s s0 : State) (f : Fn) (q : Fin 8) (c : Cmd) (e : _) (img : List Byte), e = firstError (mgtHead f c true (fun b => b == 33 || within 40 51 b) ++ [(!decide (64 ≤ c.u 48 4 ∧ c.u 48 4 ≤ earlyRoom), ST_BAD_FIELD, errByte 48), s0.dev.mgtBuf c (c.u 48 4)]) ∧ s.Begins f q c s0 ∧ s0.dev.regsWf = true ∧ s0.dev.tablesWf = true ∧ c.opcode = 0xAD ∧ c.u 33 1 = 0 ∧ e = none ∧ (s0.readMem (cmdReq f c) 13 (c.u 40 8) (c.u 48 4)).2 = .ok img) ∧
    (∃ (s s0 : State) (f : Fn) (q : Fin 8) (c : Cmd), s.Begins f q c s0 ∧ c.Plain (· == 33) ∧ s0.dev.regsWf = true ∧ s0.dev.tablesWf = true ∧ c.opcode = 0xAD ∧ c.u 33 1 = 2) ∧
    (∃ (s s0 : State) (f : Fn) (q : Fin 8) (c : Cmd) (mask : _) (e : _) (st res : Nat), mask = c.u 36 2 ∧ e = firstError ([(c.u 33 1 == 1 && !s0.dev.mayEndEarly f c mask, ST_NOT_PERMITTED, errByte 36)] ++ mgtHead f c true (fun b => b == 33 || b == 36 || b == 37) ++ [(c.u 33 1 != 1, ST_BAD_FIELD, errByte 33), (decide (4096 ≤ mask), ST_BAD_FIELD, errByte 36)]) ∧ s.Begins f q c s0 ∧ s0.dev.regsWf = true ∧ s0.dev.tablesWf = true ∧ c.opcode = 0xAD ∧ c.u 33 1 ≠ 0 ∧ c.u 33 1 ≠ 2 ∧ e = some (st, res)) ∧
    (∃ (s s0 : State) (f : Fn) (q : Fin 8) (c : Cmd) (mask : _) (e : _), mask = c.u 36 2 ∧ e = firstError ([(c.u 33 1 == 1 && !s0.dev.mayEndEarly f c mask, ST_NOT_PERMITTED, errByte 36)] ++ mgtHead f c true (fun b => b == 33 || b == 36 || b == 37) ++ [(c.u 33 1 != 1, ST_BAD_FIELD, errByte 33), (decide (4096 ≤ mask), ST_BAD_FIELD, errByte 36)]) ∧ s.Begins f q c s0 ∧ s0.dev.regsWf = true ∧ s0.dev.tablesWf = true ∧ c.opcode = 0xAD ∧ c.u 33 1 ≠ 0 ∧ c.u 33 1 ≠ 2 ∧ e = none ∧ (∀ x ∈ s0.dev.mgt.early, x.ending = false ∧ bit mask x.output = false)) ∧
    (∃ (s s0 : State) (f : Fn) (q : Fin 8) (c : Cmd) (mask : _) (e : _), mask = c.u 36 2 ∧ e = firstError ([(c.u 33 1 == 1 && !s0.dev.mayEndEarly f c mask, ST_NOT_PERMITTED, errByte 36)] ++ mgtHead f c true (fun b => b == 33 || b == 36 || b == 37) ++ [(c.u 33 1 != 1, ST_BAD_FIELD, errByte 33), (decide (4096 ≤ mask), ST_BAD_FIELD, errByte 36)]) ∧ s.Begins f q c s0 ∧ s0.dev.regsWf = true ∧ s0.dev.tablesWf = true ∧ c.opcode = 0xAD ∧ c.u 33 1 ≠ 0 ∧ c.u 33 1 ≠ 2 ∧ e = none ∧ s0.dev.mgt.earlyEnds = [] ∧ (∀ x ∈ s0.dev.mgt.early, x.ending = true ∨ bit mask x.output = true → s0.dev.tgScans x.output = true) ∧ (∃ x ∈ s0.dev.mgt.early, bit mask x.output = true)) ∧
    (∃ (s s0 : State) (f : Fn) (q : Fin 8) (c : Cmd) (e : _) (st res : Nat), e = firstError (mgtHead f c true (fun b => b == 33 || within 40 51 b) ++ [(c.u 33 1 != 0, ST_BAD_FIELD, errByte 33), (decide (lockRoom < c.u 48 4), ST_BAD_FIELD, errByte 48), s0.dev.mgtBuf c (c.u 48 4)]) ∧ s.Begins f q c s0 ∧ s0.dev.regsWf = true ∧ s0.dev.tablesWf = true ∧ c.opcode = 0xA2 ∧ c.u 33 1 ≠ 1 ∧ e = some (st, res)) ∧
    (∃ (s s0 : State) (f : Fn) (q : Fin 8) (c : Cmd) (e : _) (img : List Byte), e = firstError (mgtHead f c true (fun b => b == 33 || within 40 51 b) ++ [(c.u 33 1 != 0, ST_BAD_FIELD, errByte 33), (decide (lockRoom < c.u 48 4), ST_BAD_FIELD, errByte 48), s0.dev.mgtBuf c (c.u 48 4)]) ∧ s.Begins f q c s0 ∧ s0.dev.regsWf = true ∧ s0.dev.tablesWf = true ∧ c.opcode = 0xA2 ∧ c.u 33 1 ≠ 1 ∧ e = none ∧ (s0.readMem (cmdReq f c) 13 (c.u 40 8) (c.u 48 4)).2 = .ok img ∧ (le img 8 4 ≠ c.u 48 4 ∨ s0.dev.lockValid img lockRoom = false ∨ (LockImg.parse img).tableBase ≠ s0.dev.own.tableBase ∨ s0.dev.marksOk (LockImg.parse img).secureVf = false)) ∧
    (∃ (s s0 : State) (f : Fn) (q : Fin 8) (c : Cmd) (ref : CmdRef) (e : _) (img : List Byte), ref = ⟨qi f q, c.id⟩ ∧ e = firstError (mgtHead f c true (fun b => b == 33 || within 40 51 b) ++ [(c.u 33 1 != 0, ST_BAD_FIELD, errByte 33), (decide (lockRoom < c.u 48 4), ST_BAD_FIELD, errByte 48), s0.dev.mgtBuf c (c.u 48 4)]) ∧ s.Begins f q c s0 ∧ s0.dev.regsWf = true ∧ s0.dev.tablesWf = true ∧ c.opcode = 0xA2 ∧ c.u 33 1 ≠ 1 ∧ e = none ∧ (s0.readMem (cmdReq f c) 13 (c.u 40 8) (c.u 48 4)).2 = .ok img ∧ le img 8 4 = c.u 48 4 ∧ (LockImg.parse img).tableBase = s0.dev.own.tableBase ∧ s0.dev.marksOk (LockImg.parse img).secureVf = true ∧ s0.dev.mbx.bulk = [] ∧ (∀ b ∈ s0.dev.mbx.bulk, b.ref ≠ ref)) ∧
    (∃ (s s0 : State) (f : Fn) (q : Fin 8) (c : Cmd) (e : _) (st res : Nat), e = firstError (mgtHead f c false (fun b => within 34 37 b || within 40 63 b) ++ [(decide (2 ≤ c.u 34 1), ST_BAD_FIELD, errByte 34), (decide (128 ≤ c.u 35 1), ST_BAD_FIELD, errByte 35), (decide (16 < c.u 36 1), ST_BAD_FIELD, errByte 36), (decide (16 < c.u 37 1), ST_BAD_FIELD, errByte 37)] ++ (if c.u 37 1 = 0 then [] else [s0.dev.mgtBuf c (c.u 37 1)])) ∧ s.Begins f q c s0 ∧ s0.dev.regsWf = true ∧ s0.dev.tablesWf = true ∧ c.opcode = 0xAF ∧ e = some (st, res)) ∧
    (∃ (s s0 : State) (f : Fn) (q : Fin 8) (c : Cmd) (e : _) (reply : Option (List Byte)), e = firstError (mgtHead f c false (fun b => within 34 37 b || within 40 63 b) ++ [(decide (2 ≤ c.u 34 1), ST_BAD_FIELD, errByte 34), (decide (128 ≤ c.u 35 1), ST_BAD_FIELD, errByte 35), (decide (16 < c.u 36 1), ST_BAD_FIELD, errByte 36), (decide (16 < c.u 37 1), ST_BAD_FIELD, errByte 37)] ++ (if c.u 37 1 = 0 then [] else [s0.dev.mgtBuf c (c.u 37 1)])) ∧ s.Begins f q c s0 ∧ s0.dev.regsWf = true ∧ s0.dev.tablesWf = true ∧ c.opcode = 0xAF ∧ e = none ∧ (c.u 37 1 = 0 ∨ s0.refusedLine (cmdReq f c) (c.u 40 8) (c.u 37 1) true = none) ∧ (reply = none ∨ c.u 37 1 = 0)) ∧
    (∃ (s s0 : State) (f : Fn) (q : Fin 8) (c : Cmd) (e : _), e = firstError (mgtHead f c false (fun b => within 34 37 b || within 40 63 b) ++ [(decide (2 ≤ c.u 34 1), ST_BAD_FIELD, errByte 34), (decide (128 ≤ c.u 35 1), ST_BAD_FIELD, errByte 35), (decide (16 < c.u 36 1), ST_BAD_FIELD, errByte 36), (decide (16 < c.u 37 1), ST_BAD_FIELD, errByte 37)] ++ (if c.u 37 1 = 0 then [] else [s0.dev.mgtBuf c (c.u 37 1)])) ∧ s.Begins f q c s0 ∧ s0.dev.regsWf = true ∧ s0.dev.tablesWf = true ∧ c.opcode = 0xAF ∧ e = none ∧ (c.u 37 1 = 0 ∨ s0.refusedLine (cmdReq f c) (c.u 40 8) (c.u 37 1) true = none) ∧ c.u 37 1 ≠ 0) :=
  ⟨⟨u39, u39.started (Fn.pf 0) (0) (inner u39 (Fn.pf 0)), .pf 0, 0, inner u39 (Fn.pf 0), firstError (mgtHead (Fn.pf 0) (inner u39 (Fn.pf 0)) true (fun b => b == 33 || within 40 51 b) ++ [(!decide (64 ≤ (inner u39 (Fn.pf 0)).u 48 4 ∧ (inner u39 (Fn.pf 0)).u 48 4 ≤ earlyRoom), ST_BAD_FIELD, errByte 48), (u39.started (Fn.pf 0) (0) (inner u39 (Fn.pf 0))).dev.mgtBuf (inner u39 (Fn.pf 0)) ((inner u39 (Fn.pf 0)).u 48 4)]), ST_BAD_FIELD, errByte 48, rfl, begins_accepted (by decide +kernel), by decide +kernel⟩,
   ⟨u40, u40.started (Fn.pf 0) (0) (inner u40 (Fn.pf 0)), .pf 0, 0, inner u40 (Fn.pf 0), firstError (mgtHead (Fn.pf 0) (inner u40 (Fn.pf 0)) true (fun b => b == 33 || within 40 51 b) ++ [(!decide (64 ≤ (inner u40 (Fn.pf 0)).u 48 4 ∧ (inner u40 (Fn.pf 0)).u 48 4 ≤ earlyRoom), ST_BAD_FIELD, errByte 48), (u40.started (Fn.pf 0) (0) (inner u40 (Fn.pf 0))).dev.mgtBuf (inner u40 (Fn.pf 0)) ((inner u40 (Fn.pf 0)).u 48 4)]), eImg, rfl, begins_accepted (by decide +kernel), by decide +kernel⟩,
   ⟨u41, u41.started (Fn.pf 0) (0) (inner u41 (Fn.pf 0)), .pf 0, 0, inner u41 (Fn.pf 0), begins_accepted (by decide +kernel), plain_of (by decide +kernel), by decide +kernel⟩,
   ⟨u42, u42.started (Fn.pf 0) (0) (inner u42 (Fn.pf 0)), .pf 0, 0, inner u42 (Fn.pf 0), (inner u42 (Fn.pf 0)).u 36 2, firstError ([((inner u42 (Fn.pf 0)).u 33 1 == 1 && !(u42.started (Fn.pf 0) (0) (inner u42 (Fn.pf 0))).dev.mayEndEarly (Fn.pf 0) (inner u42 (Fn.pf 0)) ((inner u42 (Fn.pf 0)).u 36 2), ST_NOT_PERMITTED, errByte 36)] ++ mgtHead (Fn.pf 0) (inner u42 (Fn.pf 0)) true (fun b => b == 33 || b == 36 || b == 37) ++ [((inner u42 (Fn.pf 0)).u 33 1 != 1, ST_BAD_FIELD, errByte 33), (decide (4096 ≤ ((inner u42 (Fn.pf 0)).u 36 2)), ST_BAD_FIELD, errByte 36)]), ST_BAD_FIELD, errByte 33, rfl, rfl, begins_accepted (by decide +kernel), by decide +kernel⟩,
   ⟨u43, u43.started (Fn.pf 0) (0) (inner u43 (Fn.pf 0)), .pf 0, 0, inner u43 (Fn.pf 0), (inner u43 (Fn.pf 0)).u 36 2, firstError ([((inner u43 (Fn.pf 0)).u 33 1 == 1 && !(u43.started (Fn.pf 0) (0) (inner u43 (Fn.pf 0))).dev.mayEndEarly (Fn.pf 0) (inner u43 (Fn.pf 0)) ((inner u43 (Fn.pf 0)).u 36 2), ST_NOT_PERMITTED, errByte 36)] ++ mgtHead (Fn.pf 0) (inner u43 (Fn.pf 0)) true (fun b => b == 33 || b == 36 || b == 37) ++ [((inner u43 (Fn.pf 0)).u 33 1 != 1, ST_BAD_FIELD, errByte 33), (decide (4096 ≤ ((inner u43 (Fn.pf 0)).u 36 2)), ST_BAD_FIELD, errByte 36)]), rfl, rfl, begins_accepted (by decide +kernel), by decide +kernel⟩,
   ⟨u44, u44.started (Fn.pf 0) (0) (inner u44 (Fn.pf 0)), .pf 0, 0, inner u44 (Fn.pf 0), (inner u44 (Fn.pf 0)).u 36 2, firstError ([((inner u44 (Fn.pf 0)).u 33 1 == 1 && !(u44.started (Fn.pf 0) (0) (inner u44 (Fn.pf 0))).dev.mayEndEarly (Fn.pf 0) (inner u44 (Fn.pf 0)) ((inner u44 (Fn.pf 0)).u 36 2), ST_NOT_PERMITTED, errByte 36)] ++ mgtHead (Fn.pf 0) (inner u44 (Fn.pf 0)) true (fun b => b == 33 || b == 36 || b == 37) ++ [((inner u44 (Fn.pf 0)).u 33 1 != 1, ST_BAD_FIELD, errByte 33), (decide (4096 ≤ ((inner u44 (Fn.pf 0)).u 36 2)), ST_BAD_FIELD, errByte 36)]), rfl, rfl, begins_accepted (by decide +kernel), by decide +kernel⟩,
   ⟨u45, u45.started (Fn.pf 0) (0) (inner u45 (Fn.pf 0)), .pf 0, 0, inner u45 (Fn.pf 0), firstError (mgtHead (Fn.pf 0) (inner u45 (Fn.pf 0)) true (fun b => b == 33 || within 40 51 b) ++ [((inner u45 (Fn.pf 0)).u 33 1 != 0, ST_BAD_FIELD, errByte 33), (decide (lockRoom < (inner u45 (Fn.pf 0)).u 48 4), ST_BAD_FIELD, errByte 48), (u45.started (Fn.pf 0) (0) (inner u45 (Fn.pf 0))).dev.mgtBuf (inner u45 (Fn.pf 0)) ((inner u45 (Fn.pf 0)).u 48 4)]), ST_BAD_FIELD, errByte 33, rfl, begins_accepted (by decide +kernel), by decide +kernel⟩,
   ⟨u46, u46.started (Fn.pf 0) (0) (inner u46 (Fn.pf 0)), .pf 0, 0, inner u46 (Fn.pf 0), firstError (mgtHead (Fn.pf 0) (inner u46 (Fn.pf 0)) true (fun b => b == 33 || within 40 51 b) ++ [((inner u46 (Fn.pf 0)).u 33 1 != 0, ST_BAD_FIELD, errByte 33), (decide (lockRoom < (inner u46 (Fn.pf 0)).u 48 4), ST_BAD_FIELD, errByte 48), (u46.started (Fn.pf 0) (0) (inner u46 (Fn.pf 0))).dev.mgtBuf (inner u46 (Fn.pf 0)) ((inner u46 (Fn.pf 0)).u 48 4)]), lkImg 3, rfl, begins_accepted (by decide +kernel), by decide +kernel⟩,
   ⟨u47, u47.started (Fn.pf 0) (0) (inner u47 (Fn.pf 0)), .pf 0, 0, inner u47 (Fn.pf 0), ⟨qi (Fn.pf 0) (0), (inner u47 (Fn.pf 0)).id⟩, firstError (mgtHead (Fn.pf 0) (inner u47 (Fn.pf 0)) true (fun b => b == 33 || within 40 51 b) ++ [((inner u47 (Fn.pf 0)).u 33 1 != 0, ST_BAD_FIELD, errByte 33), (decide (lockRoom < (inner u47 (Fn.pf 0)).u 48 4), ST_BAD_FIELD, errByte 48), (u47.started (Fn.pf 0) (0) (inner u47 (Fn.pf 0))).dev.mgtBuf (inner u47 (Fn.pf 0)) ((inner u47 (Fn.pf 0)).u 48 4)]), lkImg 3, rfl, rfl, begins_accepted (by decide +kernel), by decide +kernel⟩,
   ⟨u48, u48.started (Fn.pf 0) (0) (inner u48 (Fn.pf 0)), .pf 0, 0, inner u48 (Fn.pf 0), firstError (mgtHead (Fn.pf 0) (inner u48 (Fn.pf 0)) false (fun b => within 34 37 b || within 40 63 b) ++ [(decide (2 ≤ (inner u48 (Fn.pf 0)).u 34 1), ST_BAD_FIELD, errByte 34), (decide (128 ≤ (inner u48 (Fn.pf 0)).u 35 1), ST_BAD_FIELD, errByte 35), (decide (16 < (inner u48 (Fn.pf 0)).u 36 1), ST_BAD_FIELD, errByte 36), (decide (16 < (inner u48 (Fn.pf 0)).u 37 1), ST_BAD_FIELD, errByte 37)] ++ (if (inner u48 (Fn.pf 0)).u 37 1 = 0 then [] else [(u48.started (Fn.pf 0) (0) (inner u48 (Fn.pf 0))).dev.mgtBuf (inner u48 (Fn.pf 0)) ((inner u48 (Fn.pf 0)).u 37 1)])), ST_BAD_FIELD, errByte 34, rfl, begins_accepted (by decide +kernel), by decide +kernel⟩,
   ⟨u49, u49.started (Fn.pf 0) (0) (inner u49 (Fn.pf 0)), .pf 0, 0, inner u49 (Fn.pf 0), firstError (mgtHead (Fn.pf 0) (inner u49 (Fn.pf 0)) false (fun b => within 34 37 b || within 40 63 b) ++ [(decide (2 ≤ (inner u49 (Fn.pf 0)).u 34 1), ST_BAD_FIELD, errByte 34), (decide (128 ≤ (inner u49 (Fn.pf 0)).u 35 1), ST_BAD_FIELD, errByte 35), (decide (16 < (inner u49 (Fn.pf 0)).u 36 1), ST_BAD_FIELD, errByte 36), (decide (16 < (inner u49 (Fn.pf 0)).u 37 1), ST_BAD_FIELD, errByte 37)] ++ (if (inner u49 (Fn.pf 0)).u 37 1 = 0 then [] else [(u49.started (Fn.pf 0) (0) (inner u49 (Fn.pf 0))).dev.mgtBuf (inner u49 (Fn.pf 0)) ((inner u49 (Fn.pf 0)).u 37 1)])), some ([7] : List Byte), rfl, begins_accepted (by decide +kernel), by decide +kernel⟩,
   ⟨u50, u50.started (Fn.pf 0) (0) (inner u50 (Fn.pf 0)), .pf 0, 0, inner u50 (Fn.pf 0), firstError (mgtHead (Fn.pf 0) (inner u50 (Fn.pf 0)) false (fun b => within 34 37 b || within 40 63 b) ++ [(decide (2 ≤ (inner u50 (Fn.pf 0)).u 34 1), ST_BAD_FIELD, errByte 34), (decide (128 ≤ (inner u50 (Fn.pf 0)).u 35 1), ST_BAD_FIELD, errByte 35), (decide (16 < (inner u50 (Fn.pf 0)).u 36 1), ST_BAD_FIELD, errByte 36), (decide (16 < (inner u50 (Fn.pf 0)).u 37 1), ST_BAD_FIELD, errByte 37)] ++ (if (inner u50 (Fn.pf 0)).u 37 1 = 0 then [] else [(u50.started (Fn.pf 0) (0) (inner u50 (Fn.pf 0))).dev.mgtBuf (inner u50 (Fn.pf 0)) ((inner u50 (Fn.pf 0)).u 37 1)])), rfl, begins_accepted (by decide +kernel), by decide +kernel⟩⟩

end W22

end Sys2Proof.Tests
end

section
/-! PROOF. Reads of registers (R12, R48): what a read changes beside its register, and the obligation O9. -/

namespace Sys2Proof.Machine

/-- From `d` to `e` only free values have been drawn and a power domain has been demanded, as for a register that is about to be read (R597). -/
structure Demanded (d e : Dev) : Prop where
  time : e.time = d.time
  hrq : e.hrq = d.hrq
  mbx : e.mbx = d.mbx
  outbox : e.outbox = d.outbox
  reg : ∀ r i, r ≠ .PWR_DOM_STAT → e.reg r i = d.reg r i
  wf : d.regsWf = true → e.regsWf = true

theorem Demanded.refl (d : Dev) : Demanded d d := ⟨rfl, rfl, rfl, rfl, fun _ _ _ => rfl, id⟩

theorem Demanded.trans {a b c : Dev} (h : Demanded a b) (k : Demanded b c) : Demanded a c :=
  ⟨k.time.trans h.time, k.hrq.trans h.hrq, k.mbx.trans h.mbx, k.outbox.trans h.outbox, fun r i hr => (k.reg r i hr).trans (h.reg r i hr),
    fun hw => k.wf (h.wf hw)⟩

theorem Demanded.demandDomain (d : Dev) (r : Reg) (i : Nat) : Demanded d (d.demandDomain r i) := by
  have hreg := fun r' j => Dev.demandDomain_reg d r i (r' := r') j
  unfold Dev.demandDomain at hreg ⊢
  split
  · exact ⟨rfl, rfl, rfl, rfl, fun r' j h => Dev.reg_setReg_reg _ _ _ _ h, Dev.regsWf_setReg _ _ _ _⟩
  · exact Demanded.refl d

theorem Demanded.free1 (d : Dev) : Demanded d d.free1.2 := ⟨rfl, rfl, rfl, rfl, fun _ _ _ => rfl, id⟩

theorem Demanded.calSub (d : Dev) : Demanded d d.calSub.2 := by
  unfold Dev.calSub
  split
  · exact Demanded.free1 d
  · exact Demanded.refl d

theorem Demanded.cpFlight (d : Dev) (x : Nat) : Demanded d (d.cpFlight x).2 := by
  unfold Dev.cpFlight
  split
  · exact Demanded.free1 d
  · exact Demanded.refl d

theorem Demanded.engFlight (d : Dev) (e : Nat) : Demanded d (d.engFlight e).2 := by
  unfold Dev.engFlight
  refine List.foldlRecOn (motive := fun a : Nat × Dev => Demanded d a.2) _ _ (Demanded.refl d) fun a ha c _ => ?_
  exact ha.trans (Demanded.cpFlight _ _)

/-- What a read returns draws free values at most (log entry 27). -/
theorem Demanded.view (s : State) (who : Fn) (r : Reg) (i : Nat) : Demanded s.dev (s.view who r i).2 := by
  unfold State.view
  split <;> dsimp only
  · exact Demanded.cpFlight s.dev i
  · exact Demanded.engFlight s.dev i
  · exact Demanded.calSub s.dev
  · exact Demanded.refl s.dev

/-- A high word stands in device time, in the queues or in a register, none of which a demand changes. -/
theorem Demanded.highNow {d e : Dev} (h : Demanded d e) (hi : Reg) (i : Nat) (hr : hi ≠ .PWR_DOM_STAT) : e.highNow hi i = d.highNow hi i := by
  unfold Dev.highNow
  split
  · simp only [Dev.now, h.time]
  · simp only [Dev.fence, h.hrq]
  · rw [h.hrq]
  · simp only [Dev.cvuResult, Dev.cvuVal, Dev.f, h.mbx, h.reg _ _ (show CVU_CTRL.POLY.reg ≠ .PWR_DOM_STAT by decide)]
  · exact h.reg _ _ hr

/-- A low word that captures is no high word of another pair, and the high word is no power domain (R48). -/
theorem snapHigh_pair {r hi : Reg} (h : snapHigh r = some hi) : snapLow r = none ∧ hi ≠ .PWR_DOM_STAT := by
  unfold snapHigh at h
  split at h <;> cases h <;> exact ⟨rfl, by decide⟩

/-- The device once the value of a register that returns no snapshot is taken: its domain has power, and what free values the value holds are drawn. -/
def State.viewed (s : State) (who : Fn) (r : Reg) (i : Nat) : Dev := ((s.onDev (·.demandDomain r i)).view who r i).2

/-- The value that such a read returns. -/
def State.shown (s : State) (who : Fn) (r : Reg) (i : Nat) : Word := ((s.onDev (·.demandDomain r i)).view who r i).1

theorem State.shown_ltimeLo (s : State) (who : Fn) (i : Nat) : s.shown who .GLB_LTIME_LO i = BitVec.ofNat 32 s.dev.now := rfl

theorem Demanded.viewed (s : State) (who : Fn) (r : Reg) (i : Nat) : Demanded s.dev (s.viewed who r i) :=
  (Demanded.demandDomain s.dev r i).trans (Demanded.view (s.onDev (·.demandDomain r i)) who r i)

/-- A read of a high word returns the snapshot (R48). -/
theorem State.readReg_high (s : State) (who : Fn) {r lo : Reg} (i : Nat) (h : snapLow r = some lo) :
    s.readReg who r i = (s.dev.time.snaps.get (heldKey who lo i), s.onDev (·.demandDomain r i)) := by
  simp only [State.readReg, h, State.onDev_dev, (Demanded.demandDomain s.dev r i).time]

/-- A read of any other register returns its view, captures the high word and clears the RC fields (R12, R48). -/
theorem State.readReg_low (s : State) (who : Fn) {r : Reg} (i : Nat) (h : snapLow r = none) :
    s.readReg who r i = (s.shown who r i, s.onDev fun _ => ((s.viewed who r i).capture who r i).readClear r i) := by
  simp only [State.readReg, h]
  rfl

/-- A read at an aligned offset that its reader may see. -/
theorem State.regRead_hit {s : State} {who : Fn} {off : Nat} {h : Hit} (ha : off % 4 = 0) (hh : s.dev.hit who off = some h)
    (hm : s.dev.mayRead who h.reg h.i = true) :
    s.regRead who off = (s.readReg who h.reg h.i).2.onDev (·.emit (.readValue who (s.readReg who h.reg h.i).1)) := by
  have e : off / 4 * 4 = off := by omega
  have hat : s.readAt who off = s.readReg who h.reg h.i := by simp only [State.readAt, e, hh, hm, if_true]
  simp only [State.regRead, hat]

@[simp] theorem Dev.readClear_time (d : Dev) (r : Reg) (i : Nat) : (d.readClear r i).time = d.time := by unfold Dev.readClear; split <;> rfl

@[simp] theorem Dev.readClear_outbox (d : Dev) (r : Reg) (i : Nat) : (d.readClear r i).outbox = d.outbox := by unfold Dev.readClear; split <;> rfl

@[simp] theorem Dev.capture_outbox (d : Dev) (who : Fn) (r : Reg) (i : Nat) : (d.capture who r i).outbox = d.outbox := by unfold Dev.capture; split <;> rfl

@[simp] theorem Dev.capture_reg (d : Dev) (who : Fn) (r r' : Reg) (i j : Nat) : (d.capture who r i).reg r' j = d.reg r' j := by unfold Dev.capture; split <;> rfl

@[simp] theorem Dev.capture_regsWf (d : Dev) (who : Fn) (r : Reg) (i : Nat) : (d.capture who r i).regsWf = d.regsWf := by unfold Dev.capture; split <;> rfl

/-- The snapshots after a low word is read (R48). -/
theorem Dev.capture_snaps (d : Dev) (who : Fn) {r hi : Reg} (i : Nat) (h : snapHigh r = some hi) :
    (d.capture who r i).time.snaps = d.time.snaps.put (heldKey who r i) (d.highNow hi i) := by
  simp only [Dev.capture, h]

/-- Clearing fields leaves every field that meets none of them. -/
theorem clearRc_apart (r : Reg) (g : FieldDesc) (l : List FieldDesc) (hl : ∀ fd ∈ l, fd.lo + fd.w ≤ 32) (ha : ∀ fd ∈ l, fd.apart g = true) (v : Word) :
    g.of (clearRc r v l) = g.of v := by
  induction l generalizing v with
  | nil => rfl
  | cons a t ih =>
    rw [clearRc, ih (fun fd h => hl fd (List.mem_cons_of_mem _ h)) fun fd h => ha fd (List.mem_cons_of_mem _ h)]
    split
    · have hag := ha a List.mem_cons_self
      simp only [FieldDesc.apart, Bool.or_eq_true, decide_eq_true_eq] at hag
      exact Fld.get_put_apart ⟨r, a.lo, a.w⟩ ⟨r, g.lo, g.w⟩ v 0 (hl a List.mem_cons_self) hag.symm
    · rfl

theorem FieldDesc.apart_comm {a b : FieldDesc} (h : a.apart b = true) : b.apart a = true := by
  simp only [FieldDesc.apart, Bool.or_eq_true, decide_eq_true_eq] at h ⊢
  exact h.symm

/-- Of fields that do not meet, those of RC read 0 after they are cleared and the others are left (R12). -/
theorem clearRc_of (r : Reg) (l : List FieldDesc) (hp : l.Pairwise fun a b => a.apart b = true) (hl : ∀ fd ∈ l, fd.lo + fd.w ≤ 32) (v : Word) :
    ∀ fd ∈ l, fd.of (clearRc r v l) = if fd.acc = .rc then 0 else fd.of v := by
  induction l generalizing v with
  | nil => simp
  | cons a t ih =>
    obtain ⟨hat, hpt⟩ := List.pairwise_cons.mp hp
    have hla := hl a List.mem_cons_self
    have hlt : ∀ fd ∈ t, fd.lo + fd.w ≤ 32 := fun fd h => hl fd (List.mem_cons_of_mem _ h)
    intro fd hfd
    rw [clearRc]
    rcases List.mem_cons.mp hfd with rfl | hfd
    · rw [clearRc_apart r fd t hlt fun x hx => FieldDesc.apart_comm (hat x hx)]
      by_cases hrc : fd.acc = .rc
      · simp only [hrc, beq_self_eq_true, if_true]
        exact (Fld.get_put ⟨r, fd.lo, fd.w⟩ v 0 hla).trans (Nat.zero_mod _)
      · simp [hrc]
    · rw [ih hpt hlt _ fd hfd]
      have hkeep : fd.of (if a.acc == .rc then (⟨r, a.lo, a.w⟩ : Fld).put v 0 else v) = fd.of v :=
        clearRc_apart r fd [a] (by simpa using hla) (by simpa using hat fd hfd) v
      rw [hkeep]

/-- The fields of a register after a read that clears (R12). -/
theorem Dev.readClear_of (d : Dev) (r : Reg) (i : Nat) (hw : d.regsWf = true) :
    ∀ fd ∈ r.fields, fd.of ((d.readClear r i).reg r i) = if fd.acc = .rc then 0 else fd.of (d.reg r i) := by
  obtain ⟨hp, hl⟩ := Reg.fields_apart r
  unfold Dev.readClear
  split
  · rw [Dev.reg_setReg_same _ _ _ _ hw]
    exact clearRc_of r r.fields hp hl _
  · next h =>
    intro fd hfd
    have hrc : fd.acc ≠ .rc := by
      intro e
      exact h (List.any_eq_true.mpr ⟨fd, hfd, by rw [e]; rfl⟩)
    rw [if_neg hrc]

/-- A register that holds an RC field is no power domain. -/
theorem Reg.ne_pwrDomStat_of_rc {r : Reg} (h : ∃ fd ∈ r.fields, fd.acc = .rc) : r ≠ .PWR_DOM_STAT := by
  rintro rfl
  exact absurd h (by decide)

/-- The state after a read at an offset whose register returns no snapshot. -/
theorem State.regRead_low {s : State} {who : Fn} {off : Nat} {h : Hit} (ha : off % 4 = 0) (hh : s.dev.hit who off = some h)
    (hm : s.dev.mayRead who h.reg h.i = true) (hl : snapLow h.reg = none) :
    s.regRead who off = s.onDev fun _ => (((s.viewed who h.reg h.i).capture who h.reg h.i).readClear h.reg h.i).emit
      (.readValue who (s.shown who h.reg h.i)) := by
  rw [State.regRead_hit ha hh hm, State.readReg_low s who h.i hl]
  rfl

/-- The state after a read at an offset of a high word: the snapshot goes to the reader (R48). -/
theorem State.regRead_high {s : State} {who : Fn} {off : Nat} {h : Hit} {lo : Reg} (ha : off % 4 = 0) (hh : s.dev.hit who off = some h)
    (hm : s.dev.mayRead who h.reg h.i = true) (hl : snapLow h.reg = some lo) :
    s.regRead who off = s.onDev fun d => (d.demandDomain h.reg h.i).emit (.readValue who (s.dev.time.snaps.get (heldKey who lo h.i))) := by
  rw [State.regRead_hit ha hh hm, State.readReg_high s who h.i hl]
  rfl

/-- Settles O9: each clause is one of the two ways in which `State.readReg` reads, a high word from the snapshot and any other register from its view. -/
theorem registerReadsCaptureAndClear : Obligations.RegisterReadsCaptureAndClear := by
  unfold Obligations.RegisterReadsCaptureAndClear
  intro s who off h hwf hal hhit hmay
  have hdem := Demanded.viewed s who h.reg h.i
  refine ⟨fun hi hhi hsn => ?_, fun lo hlo => ?_, ⟨rfl, rfl, rfl, rfl, fun _ => rfl⟩, fun hlo hrc => ?_⟩
  · obtain ⟨hlow, hpwr⟩ := snapHigh_pair hhi
    have hread := State.regRead_low hal hhit hmay hlow
    have hsnaps : (s.regRead who off).dev.time.snaps = s.dev.time.snaps.put (heldKey who h.reg h.i) (s.dev.highNow hi h.i) := by
      simp only [hread, State.onDev_dev, Dev.emit_time, Dev.readClear_time, Dev.capture_snaps _ who h.i hhi, hdem.time, hdem.highNow hi h.i hpwr]
    refine ⟨_, rfl, ?_, fun k hk => ?_, ⟨s.shown who h.reg h.i, ?_, fun hreg => ?_⟩, ?_⟩
    · rw [hsnaps]
      exact Tbl.get_put_same _ _ _ hsn
    · rw [hsnaps, Tbl.get_put_ne _ _ hk]
    · simp only [hread, State.onDev_dev, Dev.emit, Dev.readClear_outbox, Dev.capture_outbox, hdem.outbox]
    · rw [hreg, State.shown_ltimeLo]
    · rw [hread]
      rfl
  · have hread := State.regRead_high hal hhit hmay hlo
    have hpow := Demanded.demandDomain s.dev h.reg h.i
    refine ⟨_, rfl, ?_, ?_, ?_⟩
    · simp only [hread, State.onDev_dev, Dev.emit, hpow.outbox]
    · simp only [hread, State.onDev_dev, Dev.emit, hpow.time]
    · rw [hread]
      rfl
  · have hread := State.regRead_low hal hhit hmay hlo
    refine ⟨_, rfl, fun fd hfd => ?_, ⟨s.shown who h.reg h.i, ?_⟩, ?_⟩
    · have hreg := Dev.readClear_of ((s.viewed who h.reg h.i).capture who h.reg h.i) h.reg h.i
        (by rw [Dev.capture_regsWf]; exact hdem.wf hwf) fd hfd
      rw [Dev.capture_reg, hdem.reg _ _ (Reg.ne_pwrDomStat_of_rc hrc)] at hreg
      rw [hread]
      exact hreg
    · simp only [hread, State.onDev_dev, Dev.emit, Dev.readClear_outbox, Dev.capture_outbox, hdem.outbox]
    · rw [hread]
      rfl

end Sys2Proof.Machine
end

section
/-! PROOF. The pace governor (R25 to R31): commands that end together, probe windows, what the setpoint becomes, and the obligation O11. -/

namespace Sys2Proof.Machine

/-! Commands that end together. -/

/-- Command `ref` is among those of its queue and has a property: that it runs, or that it has ended with a status. -/
def Dev.CmdIs (d : Dev) (ref : CmdRef) (P : Cmd → Prop) : Prop := ∃ x, d.cmd? ref = some x ∧ P x

theorem Dev.CmdIs.congr {d e : Dev} {ref : CmdRef} {P : Cmd → Prop} (hq : e.hrq.queues = d.hrq.queues) (h : d.CmdIs ref P) : e.CmdIs ref P := by
  obtain ⟨x, hx, hp⟩ := h
  exact ⟨x, (Dev.cmd?_congr hq ref).trans hx, hp⟩

theorem Dev.cmd?_id {d : Dev} {ref : CmdRef} {x : Cmd} (h : d.cmd? ref = some x) : x.id = ref.id := by
  have := List.find?_some h
  simpa using this

/-- A change of one command leaves every other. -/
theorem Dev.cmd?_updCmd_ne (d : Dev) {ref c : CmdRef} (g : Cmd → Cmd) (hg : ∀ x, (g x).id = x.id) (hne : ref ≠ c) {x : Cmd} (h : d.cmd? ref = some x) :
    (d.updCmd c g).cmd? ref = some x := by
  by_cases hq : ref.queue = c.queue
  · have hid : ref.id ≠ c.id := fun e => hne (by cases ref; cases c; cases hq; cases e; rfl)
    have hq' : (d.queue c.queue).cmds ≠ [] := hq ▸ Dev.cmds_ne_nil h
    have hx : (d.queue c.queue).cmds.find? (fun y => y.id == ref.id) = some x := hq ▸ h
    unfold Dev.updCmd Dev.cmd?
    rw [hq, Dev.queue_setQueue_same _ _ _ (QueueSt.ne_default (by simpa using hq'))]
    dsimp only
    rw [find?_map_keep _ _ _ fun y => by split <;> simp [hg], hx, Option.map_some, if_neg (by rw [Dev.cmd?_id h]; exact hid)]
  · unfold Dev.updCmd Dev.cmd?
    rw [Dev.queue_setQueue_ne _ _ hq]
    exact h

/-- A change of a command keeps each property that it keeps of that command. -/
theorem Dev.CmdIs.updCmd {d : Dev} {ref : CmdRef} {P : Cmd → Prop} (h : d.CmdIs ref P) (c : CmdRef) (g : Cmd → Cmd) (hg : ∀ x, (g x).id = x.id)
    (hP : ref = c → ∀ x, P x → P (g x)) : (d.updCmd c g).CmdIs ref P := by
  obtain ⟨x, hx, hp⟩ := h
  by_cases e : ref = c
  · subst e
    exact ⟨g x, Dev.cmd?_updCmd d ref g hg hx, hP rfl x hp⟩
  · exact ⟨x, Dev.cmd?_updCmd_ne d g hg e hx, hp⟩

/-- Signals mark commands stale and change nothing else of them (R144). -/
theorem Dev.CmdIs.judge {d : Dev} {ref : CmdRef} {P : Cmd → Prop} (h : d.CmdIs ref P) (hP : ∀ x, P x → P { x with stale := true }) (xs : List Signal) :
    (d.judge xs).CmdIs ref P := by
  unfold Dev.judge
  refine List.foldlRecOn (motive := fun e : Dev => e.CmdIs ref P) _ _ h fun e he x _ => ?_
  have h1 : (if e.fence x.fence < x.value then e.setFence x.fence x.value else e).CmdIs ref P := by
    split
    · exact he.congr rfl
    · exact he
  dsimp only
  split
  · split
    · exact h1.updCmd _ _ (fun _ => rfl) fun _ => hP
    · exact h1
  · exact h1

theorem Dev.CmdIs.signalCmd {d : Dev} {ref : CmdRef} {P : Cmd → Prop} (h : d.CmdIs ref P) (hP : ∀ x, P x → P { x with stale := true }) (r : CmdRef)
    (c : Cmd) : (d.signalCmd r c).CmdIs ref P := by
  have hs : ∀ x : Signal, (d.signal x).CmdIs ref P := by
    intro x
    unfold Dev.signal
    split
    · exact h.congr rfl
    · exact h.judge hP _
  unfold Dev.signalCmd
  dsimp only
  split
  · generalize (_ || _ : Bool) = held
    cases held
    · exact hs _
    · exact h
  · exact h

/-- The end of a command leaves every other command and one that has ended already (R135). -/
theorem Dev.CmdIs.endCmd {d : Dev} {ref : CmdRef} {P : Cmd → Prop} (h : d.CmdIs ref P) (hP : ∀ x, P x → P { x with stale := true }) (c : CmdRef)
    (st res : Nat) (hc : ref = c → ∀ x, P x → x.phase = .ended) : (d.endCmd c st res).CmdIs ref P := by
  unfold Dev.endCmd
  dsimp only
  have h2 := Dev.CmdIs.updCmd (d := { d with hrq := { d.hrq with nextEnd := d.hrq.nextEnd + 1 } }) (h.congr rfl) c
    (fun x => if x.phase = .ended then x else
      { x with phase := .ended, status := st, result := res % 2 ^ 32, ltime := d.now, order := d.hrq.nextEnd + 1, signalled := true })
    (fun x => by split <;> rfl) (fun e x hx => by rw [if_pos (hc e x hx)]; exact hx)
  split
  · split
    · exact h2
    · exact h2.signalCmd hP _ _
  · exact h2

theorem Dev.Ended.endCmd {d : Dev} {ref : CmdRef} {st res : Nat} (h : d.Ended ref st res) (c : CmdRef) (st' res' : Nat) :
    (d.endCmd c st' res').Ended ref st res :=
  Dev.CmdIs.endCmd h (fun _ h => h) c st' res' fun _ _ h => h.1

theorem Dev.Running.endCmd_ne {d : Dev} {ref c : CmdRef} (h : d.Running ref) (hne : ref ≠ c) (st res : Nat) : (d.endCmd c st res).Running ref :=
  Dev.CmdIs.endCmd h (fun _ h => h) c st res fun e => absurd e hne

/-- The end of several commands, one after the other. -/
theorem Dev.Ended.foldl_endCmd {d : Dev} {ref : CmdRef} {st res : Nat} (h : d.Ended ref st res) (cs : List CmdRef) :
    (cs.foldl (fun d c => d.endCmd c st res) d).Ended ref st res :=
  List.foldlRecOn (motive := fun e : Dev => e.Ended ref st res) cs _ h fun _ he c _ => he.endCmd c st res

theorem Dev.Running.foldl_endCmd {d : Dev} {ref : CmdRef} (h : d.Running ref) {cs : List CmdRef} (hm : ref ∈ cs) (st res : Nat) (hr : res < 2 ^ 32) :
    (cs.foldl (fun d c => d.endCmd c st res) d).Ended ref st res := by
  induction cs generalizing d with
  | nil => cases hm
  | cons c t ih =>
    rw [List.foldl_cons]
    by_cases e : ref = c
    · subst e
      exact (h.ended st res hr).foldl_endCmd t
    · exact ih (h.endCmd_ne e st res) ((List.mem_cons.mp hm).resolve_left e)

theorem Dev.Ended.closeRound {d : Dev} {ref : CmdRef} {st res : Nat} (h : d.Ended ref st res) : d.closeRound.Ended ref st res := by
  unfold Dev.closeRound
  split
  · next xs _ => exact Dev.Ended.judge (d := { d with hrq := { d.hrq with joint := none } }) (h.congr rfl) xs
  · exact h

/-- Every running command among those that complete together is ended. -/
theorem Dev.Running.endAll {d : Dev} {ref : CmdRef} (h : d.Running ref) {cs : List CmdRef} (hm : ref ∈ cs) (st res : Nat) (hr : res < 2 ^ 32) :
    (d.endAll cs st res).Ended ref st res := by
  unfold Dev.endAll Dev.jointly
  split
  · exact h.foldl_endCmd hm st res hr
  · exact (Dev.Running.foldl_endCmd (d := d.openRound) (h.congr rfl) hm st res hr).closeRound

theorem Dev.foldl_endCmd_shape (d : Dev) (cs : List CmdRef) (st res : Nat) :
    ∃ h, cs.foldl (fun d c => d.endCmd c st res) d = { d with hrq := h } := by
  refine List.foldlRecOn (motive := fun e : Dev => ∃ h, e = { d with hrq := h }) cs _ ⟨d.hrq, rfl⟩ fun e he c _ => ?_
  obtain ⟨h, rfl⟩ := he
  obtain ⟨h', e', -⟩ := Dev.endCmd_shape { d with hrq := h } c st res
  exact ⟨h', e'⟩

theorem Dev.closeRound_shape (d : Dev) : ∃ h, d.closeRound = { d with hrq := h } := by
  unfold Dev.closeRound
  split
  · obtain ⟨h, e, -⟩ := Dev.judge_shape { d with hrq := { d.hrq with joint := none } } _
    exact ⟨h, e⟩
  · exact ⟨d.hrq, rfl⟩

/-- Commands that complete together change the queues, the fences and the round alone. -/
theorem Dev.endAll_shape (d : Dev) (cs : List CmdRef) (st res : Nat) : ∃ h, d.endAll cs st res = { d with hrq := h } := by
  unfold Dev.endAll Dev.jointly
  split
  · exact Dev.foldl_endCmd_shape d cs st res
  · obtain ⟨h, e⟩ := Dev.foldl_endCmd_shape d.openRound cs st res
    obtain ⟨h', e'⟩ := Dev.closeRound_shape { d.openRound with hrq := h }
    exact ⟨h', by dsimp only; rw [e]; exact e'⟩

@[simp] theorem Dev.endAll_pace (d : Dev) (cs : List CmdRef) (st res : Nat) : (d.endAll cs st res).pace = d.pace := by
  obtain ⟨h, e⟩ := Dev.endAll_shape d cs st res
  rw [e]

@[simp] theorem Dev.endAll_f (d : Dev) (cs : List CmdRef) (st res : Nat) (F : Fld) (i : Nat) : (d.endAll cs st res).f F i = d.f F i := by
  obtain ⟨h, e⟩ := Dev.endAll_shape d cs st res
  rw [e]
  rfl

/-! Windows of the probes (R25). -/

/-- A table into which one listed value after the other is put, under the keys below `n`. -/
theorem Tbl.get_foldl_put_range {α : Type} [DecidableEq α] [Inhabited α] (g : Nat → α) (hg : ∀ e, g e ≠ default) (t : Tbl α) (n : Nat) :
    ∀ e < n, ((List.range n).foldl (fun t e => t.put e (g e)) t).get e = g e := by
  induction n with
  | zero => intro e he; omega
  | succ n ih =>
    intro e he
    rw [List.range_succ, List.foldl_append]
    by_cases h : e = n
    · subst h
      exact Tbl.get_put_listed _ _ _ (hg e)
    · exact (Tbl.get_put_ne _ _ h).trans (ih e (by omega))

/-- From `d` to `e` spares have been asked for: a request at a compositor or a cluster, whose status register follows it. -/
structure AsksSpare (d e : Dev) : Prop where
  pace : e.pace = d.pace
  reg : ∀ r i, r ≠ .GPU_SC_STAT → e.reg r i = d.reg r i

theorem AsksSpare.refl (d : Dev) : AsksSpare d d := ⟨rfl, fun _ _ _ => rfl⟩

theorem AsksSpare.trans {a b c : Dev} (h : AsksSpare a b) (k : AsksSpare b c) : AsksSpare a c :=
  ⟨k.pace.trans h.pace, fun r i hr => (k.reg r i hr).trans (h.reg r i hr)⟩

theorem AsksSpare.wantCompositor (d : Dev) (n : Nat) (q : SwapReq) : AsksSpare d (d.wantCompositor n q) := by
  unfold Dev.wantCompositor
  split
  · exact ⟨rfl, fun _ _ _ => rfl⟩
  · exact .refl d

theorem AsksSpare.setCluster (d : Dev) (k : Nat) (c : ClusterSt) : AsksSpare d (d.setCluster k c) := by
  refine ⟨rfl, fun r i hr => ?_⟩
  unfold Dev.setCluster
  rw [Dev.reg_setF_reg _ _ _ _ hr, Dev.reg_setF_reg _ _ _ _ hr]
  rfl

theorem AsksSpare.wantCluster (d : Dev) (p : Nat) (q : SwapReq) : AsksSpare d (d.wantCluster p q) := by
  unfold Dev.wantCluster
  split
  · split
    · split
      · exact .setCluster d _ _
      · exact .refl d
    · exact .refl d
  · exact .refl d

theorem AsksSpare.foldl (g : Dev → Nat → Dev) (hg : ∀ d n, AsksSpare d (g d n)) (l : List Nat) (d : Dev) : AsksSpare d (l.foldl g d) :=
  List.foldlRecOn (motive := fun e : Dev => AsksSpare d e) l g (.refl d) fun _ he n _ => he.trans (hg _ n)

theorem AsksSpare.probePolicy (d : Dev) : AsksSpare d d.probePolicy := by
  unfold Dev.probePolicy
  split
  · refine AsksSpare.trans (AsksSpare.foldl _ (fun d n => ?_) _ d) (AsksSpare.foldl _ (fun d n => ?_) _ _)
    · split
      · exact .wantCompositor d n _
      · exact .refl d
    · split
      · exact .wantCluster d _ _
      · exact .refl d
  · exact .refl d

/-- The device at the end of a window of the probes, before their policy acts: every probe has its reading. -/
def Dev.probed (d : Dev) (paces : List Nat) : Dev :=
  { d with pace := { d.pace with
    probeWin := d.paceWindow, probes := (List.range 64).foldl (fun t e => t.put e (some (paces.getD e 0 % 2 ^ 16))) d.pace.probes } }

theorem Dev.probed_probes (d : Dev) (paces : List Nat) : ∀ e < 64, (d.probed paces).pace.probes.get e = some (paces.getD e 0 % 2 ^ 16) := by
  simp only [Dev.probed]
  generalize 64 = n
  exact Tbl.get_foldl_put_range (fun e => some (paces.getD e 0 % 2 ^ 16)) (fun _ => Option.some_ne_none _) d.pace.probes n

@[simp] theorem Dev.probed_setpoint (d : Dev) (paces : List Nat) : (d.probed paces).pace.setpoint = d.pace.setpoint := by simp only [Dev.probed]

@[simp] theorem Dev.probed_reg (d : Dev) (paces : List Nat) (r : Reg) (i : Nat) : (d.probed paces).reg r i = d.reg r i := by
  simp only [Dev.reg, Dev.probed]

theorem exec_probeWindow_due (s : State) (paces : List Nat) (ha : s.dev.acholtRuns = true) (hw : s.dev.pace.probeWin < s.dev.paceWindow) :
    exec (.probeWindow paces) s = .next (s.onDev fun d => (d.probed paces).probePolicy) := by
  change execProbeWindow paces s = _
  simp only [execProbeWindow, Dev.probed, State.onDev, ha, hw, decide_true, Bool.and_self, if_true]

theorem exec_probeWindow_early (s : State) (paces : List Nat) (hw : s.dev.paceWindow ≤ s.dev.pace.probeWin) : exec (.probeWindow paces) s = .next s := by
  change execProbeWindow paces s = _
  simp only [execProbeWindow, State.onDev, Nat.not_lt.mpr hw, decide_false, Bool.and_false, Bool.false_eq_true, if_false]

/-! The setpoint (R26 to R28). -/

/-- After AVS_FAULT the governor changes nothing (R30). -/
theorem Dev.setVcore_fault {d : Dev} (h : d.fb PWR_PACE_STAT.AVS_FAULT 0 = true) (mv : Nat) : d.setVcore mv = d := if_pos (Or.inl h)

theorem Dev.setVcore_setpoint {d : Dev} (h : d.fb PWR_PACE_STAT.AVS_FAULT 0 = false) (mv : Nat) : (d.setVcore mv).pace.setpoint = mv := by
  unfold Dev.setVcore
  by_cases hm : mv = d.pace.setpoint
  · rw [if_pos (Or.inr hm), hm]
  · rw [if_neg (by simp [h, hm])]
    rfl

/-- A new setpoint leaves as a Voltage write and a Status command (R26, R28). -/
theorem Dev.setVcore_outbox (d : Dev) (mv : Nat) : (d.setVcore mv).outbox =
    if (d.setVcore mv).pace.setpoint = d.pace.setpoint then d.outbox else .avsStatus :: .avs (d.setVcore mv).pace.setpoint :: d.outbox := by
  unfold Dev.setVcore
  by_cases h : d.fb PWR_PACE_STAT.AVS_FAULT 0 = true ∨ mv = d.pace.setpoint
  · rw [if_pos h, if_pos rfl]
  · rw [if_neg h]
    exact (if_neg fun e => h (Or.inr e)).symm

/-- The reading of probe `e` is below the pace that its engine needs, with `extra` on top. -/
def Dev.short (d : Dev) (demand : List Nat) (extra e : Nat) : Bool :=
  match d.pace.probes.get e with
  | some p => decide (p < d.need demand e + extra)
  | none => false

theorem Dev.short_iff (d : Dev) (demand : List Nat) (extra e : Nat) :
    d.short demand extra e = true ↔ ∃ p, d.pace.probes.get e = some p ∧ p < d.need demand e + extra := by
  unfold Dev.short
  cases d.pace.probes.get e <;> simp

/-- A probe reads below need (R26). -/
def Dev.anyShort (d : Dev) (demand : List Nat) : Bool := (List.range 60).any (d.short demand 0)

/-- The windows in which every engine has had spare pace, with this one (R26). -/
def Dev.calmNow (d : Dev) (demand margin : List Nat) : Nat :=
  if (List.range 60).any (fun e => d.short demand (margin.getD e 0) e) then 0 else d.pace.calm + 1

/-- The lowest setpoint that the governor chooses by itself (R26, R27). -/
def Dev.paceLow (d : Dev) : Nat := if d.floorHeld then 735 else 600

/-- The setpoint at which one window aims, before the limits of R5 and VMAX_MV (R26). -/
def Dev.paceTarget (d : Dev) (demand margin : List Nat) : Nat :=
  if d.f PWR_PACE_CTRL.MODE 0 = 1 then clampN d.paceLow (d.f PWR_PACE_CTRL.VMAX_MV 0) (d.f PWR_PACE_CTRL.FIXED_MV 0)
  else if d.floorHeld && decide (d.pace.setpoint < 735) then 735
  else if d.anyShort demand then min (d.pace.setpoint + 10) (d.f PWR_PACE_CTRL.VMAX_MV 0)
  else if 10 ≤ d.calmNow demand margin then max (d.pace.setpoint - 5) d.paceLow
  else d.pace.setpoint

/-- What the governor sends: its target under the limits of R5 and VMAX_MV. -/
def Dev.paceNext (d : Dev) (demand margin : List Nat) : Nat :=
  min (d.floorTarget (d.paceTarget demand margin)) (d.f PWR_PACE_CTRL.VMAX_MV 0)

/-- The governor counts the window, sets the supply and tells of the limit (R26, R33). -/
theorem Dev.governor_eq (d : Dev) (demand margin : List Nat) : d.governor demand margin =
    ({ d with pace := { d.pace with calm := d.calmNow demand margin } }.setVcore (d.paceNext demand margin)).setF PWR_PACE_STAT.AT_VMAX 0
      (b2n (d.anyShort demand && decide (d.f PWR_PACE_CTRL.VMAX_MV 0 ≤ d.pace.setpoint))) := rfl

theorem Dev.paceTarget_fixed {d : Dev} (h : d.f PWR_PACE_CTRL.MODE 0 = 1) (demand margin : List Nat) :
    d.paceTarget demand margin = clampN d.paceLow (d.f PWR_PACE_CTRL.VMAX_MV 0) (d.f PWR_PACE_CTRL.FIXED_MV 0) := if_pos h

theorem Dev.paceTarget_floor {d : Dev} (h : d.f PWR_PACE_CTRL.MODE 0 ≠ 1) (hf : d.floorHeld = true) (hs : d.pace.setpoint < 735)
    (demand margin : List Nat) : d.paceTarget demand margin = 735 := by
  simp only [Dev.paceTarget, h, hf, hs, decide_true, Bool.and_self, if_true, if_false]

theorem Dev.paceTarget_raise {d : Dev} (h : d.f PWR_PACE_CTRL.MODE 0 ≠ 1) (hf : ¬(d.floorHeld = true ∧ d.pace.setpoint < 735)) {demand : List Nat}
    (hs : ∃ e < 60, ∃ p, d.pace.probes.get e = some p ∧ p < d.need demand e) (margin : List Nat) :
    d.paceTarget demand margin = min (d.pace.setpoint + 10) (d.f PWR_PACE_CTRL.VMAX_MV 0) := by
  obtain ⟨e, he, hp⟩ := hs
  have hshort : d.anyShort demand = true := List.any_eq_true.mpr ⟨e, List.mem_range.mpr he, (d.short_iff demand 0 e).mpr hp⟩
  have hfl : (d.floorHeld && decide (d.pace.setpoint < 735)) = false := by
    rw [← Bool.not_eq_true, Bool.and_eq_true, decide_eq_true_eq]
    exact hf
  simp only [Dev.paceTarget, h, hfl, hshort, if_true, if_false, Bool.false_eq_true]

/-- The governor does not lower a supply of 0.72 V or more below 0.72 V while the device works (R5). -/
theorem Dev.le_floorTarget {d : Dev} (hi : d.devIdle = false) (hs : 720 ≤ d.pace.setpoint) (mv : Nat) : 720 ≤ d.floorTarget mv := by
  unfold Dev.floorTarget
  split
  · next h =>
    simp only [hi, Bool.false_eq_true, false_or] at h
    omega
  · omega

theorem Dev.floorTarget_high (d : Dev) {mv : Nat} (h : 720 ≤ mv) : d.floorTarget mv = mv := if_pos (Or.inr (Or.inl h))

/-- A raise that VMAX_MV cuts stays cut: R5 holds back only what lies below the setpoint. -/
theorem Dev.min_floorTarget_raise (d : Dev) (vmax : Nat) :
    min (d.floorTarget (min (d.pace.setpoint + 10) vmax)) vmax = min (d.pace.setpoint + 10) vmax := by
  unfold Dev.floorTarget
  split
  · omega
  · next h =>
    simp only [not_or] at h
    omega

/-- The setpoint after a window of the governor. -/
theorem Dev.governor_setpoint {d : Dev} (h : d.fb PWR_PACE_STAT.AVS_FAULT 0 = false) (demand margin : List Nat) :
    (d.governor demand margin).pace.setpoint = d.paceNext demand margin := by
  rw [Dev.governor_eq, Dev.setF_pace]
  exact Dev.setVcore_setpoint (d := { d with pace := { d.pace with calm := d.calmNow demand margin } }) h _

theorem Dev.governor_setpoint_fault {d : Dev} (h : d.fb PWR_PACE_STAT.AVS_FAULT 0 = true) (demand margin : List Nat) :
    (d.governor demand margin).pace.setpoint = d.pace.setpoint := by
  rw [Dev.governor_eq, Dev.setF_pace, Dev.setVcore_fault (d := { d with pace := { d.pace with calm := d.calmNow demand margin } }) h]

theorem Dev.governor_outbox (d : Dev) (demand margin : List Nat) : (d.governor demand margin).outbox =
    if (d.governor demand margin).pace.setpoint = d.pace.setpoint then d.outbox
    else .avsStatus :: .avs (d.governor demand margin).pace.setpoint :: d.outbox := by
  rw [Dev.governor_eq, Dev.setF_pace, Dev.setF_outbox]
  exact Dev.setVcore_outbox _ _

/-! Windows of the governor (R26). -/

/-- The device as the governor finds it at the end of a window: the window is taken. -/
def Dev.inWindow (d : Dev) : Dev := { d with pace := { d.pace with govWin := d.paceWindow } }

@[simp] theorem Dev.inWindow_f (d : Dev) (F : Fld) (i : Nat) : d.inWindow.f F i = d.f F i := rfl
@[simp] theorem Dev.inWindow_fb (d : Dev) (F : Fld) (i : Nat) : d.inWindow.fb F i = d.fb F i := rfl
@[simp] theorem Dev.inWindow_setpoint (d : Dev) : d.inWindow.pace.setpoint = d.pace.setpoint := rfl
@[simp] theorem Dev.inWindow_probes (d : Dev) : d.inWindow.pace.probes = d.pace.probes := rfl
@[simp] theorem Dev.inWindow_need (d : Dev) (demand : List Nat) (e : Nat) : d.inWindow.need demand e = d.need demand e := rfl
@[simp] theorem Dev.inWindow_floorHeld (d : Dev) : d.inWindow.floorHeld = d.floorHeld := rfl
@[simp] theorem Dev.inWindow_floorTarget (d : Dev) (mv : Nat) : d.inWindow.floorTarget mv = d.floorTarget mv := rfl

theorem exec_governorWindow_due (s : State) (demand margin : List Nat) (ha : s.dev.acholtRuns = true) (hw : s.dev.pace.govWin < s.dev.paceWindow) :
    exec (.governorWindow demand margin) s =
      .next (s.onDev fun d => ((d.inWindow.governor demand margin).emit .avsVoltageRead).emit .avsCurrentRead) := by
  change execGovernorWindow demand margin s = _
  simp only [execGovernorWindow, Dev.inWindow, State.onDev, ha, hw, decide_true, Bool.and_self, if_true]

theorem exec_governorWindow_early (s : State) (demand margin : List Nat) (hw : s.dev.paceWindow ≤ s.dev.pace.govWin) :
    exec (.governorWindow demand margin) s = .next s := by
  change execGovernorWindow demand margin s = _
  simp only [execGovernorWindow, State.onDev, Nat.not_lt.mpr hw, decide_false, Bool.and_false, Bool.false_eq_true, if_false]

/-- The setpoint after a window, where the regulator answers, in the terms of the device before it. -/
theorem Dev.governor_inWindow_setpoint {d : Dev} (h : d.fb PWR_PACE_STAT.AVS_FAULT 0 = false) (demand margin : List Nat) :
    (d.inWindow.governor demand margin).pace.setpoint =
      min (d.floorTarget (d.inWindow.paceTarget demand margin)) (d.f PWR_PACE_CTRL.VMAX_MV 0) := by
  rw [Dev.governor_setpoint (by simpa using h), Dev.paceNext, Dev.inWindow_floorTarget, Dev.inWindow_f]

/-! What the regulator and the monitors tell (R28, R30, R31). -/

/-- The device once the regulator reports the setpoint reached, before the enables that waited complete (R27, R28). -/
def Dev.answered (d : Dev) : Dev :=
  { d with pace := { d.pace with
    noAnswer := 0, enableWaits := d.pace.enableWaits && !decide (735 ≤ d.pace.setpoint),
    starts := if decide (735 ≤ d.pace.setpoint) then [] else d.pace.starts } }.setF PWR_PACE_STAT.VCORE_MV 0 d.pace.setpoint

theorem exec_avsStatusDone (s : State) : exec .avsStatusDone s =
    .next (s.onDev fun d => if decide (735 ≤ d.pace.setpoint) then d.answered.endAll d.pace.starts ST_OK 0 else d.answered) := rfl

theorem Dev.answered_vcore {d : Dev} (hw : d.regsWf = true) : d.answered.f PWR_PACE_STAT.VCORE_MV 0 = d.pace.setpoint % 2 ^ 10 :=
  Dev.f_setF_same _ PWR_PACE_STAT.VCORE_MV 0 _ (by decide) hw

@[simp] theorem Dev.answered_setpoint (d : Dev) : d.answered.pace.setpoint = d.pace.setpoint := rfl
@[simp] theorem Dev.answered_noAnswer (d : Dev) : d.answered.pace.noAnswer = 0 := rfl

/-- No enable waits once the supply of the floor is reached. -/
theorem Dev.answered_reached {d : Dev} (h : 735 ≤ d.pace.setpoint) : d.answered.pace.enableWaits = false ∧ d.answered.pace.starts = [] := by
  simp [Dev.answered, h]

/-- The device once one more transaction has gone unanswered (R30). -/
def Dev.unanswered (d : Dev) : Dev := { d with pace := { d.pace with noAnswer := min 3 (d.pace.noAnswer + 1) } }

/-- The bytes that the log keeps of an AVS_FAULT: its kind, and VDD_CORE as last measured. -/
def Dev.faultBytes (d : Dev) : List Byte := toLe 0 1 ++ toLe (d.f PWR_PACE_STAT.VCORE_MEAS_MV 0) 2

/-- The third transaction in a row that goes unanswered sets AVS_FAULT, which is logged and raised (R30). -/
theorem exec_avsNoAnswer_third (s : State) (hf : s.dev.fb PWR_PACE_STAT.AVS_FAULT 0 = false) (hn : 2 ≤ s.dev.pace.noAnswer) :
    exec .avsNoAnswer s =
      .next (s.onDev fun d => ((d.unanswered.setF PWR_PACE_STAT.AVS_FAULT 0 1).log 0x0D 2 489 d.faultBytes).raise 489) := by
  have h3 : min 3 (s.dev.pace.noAnswer + 1) = 3 ∧ ¬s.dev.fb PWR_PACE_STAT.AVS_FAULT 0 = true := ⟨by omega, by simp [hf]⟩
  exact congrArg (fun e => Host.Outcome.next { s with dev := e }) (if_pos h3)

theorem exec_avsNoAnswer_before (s : State) (hn : ¬2 ≤ s.dev.pace.noAnswer) : exec .avsNoAnswer s = .next (s.onDev Dev.unanswered) := by
  have h3 : ¬(min 3 (s.dev.pace.noAnswer + 1) = 3 ∧ ¬s.dev.fb PWR_PACE_STAT.AVS_FAULT 0 = true) := fun h => by omega
  exact congrArg (fun e => Host.Outcome.next { s with dev := e }) (if_neg h3)

/-- Whether the floor is held rests on no field of PWR_PACE_STAT. -/
theorem Dev.floorHeld_setF (d : Dev) (F : Fld) (n : Nat) (h : F.reg = .PWR_PACE_STAT) : (d.setF F 0 n).floorHeld = d.floorHeld := by
  have hf : ∀ (G : Fld) (i : Nat), G.reg ≠ .PWR_PACE_STAT → (d.setF F 0 n).f G i = d.f G i := fun G i hG =>
    Dev.f_setF_reg d 0 i n (by rw [h]; exact hG)
  have htg : (d.setF F 0 n).tgOn = d.tgOn := funext fun i => by simp only [Dev.tgOn, hf DSP_TG_STAT.STATE i (by decide)]
  simp only [Dev.floorHeld, htg, Dev.ingestOn, Dev.fb, hf VIN_CS_STAT.STATE _ (by decide), hf AUD_GLB_CTRL.RUN _ (by decide)]

/-- What is logged and raised of a fault of the supply changes no field of PWR_PACE_STAT. -/
theorem Dev.f_log_raise (d : Dev) (a b c k : Nat) (x : List Byte) (F : Fld) (i : Nat) (h : F.reg = .PWR_PACE_STAT) :
    ((d.log a b c x).raise k).f F i = d.f F i := by
  have hF : F.reg.tells = false := by rw [h]; rfl
  rw [Dev.raise_f _ _ _ _ hF, Dev.log_f _ _ _ _ _ _ _ hF]

theorem Dev.belowFloor_low {d : Dev} {mv : Nat} (hm : mv < 720) (hf : d.floorHeld = true) :
    d.belowFloor mv = ((d.setF PWR_PACE_STAT.BELOW_FLOOR 0 1).log 0x0D 2 490 (toLe 1 1 ++ toLe mv 2)).raise 490 := if_pos ⟨hm, hf⟩

/-! What each event does. -/

theorem probeWindow_takes_readings (s : State) (paces : List Nat) (ha : s.dev.acholtRuns = true) (hw : s.dev.pace.probeWin < s.dev.paceWindow) :
    Does s (.probeWindow paces) fun t => (∀ e < 64, t.dev.pace.probes.get e = some (paces.getD e 0 % 2 ^ 16)) ∧
      t.dev.pace.setpoint = s.dev.pace.setpoint ∧ s.Only t [.GPU_SC_STAT] := by
  have hask := AsksSpare.probePolicy (s.dev.probed paces)
  refine ⟨_, exec_probeWindow_due s paces ha hw, fun e he => ?_, ?_, rfl, fun r i hr => ?_⟩
  · rw [State.onDev_dev, hask.pace]
    exact s.dev.probed_probes paces e he
  · rw [State.onDev_dev, hask.pace, Dev.probed_setpoint]
  · rw [State.onDev_dev, hask.reg r i (by simpa using hr), Dev.probed_reg]

theorem governorWindow_outbox (d : Dev) (demand margin : List Nat) :
    (((d.inWindow.governor demand margin).emit .avsVoltageRead).emit .avsCurrentRead).outbox =
      if (d.inWindow.governor demand margin).pace.setpoint = d.pace.setpoint then .avsCurrentRead :: .avsVoltageRead :: d.outbox
      else .avsCurrentRead :: .avsVoltageRead :: .avsStatus :: .avs (d.inWindow.governor demand margin).pace.setpoint :: d.outbox := by
  have hout : (d.inWindow.governor demand margin).outbox =
      if (d.inWindow.governor demand margin).pace.setpoint = d.pace.setpoint then d.outbox
      else .avsStatus :: .avs (d.inWindow.governor demand margin).pace.setpoint :: d.outbox := Dev.governor_outbox _ _ _
  simp only [Dev.emit, hout]
  split <;> rfl

theorem avsStatusDone_ends_waits (s : State) (hwf : s.dev.regsWf = true) :
    Does s .avsStatusDone fun t => t.dev.f PWR_PACE_STAT.VCORE_MV 0 = s.dev.pace.setpoint % 2 ^ 10 ∧ t.dev.pace.noAnswer = 0 ∧
      (735 ≤ s.dev.pace.setpoint → t.dev.pace.enableWaits = false ∧ t.dev.pace.starts = [] ∧
        ∀ ref ∈ s.dev.pace.starts, s.dev.Running ref → t.dev.Ended ref ST_OK 0) ∧ t.dev.pace.setpoint = s.dev.pace.setpoint ∧ t.mem = s.mem := by
  refine ⟨_, exec_avsStatusDone s, ?_⟩
  by_cases hr : 735 ≤ s.dev.pace.setpoint
  · simp only [State.onDev_dev, State.onDev_mem, hr, decide_true, if_true, Dev.endAll_f, Dev.endAll_pace, Dev.answered_vcore hwf,
      Dev.answered_setpoint, Dev.answered_noAnswer, Dev.answered_reached hr, true_and, and_true, forall_const]
    intro ref hm hrun
    exact Dev.Running.endAll (d := s.dev.answered) (hrun.congr rfl) hm ST_OK 0 (by decide)
  · simp only [State.onDev_dev, State.onDev_mem, hr, decide_false, Bool.false_eq_true, if_false, Dev.answered_vcore hwf,
      Dev.answered_setpoint, Dev.answered_noAnswer, false_implies, and_true]

theorem avsNoAnswer_counts (s : State) (hwf : s.dev.regsWf = true) (hf : s.dev.fb PWR_PACE_STAT.AVS_FAULT 0 = false) :
    Does s .avsNoAnswer fun t => t.dev.pace.noAnswer = min 3 (s.dev.pace.noAnswer + 1) ∧ t.dev.pace.setpoint = s.dev.pace.setpoint ∧
      t.dev.fb PWR_PACE_STAT.AVS_FAULT 0 = decide (2 ≤ s.dev.pace.noAnswer) ∧ (2 ≤ s.dev.pace.noAnswer → t.dev.pend 489 = true) ∧ t.mem = s.mem := by
  by_cases h2 : 2 ≤ s.dev.pace.noAnswer
  · refine ⟨_, exec_avsNoAnswer_third s hf h2, ?_⟩
    simp only [State.onDev_dev, State.onDev_mem, Dev.raise_pace, Dev.log_pace, Dev.setF_pace, Dev.unanswered, h2, decide_true, forall_const, true_and,
      and_true]
    refine ⟨?_, Dev.pend_raise _ _ (Dev.log_regsWf _ _ _ _ _ (Dev.regsWf_setF _ _ _ _ hwf))⟩
    rw [Dev.fb, Dev.f_log_raise _ _ _ _ _ _ _ _ rfl]
    exact Dev.fb_setF_one _ PWR_PACE_STAT.AVS_FAULT 0 (by decide) rfl hwf
  · refine ⟨_, exec_avsNoAnswer_before s h2, rfl, rfl, ?_, fun h => absurd h h2, rfl⟩
    rw [decide_eq_false h2]
    exact hf

theorem belowFloor_tells (s : State) (hwf : s.dev.regsWf = true) (mv : Nat) (hm : mv < 720) (hf : s.dev.floorHeld = true) :
    Does s (.belowFloor mv) fun t => t.dev.fb PWR_PACE_STAT.BELOW_FLOOR 0 = true ∧ t.dev.pend 490 = true ∧
      t.dev.f PWR_PACE_STAT.VCORE_MEAS_MV 0 = mv % 2 ^ 10 ∧ t.dev.pace = s.dev.pace ∧ t.mem = s.mem := by
  have hwm : (s.dev.setF PWR_PACE_STAT.VCORE_MEAS_MV 0 mv).regsWf = true := Dev.regsWf_setF _ _ _ _ hwf
  have hlow := Dev.belowFloor_low hm ((Dev.floorHeld_setF s.dev PWR_PACE_STAT.VCORE_MEAS_MV mv rfl).trans hf)
  refine ⟨_, rfl, ?_⟩
  simp only [State.onDev_dev, State.onDev_mem, hlow, Dev.fb, Dev.f_log_raise _ _ _ _ _ _ PWR_PACE_STAT.BELOW_FLOOR _ rfl,
    Dev.f_log_raise _ _ _ _ _ _ PWR_PACE_STAT.VCORE_MEAS_MV _ rfl, Dev.raise_pace, Dev.log_pace, Dev.setF_pace, and_self, and_true]
  refine ⟨Dev.fb_setF_one _ PWR_PACE_STAT.BELOW_FLOOR 0 (by decide) rfl hwm,
    Dev.pend_raise _ _ (Dev.log_regsWf _ _ _ _ _ (Dev.regsWf_setF _ _ _ _ hwm)), ?_⟩
  rw [Dev.f_setF_apart _ (G := PWR_PACE_STAT.VCORE_MEAS_MV) _ _ _ (by decide) (by decide) hwm,
    Dev.f_setF_same _ PWR_PACE_STAT.VCORE_MEAS_MV _ _ (by decide) hwf]
  rfl

/-- Settles O11: one lemma for each event, and for a window of the governor one for each of its aims. -/
theorem paceGovernorSetsTheSupply : Obligations.PaceGovernorSetsTheSupply := by
  unfold Obligations.PaceGovernorSetsTheSupply
  intro s hwf
  refine ⟨fun paces ha hw => probeWindow_takes_readings s paces ha hw, fun paces hw => ⟨s, exec_probeWindow_early s paces hw, rfl⟩,
    fun demand margin hw => ⟨s, exec_governorWindow_early s demand margin hw, rfl⟩, fun demand margin ha hw => ?_,
    avsStatusDone_ends_waits s hwf, avsNoAnswer_counts s hwf, Dev.setVcore_fault, belowFloor_tells s hwf⟩
  refine ⟨_, exec_governorWindow_due s demand margin ha hw, ?_⟩
  simp only [State.onDev_dev, State.onDev_mem, Dev.emit_pace, and_true]
  refine ⟨fun hf => Dev.governor_setpoint_fault (by simpa using hf) demand margin, fun hf hmode => ?_, fun hf hi hs hv => ?_,
    fun hf hmode hh hs => ?_, fun hf hmode hn hshort => ?_, governorWindow_outbox s.dev demand margin⟩
  · rw [Dev.governor_inWindow_setpoint hf, Dev.paceTarget_fixed (by simpa using hmode)]
    rfl
  · rw [Dev.governor_inWindow_setpoint hf]
    exact Nat.le_min.mpr ⟨Dev.le_floorTarget hi hs _, hv⟩
  · rw [Dev.governor_inWindow_setpoint hf, Dev.paceTarget_floor (by simpa using hmode) (by simpa using hh) (by simpa using hs),
      Dev.floorTarget_high _ (by decide)]
  · rw [Dev.governor_inWindow_setpoint hf, Dev.paceTarget_raise (by simpa using hmode) (by simpa using hn) (by simpa using hshort)]
    exact s.dev.min_floorTarget_raise _

end Sys2Proof.Machine
end

section
/-! PROOF. Performance counters (R496 to R500): what raising an event leaves of them, wraps, the end of a window, software writes, and the obligation O12. -/

namespace Sys2Proof.Machine

/-! Events and flags. -/

/-- An event changes only its pending bit and the pending messages among the registers. -/
theorem Dev.raiseIf_reg_ne (d : Dev) (c : Bool) (k : Nat) {r : Reg} (i : Nat) (he : r ≠ .HRQ_EV_PEND) (hp : r ≠ .HRQ_MSIX_PBA) :
    (d.raiseIf c k).reg r i = d.reg r i := by
  unfold Dev.raiseIf
  split
  · obtain ⟨_, _, -, hreg⟩ := Dev.raise_shape d k
    exact hreg r i he hp
  · rfl

@[simp] theorem Dev.raiseIf_pmc (d : Dev) (c : Bool) (k : Nat) : (d.raiseIf c k).pmc = d.pmc := by
  unfold Dev.raiseIf
  split
  · obtain ⟨_, _, e, -⟩ := Dev.raise_shape d k
    rw [e]
  · rfl

theorem Dev.pend_raiseIf {d : Dev} {c : Bool} (k : Nat) (hw : d.regsWf = true) (hc : c = true) : (d.raiseIf c k).pend k = true := by
  rw [Dev.raiseIf, if_pos hc]
  exact Dev.pend_raise d k hw

/-- Bit `i` of a flag register of two words. -/
def Dev.flag64 (d : Dev) (lo hi : Reg) (i : Nat) : Bool := bit (if i < 32 then d.reg lo 0 else d.reg hi 0).toNat (i % 32)

theorem Dev.flag64_congr {d e : Dev} {lo hi : Reg} (hlo : e.reg lo 0 = d.reg lo 0) (hhi : e.reg hi 0 = d.reg hi 0) (i : Nat) :
    e.flag64 lo hi i = d.flag64 lo hi i := by
  rw [Dev.flag64, hlo, hhi, Dev.flag64]

theorem Dev.flag64_setFlag64 {d : Dev} (lo hi : Reg) {i : Nat} (hi64 : i < 64) (hw : d.regsWf = true) : (d.setFlag64 lo hi i).flag64 lo hi i = true := by
  unfold Dev.flag64 Dev.setFlag64
  by_cases h : i < 32
  · rw [if_pos h, if_pos h, Dev.reg_setReg_same _ _ _ _ hw, Nat.mod_eq_of_lt h]
    exact bit_or_self _ i h
  · have hmod : i % 32 = i - 32 := by omega
    rw [if_neg h, if_neg h, Dev.reg_setReg_same _ _ _ _ hw, hmod]
    exact bit_or_self _ (i - 32) (by omega)

theorem Dev.setFlag64_reg_ne (d : Dev) {lo hi r : Reg} (i j : Nat) (hl : r ≠ lo) (hh : r ≠ hi) : (d.setFlag64 lo hi i).reg r j = d.reg r j := by
  unfold Dev.setFlag64
  split
  · exact Dev.reg_setReg_reg _ _ _ _ hl
  · exact Dev.reg_setReg_reg _ _ _ _ hh

theorem Dev.setFlag64_regsWf {d : Dev} (lo hi : Reg) (i : Nat) (hw : d.regsWf = true) : (d.setFlag64 lo hi i).regsWf = true := by
  unfold Dev.setFlag64
  split <;> exact Dev.regsWf_setReg _ _ _ _ hw

/-! Increments (R496). -/

/-- Which counters are chained rests on no count. -/
@[simp] theorem Dev.pmcChained_setReg_cnt (d : Dev) (i j : Nat) (v : Word) : (d.setReg .PMC_CNT i v).pmcChained j = d.pmcChained j := by
  have hf : ∀ (F : Fld) (k : Nat), F.reg ≠ .PMC_CNT → (d.setReg .PMC_CNT i v).f F k = d.f F k := fun F k hF => Dev.f_setReg_reg d i k v hF
  simp only [Dev.pmcChained, Dev.pmcMode, Dev.fb, hf PMC_SEL.CHAIN j (by decide), hf PMC_GRP_CTRL.MODE (j / 8) (by decide)]

/-- A counter is unchained: neither the high word of a pair nor its low word. -/
def Dev.pmcAlone (d : Dev) (i : Nat) : Prop := d.pmcChained i = false ∧ (i % 2 = 0 → d.pmcChained (i + 1) = false)

theorem Dev.pmcWrap_zero (d : Dev) (i : Nat) : d.pmcWrap i 0 = d := if_pos (.inl rfl)

/-- A wrap of an unchained counter sets its OVF bit and tells of it. -/
theorem Dev.pmcWrap_alone {d : Dev} {i w : Nat} (ha : d.pmcAlone i) (hw : w ≠ 0) :
    d.pmcWrap i w = (d.setFlag64 .PMC_OVF_LO .PMC_OVF_HI i).raiseIf (d.fb PMC_GRP_CTRL.OVF_EV (i / 8)) 456 := by
  obtain ⟨hhigh, hlow⟩ := ha
  have h1 : ¬(w = 0 ∨ d.pmcChained i = true) := by simp [hw, hhigh]
  have h2 : ¬(i % 2 = 0 ∧ d.pmcChained (i + 1) = true) := fun h => by simp [hlow h.1] at h
  rw [Dev.pmcWrap, if_neg h1, if_neg h2]

theorem Dev.pmcWrap_alone_cnt {d : Dev} {i : Nat} (ha : d.pmcAlone i) (w j : Nat) : (d.pmcWrap i w).reg .PMC_CNT j = d.reg .PMC_CNT j := by
  by_cases hw : w = 0
  · rw [hw, Dev.pmcWrap_zero]
  · rw [Dev.pmcWrap_alone ha hw, Dev.raiseIf_reg_ne _ _ _ _ (by decide) (by decide), Dev.setFlag64_reg_ne _ _ _ (by decide) (by decide)]

theorem Dev.pmcAdd_alone_cnt {d : Dev} {i : Nat} (hwf : d.regsWf = true) (ha : d.pmcAlone i) (n : Nat) :
    ((d.pmcAdd i n).reg .PMC_CNT i).toNat = ((d.reg .PMC_CNT i).toNat + n) % 2 ^ 32 := by
  rw [Dev.pmcAdd, Dev.pmcWrap_alone_cnt (by simpa [Dev.pmcAlone] using ha), Dev.reg_setReg_same _ _ _ _ hwf, BitVec.toNat_ofNat]

/-- An increment of an unchained counter past its end sets its OVF bit and, where OVF_EV asks for it, raises EV456. -/
theorem Dev.pmcAdd_alone_tells {d : Dev} {i n : Nat} (hwf : d.regsWf = true) (hi : i < 64) (ha : d.pmcAlone i)
    (hn : 2 ^ 32 ≤ (d.reg .PMC_CNT i).toNat + n) :
    (d.pmcAdd i n).flag64 .PMC_OVF_LO .PMC_OVF_HI i = true ∧ (d.fb PMC_GRP_CTRL.OVF_EV (i / 8) = true → (d.pmcAdd i n).pend 456 = true) := by
  have hw : ((d.reg .PMC_CNT i).toNat + n) / 2 ^ 32 ≠ 0 := by omega
  have hwf' : ∀ v, (d.setReg .PMC_CNT i v).regsWf = true := fun v => Dev.regsWf_setReg _ _ _ _ hwf
  rw [Dev.pmcAdd, Dev.pmcWrap_alone (by simpa [Dev.pmcAlone] using ha) hw, Dev.fb_setReg_reg _ _ _ _ (by decide)]
  refine ⟨?_, fun hev => Dev.pend_raiseIf 456 (Dev.setFlag64_regsWf _ _ _ (hwf' _)) hev⟩
  rw [Dev.flag64_congr (Dev.raiseIf_reg_ne _ _ _ _ (by decide) (by decide)) (Dev.raiseIf_reg_ne _ _ _ _ (by decide) (by decide))]
  exact Dev.flag64_setFlag64 _ _ hi (hwf' _)

/-! The end of a window (R500). -/

/-- The counters of a group. -/
def pmcGroup (g : Nat) : List Nat := (List.range 8).map (8 * g + ·)

theorem mem_pmcGroup {g i : Nat} : i ∈ pmcGroup g ↔ i / 8 = g := by
  simp only [pmcGroup, List.mem_map, List.mem_range]
  constructor
  · rintro ⟨k, hk, rfl⟩
    omega
  · intro h
    exact ⟨i % 8, by omega, by omega⟩

/-- A canonical table into which one value after the other is put. -/
theorem Tbl.get_foldl_put {α : Type} [DecidableEq α] [Inhabited α] (v : Nat → α) (l : List Nat) (t : Tbl α)
    (hw : Tbl.wfD (fun _ => (default : α)) t = true) (i : Nat) : (l.foldl (fun t i => t.put i (v i)) t).get i = if i ∈ l then v i else t.get i := by
  induction l generalizing t with
  | nil => rfl
  | cons k l ih =>
    rw [List.foldl_cons, ih (t.put k (v k)) (Tbl.wfD_putD _ _ _ _ hw)]
    by_cases hk : i = k
    · subst hk
      simp [Tbl.get_put_same _ _ _ hw]
    · simp [hk, Tbl.get_put_ne _ _ hk]

theorem Dev.reg_foldl_setReg (r : Reg) (v : Word) (l : List Nat) (d : Dev) (hw : d.regsWf = true) (i : Nat) :
    (l.foldl (fun (d : Dev) i => d.setReg r i v) d).reg r i = if i ∈ l then v else d.reg r i := by
  induction l generalizing d with
  | nil => rfl
  | cons k l ih =>
    rw [List.foldl_cons, ih _ (Dev.regsWf_setReg _ _ _ _ hw)]
    by_cases hk : i = k
    · subst hk
      simp [Dev.reg_setReg_same _ _ _ _ hw]
    · simp [hk, Dev.reg_setReg_ne d v fun e => hk e.2]

theorem Dev.pmcZero_eq (d : Dev) (g : Nat) : d.pmcZero g = (pmcGroup g).foldl (fun (d : Dev) i => d.setReg .PMC_CNT i 0) d := by
  rw [pmcGroup, List.foldl_map, Dev.pmcZero]

theorem Dev.pmcZero_cnt {d : Dev} (hw : d.regsWf = true) (g i : Nat) : (d.pmcZero g).reg .PMC_CNT i = if i / 8 = g then 0 else d.reg .PMC_CNT i := by
  rw [Dev.pmcZero_eq, Dev.reg_foldl_setReg _ _ _ _ hw]
  simp only [mem_pmcGroup]

@[simp] theorem Dev.pmcZero_pmc (d : Dev) (g : Nat) : (d.pmcZero g).pmc = d.pmc :=
  List.foldlRecOn (motive := fun e : Dev => e.pmc = d.pmc) _ _ rfl fun _ he _ _ => he

theorem Dev.pmcZero_regsWf {d : Dev} (g : Nat) (hw : d.regsWf = true) : (d.pmcZero g).regsWf = true :=
  List.foldlRecOn (motive := fun e : Dev => e.regsWf = true) _ _ hw fun _ he _ _ => Dev.regsWf_setReg _ _ _ _ he

/-- The counts of a group become those that are shown, and nothing freezes the group. -/
def Dev.pmcShow (d : Dev) (g : Nat) : Dev :=
  { d with pmc := { d.pmc with
    shown := (pmcGroup g).foldl (fun t i => t.put i (d.reg .PMC_CNT i)) d.pmc.shown, frozen := d.pmc.frozen.put g false } }

/-- The device once the window that began at `t` has ended and the next has begun, before WSEQ and FROZEN tell of it. -/
def Dev.pmcNext (d : Dev) (g t : Nat) : Dev := ((d.pmcShow g).pmcZero g).pmcBegan g (some (t + d.pmcPeriod g))

theorem Dev.pmcWindow_due {d : Dev} {g t : Nat} (hg : d.windowed g = true) (ht : d.pmc.began.get g = some t) (hn : t + d.pmcPeriod g ≤ d.now) :
    d.pmcWindow g = (((d.pmcNext g t).setF PMC_GRP_STAT.WSEQ g (d.f PMC_GRP_STAT.WSEQ g + 1)).setF PMC_GRP_STAT.FROZEN g
      (b2n (d.pmc.frozen.get g))).raiseIf (d.fb PMC_GRP_CTRL.WIN_EV g) 458 := by
  have hdue : ¬(!d.windowed g || decide (d.now < t + d.pmcPeriod g)) = true := by simp [hg, hn]
  simp only [Dev.pmcWindow, ht, if_neg hdue]
  rfl

theorem Dev.pmcNext_regsWf {d : Dev} (g t : Nat) (hw : d.regsWf = true) : (d.pmcNext g t).regsWf = true :=
  Dev.pmcZero_regsWf (d := d.pmcShow g) g hw

theorem Dev.pmcNext_cnt {d : Dev} (hw : d.regsWf = true) (g t i : Nat) :
    (d.pmcNext g t).reg .PMC_CNT i = if i / 8 = g then 0 else d.reg .PMC_CNT i :=
  Dev.pmcZero_cnt (d := d.pmcShow g) hw g i

theorem Dev.pmcNext_began (d : Dev) (g t : Nat) : (d.pmcNext g t).pmc.began.get g = some (t + d.pmcPeriod g) :=
  Tbl.get_put_listed _ _ _ (Option.some_ne_none _)

theorem Dev.pmcNext_shown {d : Dev} (hs : Tbl.wfD (fun _ => (0 : Word)) d.pmc.shown = true) (g t i : Nat) :
    (d.pmcNext g t).pmc.shown.get i = if i / 8 = g then d.reg .PMC_CNT i else d.pmc.shown.get i := by
  simp only [Dev.pmcNext, Dev.pmcBegan, Dev.pmcZero_pmc, Dev.pmcShow, Tbl.get_foldl_put _ _ _ hs, mem_pmcGroup]

/-- What the registers of a group tell once its window has ended (R500). -/
theorem Dev.pmcWindow_tells {d : Dev} {g t : Nat} (hwf : d.regsWf = true) (hg : d.windowed g = true) (ht : d.pmc.began.get g = some t)
    (hn : t + d.pmcPeriod g ≤ d.now) :
    (d.pmcWindow g).f PMC_GRP_STAT.WSEQ g = (d.f PMC_GRP_STAT.WSEQ g + 1) % 2 ^ 24 ∧
      (d.pmcWindow g).fb PMC_GRP_STAT.FROZEN g = d.pmc.frozen.get g ∧
      (d.fb PMC_GRP_CTRL.WIN_EV g = true → (d.pmcWindow g).pend 458 = true) := by
  have hwn : (d.pmcNext g t).regsWf = true := Dev.pmcNext_regsWf g t hwf
  have hws : ((d.pmcNext g t).setF PMC_GRP_STAT.WSEQ g (d.f PMC_GRP_STAT.WSEQ g + 1)).regsWf = true := Dev.regsWf_setF _ _ _ _ hwn
  rw [Dev.pmcWindow_due hg ht hn]
  refine ⟨?_, ?_, Dev.pend_raiseIf 458 (Dev.regsWf_setF _ _ _ _ hws)⟩
  · rw [Dev.raiseIf_f _ _ _ _ _ rfl, Dev.f_setF_apart _ (G := PMC_GRP_STAT.WSEQ) _ _ _ (by decide) (by decide) hws,
      Dev.f_setF_same _ PMC_GRP_STAT.WSEQ _ _ (by decide) hwn]
    rfl
  · rw [Dev.raiseIf_fb _ _ _ _ _ rfl, Dev.fb_setF_same _ PMC_GRP_STAT.FROZEN _ _ (by decide) hws]
    cases d.pmc.frozen.get g <;> rfl

theorem Dev.pmcWindow_cnt {d : Dev} {g t : Nat} (hwf : d.regsWf = true) (hg : d.windowed g = true) (ht : d.pmc.began.get g = some t)
    (hn : t + d.pmcPeriod g ≤ d.now) (i : Nat) : (d.pmcWindow g).reg .PMC_CNT i = if i / 8 = g then 0 else d.reg .PMC_CNT i := by
  rw [Dev.pmcWindow_due hg ht hn, Dev.raiseIf_reg_ne _ _ _ _ (by decide) (by decide), Dev.reg_setF_reg _ _ _ _ (by decide),
    Dev.reg_setF_reg _ _ _ _ (by decide), Dev.pmcNext_cnt hwf]

theorem Dev.pmcWindow_pmc {d : Dev} {g t : Nat} (hg : d.windowed g = true) (ht : d.pmc.began.get g = some t) (hn : t + d.pmcPeriod g ≤ d.now) :
    (d.pmcWindow g).pmc = (d.pmcNext g t).pmc := by
  rw [Dev.pmcWindow_due hg ht hn, Dev.raiseIf_pmc, Dev.setF_pmc, Dev.setF_pmc]

theorem pmcWindowEnd_shows_counts {s : State} (hwf : s.dev.regsWf = true) (g : Fin 8) {t0 : Nat} (hg : s.dev.windowed g.val = true)
    (ht : s.dev.pmc.began.get g.val = some t0) (hn : t0 + s.dev.pmcPeriod g.val ≤ s.dev.now)
    (hs : Tbl.wfD (fun _ => (0 : Word)) s.dev.pmc.shown = true) :
    Does s (.pmcWindowEnd g) fun t => t.dev.pmc.began.get g.val = some (t0 + s.dev.pmcPeriod g.val) ∧
      (∀ k < 8, t.dev.pmc.shown.get (8 * g.val + k) = s.dev.reg .PMC_CNT (8 * g.val + k) ∧ t.dev.reg .PMC_CNT (8 * g.val + k) = 0) ∧
      (∀ i, i / 8 ≠ g.val → t.dev.pmc.shown.get i = s.dev.pmc.shown.get i ∧ t.dev.reg .PMC_CNT i = s.dev.reg .PMC_CNT i) ∧
      t.dev.f PMC_GRP_STAT.WSEQ g.val = (s.dev.f PMC_GRP_STAT.WSEQ g.val + 1) % 2 ^ 24 ∧
      t.dev.fb PMC_GRP_STAT.FROZEN g.val = s.dev.pmc.frozen.get g.val ∧
      (s.dev.fb PMC_GRP_CTRL.WIN_EV g.val = true → t.dev.pend 458 = true) ∧ t.mem = s.mem := by
  obtain ⟨hseq, hfrozen, hev⟩ := Dev.pmcWindow_tells hwf hg ht hn
  have hcnt := Dev.pmcWindow_cnt hwf hg ht hn
  have hshown := Dev.pmcNext_shown hs g.val t0
  refine ⟨s.onDev (·.pmcWindow g.val), rfl, ?_⟩
  simp only [State.onDev_dev, State.onDev_mem, Dev.pmcWindow_pmc hg ht hn, hcnt, hshown]
  refine ⟨Dev.pmcNext_began _ _ _, fun k hk => ?_, fun i hi => ?_, hseq, hfrozen, hev, trivial⟩
  · have hgrp : (8 * g.val + k) / 8 = g.val := by omega
    simp only [hgrp, if_true, and_self]
  · simp only [hi, if_false, and_self]

/-! Software writes (R498). -/

theorem exec_pmcCounterWrite {who : Fn} (hv : ∀ v, who ≠ .vf v) (n : Fin 64) (val : Word) (inc carry : Bool) (s : State) :
    exec (.pmcCounterWrite who n val inc carry) s = .next (s.onDev (pmcCntWrite who n.val val inc carry)) := by
  cases who with
  | vf v => exact absurd rfl (hv v)
  | _ => rfl

/-- A write that its group does not allow only sets WERR. -/
theorem pmcCntWrite_refused {d : Dev} {who : Fn} {i : Nat} (h : d.pmcMayWrite who (i / 8) = false ∨ d.windowed (i / 8) = true) (val : Word)
    (inc carry : Bool) : pmcCntWrite who i val inc carry d = d.setF PMC_GRP_STAT.WERR (i / 8) 1 :=
  if_pos (by simpa using h)

/-- The carry that a coincident increment of a low word would have produced is still propagated. -/
def Dev.pmcCarryOut (d : Dev) (i : Nat) (inc : Bool) : Dev :=
  if inc && d.reg .PMC_CNT i == 0xFFFFFFFF && i % 2 == 0 && d.pmcChained (i + 1) then d.pmcWrap i 1 else d

/-- A carry into a counter that is written is lost, and LOST_CARRY tells of it. -/
def Dev.pmcLoseCarry (d : Dev) (i : Nat) (tell : Bool) : Dev := (d.setFlag64 .PMC_LC_LO .PMC_LC_HI i).raiseIf tell 457

theorem pmcCntWrite_taken {d : Dev} {who : Fn} {i : Nat} (hm : d.pmcMayWrite who (i / 8) = true) (hg : d.windowed (i / 8) = false) (val : Word)
    (inc carry : Bool) : pmcCntWrite who i val inc carry d =
      (if carry && d.pmcChained i then (d.pmcCarryOut i inc).pmcLoseCarry i (d.fb PMC_GRP_CTRL.OVF_EV (i / 8)) else d.pmcCarryOut i inc).setReg
        .PMC_CNT i val :=
  if_neg (by simp [hm, hg])

theorem Dev.pmcCarryOut_regsWf {d : Dev} (i : Nat) (inc : Bool) (hw : d.regsWf = true) : (d.pmcCarryOut i inc).regsWf = true := by
  unfold Dev.pmcCarryOut
  split
  · exact (Reports.pmcWrap d i 1).wf hw
  · exact hw

theorem Dev.pmcLoseCarry_regsWf {d : Dev} (i : Nat) (tell : Bool) (hw : d.regsWf = true) : (d.pmcLoseCarry i tell).regsWf = true :=
  Dev.raiseIf_regsWf _ _ _ (Dev.setFlag64_regsWf _ _ i hw)

theorem Dev.pmcLoseCarry_flag {d : Dev} {i : Nat} (hi : i < 64) (tell : Bool) (hw : d.regsWf = true) :
    (d.pmcLoseCarry i tell).flag64 .PMC_LC_LO .PMC_LC_HI i = true := by
  rw [Dev.pmcLoseCarry, Dev.flag64_congr (Dev.raiseIf_reg_ne _ _ _ _ (by decide) (by decide)) (Dev.raiseIf_reg_ne _ _ _ _ (by decide) (by decide))]
  exact Dev.flag64_setFlag64 _ _ hi hw

/-- A write that its group allows takes effect, whatever coincides with it. -/
theorem pmcCntWrite_taken_cnt {d : Dev} {who : Fn} {i : Nat} (hwf : d.regsWf = true) (hm : d.pmcMayWrite who (i / 8) = true)
    (hg : d.windowed (i / 8) = false) (val : Word) (inc carry : Bool) : (pmcCntWrite who i val inc carry d).reg .PMC_CNT i = val := by
  have hwo := Dev.pmcCarryOut_regsWf i inc hwf
  rw [pmcCntWrite_taken hm hg]
  refine Dev.reg_setReg_same _ _ _ _ ?_
  split
  · exact Dev.pmcLoseCarry_regsWf _ _ hwo
  · exact hwo

theorem pmcCntWrite_taken_lostCarry {d : Dev} {who : Fn} {i : Nat} (hwf : d.regsWf = true) (hi : i < 64) (hm : d.pmcMayWrite who (i / 8) = true)
    (hg : d.windowed (i / 8) = false) (hc : d.pmcChained i = true) (val : Word) (inc : Bool) :
    (pmcCntWrite who i val inc true d).flag64 .PMC_LC_LO .PMC_LC_HI i = true := by
  have hlost : (true && d.pmcChained i) = true := hc
  rw [pmcCntWrite_taken hm hg, if_pos hlost, Dev.flag64_congr (Dev.reg_setReg_reg _ _ _ _ (by decide)) (Dev.reg_setReg_reg _ _ _ _ (by decide))]
  exact Dev.pmcLoseCarry_flag hi _ (Dev.pmcCarryOut_regsWf i inc hwf)

/-- Settles O12: one lemma for an increment of an unchained counter, one for the end of a window, and one for a write that is taken or refused. -/
theorem counterWindowsAndWrites : Obligations.CounterWindowsAndWrites := by
  unfold Obligations.CounterWindowsAndWrites
  intro s hwf
  refine ⟨fun i n d _ hd hhigh hlow => ?_, fun g t0 hg ht hn hs => pmcWindowEnd_shows_counts hwf g hg ht hn hs,
    fun who n val inc carry hv => ⟨fun hm hg => ?_, fun hr => ?_⟩⟩
  · subst hd
    exact ⟨Dev.pmcAdd_alone_cnt hwf ⟨hhigh, hlow⟩ n, Dev.pmcAdd_alone_tells hwf i.isLt ⟨hhigh, hlow⟩⟩
  · refine ⟨_, exec_pmcCounterWrite hv n val inc carry s, pmcCntWrite_taken_cnt hwf hm hg val inc carry, fun hcarry hc => ?_, rfl⟩
    subst hcarry
    exact pmcCntWrite_taken_lostCarry hwf n.isLt hm hg hc val inc
  · refine ⟨_, exec_pmcCounterWrite hv n val inc carry s, ?_⟩
    simp only [State.onDev_dev, State.onDev_mem, pmcCntWrite_refused hr, and_true]
    exact ⟨Dev.reg_setF_reg _ _ _ _ (by decide), Dev.fb_setF_one _ PMC_GRP_STAT.WERR _ (by decide) rfl hwf⟩

end Sys2Proof.Machine
end

section
/-! PROOF. SENSOR_READ where the poison table is not in its canonical form (R62, R63, R557): a write of the buffer that the checks granted beforehand is
refused part-way and logs, and the obligation O57 is refuted. -/

namespace Sys2Proof.Machine

/-! What SENSOR_READ leaves of Acholt. -/

/-- SENSOR_READ that begins runs in the state in which its engine starts. -/
theorem exec_sensorRead_begins {s s0 : State} {f : Fn} {q : Fin 8} {c : Cmd} (h : s.Begins f q c s0) (ho : c.opcode = 0xA0) :
    exec (.sensorRead f q) s = .next (runSensorRead f ⟨qi f q, c.id⟩ c s0) := by
  have hop : ∀ x : Cmd, x.lead = c.lead → x.conts = c.conts → (x.opcode == 0xA0) = true := fun x hx _ => by
    rw [Cmd.opcode_congr hx, ho]
    rfl
  exact congrArg Host.Outcome.next (State.startIf_begins h _ hop _)

/-- The bytes that SENSOR_READ writes (R559). -/
def Dev.sensorBytes (d : Dev) : List Byte := (d.mgt.sensorWindow ++ List.replicate 552 0).take 552

/-- SENSOR_READ whose checks pass and whose lines are all granted leaves of Acholt what its write leaves. -/
theorem runSensorRead_mgt {f : Fn} {c : Cmd} {s : State}
    (hc : firstError (mgtHead f c false (within 40 47) ++ [s.dev.mgtBuf c 552]) = none)
    (hl : s.refusedLine (cmdReq f c) (c.u 40 8) s.dev.sensorBytes.length true = none) (ref : CmdRef) :
    (runSensorRead f ref c s).dev.mgt = (s.writeMem (cmdReq f c) 13 (c.u 40 8) s.dev.sensorBytes).1.dev.mgt := by
  rw [Dev.sensorBytes] at hl ⊢
  simp only [runSensorRead, hc, State.mgtWrite, hl, State.finish, State.onDev_dev, Dev.endCmd_mgt]

/-! The counterexample. -/

/-- SENSOR_READ into the buffer at 0x100000. -/
def relistedCmd : Cmd := { lead := 0xA0 :: List.replicate 39 0 ++ toLe 0x100000 8 ++ List.replicate 16 0 }

/-- Bank 0 migrates to bank 1, so that a write of the word at 0x100000 also reaches the place 0x900000 (R72), which holds the ownership byte of the page
of the buffer. Bank 1 showed an uncorrectable error in the sweep before (R71), and a refusal stands recorded, so that the next is only counted (R90). The
command is next in queue 0 of PF0. -/
def relistedDev : Dev :=
  let d : Dev :=
    { mgt := { phase := .running }, own := { tableBase := 0x8FFF00 }
      msys := { swap := some { src := 0, dst := 1 }, walk := { sweeps := 1, ueSweeps := [(1, 1)], ueLast := [(1, 1)] } } }
  ((d.setQueue (qi (.pf 0) 0) { cmds := [relistedCmd] }).setF HRQ_Q_CFG.TYPE (qi (.pf 0) 0) 7).setF OWN_REFUSE_INFO.VALID 0 1

/-- PF0 owns the page of the buffer. The word of the ownership table is listed as clean once for each of its 8 bytes, and behind that as poisoned: it reads
as clean, and each write of a byte there drops one entry, until the last is uncovered. -/
def relisted : State :=
  { pending := [], dev := relistedDev
    mem := { cells := [(0x900000, 4)], poison := List.replicate 8 (0x900000, false) ++ [(0x900000, true)] } }

/-- The state in which the engine of the command starts. -/
def relistedStart : State := relisted.started (.pf 0) 0 relistedCmd

theorem relisted_bare : relisted.Bare (.pf 0) 0 relistedCmd := by
  refine ⟨relistedCmd, true, ?_⟩
  unfold Dev.Clear
  decide +kernel

theorem relisted_begins : relisted.Begins (.pf 0) 0 relistedCmd relistedStart := Or.inl ⟨relisted_bare, rfl⟩

theorem relisted_canonical : relisted.dev.regsWf = true ∧ relisted.dev.tablesWf = true := by decide +kernel

theorem relistedStart_canonical : relistedStart.dev.regsWf = true ∧ relistedStart.dev.tablesWf = true := by decide +kernel

theorem relistedStart_checks :
    firstError (mgtHead (.pf 0) relistedCmd false (within 40 47) ++ [relistedStart.dev.mgtBuf relistedCmd 552]) = none := by decide +kernel

/-- Before the write every line of the buffer is granted (R87). -/
theorem relistedStart_granted :
    relistedStart.refusedLine (cmdReq (.pf 0) relistedCmd) (relistedCmd.u 40 8) relistedStart.dev.sensorBytes.length true = none := by decide +kernel

/-- The write of the first line uncovers the poison of the ownership byte, so the second line is refused (R63), and the error that the refused check
meets (R62) asks for a spare bank in vain, which is logged (R566). -/
theorem relistedStart_write_logs : relistedStart.dev.mgt.nextSeq = 0 ∧
    (relistedStart.writeMem (cmdReq (.pf 0) relistedCmd) 13 (relistedCmd.u 40 8) relistedStart.dev.sensorBytes).1.dev.mgt.nextSeq = 1 := by
  decide +kernel

/-- Refutes O57: no premise puts the poison table of memory into its canonical form, and from `relisted` SENSOR_READ, every line of whose buffer is granted,
adds an entry to the log, where the statement has the state of Acholt left as it was. -/
theorem not_sensorsAndLogsAreRead : ¬ Obligations.SensorsAndLogsAreRead := by
  unfold Obligations.SensorsAndLogsAreRead
  intro h
  obtain ⟨hreads, -⟩ := h relisted relisted_canonical.1 relisted_canonical.2
  obtain ⟨hgranted, -⟩ := hreads relistedStart (.pf 0) 0 relistedCmd _ (.sensorRead (.pf 0) 0) relistedStart.dev.sensorBytes ST_OK 0 relisted_begins
    relistedStart_canonical.1 relistedStart_canonical.2 rfl (Or.inl ⟨rfl, rfl, relistedStart_checks, rfl, rfl, rfl⟩)
  obtain ⟨t, hexec, -, -, hmgt, -⟩ := hgranted relistedStart_granted
  rw [exec_sensorRead_begins relisted_begins rfl, Host.Outcome.next.injEq] at hexec
  have hwrite := runSensorRead_mgt relistedStart_checks relistedStart_granted ⟨qi (.pf 0) 0, relistedCmd.id⟩
  obtain ⟨hbefore, hafter⟩ := relistedStart_write_logs
  rw [← hwrite, hexec, hmgt, hbefore] at hafter
  exact absurd hafter (by decide)

end Sys2Proof.Machine
end
